-- ==== Sys2Proof/Word.lean ====
section
/-!
DEFINITION. Word.lean: the byte and the 64-bit word of the KC1680 (R2), and nothing else.
-/

namespace Sys2Proof

/-- One byte of memory. -/
abbrev Byte := BitVec 8

/-- A 64-bit word: a register slot, a packet word, a reply word (R2, R615). -/
abbrev Word := BitVec 64

end Sys2Proof
end

