-- ==== Sys2Proof/Syntax.lean ====
section
/-!
DEFINITION. Syntax.lean: the commands of the KC1680, one constructor of `Instr` per row of the opcode table.
An operand is what the row's event carries from outside the block: the path and value of a register access, the
unit an event happens at, the data or the outcome that the environment supplies.
-/

namespace Sys2Proof

/-- The paths over which registers are reached (R58, R183, R617): a physical function's BAR0, the BAR0 of the virtual
function that is a seat, the management core, the secure core, I3C, JTAG. -/
inductive Path
  | pf (p : Nat)
  | vf (seat : Nat)
  | mgt | sec | i3c | jtag
deriving DecidableEq, Repr

/-- The straps sampled when POR_N rises (Table 17.13). -/
structure Straps where
  link : Nat
  sup : Nat
deriving DecidableEq, Repr

/-- What a bell edge brings from outside: the PTM time at the edge on each physical function, whether steps 2 to 7
took more than 4,096 fabric cycles (R62), whether a memory asks for more than four times the nominal refresh
rate (R268), the management core's load in the bell that ends (Table 16.4). -/
structure EdgeIn where
  ptm : List Nat
  late : Bool
  hot : Bool
  mgtBusy : Nat
deriving DecidableEq, Repr

/-- What a period start brings from outside: tiles, as head and tile index, that a fault has slowed past the end of
period 30 (R68), and whether a retraining step met a drift that it cannot correct (R267). -/
structure PeriodIn where
  lateTiles : List (Nat × Nat)
  drift : Bool
deriving DecidableEq, Repr

/-- The kind of a memory access (R194, R234). -/
inductive AccKind
  | read | write | fetch
deriving DecidableEq, Repr

/-- What the host answers to a request of the device (R38, R195): a successful completion, an unsuccessful one, a failed or
forbidding ATS translation. -/
inductive HostAns
  | ok | error | atsFail
deriving DecidableEq, Repr

/-- A memory transaction of a block: the requesting station's page index, the seat on whose behalf it is made (a seat
address then) or none (a device address then), the command that it belongs to, its world (of a unit with a station of its own, the
unit's), its kind, whether it is atomic (R177), address, byte count and write data, and what the world outside answers for it: what
the host answers, and whether a link ECC error was met (0 none, 1 corrected, 2 uncorrectable). -/
structure Txn where
  station : Nat
  seat : Option Nat
  cmd : Option Nat
  secure : Bool
  kind : AccKind
  atomic : Bool
  addr : Nat
  len : Nat
  data : List Byte
  host : HostAns
  linkErr : Nat
deriving DecidableEq, Repr

/-- A primitive that a vertex turn yields after clipping: vertices in 1/256 pixel of the window (3 triangle, 2 line, 1 point), and for
a point that wrote it, PointSize as binary32 (R419, R421). -/
structure Prim where
  verts : List (Int × Int)
  size : Option Nat
deriving DecidableEq, Repr

/-- A fragment that a program produces at a pixel: its draw, pixel position, covered samples, depth of each sample and colours per
attachment as binary32 ([] for an attachment that the program does not write), whether it is front-facing, whether its tests run early,
whether the program discarded it (R420). -/
structure Fragment where
  draw : Nat
  x : Nat
  y : Nat
  cover : Nat
  depth : List Nat
  color : List (List Nat)
  front : Bool
  early : Bool
  discarded : Bool
deriving DecidableEq, Repr

/-- An access of a program through a binding (R429, R430): its draw (0 for a dispatch), DescriptorSet and Binding, the byte offset in a
buffer or the texel of an image, byte count, the bytes that it writes ([] for a read), whether it is atomic. -/
structure ProgAcc where
  draw : Nat
  set : Nat
  binding : Nat
  off : Nat
  texel : Option (Nat × Nat)
  len : Nat
  data : List Byte
  atomic : Bool
deriving DecidableEq, Repr

/-- What a render core reports of a turn that ends: the assembled primitives of a draw, each with its output primitives, and the vertex
output word count; the fragments of a tile in the order of its primitives; the program's accesses; bytes that it read otherwise (R431);
workgroups finished, for a slice that is cut; writes issued whose responses are still owed; what the host answers; errors of the tile
memory (0 none, 1 corrected, 2 uncorrectable). -/
structure TurnIn where
  core : Nat
  prims : List (List Prim)
  outWords : Nat
  frags : List Fragment
  accs : List ProgAcc
  memBytes : Nat
  groups : Nat
  owed : Nat
  host : HostAns
  tileErr : Nat
deriving DecidableEq, Repr

/-- A block as the encoder can code it: its bytes at each quantiser, its bytes as a cut block (R468, R469). -/
structure CodedBlock where
  coded : List (Nat × List Byte)
  cut : List Byte
deriving DecidableEq, Repr

/-- A picture that a pipe finishes. Decoding: whether it is a coded picture (not an AV1 show_existing_frame), the bitstream bytes that it
took, its rows of luma samples and of interleaved chroma samples as the coded data gives them, the block units that syntax errors make
undecodable, the first block unit whose coded data lies beyond a limit, for each block unit the samples it is predicted from (number of the
picture, block unit), its place in output order, whether it is kept as a reference, whether it is to be output, the pictures that cease to be
references, the pictures output now, whether the bitstream ends. Encoding: bytes before the first block, the blocks in raster order. -/
structure PicIn where
  pipe : Nat
  coded : Bool
  bytes : Nat
  luma : List (List Nat)
  chroma : List (List Nat)
  broken : List Nat
  cutFrom : Option Nat
  preds : List (List (Nat × Nat))
  order : Int
  isRef : Bool
  shown : Bool
  unref : List Nat
  outs : List Nat
  ended : Bool
  head : List Byte
  blocks : List CodedBlock
deriving DecidableEq, Repr

/-- The frames of LPCM that a capture port received during a block: its port, whether the data is other than LPCM, the channels of each
frame as samples of 24 bits (R498). -/
structure DpIn where
  port : Nat
  nonpcm : Bool
  frames : List (List Nat)
deriving DecidableEq, Repr

/-- A block of samples: how many, the DP audio received, the inputs whose converters reach lock and those whose source rate has moved by more
than 0.5%, measured rates in hertz, the nodes (256 × bus + input) whose words read as uncorrectable in the Store, what the host answers to the
accesses of streams. -/
structure AudIo where
  n : Nat
  dp : List DpIn
  locks : List Nat
  relocks : List Nat
  rates : List (Nat × Nat)
  nodeErrs : List Nat
  host : HostAns
deriving DecidableEq, Repr

/-- What a link bring-up finds: highest rate code, entries of the SUPPORTED_LINK_RATES table, lanes (encoded), self-refresh (0 none, 1 PSR,
2 PSR with selective update), DSC, MST, the EDID words of the sink of each stream, and whether the training succeeded within 3
attempts (R380, Table 11.12). -/
structure SinkIn where
  rate : Nat
  entries : Nat
  lanes : Nat
  sr : Nat
  dsc : Bool
  mst : Bool
  edids : List (List Word)
  trained : Bool
deriving DecidableEq, Repr

/-- A frame that a capture port receives: encoding, bits per component, colorimetry, range and EOTF as Table 13.3 codes them, active width and
height, instant of its first active line in fabric cycles. -/
structure CapIn where
  enc : Nat
  bpc : Nat
  colorimetry : Nat
  limited : Bool
  eotf : Nat
  w : Nat
  h : Nat
  at_ : Nat
deriving DecidableEq, Repr

/-- The commands of the block. -/
inductive Instr
  | powerOnReset (st : Straps)
  | pinReset (st : Straps) (lowNs : Nat)
  | linkReset (link : Nat)
  | perstRelease (link : Nat)
  | dramTrainingDone (trained : Nat)
  | beylothMeasureDone (ok : Bool)
  | secBootRomStart
  | clockSourceReady (src : Nat)
  | clockMonitorTrip (src : Nat)
  | fallbackTimeout
  | hoscTrimWindow (counted : Nat)
  | clkPllRefWrite (p : Path) (pll : Nat) (v : Word)
  | clkHoscStop (p : Path) (v : Word)
  | clkGateWrite (p : Path) (b : Nat) (v : Word)
  | gateAckTimeout (b : Nat)
  | bellEdge (e : EdgeIn)
  | periodStart (e : PeriodIn)
  | decisionTimeout
  | genlockPulse (at_ high : Nat)
  | bellRefLost (at_ : Nat)
  | bellChangeRequest (p : Path) (v : Word)
  | ttsBellCountLoRead (p : Path)
  | admBusyCountRead (p : Path)
  | doorbellWrite (p : Path) (seat ring : Nat) (v : Word)
  | ringEnable (p : Path) (seat ring : Nat) (v : Word)
  | ringDisable (p : Path) (seat ring : Nat) (v : Word)
  | packetFetch (host : HostAns)
  | admissionDecision (host : HostAns)
  | turnEnd (t : TurnIn)
  | turnCycleLimit (t : TurnIn)
  | envelopeLimitReached (cmd which : Nat)
  | memoryTransactionResponse (t : Txn)
  | stationParityError (st : Nat)
  | arbTimeout (st : Nat)
  | pcieCompletionTimeout (st : Nat) (seat : Option Nat) (cmd : Option Nat)
  | pinReadback
  | commandComplete (cmd : Nat)
  | nop
  | queryCaps
  | setBudget
  | setQuota
  | quotaReclaim (seat : Nat)
  | commit
  | dmaCopy (cmd : Nat)
  | dmaFill (cmd : Nat)
  | dmaBurstResponse (ch : Nat) (host : HostAns)
  | chkAttach
  | chkDetach
  | rndProgramLoad
  | rndProgramUnload
  | programCompileDone (cmd : Nat) (models : List Nat) (kib cause : Nat)
  | rndPassBegin (seat ring : Nat)
  | rndDraw (seat ring : Nat)
  | rndPassEnd (seat ring : Nat)
  | rndDispatch (cmd : Nat) (host : HostAns)
  | cmpCanvasSet
  | cmpLayerSet
  | cmpFlip
  | cmpFlipGroup
  | vdcSessionOpen
  | vdcSessionClose
  | vdcDecode (cmd : Nat)
  | vdcEncode (cmd : Nat)
  | vdcKeyRequest
  | codecPictureBoundary (pic : PicIn)
  | audRoute (cmd : Nat)
  | audStreamOpen
  | audStreamClose
  | audEffect
  | audioBlock (b : AudIo)
  | tdmFrameReceived (port rate : Nat) (slots : List Nat)
  | tdmClockLost
  | audInputLost (n : Nat)
  | audSecRouteWrite (p : Path) (v : Word)
  | tchConfigApply
  | tchConfigSelftest
  | tchConfigRecalibrate
  | tchConfigDisable
  | touchLinkBringup (port id : Nat) (ok : Bool)
  | touchScanStart (port : Nat)
  | touchScanEnd (port : Nat) (ok : Bool) (counts : List Nat)
  | keyForcedRelease (port key : Nat)
  | dozeEntry (port : Nat)
  | dozeApproach (port : Nat)
  | touchLinkRetry (port id : Nat) (ok : Bool)
  | hapEffectLoad (cmd : Nat)
  | hapEffectClear (cmd : Nat)
  | hapPlay (cmd : Nat)
  | hapticFrame (ch volt : Nat)
  | fence (cmd : Nat)
  | signal (cmd : Nat)
  | wait (cmd : Nat)
  | queryStatus
  | queryStatusByTag
  | queryBudget
  | irqMaskWrite (p : Path) (seat : Nat) (v : Word)
  | seatTblReadShadow (p : Path)
  | seatTblReadCommitted (p : Path)
  | seatTblWriteShadow (p : Path)
  | mgtHostReadyGo (p : Path)
  | seatResetGo (p : Path) (v : Word)
  | flr (seat : Nat)
  | vfEnableSet (pf : Nat)
  | vfEnableClear (pf : Nat)
  | seatResetSettle (seat : Nat)
  | seatResetComplete (seat : Nat)
  | transferAbandoned (st : Nat) (seat : Nat) (cmd : Option Nat)
  | dirtyLogSwap (p : Path) (seat : Nat)
  | dirtyLogSwapDone (seat : Nat)
  | secHoGo (p : Path)
  | handoverReset
  | secReserveWrite (p : Path) (store : Bool) (v : Word)
  | secRestartGo (p : Path)
  | secRestartReady (p : Path)
  | secFatalTrap
  | readyLimitExpired
  | mgtExpired
  | secExpired
  | ttsExpired
  | hmnKick (p : Path) (k : Nat) (cfg : Option Word)
  | hmnMgtLoadRead (p : Path)
  | grdApply (p : Path) (n : Nat)
  | grdViolInfoRead (p : Path) (n : Nat)
  | clearCeLog (p : Path) (dmc : Bool)
  | clearUeLog (p : Path) (dmc : Bool)
  | clearCounts (p : Path) (dmc : Bool)
  | rawRead (p : Path) (dmc : Bool)
  | rawWrite (p : Path) (dmc : Bool)
  | checkWrite (p : Path) (dmc : Bool)
  | dramRefresh (channel bank : Nat) (allRows : Bool)
  | rowHammerRefresh (channel bank row : Nat)
  | dmaGo (p : Path) (ch : Nat) (v : Word)
  | dmaAbort (p : Path) (ch : Nat)
  | rndSecqGo (p : Path) (v : Word)
  | rndSecqAbort (p : Path)
  | vdcSecpGo (p : Path) (pipe : Nat) (v : Word)
  | vdcSecpAbort (p : Path) (pipe : Nat)
  | tchSecqGo (p : Path) (port : Nat)
  | hapSecqGo (p : Path) (ch : Nat)
  | headFrameStart (h : Nat)
  | headLineStart (h line : Nat) (late lockstep : Bool)
  | linkWakeDone (port : Nat)
  | hpdRise (port : Nat)
  | hpdFall (port : Nat)
  | irqHpd (port : Nat)
  | sinkLockLoss (port : Nat)
  | linkBringupDone (port : Nat) (sink : SinkIn)
  | captureFrameStart (port : Nat) (f : CapIn)
  | captureFrameComplete (port : Nat) (rows : List (List Nat)) (damaged : List (Nat × Nat))
  | captureLinkLost (port : Nat)
  | captureHpdPulseEnd (port : Nat)
  | capnFramesRead (p : Path) (port : Nat)
  | hdhUnderrunRead (p : Path) (h : Nat)
  | tchnCountRead (p : Path) (port : Nat)
  | hapnCountRead (p : Path) (ch : Nat)
  | fsCountRead (p : Path) (st : Nat)
  | fsInject (p : Path) (st : Nat) (v : Word)
  | fsInjParity (p : Path) (st : Nat)
  | fltPinRelease (p : Path)
  | pwrRequestRun (p : Path)
  | pwrRequestSleep (p : Path)
  | pwrRequestDeepSleep (p : Path)
  | deepSleepEntry
  | pcieWakeRequest
  | deepSleepWakeDone
  | rstChipGo (p : Path) (v : Word)
  | csrWrite (p : Path) (off size : Nat) (v : Word)
  | captureLinkTraining (port rate lanes : Nat) (done : Bool)
  | captureAuxTransaction (port : Nat) (edid : Bool) (addr : Nat)
  | pendingVectorRelease (seat : Nat)
  | busIdleAcknowledgement (b : Nat)
  | grdApplyDone (n : Nat)
  | seatTblCmdDone
  | testCmdDone (dmc : Bool)
  | internalParityError (st cell : Nat)
  | railsComeDown
  | karcenFirmwareStart
  | pcieLinkTrained (link : Nat)
deriving DecidableEq, Repr

end Sys2Proof
end

