-- ==== Sys2Proof/Config.lean ====
section
/-!
DEFINITION. Config.lean: what an implementation fixes and the values that the spec leaves open. A free value is an
opaque constant: nothing can evaluate it, so a claim holds whatever it is.
-/

namespace Sys2Proof.Config

/-- Whether a POR_N pulse of 1 µs to 10 µs gives a pin reset (R588): either may result. Argument: the free counter. -/
opaque porPulse : Nat → Bool

/-- Which of the two values of R288 a byte of an overlapping copy ends holding: true for the value from before the copy.
Arguments: the free counter at the copy's start, the byte's offset. -/
opaque dmaOverlap : Nat → Nat → Bool

/-- Which of the free IDs a session or a stream gets (R448, R499 name no rule). Argument: the free counter. -/
opaque idPick : Nat → Nat

/-- FLT_CAUSE.source after a parity error in a station page, which has no source number (R548, R550). Argument: the free counter. -/
opaque paritySource : Nat → Nat

/-- Which of the values within the bound of R312 an evaluation of a transfer function or a matrix gives. Arguments: the function, its
operands. -/
opaque tfDeviation : Nat → List Nat → Nat

/-- Which way a code is rounded that lies midway between two (R318 names no rule for a tie): true for upward. Argument: the lower code. -/
opaque tieUp : Int → Bool

/-- A byte that a read gives its requester where the read received an error response and no rule says what is used (R334, R352).
Arguments: the free counter, the byte's place. -/
opaque errData : Nat → Nat → BitVec 8

/-- The encoded values outside 0 to 1 have no linear value in Table 9.8: the binary16 number that such a value gives. Arguments: the
transfer function, numerator and denominator of the value. -/
opaque tfOutside : Nat → Int → Nat → Nat

/-- The order in which the scaler adds the products of its taps (R310 names none), as a sort key; whether a product is rounded before it is
added; whether it adds all taps at once (0), rows first (1) or columns first (2). -/
opaque tapKey : Nat → Nat
opaque tapFused : Bool
opaque tapShape : Nat

/-- The order in which the composer fetches the words of a tile (R338 names none), as a sort key. -/
opaque fetchKey : Nat → Nat

/-- The output of a tone curve beyond a PQ level of 1, for which it has no entry (R316). Argument: the bits of the input. -/
opaque curveBeyond : Nat → Nat

/-- What a clamp of the colour path makes of a datum that is not a number (R312 names nothing). -/
opaque nanPixel : Nat

/-- The CRC that core 1 of the Prefect's pair holds for a region once its pixels have disagreed with those of core 0 (R354, R356). Arguments:
the free counter, the region. -/
opaque coreOne : Nat → Nat → Nat

/-- What a latch with valid 0 leaves in CHKu_RESULT and in word 1 of its entry (R555). Argument: the free counter. -/
opaque noResult : Nat → Nat

/-- The six bits of a stored 10-bit sample that Table 9.4 calls ignored, as a capture port or a decoder writes them. Argument: the free
counter. -/
opaque padBits : Nat → Nat

/-- What a byte of the tile memory holds after load DONT_CARE (R414). Arguments: the free counter, the byte's place. -/
opaque tileByte : Nat → Nat → BitVec 8

/-- The stencil of a pixel whose four samples are resolved: R414 names a mean for colours and depth only. Argument: the samples' stencils. -/
opaque stencilMean : List Nat → Nat

/-- What becomes of a datum that is not a number in the render engine (R420 names nothing). Argument: the attachment format, or 16 for a
fragment's depth, 17 for a point's size. -/
opaque rndNan : Nat → Nat

/-- The 10-bit sample that an encoder of 10 bits takes for an 8-bit one (R466 gives no widening). Argument: the 8-bit sample. -/
opaque encWiden : Nat → Nat

/-- The binary32 sample that a converter channel gives (R487 bounds its response and names no filter). Arguments: the input, the place in the
block, the source samples received, the last first. -/
opaque convOut : Nat → Nat → List Nat → Nat

/-- The binary32 sample that the output side of a sink at 48 kHz or 192 kHz gives (R495, R497 name no filter). Arguments: the sink, the bus
samples about the instant. -/
opaque sinkConv : Nat → List Nat → Nat

/-- What an equaliser holds of earlier samples when it is set anew (R491, R493 name nothing), as binary64. Arguments: the free counter, the
place. -/
opaque eqSeed : Nat → Nat → Nat

/-- The code that a sink gets where the bus sample is not a number (R478 names nothing). Argument: the width of the sink. -/
opaque nanSample : Nat → Nat

/-- Which way an integer result is rounded where no rule says how: true for upward. Arguments: the place (1 a haptic sample of R528 and R533,
2 a tracked frequency of R529, 3 a contact position of R516), the lower integer. -/
opaque openRound : Nat → Int → Bool

/-- Which zero crossing of a window of R529 is taken where there are several. Argument: how many there are. -/
opaque crossing : Nat → Nat

/-- What the report says of a slider's position where R521 gives none: the slider is not touched, or the signals of its touched channels
sum to 0. Arguments: the free counter, the slider. -/
opaque sliderPos : Nat → Nat → Nat

end Sys2Proof.Config
end

