-- ==== Sys2Proof/Machine/Bits.lean ====
section
/-!
DEFINITION. Machine/Bits.lean: bit fields, byte order, ceilings and sparse maps, the helpers that the rest of the
model uses. Nothing here knows the hardware.
-/

namespace Sys2Proof.Machine

/-! ### Bit fields -/

/-- Field of `w` bits at `lo` of a number. -/
def nBits (v lo w : Nat) : Nat := (v >>> lo) % 2 ^ w

/-- One bit of a number. -/
def nBit (v i : Nat) : Bool := (v >>> i) % 2 = 1

/-- A number with the field of `w` bits at `lo` replaced by `x` (its low `w` bits). -/
def nSet (v lo w x : Nat) : Nat :=
  v - ((v >>> lo) % 2 ^ w) * 2 ^ lo + (x % 2 ^ w) * 2 ^ lo

/-- Field of a 64-bit word, as a number. -/
def wBits (v : Word) (lo w : Nat) : Nat := nBits v.toNat lo w

/-- One bit of a 64-bit word. -/
def wBit (v : Word) (i : Nat) : Bool := nBit v.toNat i

/-- A 64-bit word with one field replaced. -/
def wSet (v : Word) (lo w x : Nat) : Word := BitVec.ofNat 64 (nSet v.toNat lo w x)

/-- 1 for true, 0 for false. -/
def b2n (b : Bool) : Nat := if b then 1 else 0

/-- Least multiple count: the quotient rounded up; 0 where the divisor is 0. -/
def ceilDiv (a b : Nat) : Nat := if b = 0 then 0 else (a + b - 1) / b

/-- `a - b` modulo `m`, for pointers counted modulo `m`. -/
def subMod (a b m : Nat) : Nat := (a + (m - b % m)) % m

/-- The number a two's-complement field of `w` bits holds. -/
def signed (v w : Nat) : Int := if v % 2 ^ w < 2 ^ (w - 1) then Int.ofNat (v % 2 ^ w) else Int.ofNat (v % 2 ^ w) - 2 ^ w

/-- The `w`-bit two's complement of an integer. -/
def unsigned (i : Int) (w : Nat) : Nat := (i % (2 ^ w : Int)).toNat

/-- Saturation of a count. -/
def satAdd (a b top : Nat) : Nat := min (a + b) top

/-- The largest multiple step: `a` rounded up to a multiple of `m`. -/
def roundUp (a m : Nat) : Nat := ceilDiv a m * m

/-! ### Byte order: little-endian (R2) -/

/-- The `n` bytes of a number, lowest first. -/
def leBytes : Nat → Nat → List Byte
  | 0, _ => []
  | n + 1, v => BitVec.ofNat 8 v :: leBytes n (v / 256)

/-- The number that bytes spell, lowest first. -/
def leNat : List Byte → Nat
  | [] => 0
  | b :: bs => b.toNat + 256 * leNat bs

/-- The 8 bytes of a word. -/
def wordBytes (w : Word) : List Byte := leBytes 8 w.toNat

/-- The word that 8 bytes spell. -/
def bytesWord (bs : List Byte) : Word := BitVec.ofNat 64 (leNat bs)

/-- The 64-bit words of a byte string, in order; a last part of fewer than 8 bytes is filled with zeros above. -/
def bytesWords (bs : List Byte) : List Word :=
  (List.range ((bs.length + 7) / 8)).map fun i => bytesWord ((bs.drop (8 * i)).take 8)

/-! ### Sparse maps: lists of key and value, keys rising, no value equal to the default of its key -/

/-- The value at a key. -/
def mapGet {α : Type} (d : Nat → α) (k : Nat) : List (Nat × α) → α
  | [] => d k
  | (k', v) :: m => if k = k' then v else mapGet d k m

/-- A sparse map with the value at one key replaced; a default value leaves no entry. -/
def mapPut {α : Type} [DecidableEq α] (d : Nat → α) (k : Nat) (v : α) : List (Nat × α) → List (Nat × α)
  | [] => if v = d k then [] else [(k, v)]
  | (k', v') :: m =>
    if k < k' then (if v = d k then (k', v') :: m else (k, v) :: (k', v') :: m)
    else if k = k' then (if v = d k then m else (k, v) :: m)
    else (k', v') :: mapPut d k v m

/-- Keys rise strictly above a bound and no entry holds its default. -/
def mapAbove {α : Type} [DecidableEq α] (d : Nat → α) : Nat → List (Nat × α) → Bool
  | _, [] => true
  | b, (k, v) :: m => decide (b ≤ k) && decide (v ≠ d k) && mapAbove d (k + 1) m

/-- The canonical form of a sparse map. -/
def mapWf {α : Type} [DecidableEq α] (d : Nat → α) (m : List (Nat × α)) : Bool := mapAbove d 0 m

/-- A list with the element at an index replaced (unchanged where there is none). -/
def listSet {α : Type} : List α → Nat → α → List α
  | [], _, _ => []
  | _ :: xs, 0, v => v :: xs
  | x :: xs, i + 1, v => x :: listSet xs i v

/-- A list with the elements that satisfy `p` changed by `f`. -/
def mapIf {α : Type} (p : α → Bool) (f : α → α) (xs : List α) : List α := xs.map fun x => if p x then f x else x

/-- The sum of a function over a list. -/
def sumOn {α : Type} (xs : List α) (f : α → Nat) : Nat := xs.foldl (fun a x => a + f x) 0

/-- `s, s + 1, …`, `n` of them. -/
def rangeFrom (s n : Nat) : List Nat := (List.range n).map (s + ·)

/-- The set bits of a mask below `n`, ascending. -/
def bitsOf (n m : Nat) : List Nat := (List.range n).filter (nBit m)

/-- The element of a list with the least value of a measure, the first on ties. -/
def leastBy {α : Type} (f : α → Nat) : List α → Option α
  | [] => none
  | x :: xs =>
    match leastBy f xs with
    | none => some x
    | some y => if f x ≤ f y then some x else some y

/-- Insertion of an element into a list sorted by a measure, after those of equal measure. -/
def insertBy {α : Type} (f : α → Nat) (x : α) : List α → List α
  | [] => [x]
  | y :: ys => if f x < f y then x :: y :: ys else y :: insertBy f x ys

/-- A list sorted by a measure, stable. -/
def sortBy {α : Type} (f : α → Nat) (xs : List α) : List α := xs.foldl (fun acc x => insertBy f x acc) []

end Sys2Proof.Machine
end

