-- ==== Sys2Proof/Machine/Float.lean ====
section
/-!
DEFINITION. Machine/Float.lean: binary16, binary32 and binary64 as exact numbers with rounding to nearest even, and the
fixed-point codes of pixels (R306, R312, R420, R476). A result of zero is +0: −0 equals it in every rule (R641).
-/

namespace Sys2Proof.Machine

/-- A floating-point datum: a number, an infinity (negative or not), not a number. -/
inductive Fp
  | num (r : Rat)
  | inf (neg : Bool)
  | nan
deriving DecidableEq, Repr

/-- A binary format: exponent bits, fraction bits. -/
structure Fmt where
  eb : Nat
  mb : Nat
deriving DecidableEq, Repr

/-- binary16. -/
def f16 : Fmt := ⟨5, 10⟩
/-- binary32. -/
def f32 : Fmt := ⟨8, 23⟩
/-- binary64. -/
def f64 : Fmt := ⟨11, 52⟩

/-- Exponent bias. -/
def Fmt.bias (f : Fmt) : Int := 2 ^ (f.eb - 1) - 1

/-- 2 to an integer power. -/
def pow2 (e : Int) : Rat := if 0 ≤ e then ((2 ^ e.toNat : Nat) : Rat) else 1 / ((2 ^ (-e).toNat : Nat) : Rat)

/-- Nearest integer, ties to even. -/
def roundEven (r : Rat) : Int :=
  let f := r.floor
  let d := r - f
  if d < 1 / 2 then f else if 1 / 2 < d then f + 1 else if f % 2 = 0 then f else f + 1

/-- Nearest integer; which way a half goes is a free value. -/
def roundNear (r : Rat) : Int :=
  let f := r.floor
  let d := r - f
  if d < 1 / 2 then f else if 1 / 2 < d then f + 1 else if Config.tieUp f then f + 1 else f

/-- An integer next to a number where no rule says which way it is rounded: which one is a free value of the place. -/
def openInt (place : Nat) (r : Rat) : Int := if r = r.floor then r.floor else if Config.openRound place r.floor then r.floor + 1 else r.floor

/-- Absolute value. -/
def absR (r : Rat) : Rat := if r < 0 then -r else r

/-- Exponent of a positive number: the greatest e with 2^e not above it. -/
def exponentOf (r : Rat) : Int :=
  let e : Int := (Nat.log2 r.num.natAbs : Int) - (Nat.log2 r.den : Int)
  if r < pow2 e then e - 1 else e

/-- Round a number to a format: to nearest, ties to even; overflow goes to infinity. -/
def Fmt.roundR (f : Fmt) (r : Rat) : Fp :=
  if r = 0 then .num 0
  else
    let e := max (exponentOf (absR r)) (1 - f.bias)
    let q := pow2 (e - f.mb)
    let v := (roundEven (absR r / q) : Rat) * q
    if pow2 (f.bias + 1) ≤ v then .inf (r < 0) else .num (if r < 0 then -v else v)

/-- Round a datum to a format. -/
def Fmt.round (f : Fmt) : Fp → Fp
  | .num r => f.roundR r
  | x => x

/-- The datum that bits of a format spell. -/
def Fmt.ofBits (f : Fmt) (v : Nat) : Fp :=
  let m := nBits v 0 f.mb
  let e := nBits v f.mb f.eb
  let neg := nBit v (f.eb + f.mb)
  if e = 2 ^ f.eb - 1 then (if m = 0 then .inf neg else .nan)
  else
    let a : Rat := if e = 0 then (m : Rat) * pow2 (1 - f.bias - f.mb) else ((2 ^ f.mb + m : Nat) : Rat) * pow2 (e - f.bias - f.mb)
    .num (if neg then -a else a)

/-- The bits of a datum that lies in the format. -/
def Fmt.toBits (f : Fmt) : Fp → Nat
  | .nan => (2 ^ f.eb - 1) * 2 ^ f.mb + 2 ^ (f.mb - 1)
  | .inf neg => (2 ^ f.eb - 1) * 2 ^ f.mb + b2n neg * 2 ^ (f.eb + f.mb)
  | .num r =>
    if r = 0 then 0
    else
      let e := max (exponentOf (absR r)) (1 - f.bias)
      let m := (absR r / pow2 (e - f.mb)).floor.toNat
      let body := if m < 2 ^ f.mb then m else m - 2 ^ f.mb + (e + f.bias).toNat * 2 ^ f.mb
      body + b2n (r < 0) * 2 ^ (f.eb + f.mb)

/-- Exact sum. -/
def Fp.add : Fp → Fp → Fp
  | .num a, .num b => .num (a + b)
  | .inf a, .inf b => if a = b then .inf a else .nan
  | .inf a, .num _ => .inf a
  | .num _, .inf b => .inf b
  | _, _ => .nan

/-- Negation. -/
def Fp.neg : Fp → Fp
  | .num a => .num (-a)
  | .inf a => .inf (!a)
  | .nan => .nan

/-- Exact product. -/
def Fp.mul : Fp → Fp → Fp
  | .num a, .num b => .num (a * b)
  | .inf a, .inf b => .inf (a != b)
  | .inf a, .num b => if b = 0 then .nan else .inf (a != decide (b < 0))
  | .num a, .inf b => if a = 0 then .nan else .inf (b != decide (a < 0))
  | _, _ => .nan

/-- Exact quotient. -/
def Fp.div : Fp → Fp → Fp
  | .num a, .num b => if b = 0 then (if a = 0 then .nan else .inf (a < 0)) else .num (a / b)
  | .inf a, .num b => .inf (a != decide (b < 0))
  | .num _, .inf _ => .num 0
  | _, _ => .nan

/-- Less than; false where either is not a number. -/
def Fp.lt : Fp → Fp → Bool
  | .num a, .num b => a < b
  | .inf true, .num _ => true
  | .num _, .inf false => true
  | .inf true, .inf false => true
  | _, _ => false

/-- Sum, product, difference and quotient rounded to a format. -/
def Fmt.add (f : Fmt) (a b : Fp) : Fp := f.round (a.add b)
/-- Rounded product. -/
def Fmt.mul (f : Fmt) (a b : Fp) : Fp := f.round (a.mul b)
/-- Rounded difference. -/
def Fmt.sub (f : Fmt) (a b : Fp) : Fp := f.round (a.add b.neg)
/-- Rounded quotient. -/
def Fmt.div (f : Fmt) (a b : Fp) : Fp := f.round (a.div b)

/-- Clamp to an interval; `n` stands for a datum that is not a number. -/
def Fp.clamp (lo hi n : Rat) : Fp → Rat
  | .num r => if r < lo then lo else if hi < r then hi else r
  | .inf neg => if neg then lo else hi
  | .nan => n

/-- The code of `n` bits of a number from 0 to 1: nearest (R318). -/
def unormCode (n : Nat) (r : Rat) : Nat := (roundNear (r * ((2 ^ n - 1 : Nat) : Rat))).toNat

/-- The code of `n` bits of a number from 0 to 1: nearest, halves upward (R420). -/
def unormUp (n : Nat) (r : Rat) : Nat := ((r * ((2 ^ n - 1 : Nat) : Rat) + 1 / 2).floor).toNat

/-- The number that an unsigned normalised code of `n` bits stands for (R306). -/
def unormVal (n v : Nat) : Rat := (v : Rat) / ((2 ^ n - 1 : Nat) : Rat)

end Sys2Proof.Machine
end

