-- ==== Sys2Proof/Machine/Crc.lean ====
section
/-!
DEFINITION. Machine/Crc.lean: the CRCs that the manual names (Table 16.7, R553), the CRC-8 of the Parua Link, and the
SECDED code of the Store and of inline ECC (R249, R250).
-/

namespace Sys2Proof.Machine

/-- One bit of a reflected CRC register. -/
def crcBitR (poly r : Nat) : Nat := if r % 2 = 1 then (r / 2) ^^^ poly else r / 2

/-- One bit of an unreflected CRC register of `w` bits. -/
def crcBitL (w poly r : Nat) : Nat :=
  if nBit r (w - 1) then ((r * 2) % 2 ^ w) ^^^ poly else (r * 2) % 2 ^ w

/-- One byte, least significant bit first. -/
def crcByteR (poly r : Nat) (b : Byte) : Nat := (List.range 8).foldl (fun r _ => crcBitR poly r) (r ^^^ b.toNat)

/-- One byte, most significant bit first. -/
def crcByteL (w poly r : Nat) (b : Byte) : Nat :=
  (List.range 8).foldl (fun r _ => crcBitL w poly r) (r ^^^ (b.toNat * 2 ^ (w - 8)))

/-- Initial register of a polynomial code (Table 16.7). -/
def crcInit (p : Nat) : Nat := if p = 3 then 0 else if p = 2 then 0xFFFF else 0xFFFFFFFF

/-- A CRC register after some bytes. -/
def crcFeed (p r : Nat) (bs : List Byte) : Nat :=
  if p = 0 then bs.foldl (crcByteR 0xEDB88320) r
  else if p = 1 then bs.foldl (crcByteR 0x82F63B78) r
  else if p = 2 then bs.foldl (crcByteL 16 0x1021) r
  else bs.foldl (crcByteL 64 0x42F0E1EBA9EA3693) r

/-- The CRC that a register holds: the final XOR applied. -/
def crcFinal (p r : Nat) : Nat := if p ≤ 1 then r ^^^ 0xFFFFFFFF else r

/-- The CRC of a byte string under a polynomial code. -/
def crcOf (p : Nat) (bs : List Byte) : Nat := crcFinal p (crcFeed p (crcInit p) bs)

/-! ### SECDED -/

/-- Position of each data bit: the positions 3 to 71 that are no powers of two, ascending (R249). -/
def secdedPos : List Nat := (rangeFrom 3 69).filter fun p => !([4, 8, 16, 32, 64].contains p)

/-- Check bits c0 to c6 of a data word. -/
def secdedLow (d : Word) : Nat :=
  ((List.range 64).zip secdedPos).foldl (fun c ip => if wBit d ip.1 then c ^^^ ip.2 else c) 0

/-- Parity of the low `n` bits of a number. -/
def parityOf (n v : Nat) : Bool := ((List.range n).filter (nBit v)).length % 2 = 1

/-- The 8 check bits of a data word: c7 makes the XOR of all 72 stored bits 0. -/
def secdedCode (d : Word) : Byte :=
  BitVec.ofNat 8 (secdedLow d + 128 * b2n (parityOf 64 d.toNat != parityOf 7 (secdedLow d)))

/-- Outcomes of a check (Table 8.3). -/
inductive EccOut
  | clean | corrected (d : Word) (syn : Nat) | bad (syn : Nat)
deriving DecidableEq, Repr

/-- Decoding of a stored word and its stored check bits (R250). -/
def secdedCheck (d : Word) (c : Byte) : EccOut :=
  let s := secdedLow d ^^^ (c.toNat % 128)
  let p := parityOf 64 d.toNat != parityOf 8 c.toNat
  let syn := s + 128 * b2n p
  if s = 0 && !p then .clean
  else if p && s ≤ 71 then
    match ((List.range 64).zip secdedPos).find? fun ip => ip.2 = s with
    | some ip => .corrected (d ^^^ BitVec.ofNat 64 (2 ^ ip.1)) syn
    | none => .corrected d syn
  else .bad syn

end Sys2Proof.Machine
end

