-- ==== Sys2Proof/Machine/RegMap.lean ====
section
/-!
DEFINITION. Machine/RegMap.lean: the CSR offset of every register (Tables 19.2, 19.3, 19.6 to 19.11,
R614 to R625), one definition per register; an instance is an argument.
-/

namespace Sys2Proof.Machine.Reg

/-- MGT_CHIP_ID. -/
def mgtChipId : Nat := 0x0
/-- MGT_HOST_READY. -/
def mgtHostReady : Nat := 0x8
/-- MGT_CAP0. -/
def mgtCap0 : Nat := 0x100
/-- MGT_CAP1. -/
def mgtCap1 : Nat := 0x108
/-- MGT_CAP2. -/
def mgtCap2 : Nat := 0x110
/-- MGT_CAP3. -/
def mgtCap3 : Nat := 0x118
/-- ADM_CTRL. -/
def admCtrl : Nat := 0x20000
/-- ADM_QUEUE. -/
def admQueue : Nat := 0x20008
/-- ADM_BUSY_COUNT. -/
def admBusyCount : Nat := 0x20010
/-- ADM_CAPn. -/
def admCap (n : Nat) : Nat := 0x20100 + 0x8 * n
/-- ADM_FREEn. -/
def admFree (n : Nat) : Nat := 0x20180 + 0x8 * n
/-- TTS_BELL_NEXT. -/
def ttsBellNext : Nat := 0x30000
/-- TTS_BELL_RATE_NEXT. -/
def ttsRateNext : Nat := 0x30008
/-- TTS_BELL_PHASE_NEXT. -/
def ttsPhaseNext : Nat := 0x30010
/-- TTS_BELL_CTRL. -/
def ttsCtrl : Nat := 0x30018
/-- TTS_BELL_CHANGE. -/
def ttsChange : Nat := 0x30020
/-- TTS_BELL_STATUS. -/
def ttsStatus : Nat := 0x30028
/-- TTS_BELL_LENGTH. -/
def ttsLength : Nat := 0x30030
/-- TTS_BELL_COUNT_LO. -/
def ttsCountLo : Nat := 0x30038
/-- TTS_BELL_COUNT_HI. -/
def ttsCountHi : Nat := 0x30040
/-- TTS_BELL_PTM_LO. -/
def ttsPtmLo : Nat := 0x30048
/-- TTS_BELL_PTM_HI. -/
def ttsPtmHi : Nat := 0x30050
/-- TTS_SYNC_CNTn. -/
def ttsSyncCnt (n : Nat) : Nat := 0x38000 + 0x8 * n
/-- SEAT_GLOBAL_CTRL. -/
def seatGlobalCtrl : Nat := 0x40000
/-- SEAT_RESET. -/
def seatReset : Nat := 0x40008
/-- SEAT_TBL_ADDR. -/
def seatTblAddr : Nat := 0x40010
/-- SEAT_TBL_CMD. -/
def seatTblCmd : Nat := 0x40018
/-- SEAT_TBL_DATA. -/
def seatTblData (n : Nat) : Nat := 0x40020 + 0x8 * n
/-- SEAT_VFMAPp. -/
def seatVfmap (n : Nat) : Nat := 0x40040 + 0x8 * n
/-- SEC_STATE. -/
def secState : Nat := 0x50000
/-- SEC_RESTART. -/
def secRestart : Nat := 0x50008
/-- SEC_HO_CTRL. -/
def secHoCtrl : Nat := 0x50010
/-- SEC_HO_STATUS. -/
def secHoStatus : Nat := 0x50018
/-- SEC_HO_EDGE. -/
def secHoEdge : Nat := 0x50020
/-- SEC_RESERVE_DRAM. -/
def secReserveDram : Nat := 0x50028
/-- SEC_RESERVE_STORE. -/
def secReserveStore : Nat := 0x50030
/-- SEC_RESERVE_STATUS. -/
def secReserveStatus : Nat := 0x50038
/-- SEC_SECEVT_HEAD. -/
def secEvtHead : Nat := 0x50040
/-- SEC_WORLD_MAPk. -/
def secWorldMap (n : Nat) : Nat := 0x50100 + 0x8 * n
/-- SEC_HO_TARGETk. -/
def secHoTarget (n : Nat) : Nat := 0x50140 + 0x8 * n
/-- SEC_SECEVTi. -/
def secEvt (n : Nat) : Nat := 0x50200 + 0x8 * n
/-- SEC_SEATSET. -/
def secSeatSet (n : Nat) (m : Nat) : Nat := 0x50400 + 0x40 * n + 0x8 * m
/-- HMN_WDk_CFG. -/
def hmnCfg (n : Nat) : Nat := 0x60000 + 0x10 * n
/-- HMN_WDk_KICK. -/
def hmnKick (n : Nat) : Nat := 0x60008 + 0x10 * n
/-- HMN_MGT_LOAD. -/
def hmnMgtLoad : Nat := 0x60040
/-- CLK_SRC_STATUS. -/
def clkSrcStatus : Nat := 0x70000
/-- CLK_HOSC_CTRL. -/
def clkHosc : Nat := 0x70008
/-- CLK_PLLp_CTRL. -/
def clkPllCtrl (n : Nat) : Nat := 0x70100 + 0x10 * n
/-- CLK_PLLp_STATUS. -/
def clkPllStatus (n : Nat) : Nat := 0x70108 + 0x10 * n
/-- CLK_GATEb. -/
def clkGate (n : Nat) : Nat := 0x70800 + 0x8 * n
/-- RST_CHIP. -/
def rstChip : Nat := 0x80000
/-- RST_CAUSE. -/
def rstCause : Nat := 0x80008
/-- PWR_CTRL. -/
def pwrCtrl : Nat := 0x90000
/-- PWR_STATUS. -/
def pwrStatus : Nat := 0x90008
/-- FLT_PIN. -/
def fltPin : Nat := 0xa0000
/-- FLT_CAUSE. -/
def fltCause : Nat := 0xa0008
/-- RND_CLK. -/
def rndClk : Nat := 0x100000
/-- RND_POOL_FREE. -/
def rndPoolFree : Nat := 0x100008
/-- RND_TL_POOL_BASE. -/
def rndTlBase : Nat := 0x100010
/-- RND_TL_POOL_LIMIT. -/
def rndTlLimit : Nat := 0x100018
/-- RND_PROG_POOL_BASE. -/
def rndProgBase : Nat := 0x100020
/-- RND_PROG_POOL_LIMIT. -/
def rndProgLimit : Nat := 0x100028
/-- RND_QUEUEq_CFG. -/
def rndQueueCfg (n : Nat) : Nat := 0x100100 + 0x8 * n
/-- RND_SECQ_BASE. -/
def rndSecqBase : Nat := 0x100200
/-- RND_SECQ_PROG. -/
def rndSecqProg : Nat := 0x100208
/-- RND_SECQ_TL. -/
def rndSecqTl : Nat := 0x100210
/-- RND_SECQ_CTRL. -/
def rndSecqCtrl : Nat := 0x100218
/-- RND_SECQ_STATUS. -/
def rndSecqStatus : Nat := 0x100220
/-- CMP_POOL_BASE. -/
def cmpPoolBase : Nat := 0x200000
/-- CMP_POOL_LIMIT. -/
def cmpPoolLimit : Nat := 0x200008
/-- CMP_POOL_FREE. -/
def cmpPoolFree : Nat := 0x200010
/-- CMP_HDh_TILES. -/
def cmpTiles (n : Nat) : Nat := 0x200100 + 0x10 * n
/-- CMP_HDh_CUT. -/
def cmpCut (n : Nat) : Nat := 0x200108 + 0x10 * n
/-- RLC_LAYERl_STATE. -/
def rlcLayer (n : Nat) : Nat := 0x210000 + 0x8 * n
/-- RLC_CRITc_STATE. -/
def rlcCrit (n : Nat) : Nat := 0x211000 + 0x8 * n
/-- PRF_CTRL. -/
def prfCtrl : Nat := 0x220000
/-- PRF_HDh_CFG. -/
def prfCfg (n : Nat) : Nat := 0x220100 + 0x10 * n
/-- PRF_HDh_STATUS. -/
def prfStatus (n : Nat) : Nat := 0x220108 + 0x10 * n
/-- HDh_TIMING_H. -/
def hdTimingH (n : Nat) : Nat := 0x240000 + 0x100 * n
/-- HDh_TIMING_V. -/
def hdTimingV (n : Nat) : Nat := 0x240008 + 0x100 * n
/-- HDh_FRAME. -/
def hdFrame (n : Nat) : Nat := 0x240010 + 0x100 * n
/-- HDh_STATUS. -/
def hdStatus (n : Nat) : Nat := 0x240018 + 0x100 * n
/-- HDh_QUIET. -/
def hdQuiet (n : Nat) : Nat := 0x240020 + 0x100 * n
/-- HDh_EVENT. -/
def hdEvent (n : Nat) : Nat := 0x240028 + 0x100 * n
/-- HDh_EVENT_EN. -/
def hdEventEn (n : Nat) : Nat := 0x240030 + 0x100 * n
/-- HDh_LINE_MATCH. -/
def hdLineMatch (n : Nat) : Nat := 0x240038 + 0x100 * n
/-- HDh_UNDERRUN. -/
def hdUnderrun (n : Nat) : Nat := 0x240040 + 0x100 * n
/-- HDh_COLORS. -/
def hdColors (n : Nat) : Nat := 0x240048 + 0x100 * n
/-- HDh_TALLY. -/
def hdTally (n : Nat) : Nat := 0x240050 + 0x100 * n
/-- CAPn_CFG. -/
def capCfg (n : Nat) : Nat := 0x250000 + 0x400 * n
/-- CAPn_GEOM. -/
def capGeom (n : Nat) : Nat := 0x250008 + 0x400 * n
/-- CAPn_RING. -/
def capRing (n : Nat) : Nat := 0x250010 + 0x400 * n
/-- CAPn_STATUS. -/
def capStatus (n : Nat) : Nat := 0x250018 + 0x400 * n
/-- CAPn_FRAMES. -/
def capFrames (n : Nat) : Nat := 0x250020 + 0x400 * n
/-- CAPn_PERIOD. -/
def capPeriod (n : Nat) : Nat := 0x250028 + 0x400 * n
/-- CAPn_EDIDj. -/
def capEdid (n : Nat) (m : Nat) : Nat := 0x250200 + 0x400 * n + 0x8 * m
/-- CHKu_CFG. -/
def chkCfg (n : Nat) : Nat := 0x260000 + 0x20 * n
/-- CHKu_RESULT. -/
def chkResult (n : Nat) : Nat := 0x260008 + 0x20 * n
/-- CHKu_RINFO. -/
def chkRinfo (n : Nat) : Nat := 0x260010 + 0x20 * n
/-- VDC_SECPp_BASE. -/
def vdcBase (n : Nat) : Nat := 0x300000 + 0x20 * n
/-- VDC_SECPp_CTRL. -/
def vdcCtrl (n : Nat) : Nat := 0x300008 + 0x20 * n
/-- VDC_SECPp_STATUS. -/
def vdcStatus (n : Nat) : Nat := 0x300010 + 0x20 * n
/-- AUD_CLK. -/
def audClk : Nat := 0x310000
/-- AUD_DP_RATE96. -/
def audDpRate96 : Nat := 0x310008
/-- AUD_SEC_ROUTE. -/
def audSecRoute : Nat := 0x310010
/-- AUD_TDMp_CFG. -/
def audTdmCfg (n : Nat) : Nat := 0x310100 + 0x20 * n
/-- AUD_TDMp_OUTMAP0. -/
def audTdmOut0 (n : Nat) : Nat := 0x310108 + 0x20 * n
/-- AUD_TDMp_OUTMAP1. -/
def audTdmOut1 (n : Nat) : Nat := 0x310110 + 0x20 * n
/-- AUD_TDMp_STATUS. -/
def audTdmStatus (n : Nat) : Nat := 0x310118 + 0x20 * n
/-- AUD_DPTn_SiMAP. -/
def audDptMap (n : Nat) (m : Nat) : Nat := 0x310200 + 0x20 * n + 0x8 * m
/-- AUD_BUSb_OWNER. -/
def audBusOwner (n : Nat) : Nat := 0x310800 + 0x8 * n
/-- AUD_INi_STATUS. -/
def audIn (n : Nat) : Nat := 0x311000 + 0x8 * n
/-- TCHn_LINK. -/
def tchLink (n : Nat) : Nat := 0x320000 + 0x100 * n
/-- TCHn_STATUS. -/
def tchStatus (n : Nat) : Nat := 0x320008 + 0x100 * n
/-- TCHn_TEST. -/
def tchTest (n : Nat) : Nat := 0x320010 + 0x100 * n
/-- TCHn_COUNT. -/
def tchCount (n : Nat) : Nat := 0x320018 + 0x100 * n
/-- HAPn_CFG. -/
def hapCfg (n : Nat) : Nat := 0x330000 + 0x100 * n
/-- HAPn_STATUS. -/
def hapStatus (n : Nat) : Nat := 0x330008 + 0x100 * n
/-- HAPn_COUNT. -/
def hapCount (n : Nat) : Nat := 0x330010 + 0x100 * n
/-- TCHn_SECQ_BASE. -/
def tchSecqBase (n : Nat) : Nat := 0x320040 + 0x100 * n
/-- TCHn_SECQ_CTRL. -/
def tchSecqCtrl (n : Nat) : Nat := 0x320048 + 0x100 * n
/-- TCHn_SECQ_STATUS. -/
def tchSecqStatus (n : Nat) : Nat := 0x320050 + 0x100 * n
/-- HAPn_SECQ_BASE. -/
def hapSecqBase (n : Nat) : Nat := 0x330040 + 0x100 * n
/-- HAPn_SECQ_CTRL. -/
def hapSecqCtrl (n : Nat) : Nat := 0x330048 + 0x100 * n
/-- HAPn_SECQ_STATUS. -/
def hapSecqStatus (n : Nat) : Nat := 0x330050 + 0x100 * n
/-- STO_ECC_CTRL. -/
def stoEccCtrl : Nat := 0x400000
/-- STO_UE_HEAD. -/
def stoUeHead : Nat := 0x400008
/-- STO_TEST_ADDR. -/
def stoTestAddr : Nat := 0x400010
/-- STO_TEST_DATA. -/
def stoTestData : Nat := 0x400018
/-- STO_TEST_CHECK. -/
def stoTestCheck : Nat := 0x400020
/-- STO_TEST_CMD. -/
def stoTestCmd : Nat := 0x400028
/-- STO_CE_LOGi_ADDR. -/
def stoCeLogAddr (n : Nat) : Nat := 0x400400 + 0x10 * n
/-- STO_CE_LOGi_INFO. -/
def stoCeLogInfo (n : Nat) : Nat := 0x400408 + 0x10 * n
/-- STO_UE_LOGi_ADDR. -/
def stoUeLogAddr (n : Nat) : Nat := 0x400500 + 0x10 * n
/-- STO_UE_LOGi_INFO. -/
def stoUeLogInfo (n : Nat) : Nat := 0x400508 + 0x10 * n
/-- DMC_ECC_CTRL. -/
def dmcEccCtrl : Nat := 0x410000
/-- DMC_UE_HEAD. -/
def dmcUeHead : Nat := 0x410008
/-- DMC_TEST_ADDR. -/
def dmcTestAddr : Nat := 0x410010
/-- DMC_TEST_DATA. -/
def dmcTestData : Nat := 0x410018
/-- DMC_TEST_CHECK. -/
def dmcTestCheck : Nat := 0x410020
/-- DMC_TEST_CMD. -/
def dmcTestCmd : Nat := 0x410028
/-- DMC_CE_LOGi_ADDR. -/
def dmcCeLogAddr (n : Nat) : Nat := 0x410400 + 0x10 * n
/-- DMC_CE_LOGi_INFO. -/
def dmcCeLogInfo (n : Nat) : Nat := 0x410408 + 0x10 * n
/-- DMC_UE_LOGi_ADDR. -/
def dmcUeLogAddr (n : Nat) : Nat := 0x410500 + 0x10 * n
/-- DMC_UE_LOGi_INFO. -/
def dmcUeLogInfo (n : Nat) : Nat := 0x410508 + 0x10 * n
/-- STO_CE_COUNTb. -/
def stoCeCount (n : Nat) : Nat := 0x400100 + 0x8 * n
/-- DMC_CHnn_ERR. -/
def dmcChErr (n : Nat) : Nat := 0x410100 + 0x8 * n
/-- DMC_CFG. -/
def dmcCfg : Nat := 0x410030
/-- DMC_TRAIN_STATUS. -/
def dmcTrainStatus : Nat := 0x410038
/-- DMC_RH_CFG. -/
def dmcRhCfg : Nat := 0x410040
/-- DMC_IECCr_BASE. -/
def dmcIeccBase (n : Nat) : Nat := 0x410600 + 0x20 * n
/-- DMC_IECCr_LIMIT. -/
def dmcIeccLimit (n : Nat) : Nat := 0x410608 + 0x20 * n
/-- DMC_IECCr_CARVE. -/
def dmcIeccCarve (n : Nat) : Nat := 0x410610 + 0x20 * n
/-- GRDn_RGNm_BASE. -/
def grdBase (n : Nat) (m : Nat) : Nat := 0x420000 + 0x1000 * n + 0x20 * m
/-- GRDn_RGNm_LIMIT. -/
def grdLimit (n : Nat) (m : Nat) : Nat := 0x420008 + 0x1000 * n + 0x20 * m
/-- GRDn_RGNm_ATTR. -/
def grdAttr (n : Nat) (m : Nat) : Nat := 0x420010 + 0x1000 * n + 0x20 * m
/-- GRDn_CTRL. -/
def grdCtrl (n : Nat) : Nat := 0x420800 + 0x1000 * n
/-- GRDn_VIOL_ADDR. -/
def grdViolAddr (n : Nat) : Nat := 0x420808 + 0x1000 * n
/-- GRDn_VIOL_INFO. -/
def grdViolInfo (n : Nat) : Nat := 0x420810 + 0x1000 * n
/-- DMAk_SRC. -/
def dmaSrc (n : Nat) : Nat := 0x440000 + 0x40 * n
/-- DMAk_DST. -/
def dmaDst (n : Nat) : Nat := 0x440008 + 0x40 * n
/-- DMAk_PATTERN. -/
def dmaPattern (n : Nat) : Nat := 0x440010 + 0x40 * n
/-- DMAk_CTRL. -/
def dmaCtrl (n : Nat) : Nat := 0x440018 + 0x40 * n
/-- DMAk_STATUS. -/
def dmaStatus (n : Nat) : Nat := 0x440020 + 0x40 * n
/-- DPTn_CFG. -/
def dptCfg (n : Nat) : Nat := 0x510000 + 0x1000 * n
/-- DPTn_STATUS. -/
def dptStatus (n : Nat) : Nat := 0x510008 + 0x1000 * n
/-- DPTn_STREAMi. -/
def dptStream (n : Nat) (m : Nat) : Nat := 0x510010 + 0x1000 * n + 0x8 * m
/-- DPTn_SINKi_EDIDj. -/
def dptEdid (n : Nat) (m : Nat) (j : Nat) : Nat := 0x510800 + 0x1000 * n + 0x200 * m + 0x8 * j
/-- XXX_FS_STATUS. -/
def fsStatus (n : Nat) : Nat := 0x600000 + 0x100 * n
/-- XXX_FS_FIRST. -/
def fsFirst (n : Nat) : Nat := 0x600008 + 0x100 * n
/-- XXX_FS_COUNT. -/
def fsCount (n : Nat) : Nat := 0x600010 + 0x100 * n
/-- XXX_FS_CTRL. -/
def fsCtrl (n : Nat) : Nat := 0x600018 + 0x100 * n
/-- XXX_FS_INJECT. -/
def fsInject (n : Nat) : Nat := 0x600020 + 0x100 * n
/-- XXX_FS_INJ_MASK. -/
def fsInjMask (n : Nat) : Nat := 0x600028 + 0x100 * n
/-- XXX_FS_REACTj. -/
def fsReact (n : Nat) (m : Nat) : Nat := 0x600040 + 0x100 * n + 0x8 * m
/-- SEAT_ID. -/
def seatId (n : Nat) : Nat := 0x800000 + 0x1000 * n
/-- SEAT_STATE. -/
def seatState (n : Nat) : Nat := 0x800008 + 0x1000 * n
/-- IRQ_PEND. -/
def irqPend (n : Nat) : Nat := 0x800010 + 0x1000 * n
/-- IRQ_MASK. -/
def irqMask (n : Nat) : Nat := 0x800018 + 0x1000 * n
/-- BUDGET_VIEW. -/
def budgetView (n : Nat) : Nat := 0x800020 + 0x1000 * n
/-- DIRTY_LOG_BASE. -/
def dirtyLogBase (n : Nat) : Nat := 0x800028 + 0x1000 * n
/-- REPLY_BASE. -/
def replyBase (n : Nat) : Nat := 0x800030 + 0x1000 * n
/-- STATUS_BASE. -/
def statusBase (n : Nat) : Nat := 0x800038 + 0x1000 * n
/-- RING_BASEn. -/
def ringBase (n : Nat) (m : Nat) : Nat := 0x800100 + 0x1000 * n + 0x8 * m
/-- RING_SIZE_PTRSn. -/
def ringPtrs (n : Nat) (m : Nat) : Nat := 0x800140 + 0x1000 * n + 0x8 * m
/-- DOORBELLn. -/
def doorbell (n : Nat) (m : Nat) : Nat := 0x800180 + 0x1000 * n + 0x8 * m

end Sys2Proof.Machine.Reg
end

