-- ==== Sys2Proof/Machine/RegTable.lean ====
section
/-!
DEFINITION. Machine/RegTable.lean: the register map. Every register family of the CSR space with its offset,
its instances and its fields, each field with its bits, its access code (R7) and its reset value, transcribed
from the register tables of the chapters and from Tables 19.2 to 19.11. Bits that no field names are reserved.
-/

namespace Sys2Proof.Machine

/-- Access codes of register fields (Table 0.2, R7). -/
inductive RegAcc
  | rw | ro | wo | w1c | w1s | rwc | rwl | rs
deriving DecidableEq, Repr

/-- One field of a register: name, lowest bit, width, access code, reset value. -/
structure RegField where
  name : String
  lo : Nat
  width : Nat
  acc : RegAcc
  reset : Nat
deriving DecidableEq, Repr

/-- The families whose reset value depends on the instance. -/
inductive RegSpecial
  | vfmapReset | pllReset | gateReset | grdLimitReset | grdAttrReset | injMaskReset | reactReset
deriving DecidableEq, Repr

/-- A family of registers: the offset of instance 0, the strides and counts of its instances (outermost first),
whether it is 64 bits wide, its fields. -/
structure RegFam where
  name : String
  base : Nat
  dims : List (Nat × Nat)
  wide : Bool
  special : Option RegSpecial := none
  fields : List RegField
deriving DecidableEq, Repr

/-! ### Fault stations (R544, R619) -/

/-- The kinds of fault station (Tables 16.3 and 19.3). -/
inductive StKind
  | fab | region | rgnMem | block | tts | cfe | hmn | sec | clk | flt | rnd | cmp | rlc | prf | hd | cap | chk
  | vdc | aud | tch | hap | sto | dmc | grd | pci | dpt
deriving DecidableEq, Repr

/-- The station whose page has an index (Table 19.3), by kind; `none` where no station stands. -/
def stKind (i : Nat) : Option StKind :=
  if i = 0 then some .fab
  else if i = 5 then some .rgnMem
  else if i ≤ 6 then some .region
  else if i = 8 then some .cfe
  else if i = 10 then some .tts
  else if i = 13 then some .sec
  else if i = 14 then some .hmn
  else if i = 15 then some .clk
  else if i = 18 then some .flt
  else if 9 ≤ i && i ≤ 17 then some .block
  else if i = 24 then some .rnd
  else if i = 32 then some .cmp
  else if i = 33 then some .rlc
  else if i = 34 then some .prf
  else if 64 ≤ i && i ≤ 95 then some .hd
  else if 96 ≤ i && i ≤ 103 then some .cap
  else if 104 ≤ i && i ≤ 135 then some .chk
  else if i = 136 then some .vdc
  else if i = 137 then some .aud
  else if 138 ≤ i && i ≤ 145 then some .tch
  else if 146 ≤ i && i ≤ 153 then some .hap
  else if i = 160 then some .sto
  else if i = 161 then some .dmc
  else if i = 162 then some .block
  else if 163 ≤ i && i ≤ 190 then some .grd
  else if i = 192 then some .pci
  else if 193 ≤ i && i ≤ 195 then some .block
  else if 196 ≤ i && i ≤ 211 then some .dpt
  else if 212 ≤ i && i ≤ 219 then some .block
  else none

/-- A region station or the chip station: no block sources 0 to 3 (R544). -/
def stIsRegion (i : Nat) : Bool := i ≤ 6

/-- The block-specific sources of a station kind from bit 4 up with their reset reaction masks (Table 16.3):
1 IRQ, 2 NMI, 4 BLOCK_RESET, 8 CHIP_RESET, 16 PIN, 32 SAFE. -/
def stReacts : StKind → List Nat
  | .fab => [0x12, 0x12]
  | .region => [0x12, 0x12]
  | .rgnMem => [0x12, 0x12, 0x01]
  | .block => [1, 1, 1, 0x12]
  | .tts => [1, 1, 1, 0x12, 1, 1, 0x12, 0x03]
  | .cfe => [1, 1, 1, 0x12, 1, 1, 1]
  | .hmn => [1, 1, 1, 0x12, 0x14, 1, 0x20]
  | .sec => [1, 1, 1, 0x12, 1, 0x20]
  | .clk => [1, 1, 1, 0x12, 3, 1, 0x20, 1]
  | .flt => [1, 1, 1, 0x12, 0x20]
  | .rnd => [1, 1, 1, 0x12, 0, 1]
  | .cmp => [1, 1, 1, 0x12, 3, 1]
  | .rlc => [1, 1, 1, 0x12, 1, 1]
  | .prf => [1, 1, 1, 0x12, 0x11, 0x11, 1, 1, 1]
  | .hd => [1, 1, 1, 0x12, 1]
  | .cap => [1, 1, 1, 0x12, 1]
  | .chk => [1, 1, 1, 0x12, 1]
  | .vdc => [1, 1, 1, 0x12, 1]
  | .aud => [1, 1, 1, 0x12, 1, 1]
  | .tch => [1, 1, 1, 0x12, 0, 1, 1]
  | .hap => [1, 1, 1, 0x12, 1, 1]
  | .sto => [1, 1, 1, 0x12, 0, 1, 3]
  | .dmc => [1, 1, 1, 0x12, 0, 1, 3, 0x20, 1, 3, 1, 1, 0]
  | .grd => [1, 1, 1, 0x12, 1]
  | .pci => [1, 1, 1, 0x12, 1]
  | .dpt => [1, 1, 1, 0x12, 1, 1]

/-- Whether a source exists at a station: source numbers that Table 16.3 does not list are reserved (R544). -/
def srcExists (i s : Nat) : Bool :=
  match stKind i with
  | some k => s < (stReacts k).length
  | none => false

/-- FS_INJ_MASK of a station: the sources whose checker can be injected (R648). -/
def injMaskOf (i : Nat) : Nat :=
  match stKind i with
  | none => 0
  | some .fab | some .region | some .rgnMem => 0x1
  | some .sto | some .dmc => 0x48
  | some .rnd => 0x28
  | some .prf => 0x38
  | some _ => 0x8

/-- Reset value of FS_REACT(2j), FS_REACT(2j+1) of a station: the masks of sources 8j to 8j+7 (Table 16.3). -/
def reactResetOf (i j : Nat) : Nat :=
  match stKind i with
  | none => 0
  | some k => (((stReacts k).drop (8 * j)).take 8).foldr (fun b acc => acc * 256 + b) 0

/-! ### Clock gating (R576, R577) -/

/-- How Table 17.7 clocks a block in one power state. -/
inductive GateRule
  | forcedOn | forcedOff | enable (reset : Bool)
deriving DecidableEq, Repr

/-- The row of Table 17.7 of the block with a page index: RUN, SLEEP, DEEP_SLEEP. -/
def gateRow (b : Nat) : Option (GateRule × GateRule × GateRule) :=
  match stKind b with
  | none | some .fab | some .region | some .rgnMem => none
  | some k =>
    if b = 15 || b = 17 then some (.forcedOn, .forcedOn, .forcedOn)                        -- CLK, PWR
    else if 8 ≤ b && b ≤ 18 then some (.forcedOn, .forcedOn, .forcedOff)                  -- CFE to FLT
    else if k = .rnd || k = .vdc || b = 162 then some (.enable true, .enable false, .forcedOff)   -- RND, VDC, DMA
    else if k = .cmp || k = .prf || k = .cap || 212 ≤ b then some (.enable true, .forcedOff, .forcedOff)
    else if k = .rlc || k = .hd || k = .chk || k = .dpt then some (.enable true, .forcedOn, .forcedOff)
    else if k = .aud || k = .hap then some (.enable true, .forcedOn, .forcedOff)
    else if k = .tch then some (.enable true, .forcedOn, .forcedOn)
    else if k = .sto || k = .dmc || k = .grd then some (.forcedOn, .forcedOn, .forcedOff)
    else if k = .pci then some (.forcedOn, .forcedOn, .forcedOn)
    else if b = 194 then some (.enable true, .forcedOn, .forcedOn)                          -- I3C
    else some (.enable true, .enable true, .forcedOff)                                      -- XSP, JTAG

/-- Reset value of an enable of CLK_GATEb. Where Table 17.7 forces the clock, the field's reset is the forced
level (DESIGN CHOICE, assumption 4). -/
def gateEnReset : GateRule → Nat
  | .forcedOn => 1
  | .forcedOff => 0
  | .enable r => if r then 1 else 0

/-- Whether a family has an instance at these indices: station pages of Table 19.3, gates of blocks (R619). -/
def regInstance (f : RegFam) (ix : List Nat) : Bool :=
  if f.base = 0x70800 then (gateRow (ix.headD 0)).isSome
  else if 0x600000 ≤ f.base && f.base < 0x610000 then (stKind (ix.headD 0)).isSome
  else true

/-- Reset value of a register whose reset depends on the instance. -/
def specialReset (sp : RegSpecial) (ix : List Nat) : Nat :=
  match sp with
  | .vfmapReset => (4 + 127 * ix.headD 0) + 127 * 2 ^ 9                          -- R179
  | .pllReset => (if ix.headD 0 = 8 then 1 else 0) + 4                            -- Tables 17.2, 17.3
  | .gateReset =>
    match gateRow (ix.headD 0) with
    | none => 0
    | some (_, s, d) => 1 + 2 * gateEnReset s + 4 * gateEnReset d                 -- Tables 17.6, 17.7
  | .grdLimitReset => if ix.getD 1 0 = 0 then 0xFFFFFFFFF000 else 0               -- Table 7.6
  | .grdAttrReset => if ix.getD 1 0 = 0 then 0x2F else 0                          -- Table 7.6
  | .injMaskReset => injMaskOf (ix.headD 0)                                        -- R648
  | .reactReset => reactResetOf (ix.headD 0) (ix.getD 1 0)                         -- Table 16.3

/-- The register families of the window at 0x0 (MGT). -/
def regsMgt : List RegFam := [
  { name := "MGT_CHIP_ID", base := 0x0, dims := [], wide := false,
    fields := [⟨"part", 0, 16, .ro, 0x1680⟩, ⟨"stepping", 16, 4, .ro, 0x2⟩] },
  { name := "MGT_HOST_READY", base := 0x8, dims := [], wide := false,
    fields := [⟨"go", 0, 1, .wo, 0x0⟩, ⟨"done", 1, 1, .ro, 0x0⟩] },
  { name := "MGT_CAP0", base := 0x100, dims := [], wide := true,
    fields := [⟨"part", 0, 16, .ro, 0x1680⟩, ⟨"stepping", 16, 4, .ro, 0x2⟩, ⟨"heads", 24, 8, .ro, 0x20⟩, ⟨"ports", 32, 8, .ro, 0x10⟩, ⟨"capture", 40, 8, .ro, 0x8⟩, ⟨"chk_units", 48, 8, .ro, 0x20⟩, ⟨"canvases", 56, 8, .ro, 0x20⟩] },
  { name := "MGT_CAP1", base := 0x108, dims := [], wide := true,
    fields := [⟨"layers", 0, 16, .ro, 0x180⟩, ⟨"render_cores", 16, 8, .ro, 0x18⟩, ⟨"queues", 24, 8, .ro, 0x10⟩, ⟨"decode_pipes", 32, 8, .ro, 0x8⟩, ⟨"encode_pipes", 40, 8, .ro, 0x2⟩, ⟨"dma_channels", 48, 8, .ro, 0x40⟩, ⟨"dram_channels", 56, 8, .ro, 0x20⟩] },
  { name := "MGT_CAP2", base := 0x110, dims := [], wide := true,
    fields := [⟨"seats", 0, 16, .ro, 0x200⟩, ⟨"sync_counters", 16, 16, .ro, 0x1000⟩, ⟨"tdm_ports", 32, 8, .ro, 0x8⟩, ⟨"touch_ports", 40, 8, .ro, 0x8⟩, ⟨"haptic_channels", 48, 8, .ro, 0x8⟩, ⟨"guards", 56, 8, .ro, 0x1c⟩] },
  { name := "MGT_CAP3", base := 0x118, dims := [], wide := true,
    fields := [⟨"store_kib", 0, 32, .ro, 0x18000⟩, ⟨"dram_gib", 32, 8, .ro, 0x0⟩] }]

/-- The register families of the window at 0x20000 (ADM). -/
def regsAdm : List RegFam := [
  { name := "ADM_CTRL", base := 0x20000, dims := [], wide := false,
    fields := [⟨"dram_ceiling", 0, 8, .rwc, 0xe0⟩] },
  { name := "ADM_QUEUE", base := 0x20008, dims := [], wide := false,
    fields := [⟨"depth", 0, 16, .ro, 0x0⟩, ⟨"oldest_age", 16, 7, .ro, 0x0⟩] },
  { name := "ADM_BUSY_COUNT", base := 0x20010, dims := [], wide := false,
    fields := [⟨"count", 0, 32, .rs, 0x0⟩] },
  { name := "ADM_CAPn", base := 0x20100, dims := [(0x8, 9)], wide := false,
    fields := [⟨"credits", 0, 32, .ro, 0x0⟩] },
  { name := "ADM_FREEn", base := 0x20180, dims := [(0x8, 9)], wide := false,
    fields := [⟨"credits", 0, 32, .ro, 0x0⟩] }]

/-- The register families of the window at 0x30000 (TTS). -/
def regsTts : List RegFam := [
  { name := "TTS_BELL_NEXT", base := 0x30000, dims := [], wide := false,
    fields := [⟨"mode", 0, 2, .rwc, 0x0⟩, ⟨"cap_port", 2, 3, .rwc, 0x0⟩, ⟨"mul_m1", 8, 4, .rwc, 0x0⟩, ⟨"div_m1", 12, 4, .rwc, 0x0⟩] },
  { name := "TTS_BELL_RATE_NEXT", base := 0x30008, dims := [], wide := false,
    fields := [⟨"rate_num", 0, 16, .rwc, 0x3c⟩, ⟨"rate_den", 16, 16, .rwc, 0x1⟩] },
  { name := "TTS_BELL_PHASE_NEXT", base := 0x30010, dims := [], wide := false,
    fields := [⟨"phase", 0, 28, .rwc, 0x0⟩] },
  { name := "TTS_BELL_CTRL", base := 0x30018, dims := [], wide := false,
    fields := [⟨"relock_mode", 0, 1, .rwc, 0x0⟩, ⟨"auto_commit", 1, 1, .rw, 0x0⟩] },
  { name := "TTS_BELL_CHANGE", base := 0x30020, dims := [], wide := false,
    fields := [⟨"request", 0, 1, .wo, 0x0⟩, ⟨"pending", 1, 1, .ro, 0x0⟩, ⟨"result", 4, 4, .ro, 0x0⟩] },
  { name := "TTS_BELL_STATUS", base := 0x30028, dims := [], wide := false,
    fields := [⟨"period", 0, 5, .ro, 0x0⟩, ⟨"lock", 5, 2, .ro, 0x0⟩, ⟨"blank", 7, 1, .ro, 0x0⟩] },
  { name := "TTS_BELL_LENGTH", base := 0x30030, dims := [], wide := false,
    fields := [⟨"cycles", 0, 32, .ro, 0x1312d00⟩] },
  { name := "TTS_BELL_COUNT_LO", base := 0x30038, dims := [], wide := false,
    fields := [⟨"count_lo", 0, 32, .rs, 0x0⟩] },
  { name := "TTS_BELL_COUNT_HI", base := 0x30040, dims := [], wide := false,
    fields := [⟨"count_hi", 0, 32, .ro, 0x0⟩] },
  { name := "TTS_BELL_PTM_LO", base := 0x30048, dims := [], wide := false,
    fields := [⟨"ptm_lo", 0, 32, .ro, 0x0⟩] },
  { name := "TTS_BELL_PTM_HI", base := 0x30050, dims := [], wide := false,
    fields := [⟨"ptm_hi", 0, 32, .ro, 0x0⟩] },
  { name := "TTS_SYNC_CNTn", base := 0x38000, dims := [(0x8, 4096)], wide := true,
    fields := [⟨"value", 0, 64, .ro, 0x0⟩] }]

/-- The register families of the window at 0x40000 (SEAT). -/
def regsSeat : List RegFam := [
  { name := "SEAT_GLOBAL_CTRL", base := 0x40000, dims := [], wide := false,
    fields := [⟨"sup_pf", 0, 2, .rw, 0x0⟩, ⟨"locked", 31, 1, .w1s, 0x0⟩] },
  { name := "SEAT_RESET", base := 0x40008, dims := [], wide := false,
    fields := [⟨"seat", 0, 9, .wo, 0x0⟩, ⟨"go", 9, 1, .wo, 0x0⟩] },
  { name := "SEAT_TBL_ADDR", base := 0x40010, dims := [], wide := false,
    fields := [⟨"seat", 0, 9, .rw, 0x0⟩, ⟨"kind", 12, 3, .rw, 0x0⟩, ⟨"index", 16, 12, .rw, 0x0⟩] },
  { name := "SEAT_TBL_CMD", base := 0x40018, dims := [], wide := false,
    fields := [⟨"op", 0, 2, .wo, 0x0⟩, ⟨"busy", 2, 1, .ro, 0x0⟩, ⟨"result", 4, 3, .ro, 0x0⟩] },
  { name := "SEAT_TBL_DATA", base := 0x40020, dims := [(0x8, 4)], wide := true,
    fields := [⟨"data", 0, 64, .rw, 0x0⟩] },
  { name := "SEAT_VFMAPp", base := 0x40040, dims := [(0x8, 4)], wide := false, special := some .vfmapReset,
    fields := [⟨"vf_first", 0, 9, .rwc, 0x0⟩, ⟨"vf_total", 9, 9, .rwc, 0x7f⟩, ⟨"held", 30, 1, .ro, 0x0⟩, ⟨"conflict", 31, 1, .ro, 0x0⟩] }]

/-- The register families of the window at 0x50000 (SEC). -/
def regsSec : List RegFam := [
  { name := "SEC_STATE", base := 0x50000, dims := [], wide := false,
    fields := [⟨"restarting", 0, 1, .ro, 0x0⟩, ⟨"restarts", 1, 2, .ro, 0x0⟩, ⟨"last_cause", 3, 1, .ro, 0x0⟩] },
  { name := "SEC_RESTART", base := 0x50008, dims := [], wide := false,
    fields := [⟨"go", 0, 1, .wo, 0x0⟩, ⟨"ready", 1, 1, .wo, 0x0⟩, ⟨"ready_limit", 8, 10, .rw, 0x64⟩] },
  { name := "SEC_HO_CTRL", base := 0x50010, dims := [], wide := false,
    fields := [⟨"go", 0, 1, .wo, 0x0⟩] },
  { name := "SEC_HO_STATUS", base := 0x50018, dims := [], wide := false,
    fields := [⟨"state", 0, 2, .ro, 0x0⟩, ⟨"result", 2, 4, .ro, 0x0⟩] },
  { name := "SEC_HO_EDGE", base := 0x50020, dims := [], wide := false,
    fields := [⟨"bell", 0, 32, .ro, 0x0⟩] },
  { name := "SEC_RESERVE_DRAM", base := 0x50028, dims := [], wide := false,
    fields := [⟨"credits", 0, 32, .rw, 0x0⟩] },
  { name := "SEC_RESERVE_STORE", base := 0x50030, dims := [], wide := false,
    fields := [⟨"credits", 0, 32, .rw, 0x0⟩] },
  { name := "SEC_RESERVE_STATUS", base := 0x50038, dims := [], wide := false,
    fields := [⟨"pending", 0, 1, .ro, 0x0⟩] },
  { name := "SEC_SECEVT_HEAD", base := 0x50040, dims := [], wide := false,
    fields := [⟨"index", 0, 5, .ro, 0x0⟩] },
  { name := "SEC_WORLD_MAPk", base := 0x50100, dims := [(0x8, 7)], wide := false,
    fields := [⟨"secure", 0, 32, .ro, 0x0⟩] },
  { name := "SEC_HO_TARGETk", base := 0x50140, dims := [(0x8, 7)], wide := false,
    fields := [⟨"target", 0, 32, .rw, 0x0⟩] },
  { name := "SEC_SECEVTi", base := 0x50200, dims := [(0x8, 32)], wide := true,
    fields := [⟨"csr_offset", 0, 24, .ro, 0x0⟩, ⟨"seat", 24, 9, .ro, 0x0⟩, ⟨"source", 33, 2, .ro, 0x0⟩, ⟨"valid", 35, 1, .ro, 0x0⟩, ⟨"bell", 36, 28, .ro, 0x0⟩] },
  { name := "SEC_SEATSET", base := 0x50400, dims := [(0x40, 16), (0x8, 8)], wide := true,
    fields := [⟨"seats", 0, 64, .rw, 0x0⟩] }]

/-- The register families of the window at 0x60000 (HMN). -/
def regsHmn : List RegFam := [
  { name := "HMN_WDk_CFG", base := 0x60000, dims := [(0x10, 2)], wide := false,
    fields := [⟨"timeout", 0, 16, .rwl, 0x2710⟩] },
  { name := "HMN_WDk_KICK", base := 0x60008, dims := [(0x10, 2)], wide := false,
    fields := [⟨"kick", 0, 1, .wo, 0x0⟩] },
  { name := "HMN_MGT_LOAD", base := 0x60040, dims := [], wide := false,
    fields := [⟨"busy", 0, 8, .ro, 0x0⟩, ⟨"peak", 8, 8, .rs, 0x0⟩, ⟨"decisions", 16, 16, .ro, 0x0⟩] }]

/-- The register families of the window at 0x70000 (CLK). -/
def regsClk : List RegFam := [
  { name := "CLK_SRC_STATUS", base := 0x70000, dims := [], wide := false,
    fields := [⟨"refclk_ready", 0, 1, .ro, 0x0⟩, ⟨"pcie_ready", 1, 1, .ro, 0x0⟩, ⟨"hosc_ready", 2, 1, .ro, 0x0⟩, ⟨"refclk_failed", 4, 1, .w1c, 0x0⟩, ⟨"pcie_failed", 5, 1, .w1c, 0x0⟩, ⟨"hosc_failed", 6, 1, .w1c, 0x0⟩] },
  { name := "CLK_HOSC_CTRL", base := 0x70008, dims := [], wide := false,
    fields := [⟨"stop", 0, 1, .rwl, 0x0⟩, ⟨"auto", 1, 1, .rwl, 0x1⟩, ⟨"trim_ref", 2, 2, .rwl, 0x0⟩, ⟨"tdm_port", 4, 3, .rwl, 0x0⟩, ⟨"code", 8, 8, .rwl, 0x0⟩, ⟨"trimmed", 16, 1, .ro, 0x0⟩, ⟨"refused", 17, 1, .w1c, 0x0⟩, ⟨"running", 18, 1, .ro, 0x1⟩] },
  { name := "CLK_PLLp_CTRL", base := 0x70100, dims := [(0x10, 10)], wide := false, special := some .pllReset,
    fields := [⟨"ref", 0, 2, .rwl, 0x0⟩, ⟨"fallback_en", 2, 1, .rwl, 0x1⟩] },
  { name := "CLK_PLLp_STATUS", base := 0x70108, dims := [(0x10, 10)], wide := false,
    fields := [⟨"locked", 0, 1, .ro, 0x0⟩, ⟨"coasting", 1, 1, .ro, 0x0⟩, ⟨"ref_now", 2, 2, .ro, 0x0⟩, ⟨"held", 4, 1, .ro, 0x0⟩, ⟨"refused", 5, 1, .w1c, 0x0⟩] },
  { name := "CLK_GATEb", base := 0x70800, dims := [(0x8, 256)], wide := false, special := some .gateReset,
    fields := [⟨"run_en", 0, 1, .rwl, 0x1⟩, ⟨"sleep_en", 1, 1, .rwl, 0x0⟩, ⟨"deep_en", 2, 1, .rwl, 0x0⟩, ⟨"gated", 3, 1, .ro, 0x0⟩, ⟨"refused", 4, 1, .w1c, 0x0⟩] }]

/-- The register families of the window at 0x80000 (RST). -/
def regsRst : List RegFam := [
  { name := "RST_CHIP", base := 0x80000, dims := [], wide := false,
    fields := [⟨"go", 0, 1, .wo, 0x0⟩, ⟨"key", 8, 8, .wo, 0x0⟩] },
  { name := "RST_CAUSE", base := 0x80008, dims := [], wide := false,
    fields := [⟨"kind", 0, 2, .ro, 0x0⟩, ⟨"by", 2, 2, .ro, 0x0⟩, ⟨"station", 4, 8, .ro, 0x0⟩, ⟨"source", 12, 5, .ro, 0x0⟩] }]

/-- The register families of the window at 0x90000 (PWR). -/
def regsPwr : List RegFam := [
  { name := "PWR_CTRL", base := 0x90000, dims := [], wide := false,
    fields := [⟨"request", 0, 2, .wo, 0x0⟩] },
  { name := "PWR_STATUS", base := 0x90008, dims := [], wide := false,
    fields := [⟨"state", 0, 3, .ro, 0x0⟩, ⟨"result", 3, 3, .ro, 0x0⟩, ⟨"last_wake", 6, 3, .ro, 0x0⟩, ⟨"gate_refused", 9, 1, .ro, 0x0⟩] }]

/-- The register families of the window at 0xa0000 (FLT). -/
def regsFlt : List RegFam := [
  { name := "FLT_PIN", base := 0xa0000, dims := [], wide := false,
    fields := [⟨"asserted", 0, 1, .ro, 0x1⟩, ⟨"release", 1, 1, .wo, 0x0⟩, ⟨"hold", 2, 1, .ro, 0x1⟩, ⟨"refused", 3, 1, .w1c, 0x0⟩] },
  { name := "FLT_CAUSE", base := 0xa0008, dims := [], wide := true,
    fields := [⟨"station", 0, 8, .ro, 0x0⟩, ⟨"source", 8, 5, .ro, 0x0⟩, ⟨"parity", 13, 1, .ro, 0x0⟩, ⟨"valid", 14, 1, .w1c, 0x0⟩, ⟨"bell", 16, 48, .ro, 0x0⟩] }]

/-- The register families of the window at 0x100000 (RND). -/
def regsRnd : List RegFam := [
  { name := "RND_CLK", base := 0x100000, dims := [], wide := false,
    fields := [⟨"freq", 0, 5, .rwc, 0x10⟩, ⟨"freq_now", 8, 5, .ro, 0x10⟩, ⟨"lowering", 13, 1, .ro, 0x0⟩] },
  { name := "RND_POOL_FREE", base := 0x100008, dims := [], wide := false,
    fields := [⟨"tl_pages", 0, 16, .ro, 0x0⟩, ⟨"prog_pages", 16, 16, .ro, 0x0⟩] },
  { name := "RND_TL_POOL_BASE", base := 0x100010, dims := [], wide := true,
    fields := [⟨"base", 12, 36, .rwc, 0x0⟩] },
  { name := "RND_TL_POOL_LIMIT", base := 0x100018, dims := [], wide := true,
    fields := [⟨"limit", 12, 36, .rwc, 0x0⟩] },
  { name := "RND_PROG_POOL_BASE", base := 0x100020, dims := [], wide := true,
    fields := [⟨"base", 12, 36, .rwc, 0x0⟩] },
  { name := "RND_PROG_POOL_LIMIT", base := 0x100028, dims := [], wide := true,
    fields := [⟨"limit", 12, 36, .rwc, 0x0⟩] },
  { name := "RND_QUEUEq_CFG", base := 0x100100, dims := [(0x8, 16)], wide := true,
    fields := [⟨"priority", 0, 3, .rwc, 0x0⟩, ⟨"core_mask", 8, 24, .rwc, 0xffffff⟩, ⟨"owned", 32, 1, .rwc, 0x0⟩, ⟨"owner", 33, 9, .rwc, 0x0⟩, ⟨"cores_now", 48, 5, .ro, 0x18⟩] },
  { name := "RND_SECQ_BASE", base := 0x100200, dims := [], wide := true,
    fields := [⟨"base", 0, 64, .rw, 0x0⟩] },
  { name := "RND_SECQ_PROG", base := 0x100208, dims := [], wide := true,
    fields := [⟨"prog", 0, 64, .rw, 0x0⟩] },
  { name := "RND_SECQ_TL", base := 0x100210, dims := [], wide := true,
    fields := [⟨"tl", 0, 64, .rw, 0x0⟩] },
  { name := "RND_SECQ_CTRL", base := 0x100218, dims := [], wide := true,
    fields := [⟨"words", 0, 16, .rw, 0x0⟩, ⟨"go", 16, 1, .wo, 0x0⟩, ⟨"abort", 17, 1, .wo, 0x0⟩, ⟨"mask", 18, 24, .rw, 0x0⟩] },
  { name := "RND_SECQ_STATUS", base := 0x100220, dims := [], wide := true,
    fields := [⟨"state", 0, 2, .ro, 0x0⟩, ⟨"outcome", 2, 8, .ro, 0x0⟩, ⟨"done", 10, 32, .ro, 0x0⟩] }]

/-- The register families of the window at 0x200000 (CMP). -/
def regsCmp : List RegFam := [
  { name := "CMP_POOL_BASE", base := 0x200000, dims := [], wide := true,
    fields := [⟨"base", 12, 36, .rwc, 0x0⟩] },
  { name := "CMP_POOL_LIMIT", base := 0x200008, dims := [], wide := true,
    fields := [⟨"limit", 12, 36, .rwc, 0x0⟩] },
  { name := "CMP_POOL_FREE", base := 0x200010, dims := [], wide := false,
    fields := [⟨"pages", 0, 32, .ro, 0x0⟩] },
  { name := "CMP_HDh_TILES", base := 0x200100, dims := [(0x10, 32)], wide := false,
    fields := [⟨"composed", 0, 16, .ro, 0x0⟩, ⟨"skipped", 16, 16, .ro, 0x0⟩] },
  { name := "CMP_HDh_CUT", base := 0x200108, dims := [(0x10, 32)], wide := false,
    fields := [⟨"cut", 0, 16, .ro, 0x0⟩] }]

/-- The register families of the window at 0x210000 (RLC). -/
def regsRlc : List RegFam := [
  { name := "RLC_LAYERl_STATE", base := 0x210000, dims := [(0x8, 384)], wide := false,
    fields := [⟨"verdict", 0, 2, .ro, 0x3⟩, ⟨"age", 2, 9, .ro, 0x0⟩, ⟨"degraded", 11, 1, .ro, 0x0⟩, ⟨"alt_fallback", 12, 1, .ro, 0x0⟩] },
  { name := "RLC_CRITc_STATE", base := 0x211000, dims := [(0x8, 256)], wide := false,
    fields := [⟨"verdict", 0, 2, .ro, 0x3⟩, ⟨"age", 2, 9, .ro, 0x0⟩, ⟨"degraded", 11, 1, .ro, 0x0⟩, ⟨"alt_fallback", 12, 1, .ro, 0x0⟩] }]

/-- The register families of the window at 0x220000 (PRF). -/
def regsPrf : List RegFam := [
  { name := "PRF_CTRL", base := 0x220000, dims := [], wide := false,
    fields := [⟨"safety_seat", 0, 9, .rwc, 0x0⟩, ⟨"seat_valid", 9, 1, .rwc, 0x0⟩] },
  { name := "PRF_HDh_CFG", base := 0x220100, dims := [(0x10, 32)], wide := true,
    fields := [⟨"enable", 0, 1, .rwc, 0x0⟩, ⟨"chk", 1, 5, .rwc, 0x0⟩, ⟨"chk_en", 6, 1, .rwc, 0x0⟩, ⟨"desc", 12, 52, .rwc, 0x0⟩] },
  { name := "PRF_HDh_STATUS", base := 0x220108, dims := [(0x10, 32)], wide := false,
    fields := [⟨"mismatch", 0, 16, .w1c, 0x0⟩, ⟨"lockstep", 16, 1, .w1c, 0x0⟩, ⟨"chk_error", 17, 1, .ro, 0x0⟩] }]

/-- The register families of the window at 0x240000 (HD). -/
def regsHd : List RegFam := [
  { name := "HDh_TIMING_H", base := 0x240000, dims := [(0x100, 32)], wide := true,
    fields := [⟨"active", 0, 16, .rwc, 0xf00⟩, ⟨"total", 16, 16, .rwc, 0xfa0⟩, ⟨"front", 32, 16, .rwc, 0x30⟩, ⟨"sync", 48, 16, .rwc, 0x20⟩] },
  { name := "HDh_TIMING_V", base := 0x240008, dims := [(0x100, 32)], wide := true,
    fields := [⟨"active", 0, 16, .rwc, 0x870⟩, ⟨"total", 16, 16, .rwc, 0x8ae⟩, ⟨"front", 32, 16, .rwc, 0x3⟩, ⟨"sync", 48, 16, .rwc, 0x5⟩] },
  { name := "HDh_FRAME", base := 0x240010, dims := [(0x100, 32)], wide := false,
    fields := [⟨"div_m1", 0, 2, .rwc, 0x0⟩, ⟨"start_slot", 2, 2, .rwc, 0x0⟩, ⟨"phase", 4, 5, .rwc, 0x0⟩, ⟨"hsync_pol", 9, 1, .rwc, 0x1⟩, ⟨"vsync_pol", 10, 1, .rwc, 0x1⟩, ⟨"bpc8", 11, 1, .rwc, 0x0⟩, ⟨"enable", 12, 1, .rwc, 0x0⟩] },
  { name := "HDh_STATUS", base := 0x240018, dims := [(0x100, 32)], wide := true,
    fields := [⟨"state", 0, 3, .ro, 0x0⟩, ⟨"timing_result", 3, 2, .ro, 0x0⟩, ⟨"held", 5, 1, .ro, 0x0⟩, ⟨"frames", 32, 32, .ro, 0x0⟩] },
  { name := "HDh_QUIET", base := 0x240020, dims := [(0x100, 32)], wide := false,
    fields := [⟨"quiet", 0, 32, .ro, 0x0⟩] },
  { name := "HDh_EVENT", base := 0x240028, dims := [(0x100, 32)], wide := false,
    fields := [⟨"blank_start", 0, 1, .w1c, 0x0⟩, ⟨"line_match", 1, 1, .w1c, 0x0⟩, ⟨"frame_done", 2, 1, .w1c, 0x0⟩, ⟨"underrun", 3, 1, .w1c, 0x0⟩] },
  { name := "HDh_EVENT_EN", base := 0x240030, dims := [(0x100, 32)], wide := false,
    fields := [⟨"en", 0, 4, .rw, 0x0⟩] },
  { name := "HDh_LINE_MATCH", base := 0x240038, dims := [(0x100, 32)], wide := false,
    fields := [⟨"line", 0, 16, .rw, 0xffff⟩] },
  { name := "HDh_UNDERRUN", base := 0x240040, dims := [(0x100, 32)], wide := true,
    fields := [⟨"first_line", 0, 16, .ro, 0x0⟩, ⟨"last_line", 16, 16, .ro, 0x0⟩, ⟨"pairs", 32, 16, .ro, 0x0⟩, ⟨"frames", 48, 16, .rs, 0x0⟩] },
  { name := "HDh_COLORS", base := 0x240048, dims := [(0x100, 32)], wide := true,
    fields := [⟨"safe", 0, 30, .rwc, 0x0⟩, ⟨"mark", 32, 30, .rwc, 0x3fffffff⟩] },
  { name := "HDh_TALLY", base := 0x240050, dims := [(0x100, 32)], wide := true,
    fields := [⟨"enable", 0, 1, .rwc, 0x0⟩, ⟨"x", 16, 16, .rwc, 0x0⟩, ⟨"y", 32, 16, .rwc, 0x0⟩] }]

/-- The register families of the window at 0x250000 (CAP). -/
def regsCap : List RegFam := [
  { name := "CAPn_CFG", base := 0x250000, dims := [(0x400, 8)], wide := false,
    fields := [⟨"enable", 0, 1, .rwc, 0x0⟩, ⟨"rate", 1, 3, .rwc, 0x6⟩, ⟨"lanes", 4, 2, .rwc, 0x2⟩, ⟨"lane_swap", 6, 1, .rwc, 0x0⟩, ⟨"format", 7, 4, .rwc, 0x9⟩, ⟨"audio", 11, 1, .rwc, 0x0⟩] },
  { name := "CAPn_GEOM", base := 0x250008, dims := [(0x400, 8)], wide := true,
    fields := [⟨"exp_w", 0, 16, .rwc, 0xf00⟩, ⟨"exp_h", 16, 16, .rwc, 0x870⟩, ⟨"exp_fps", 32, 8, .rwc, 0x3c⟩] },
  { name := "CAPn_RING", base := 0x250010, dims := [(0x400, 8)], wide := true,
    fields := [⟨"desc", 6, 58, .rwc, 0x0⟩] },
  { name := "CAPn_STATUS", base := 0x250018, dims := [(0x400, 8)], wide := true,
    fields := [⟨"state", 0, 3, .ro, 0x0⟩, ⟨"cfg_result", 3, 3, .ro, 0x0⟩, ⟨"link_rate", 6, 4, .ro, 0x0⟩, ⟨"link_lanes", 10, 2, .ro, 0x0⟩, ⟨"in_enc", 12, 2, .ro, 0x0⟩, ⟨"in_bpc", 14, 3, .ro, 0x0⟩, ⟨"in_colorimetry", 17, 2, .ro, 0x0⟩, ⟨"in_limited", 19, 1, .ro, 0x0⟩, ⟨"in_eotf", 20, 2, .ro, 0x0⟩, ⟨"in_w", 32, 16, .ro, 0x0⟩, ⟨"in_h", 48, 16, .ro, 0x0⟩] },
  { name := "CAPn_FRAMES", base := 0x250020, dims := [(0x400, 8)], wide := true,
    fields := [⟨"seq", 0, 32, .ro, 0x0⟩, ⟨"dropped", 32, 16, .rs, 0x0⟩, ⟨"degraded", 48, 16, .rs, 0x0⟩] },
  { name := "CAPn_PERIOD", base := 0x250028, dims := [(0x400, 8)], wide := false,
    fields := [⟨"cycles", 0, 32, .ro, 0x0⟩] },
  { name := "CAPn_EDIDj", base := 0x250200, dims := [(0x400, 8), (0x8, 64)], wide := true,
    fields := [⟨"bytes", 0, 64, .rwc, 0x0⟩] }]

/-- The register families of the window at 0x260000 (CHK). -/
def regsChk : List RegFam := [
  { name := "CHKu_CFG", base := 0x260000, dims := [(0x20, 32)], wide := false,
    fields := [⟨"enable", 0, 1, .rwc, 0x0⟩, ⟨"poly", 1, 2, .rwc, 0x0⟩, ⟨"source", 3, 8, .rwc, 0x0⟩, ⟨"by_cmd", 11, 1, .ro, 0x0⟩, ⟨"seat", 12, 9, .ro, 0x0⟩, ⟨"prefect", 21, 1, .ro, 0x0⟩] },
  { name := "CHKu_RESULT", base := 0x260008, dims := [(0x20, 32)], wide := true,
    fields := [⟨"crc", 0, 64, .ro, 0x0⟩] },
  { name := "CHKu_RINFO", base := 0x260010, dims := [(0x20, 32)], wide := true,
    fields := [⟨"bell", 0, 32, .ro, 0x0⟩, ⟨"amount", 32, 24, .ro, 0x0⟩, ⟨"valid", 56, 1, .ro, 0x0⟩] }]

/-- The register families of the window at 0x300000 (VDC). -/
def regsVdc : List RegFam := [
  { name := "VDC_SECPp_BASE", base := 0x300000, dims := [(0x20, 10)], wide := true,
    fields := [⟨"base", 0, 64, .rw, 0x0⟩] },
  { name := "VDC_SECPp_CTRL", base := 0x300008, dims := [(0x20, 10)], wide := false,
    fields := [⟨"go", 0, 1, .wo, 0x0⟩, ⟨"abort", 1, 1, .wo, 0x0⟩] },
  { name := "VDC_SECPp_STATUS", base := 0x300010, dims := [(0x20, 10)], wide := true,
    fields := [⟨"state", 0, 2, .ro, 0x0⟩, ⟨"outcome", 2, 8, .ro, 0x0⟩, ⟨"done", 32, 32, .ro, 0x0⟩] }]

/-- The register families of the window at 0x310000 (AUD). -/
def regsAud : List RegFam := [
  { name := "AUD_CLK", base := 0x310000, dims := [], wide := false,
    fields := [⟨"source", 0, 1, .rwc, 0x0⟩, ⟨"tdm_port", 1, 3, .rwc, 0x0⟩, ⟨"locked", 4, 1, .ro, 0x1⟩, ⟨"holdover", 5, 1, .ro, 0x0⟩] },
  { name := "AUD_DP_RATE96", base := 0x310008, dims := [], wide := true,
    fields := [⟨"rate96", 0, 64, .rwc, 0x0⟩] },
  { name := "AUD_SEC_ROUTE", base := 0x310010, dims := [], wide := true,
    fields := [⟨"node", 0, 64, .wo, 0x0⟩] },
  { name := "AUD_TDMp_CFG", base := 0x310100, dims := [(0x20, 8)], wide := true,
    fields := [⟨"enable", 0, 1, .rwc, 0x0⟩, ⟨"slave", 1, 1, .rwc, 0x0⟩, ⟨"rate", 2, 2, .rwc, 0x1⟩, ⟨"slots_m1", 4, 4, .rwc, 0xf⟩, ⟨"width", 8, 2, .rwc, 0x2⟩, ⟨"fsync_half", 10, 1, .rwc, 0x0⟩, ⟨"delay1", 11, 1, .rwc, 0x1⟩, ⟨"bclk_inv", 12, 1, .rwc, 0x0⟩, ⟨"in_mask", 16, 16, .rwc, 0x0⟩, ⟨"out_mask", 32, 16, .rwc, 0x0⟩] },
  { name := "AUD_TDMp_OUTMAP0", base := 0x310108, dims := [(0x20, 8)], wide := true,
    fields := [⟨"bus", 0, 64, .rwc, 0x0⟩] },
  { name := "AUD_TDMp_OUTMAP1", base := 0x310110, dims := [(0x20, 8)], wide := true,
    fields := [⟨"bus", 0, 64, .rwc, 0x0⟩] },
  { name := "AUD_TDMp_STATUS", base := 0x310118, dims := [(0x20, 8)], wide := false,
    fields := [⟨"state", 0, 2, .ro, 0x0⟩, ⟨"cfg_result", 2, 3, .ro, 0x0⟩, ⟨"frame_rate", 5, 18, .ro, 0x0⟩] },
  { name := "AUD_DPTn_SiMAP", base := 0x310200, dims := [(0x20, 16), (0x8, 4)], wide := true,
    fields := [⟨"bus", 0, 64, .rwc, 0x0⟩] },
  { name := "AUD_BUSb_OWNER", base := 0x310800, dims := [(0x8, 256)], wide := false,
    fields := [⟨"seat", 0, 9, .rwc, 0x0⟩, ⟨"valid", 9, 1, .rwc, 0x0⟩, ⟨"secure", 10, 1, .rwc, 0x0⟩] },
  { name := "AUD_INi_STATUS", base := 0x311000, dims := [(0x8, 256)], wide := false,
    fields := [⟨"active", 0, 1, .ro, 0x0⟩, ⟨"locked", 1, 1, .ro, 0x0⟩, ⟨"rate", 2, 18, .ro, 0x0⟩, ⟨"nonpcm", 20, 1, .ro, 0x0⟩] }]

/-- The register families of the window at 0x320000 (TCH). -/
def regsTch : List RegFam := [
  { name := "TCHn_LINK", base := 0x320000, dims := [(0x100, 8)], wide := false,
    fields := [⟨"clk_div", 0, 11, .rwc, 0x18⟩] },
  { name := "TCHn_STATUS", base := 0x320008, dims := [(0x100, 8)], wide := true,
    fields := [⟨"state", 0, 3, .ro, 0x0⟩, ⟨"fe_id", 32, 16, .ro, 0x0⟩] },
  { name := "TCHn_TEST", base := 0x320010, dims := [(0x100, 8)], wide := false,
    fields := [⟨"fails", 0, 8, .ro, 0x0⟩, ⟨"first_fail", 8, 8, .ro, 0xff⟩] },
  { name := "TCHn_COUNT", base := 0x320018, dims := [(0x100, 8)], wide := true,
    fields := [⟨"link_errors", 0, 16, .rs, 0x0⟩, ⟨"fast_recals", 16, 16, .rs, 0x0⟩, ⟨"forced", 32, 16, .rs, 0x0⟩, ⟨"skipped", 48, 16, .rs, 0x0⟩] },
  { name := "TCHn_SECQ_BASE", base := 0x320040, dims := [(0x100, 8)], wide := true,
    fields := [⟨"base", 0, 64, .rw, 0x0⟩] },
  { name := "TCHn_SECQ_CTRL", base := 0x320048, dims := [(0x100, 8)], wide := false,
    fields := [⟨"go", 0, 1, .wo, 0x0⟩] },
  { name := "TCHn_SECQ_STATUS", base := 0x320050, dims := [(0x100, 8)], wide := false,
    fields := [⟨"state", 0, 2, .ro, 0x0⟩, ⟨"outcome", 2, 8, .ro, 0x0⟩] }]

/-- The register families of the window at 0x330000 (HAP). -/
def regsHap : List RegFam := [
  { name := "HAPn_CFG", base := 0x330000, dims := [(0x100, 8)], wide := true,
    fields := [⟨"enable", 0, 1, .rwc, 0x0⟩, ⟨"vmax", 8, 16, .rwc, 0x4000⟩, ⟨"duty", 24, 10, .rwc, 0x64⟩] },
  { name := "HAPn_STATUS", base := 0x330008, dims := [(0x100, 8)], wide := true,
    fields := [⟨"phase", 0, 2, .ro, 0x0⟩, ⟨"waiting", 2, 1, .ro, 0x0⟩, ⟨"f_tracked", 16, 16, .ro, 0xaf0⟩, ⟨"duty_used", 32, 20, .ro, 0x0⟩] },
  { name := "HAPn_COUNT", base := 0x330010, dims := [(0x100, 8)], wide := true,
    fields := [⟨"dropped", 0, 16, .rs, 0x0⟩, ⟨"refused", 16, 16, .rs, 0x0⟩, ⟨"cut", 32, 16, .rs, 0x0⟩] },
  { name := "HAPn_SECQ_BASE", base := 0x330040, dims := [(0x100, 8)], wide := true,
    fields := [⟨"base", 0, 64, .rw, 0x0⟩] },
  { name := "HAPn_SECQ_CTRL", base := 0x330048, dims := [(0x100, 8)], wide := false,
    fields := [⟨"go", 0, 1, .wo, 0x0⟩] },
  { name := "HAPn_SECQ_STATUS", base := 0x330050, dims := [(0x100, 8)], wide := false,
    fields := [⟨"state", 0, 2, .ro, 0x0⟩, ⟨"outcome", 2, 8, .ro, 0x0⟩] }]

/-- The register families of the window at 0x400000 (STO). -/
def regsSto : List RegFam := [
  { name := "STO_ECC_CTRL", base := 0x400000, dims := [], wide := false,
    fields := [⟨"clear_ce_log", 0, 1, .wo, 0x0⟩, ⟨"clear_ue_log", 1, 1, .wo, 0x0⟩, ⟨"clear_counts", 2, 1, .wo, 0x0⟩, ⟨"log_full", 3, 1, .w1c, 0x0⟩, ⟨"test_en", 4, 1, .rw, 0x0⟩, ⟨"ce_thresh", 8, 24, .rw, 0x1000⟩] },
  { name := "STO_UE_HEAD", base := 0x400008, dims := [], wide := false,
    fields := [⟨"index", 0, 3, .ro, 0x0⟩] },
  { name := "STO_TEST_ADDR", base := 0x400010, dims := [], wide := true,
    fields := [⟨"word", 3, 45, .rw, 0x0⟩] },
  { name := "STO_TEST_DATA", base := 0x400018, dims := [], wide := true,
    fields := [⟨"data", 0, 64, .rw, 0x0⟩] },
  { name := "STO_TEST_CHECK", base := 0x400020, dims := [], wide := false,
    fields := [⟨"check", 0, 8, .rw, 0x0⟩] },
  { name := "STO_TEST_CMD", base := 0x400028, dims := [], wide := false,
    fields := [⟨"op", 0, 2, .wo, 0x0⟩, ⟨"busy", 2, 1, .ro, 0x0⟩, ⟨"result", 4, 3, .ro, 0x0⟩] },
  { name := "STO_CE_LOGi_ADDR", base := 0x400400, dims := [(0x10, 16)], wide := true,
    fields := [⟨"word", 3, 45, .ro, 0x0⟩] },
  { name := "STO_CE_LOGi_INFO", base := 0x400408, dims := [(0x10, 16)], wide := false,
    fields := [⟨"count", 0, 16, .ro, 0x0⟩, ⟨"syndrome", 16, 8, .ro, 0x0⟩, ⟨"unit", 24, 6, .ro, 0x0⟩, ⟨"valid", 31, 1, .ro, 0x0⟩] },
  { name := "STO_UE_LOGi_ADDR", base := 0x400500, dims := [(0x10, 8)], wide := true,
    fields := [⟨"word", 3, 45, .ro, 0x0⟩] },
  { name := "STO_UE_LOGi_INFO", base := 0x400508, dims := [(0x10, 8)], wide := false,
    fields := [⟨"count", 0, 16, .ro, 0x0⟩, ⟨"syndrome", 16, 8, .ro, 0x0⟩, ⟨"unit", 24, 6, .ro, 0x0⟩, ⟨"valid", 31, 1, .ro, 0x0⟩] },
  { name := "STO_CE_COUNTb", base := 0x400100, dims := [(0x8, 48)], wide := false,
    fields := [⟨"ce", 0, 32, .ro, 0x0⟩] }]

/-- The register families of the window at 0x410000 (DMC). -/
def regsDmc : List RegFam := [
  { name := "DMC_ECC_CTRL", base := 0x410000, dims := [], wide := false,
    fields := [⟨"clear_ce_log", 0, 1, .wo, 0x0⟩, ⟨"clear_ue_log", 1, 1, .wo, 0x0⟩, ⟨"clear_counts", 2, 1, .wo, 0x0⟩, ⟨"log_full", 3, 1, .w1c, 0x0⟩, ⟨"test_en", 4, 1, .rw, 0x0⟩, ⟨"ce_thresh", 8, 24, .rw, 0x1000⟩] },
  { name := "DMC_UE_HEAD", base := 0x410008, dims := [], wide := false,
    fields := [⟨"index", 0, 3, .ro, 0x0⟩] },
  { name := "DMC_TEST_ADDR", base := 0x410010, dims := [], wide := true,
    fields := [⟨"word", 3, 45, .rw, 0x0⟩] },
  { name := "DMC_TEST_DATA", base := 0x410018, dims := [], wide := true,
    fields := [⟨"data", 0, 64, .rw, 0x0⟩] },
  { name := "DMC_TEST_CHECK", base := 0x410020, dims := [], wide := false,
    fields := [⟨"check", 0, 8, .rw, 0x0⟩] },
  { name := "DMC_TEST_CMD", base := 0x410028, dims := [], wide := false,
    fields := [⟨"op", 0, 2, .wo, 0x0⟩, ⟨"busy", 2, 1, .ro, 0x0⟩, ⟨"result", 4, 3, .ro, 0x0⟩] },
  { name := "DMC_CE_LOGi_ADDR", base := 0x410400, dims := [(0x10, 16)], wide := true,
    fields := [⟨"word", 3, 45, .ro, 0x0⟩] },
  { name := "DMC_CE_LOGi_INFO", base := 0x410408, dims := [(0x10, 16)], wide := false,
    fields := [⟨"count", 0, 16, .ro, 0x0⟩, ⟨"syndrome", 16, 8, .ro, 0x0⟩, ⟨"unit", 24, 6, .ro, 0x0⟩, ⟨"valid", 31, 1, .ro, 0x0⟩] },
  { name := "DMC_UE_LOGi_ADDR", base := 0x410500, dims := [(0x10, 8)], wide := true,
    fields := [⟨"word", 3, 45, .ro, 0x0⟩] },
  { name := "DMC_UE_LOGi_INFO", base := 0x410508, dims := [(0x10, 8)], wide := false,
    fields := [⟨"count", 0, 16, .ro, 0x0⟩, ⟨"syndrome", 16, 8, .ro, 0x0⟩, ⟨"unit", 24, 6, .ro, 0x0⟩, ⟨"valid", 31, 1, .ro, 0x0⟩] },
  { name := "DMC_CHnn_ERR", base := 0x410100, dims := [(0x8, 32)], wide := true,
    fields := [⟨"ce", 0, 32, .ro, 0x0⟩, ⟨"link_ce", 32, 32, .ro, 0x0⟩] },
  { name := "DMC_CFG", base := 0x410030, dims := [], wide := false,
    fields := [⟨"density", 0, 2, .rw, 0x2⟩, ⟨"grain", 4, 4, .rw, 0x4⟩, ⟨"chan_hash", 8, 1, .rw, 0x1⟩, ⟨"bank_hash", 9, 1, .rw, 0x1⟩, ⟨"link_ecc", 10, 1, .rw, 0x1⟩] },
  { name := "DMC_TRAIN_STATUS", base := 0x410038, dims := [], wide := false,
    fields := [⟨"trained", 0, 32, .ro, 0x0⟩] },
  { name := "DMC_RH_CFG", base := 0x410040, dims := [], wide := false,
    fields := [⟨"threshold", 0, 16, .rwc, 0x800⟩, ⟨"radius", 16, 2, .rwc, 0x1⟩] },
  { name := "DMC_IECCr_BASE", base := 0x410600, dims := [(0x20, 4)], wide := true,
    fields := [⟨"enable", 0, 1, .rw, 0x0⟩, ⟨"base", 12, 36, .rw, 0x0⟩] },
  { name := "DMC_IECCr_LIMIT", base := 0x410608, dims := [(0x20, 4)], wide := true,
    fields := [⟨"limit", 12, 36, .rw, 0x0⟩] },
  { name := "DMC_IECCr_CARVE", base := 0x410610, dims := [(0x20, 4)], wide := true,
    fields := [⟨"carve", 12, 36, .rw, 0x0⟩] }]

/-- The register families of the window at 0x420000 (GRD). -/
def regsGrd : List RegFam := [
  { name := "GRDn_RGNm_BASE", base := 0x420000, dims := [(0x1000, 28), (0x20, 64)], wide := true,
    fields := [⟨"base", 12, 36, .rwc, 0x0⟩] },
  { name := "GRDn_RGNm_LIMIT", base := 0x420008, dims := [(0x1000, 28), (0x20, 64)], wide := true, special := some .grdLimitReset,
    fields := [⟨"limit", 12, 36, .rwc, 0x0⟩] },
  { name := "GRDn_RGNm_ATTR", base := 0x420010, dims := [(0x1000, 28), (0x20, 64)], wide := true, special := some .grdAttrReset,
    fields := [⟨"valid", 0, 1, .rwc, 0x0⟩, ⟨"read", 1, 1, .rwc, 0x0⟩, ⟨"write", 2, 1, .rwc, 0x0⟩, ⟨"fetch", 3, 1, .rwc, 0x0⟩, ⟨"world", 4, 2, .rwc, 0x0⟩, ⟨"match", 6, 2, .rwc, 0x0⟩, ⟨"seat_set", 8, 4, .rwc, 0x0⟩, ⟨"seat", 12, 9, .rwc, 0x0⟩, ⟨"window", 21, 6, .rwc, 0x0⟩] },
  { name := "GRDn_CTRL", base := 0x420800, dims := [(0x1000, 28)], wide := false,
    fields := [⟨"delegate_first", 0, 7, .rw, 0x40⟩, ⟨"apply", 8, 1, .wo, 0x0⟩, ⟨"apply_busy", 9, 1, .ro, 0x0⟩] },
  { name := "GRDn_VIOL_ADDR", base := 0x420808, dims := [(0x1000, 28)], wide := true,
    fields := [⟨"addr", 0, 48, .ro, 0x0⟩] },
  { name := "GRDn_VIOL_INFO", base := 0x420810, dims := [(0x1000, 28)], wide := false,
    fields := [⟨"kind", 0, 2, .ro, 0x0⟩, ⟨"world", 2, 1, .ro, 0x0⟩, ⟨"seat_valid", 3, 1, .ro, 0x0⟩, ⟨"seat", 4, 9, .ro, 0x0⟩, ⟨"window", 13, 6, .ro, 0x0⟩, ⟨"status", 19, 1, .w1c, 0x0⟩, ⟨"count", 20, 12, .rs, 0x0⟩] }]

/-- The register families of the window at 0x440000 (DMA). -/
def regsDma : List RegFam := [
  { name := "DMAk_SRC", base := 0x440000, dims := [(0x40, 64)], wide := true,
    fields := [⟨"addr", 0, 64, .rw, 0x0⟩] },
  { name := "DMAk_DST", base := 0x440008, dims := [(0x40, 64)], wide := true,
    fields := [⟨"addr", 0, 64, .rw, 0x0⟩] },
  { name := "DMAk_PATTERN", base := 0x440010, dims := [(0x40, 64)], wide := true,
    fields := [⟨"pattern", 0, 64, .rw, 0x0⟩] },
  { name := "DMAk_CTRL", base := 0x440018, dims := [(0x40, 64)], wide := true,
    fields := [⟨"n", 0, 40, .rw, 0x0⟩, ⟨"priority", 40, 3, .rw, 0x0⟩, ⟨"src_fixed", 43, 1, .rw, 0x0⟩, ⟨"dst_fixed", 44, 1, .rw, 0x0⟩, ⟨"fill", 45, 1, .rw, 0x0⟩, ⟨"go", 48, 1, .wo, 0x0⟩, ⟨"abort", 49, 1, .wo, 0x0⟩] },
  { name := "DMAk_STATUS", base := 0x440020, dims := [(0x40, 64)], wide := true,
    fields := [⟨"bytes_done", 0, 40, .ro, 0x0⟩, ⟨"state", 40, 2, .ro, 0x0⟩, ⟨"command", 42, 1, .ro, 0x0⟩, ⟨"seat", 43, 9, .ro, 0x0⟩, ⟨"outcome", 52, 2, .ro, 0x0⟩] }]

/-- The register families of the window at 0x510000 (DPT). -/
def regsDpt : List RegFam := [
  { name := "DPTn_CFG", base := 0x510000, dims := [(0x1000, 16)], wide := false,
    fields := [⟨"mode", 0, 2, .rwc, 0x0⟩, ⟨"rate", 2, 3, .rwc, 0x3⟩, ⟨"edp_rate_idx", 5, 3, .rwc, 0x0⟩, ⟨"lanes", 8, 2, .rwc, 0x2⟩, ⟨"mst", 10, 1, .rwc, 0x0⟩, ⟨"lane_swap", 11, 1, .rwc, 0x0⟩, ⟨"sr_mode", 12, 2, .rwc, 0x0⟩, ⟨"sr_idle", 14, 8, .rwc, 0x8⟩] },
  { name := "DPTn_STATUS", base := 0x510008, dims := [(0x1000, 16)], wide := true,
    fields := [⟨"link", 0, 3, .ro, 0x0⟩, ⟨"hpd", 3, 1, .ro, 0x0⟩, ⟨"sink_rate", 4, 4, .ro, 0x0⟩, ⟨"sink_lanes", 8, 2, .ro, 0x0⟩, ⟨"sink_sr", 10, 2, .ro, 0x0⟩, ⟨"sink_dsc", 12, 1, .ro, 0x0⟩, ⟨"sink_mst", 13, 1, .ro, 0x0⟩, ⟨"config_result", 14, 3, .ro, 0x0⟩, ⟨"slots", 32, 6, .ro, 0x0⟩] },
  { name := "DPTn_STREAMi", base := 0x510010, dims := [(0x1000, 16), (0x8, 4)], wide := true,
    fields := [⟨"enable", 0, 1, .rwc, 0x0⟩, ⟨"head", 1, 5, .rwc, 0x0⟩, ⟨"dsc", 6, 1, .rwc, 0x0⟩, ⟨"audio", 7, 1, .rwc, 0x0⟩, ⟨"dsc_bpp", 16, 10, .rwc, 0xc0⟩, ⟨"dsc_slices", 26, 3, .rwc, 0x2⟩, ⟨"dsc_slice_h", 32, 16, .rwc, 0x10⟩, ⟨"depth", 48, 4, .rwc, 0x0⟩, ⟨"ports", 52, 12, .rwc, 0x0⟩] },
  { name := "DPTn_SINKi_EDIDj", base := 0x510800, dims := [(0x1000, 16), (0x200, 4), (0x8, 64)], wide := true,
    fields := [⟨"bytes", 0, 64, .ro, 0x0⟩] }]

/-- The register families of the window at 0x600000 (station pages). -/
def regsFs : List RegFam := [
  { name := "XXX_FS_STATUS", base := 0x600000, dims := [(0x100, 256)], wide := false,
    fields := [⟨"status", 0, 32, .w1c, 0x0⟩] },
  { name := "XXX_FS_FIRST", base := 0x600008, dims := [(0x100, 256)], wide := true,
    fields := [⟨"source", 0, 5, .ro, 0x0⟩, ⟨"cell", 6, 6, .ro, 0x0⟩, ⟨"valid", 12, 1, .w1c, 0x0⟩, ⟨"bell", 16, 48, .ro, 0x0⟩] },
  { name := "XXX_FS_COUNT", base := 0x600010, dims := [(0x100, 256)], wide := false,
    fields := [⟨"count", 0, 16, .rs, 0x0⟩] },
  { name := "XXX_FS_CTRL", base := 0x600018, dims := [(0x100, 256)], wide := false,
    fields := [⟨"test_en", 0, 1, .rwl, 0x0⟩, ⟨"lock", 1, 1, .w1s, 0x0⟩, ⟨"inj_parity", 2, 1, .w1s, 0x0⟩] },
  { name := "XXX_FS_INJECT", base := 0x600020, dims := [(0x100, 256)], wide := false,
    fields := [⟨"inject", 0, 32, .w1s, 0x0⟩] },
  { name := "XXX_FS_INJ_MASK", base := 0x600028, dims := [(0x100, 256)], wide := false, special := some .injMaskReset,
    fields := [⟨"has_checker", 0, 32, .ro, 0x0⟩] },
  { name := "XXX_FS_REACTj", base := 0x600040, dims := [(0x100, 256), (0x8, 4)], wide := true, special := some .reactReset,
    fields := [⟨"react0", 0, 8, .rwl, 0x0⟩, ⟨"react1", 8, 8, .rwl, 0x0⟩, ⟨"react2", 16, 8, .rwl, 0x0⟩, ⟨"react3", 24, 8, .rwl, 0x0⟩, ⟨"react4", 32, 8, .rwl, 0x0⟩, ⟨"react5", 40, 8, .rwl, 0x0⟩, ⟨"react6", 48, 8, .rwl, 0x0⟩, ⟨"react7", 56, 8, .rwl, 0x0⟩] }]

/-- The register families of the window at 0x800000 (seat pages). -/
def regsPage : List RegFam := [
  { name := "SEAT_ID", base := 0x800000, dims := [(0x1000, 512)], wide := false,
    fields := [⟨"seat", 0, 9, .ro, 0x0⟩, ⟨"pf", 9, 2, .ro, 0x0⟩, ⟨"is_vf", 11, 1, .ro, 0x0⟩, ⟨"vf_number", 12, 9, .ro, 0x0⟩, ⟨"link", 21, 2, .ro, 0x0⟩] },
  { name := "SEAT_STATE", base := 0x800008, dims := [(0x1000, 512)], wide := false,
    fields := [⟨"state", 0, 3, .ro, 0x0⟩, ⟨"over_quota", 3, 1, .ro, 0x0⟩, ⟨"secure_unavailable", 4, 1, .ro, 0x0⟩, ⟨"supervisor", 5, 1, .ro, 0x0⟩, ⟨"last_reset", 8, 2, .ro, 0x0⟩] },
  { name := "IRQ_PEND", base := 0x800010, dims := [(0x1000, 512)], wide := false,
    fields := [⟨"reply_thresh", 0, 8, .w1c, 0x0⟩, ⟨"head", 8, 1, .w1c, 0x0⟩, ⟨"touch", 9, 1, .w1c, 0x0⟩, ⟨"fault", 10, 1, .w1c, 0x0⟩, ⟨"handover", 11, 1, .w1c, 0x0⟩] },
  { name := "IRQ_MASK", base := 0x800018, dims := [(0x1000, 512)], wide := false,
    fields := [⟨"reply_thresh", 0, 8, .rw, 0xff⟩, ⟨"head", 8, 1, .rw, 0x1⟩, ⟨"touch", 9, 1, .rw, 0x1⟩, ⟨"fault", 10, 1, .rw, 0x1⟩, ⟨"handover", 11, 1, .rw, 0x1⟩] },
  { name := "BUDGET_VIEW", base := 0x800020, dims := [(0x1000, 512)], wide := true,
    fields := [⟨"class", 0, 4, .rw, 0x0⟩, ⟨"what", 4, 1, .rw, 0x0⟩, ⟨"credits", 32, 32, .ro, 0x0⟩] },
  { name := "DIRTY_LOG_BASE", base := 0x800028, dims := [(0x1000, 512)], wide := true,
    fields := [⟨"enable", 0, 1, .rwc, 0x0⟩, ⟨"active", 1, 1, .ro, 0x0⟩, ⟨"swap", 2, 1, .wo, 0x0⟩, ⟨"swap_busy", 3, 1, .ro, 0x0⟩, ⟨"half_log2", 4, 5, .rwc, 0xc⟩, ⟨"overflow", 9, 1, .w1c, 0x0⟩, ⟨"base", 12, 52, .rwc, 0x0⟩] },
  { name := "REPLY_BASE", base := 0x800030, dims := [(0x1000, 512)], wide := true,
    fields := [⟨"reply_log2", 0, 4, .rw, 0x6⟩, ⟨"base", 12, 52, .rw, 0x0⟩] },
  { name := "STATUS_BASE", base := 0x800038, dims := [(0x1000, 512)], wide := true,
    fields := [⟨"slots", 0, 5, .rw, 0x0⟩, ⟨"base", 12, 52, .rw, 0x0⟩] },
  { name := "RING_BASEn", base := 0x800100, dims := [(0x1000, 512), (0x8, 8)], wide := true,
    fields := [⟨"enable", 0, 1, .rw, 0x0⟩, ⟨"idle", 1, 1, .ro, 0x1⟩, ⟨"enable_result", 2, 2, .ro, 0x0⟩, ⟨"base", 12, 52, .rw, 0x0⟩] },
  { name := "RING_SIZE_PTRSn", base := 0x800140, dims := [(0x1000, 512), (0x8, 8)], wide := true,
    fields := [⟨"ring_log2", 0, 5, .rw, 0x6⟩, ⟨"reply_thresh", 16, 15, .rw, 0x0⟩, ⟨"cmd_rd", 32, 17, .ro, 0x0⟩, ⟨"reply_wr", 49, 15, .ro, 0x0⟩] },
  { name := "DOORBELLn", base := 0x800180, dims := [(0x1000, 512), (0x8, 8)], wide := true,
    fields := [⟨"cmd_wr", 0, 17, .rw, 0x0⟩, ⟨"reply_rd", 32, 15, .rw, 0x0⟩] }]

/-- The windows of the CSR space that hold registers: first offset, size, families (R618, R619, R623). -/
def regWindows : List (Nat × Nat × List RegFam) := [
  (0x0, 0x10000, regsMgt),
  (0x20000, 0x10000, regsAdm),
  (0x30000, 0x10000, regsTts),
  (0x40000, 0x10000, regsSeat),
  (0x50000, 0x10000, regsSec),
  (0x60000, 0x10000, regsHmn),
  (0x70000, 0x10000, regsClk),
  (0x80000, 0x10000, regsRst),
  (0x90000, 0x10000, regsPwr),
  (0xa0000, 0x10000, regsFlt),
  (0x100000, 0x100000, regsRnd),
  (0x200000, 0x10000, regsCmp),
  (0x210000, 0x10000, regsRlc),
  (0x220000, 0x20000, regsPrf),
  (0x240000, 0x10000, regsHd),
  (0x250000, 0x10000, regsCap),
  (0x260000, 0x10000, regsChk),
  (0x300000, 0x10000, regsVdc),
  (0x310000, 0x10000, regsAud),
  (0x320000, 0x10000, regsTch),
  (0x330000, 0x10000, regsHap),
  (0x400000, 0x10000, regsSto),
  (0x410000, 0x10000, regsDmc),
  (0x420000, 0x20000, regsGrd),
  (0x440000, 0x10000, regsDma),
  (0x510000, 0x10000, regsDpt),
  (0x600000, 0x10000, regsFs),
  (0x800000, 0x200000, regsPage)]

/-- The instance indices of an offset within a family, or `none`. -/
def dimsIndex : List (Nat × Nat) → Nat → Option (List Nat)
  | [], r => if r = 0 then some [] else none
  | (stride, count) :: ds, r =>
    if r / stride < count then (dimsIndex ds (r % stride)).map (r / stride :: ·) else none

/-- The first family of a list that holds a register at an offset, with the instance. -/
def famFind (off : Nat) : List RegFam → Option (RegFam × List Nat)
  | [] => none
  | f :: fs =>
    if f.base ≤ off then
      match dimsIndex f.dims (off - f.base) with
      | some ix => if regInstance f ix then some (f, ix) else none
      | none => famFind off fs
    else famFind off fs

/-- The register at an offset of the CSR map (R614, R625): its family and instance; `none` for a reserved one (R5). -/
def regFind (off : Nat) : Option (RegFam × List Nat) :=
  match regWindows.find? (fun w => w.1 ≤ off && off < w.1 + w.2.1) with
  | some w => famFind off w.2.2
  | none => none

/-- Bits `lo` to `lo + w - 1` as a mask. -/
def fieldMask (lo w : Nat) : Nat := (2 ^ w - 1) * 2 ^ lo

/-- The mask of the fields of a family whose access code satisfies `p`. -/
def famMask (p : RegAcc → Bool) (f : RegFam) : Nat :=
  f.fields.foldl (fun m x => if p x.acc then m + fieldMask x.lo x.width else m) 0

/-- The bits of a register that hold state: every field but those that read 0 (WO) and the reserved ones (R3, R7). -/
def regImpl (off : Nat) : Nat :=
  match regFind off with
  | some (f, _) => famMask (fun a => a != .wo) f
  | none => 0

/-- The reset value of the register at an offset; 0 where the offset is reserved (R5). -/
def regReset (off : Nat) : Nat :=
  match regFind off with
  | some (f, ix) =>
    match f.special with
    | some sp => specialReset sp ix
    | none => f.fields.foldl (fun v x => if x.acc = .wo then v else v + x.reset * 2 ^ x.lo) 0
  | none => 0

end Sys2Proof.Machine
end

