-- ==== Sys2Proof/Machine/State.lean ====
section
/-!
DEFINITION. Machine/State.lean: the state of the KC1680 as plain data, and the state right after reset.
Every architectural register lives in `csr` (its current value; the shadow of a field with access RWC) and `com`
(the committed value of RWC fields), keyed by CSR offset; the structures hold the state that the spec gives the
machine outside its registers. Every list keyed by a number is a sparse map (Machine/Bits.lean).
-/

namespace Sys2Proof.Machine

/-! ### The bell generator and the timetable sequencer (chapter 2) -/

/-- Lock states of the bell generator (R50). -/
inductive BellLock
  | free | acquiring | locked | holdover
deriving DecidableEq, Repr

/-- A bell setting: mode 0 FREE, 1 GENLOCK, 2 CAPTURE; rate num/den; multiplier; divider; capture port; phase (R53 to R55). -/
structure BellSet where
  mode : Nat
  num : Nat
  den : Nat
  mul : Nat
  div : Nat
  capPort : Nat
  phase : Nat
deriving DecidableEq, Repr

/-- The bell generator, the sync counters and the timetables. -/
structure Tts where
  /-- BELL_COUNT (R13). -/
  bell : Nat
  /-- Current period, 0 to 31. -/
  period : Nat
  /-- Whether the bell runs (R61, R592). -/
  running : Bool
  /-- Instant of the last bell edge, in fabric cycles. -/
  edgeAt : Nat
  /-- Length of the current bell in fabric cycles. -/
  len : Nat
  /-- Fractional accumulator of R45. -/
  acc : Nat
  /-- The setting in force. -/
  cur : BellSet
  /-- The setting held for a pending change (R56), and the bell of its request. -/
  held : Option BellSet
  reqBell : Nat
  lock : BellLock
  /-- Consecutive valid pulses (R50). -/
  pulses : Nat
  /-- Instant of the last valid pulse, and the interval that it closed. -/
  lastPulse : Option Nat
  meas : Option Nat
  /-- Whether the first alignment of R51 has been made; valid pulses since the last alignment pulse (R47). -/
  aligned : Bool
  divCount : Nat
  /-- Phase error still to slew away, and the lengthening owed to the next bell by a jump (R51). -/
  slew : Int
  jump : Nat
  /-- Bells below this count are blanked (R51, R59, R61). -/
  blankTo : Nat
  /-- PTM time of the last edge on each physical function, and per read path the snapshot of R57: count and PTM time. -/
  ptm : List Nat
  snaps : List (Nat × (Nat × Nat))
  /-- Sync counters and their values as sampled at the last commit point (R62, R164). -/
  sync : List (Nat × Word)
  sampled : List (Nat × Word)
  /-- Timetables as command numbers: being built or frozen for the next bell, pending, active (R66). -/
  ttNext : List Nat
  ttPending : List Nat
  ttActive : List Nat
deriving DecidableEq, Repr

/-! ### Commands (chapters 3 to 5) -/

/-- The stages of a command (R150): an open pass, received, accepted, started, ended. -/
inductive CmdStage
  | opened | received | accepted | started | ended
deriving DecidableEq, Repr

/-- A booked share: the credits of one class (and pipe or bank group) that a command holds in one bell (R73, R102). -/
structure Share where
  cmd : Nat
  seat : Nat
  bell : Nat
  cls : Nat
  unit : Nat
  n : Nat
deriving DecidableEq, Repr

/-- A command that CFE has fetched and whose final reply has not been written. -/
structure Cmd where
  /-- Number in the order of fetch. -/
  id : Nat
  seat : Nat
  ring : Nat
  /-- The packet, header first, and for a pass the words of its member RND_DRAW packets. -/
  words : List Word
  draws : List (List Word)
  stage : CmdStage
  /-- For a pass: sub-reason of the rejection that its members have earned, 0 for none (R144). -/
  bad : Nat
  /-- Seat sequence number (R159). -/
  seq : Nat
  /-- Bell and period of reception, and periods since (R70, R72). -/
  rBell : Nat
  rPeriod : Nat
  age : Nat
  /-- Deadline bell D, and the latest start as 32 × bell + period (R70, R75). -/
  dl : Nat
  latest : Nat
  /-- Conditions met so far (R132). -/
  fault : Bool
  timedOut : Bool
  squashed : Bool
  overrun : Bool
  degraded : Bool
  /-- Whether its final status word and reply are the only reply (R133). -/
  single : Bool
  /-- Reply entries still reserved (R122). -/
  reserved : Nat
  /-- Status-word slot held (R128). -/
  slot : Option Nat
  /-- Progress (R141) and final detail (Table 4.12). -/
  unitsDone : Nat
  unitsTotal : Nat
  part : Nat
  detail : Nat
  /-- Bell in which it ended, and the number that the next command fetched then would get. -/
  endBell : Nat
  endId : Nat
  /-- Writes issued whose responses have not returned (R150). -/
  inflight : Nat
  /-- To be squashed at its engine's next preemption point (R209). -/
  squashReq : Bool
  /-- What was reserved for it: a pool, a pipe, a slot (R642). -/
  res : List Nat
  /-- Its replies and status words are discarded (R118, R213). -/
  mute : Bool
deriving DecidableEq, Repr

/-- The command front end and the Registrar's queue. -/
structure Cfe where
  /-- Outstanding commands, in the order in which they were received (R100). -/
  cmds : List Cmd
  nextId : Nat
  /-- Next seat sequence number per seat (R159). -/
  seq : List (Nat × Nat)
  /-- Sequence number per status-word slot, keyed 128 × seat + 16 × ring + slot (R140). -/
  slotSeq : List (Nat × Nat)
  /-- A member packet of a pass that CFE holds and has not yet joined to the pass, per ring 8 × seat + ring (R144). -/
  held : List (Nat × List Word)
  /-- Where the round robin over rings stands, as 8 × seat + ring (R124). -/
  rr : Nat
deriving DecidableEq, Repr

/-- The Registrar. -/
structure Adm where
  /-- The booking ledger (R73). -/
  shares : List Share
  /-- Decisions made in the current bell (Table 16.4). -/
  decisions : Nat
  /-- Whether the management core decides (R28, R540): false while it is in reset or halted. -/
  mgtUp : Bool
deriving DecidableEq, Repr

/-! ### Seats (chapter 6) -/

/-- A seat reset in progress (R209 to R216): bell of the trigger, cause, whether by FLR, whether the seat becomes DISABLED. -/
structure SeatReset where
  seat : Nat
  bell : Nat
  cause : Nat
  byFlr : Bool
  toDisabled : Bool
deriving DecidableEq, Repr

/-- The SEAT block. -/
structure Seats where
  /-- Seat table, shadow and committed, keyed by entry and word (R188). -/
  tblShadow : List (Nat × Word)
  tbl : List (Nat × Word)
  /-- SEAT_VFMAP values in force, first seat and count per physical function (R179 to R181). -/
  vfFirst : List Nat
  vfTotal : List Nat
  vfEnable : List Bool
  /-- Vectors usable per seat, as applied at the last FLR or VF enable (Table 6.10). -/
  msixCount : List (Nat × Nat)
  /-- Budgets in force and from the next edge, keyed 16 × seat + class (R95). -/
  budget : List (Nat × Nat)
  budgetNext : List (Nat × Nat)
  /-- Quota limits, keyed 8 × seat + kind (R197). -/
  quota : List (Nat × Nat)
  resets : List SeatReset
  /-- Reclaims owed once their reply is written (R201). -/
  reclaims : List Nat
  /-- Whether a function may send MSI-X messages; messages owed, as seat and bit; messages sent, newest first (R149). -/
  msixOn : List (Nat × Bool)
  msixOwed : List (Nat × Nat)
  msixSent : List (Nat × Nat)
  /-- Operation that SEAT_TBL_CMD runs: op and result to come (R188). -/
  tblOp : Option Nat
deriving DecidableEq, Repr

/-! ### Worlds (chapter 7) -/

/-- Hand-over, reservations, trusted restart. -/
structure Worlds where
  /-- Units that move, the bell of the request, units whose bus-idle acknowledgement has come (R226). -/
  moving : List Nat
  hoBell : Nat
  idle : List Nat
  /-- Reservations in force, and a waiting raise with the bell of its write (R225). -/
  resDram : Nat
  resStore : Nat
  raiseDram : Option (Nat × Nat)
  raiseStore : Option (Nat × Nat)
  /-- Bells in which the last restarts began (R242), and whether quiesce is to be lifted by a ready. -/
  restarts : List Nat
  /-- Whether Beyloth runs, and whether the boot ROM is measuring. -/
  beyloth : Bool
  measuring : Bool
  /-- Interrupts to the secure core: station and source; those held pending by a restart (R244). -/
  secIrq : List (Nat × Nat)
  secHeld : List (Nat × Nat)
  /-- HANDOVER_DONE interrupts raised. -/
  hoDone : Nat
deriving DecidableEq, Repr

/-! ### Memory and DMA (chapter 8) -/

/-- The Store and DRAM controllers beyond their registers. -/
structure MemCtl where
  /-- Density, grain, hashes and link ECC as taken at initialisation (R262). -/
  cfg : Nat
  up : Bool
  /-- Protected inline-ECC ranges: base, limit, carve-out (R272, R273). -/
  iecc : List (Nat × Nat × Nat)
  /-- Units whose CE_THRESH has been raised since the last clear: bank, or 64 + channel (R256). -/
  threshed : List Nat
  /-- Row tables, keyed 16 × channel + bank: entry index, row and count (R269). -/
  rows : List (Nat × List (Nat × Nat × Nat))
  /-- Channels in self-refresh (R271). -/
  selfRefresh : Bool
  /-- The test operations in progress: Store and DMC result to come (R259). -/
  stoOp : Option Nat
  dmcOp : Option Nat
  /-- The region shadows that an apply in progress will commit, per guard, as they stood at its write: offset and value (R236). -/
  applying : List (Nat × List (Nat × Word))
  /-- Rows whose neighbours are to be refreshed before their bank serves a further request: channel, bank, row. -/
  rhPend : List (Nat × Nat × Nat)
  /-- Rows refreshed as neighbours so far, newest first: channel, bank, row. -/
  rhLog : List (Nat × Nat × Nat)
deriving DecidableEq, Repr

/-- A DMA channel at work (R280 to R292). -/
structure DmaCh where
  /-- The command it runs; none for a secure transfer. Entries from 64 up keep what a suspended command needs to resume. -/
  cmd : Option Nat
  /-- Bytes whose write responses have returned, and bytes of bursts that have been issued (R286, R289). -/
  off : Nat
  issued : Nat
  /-- Source bytes from before the copy, where the ends overlap; destination less source; the copy's free values (R288). -/
  snap : List Byte
  delta : Int
  seed : Nat
  /-- Stop at the next burst boundary: 0 no, 1 abort or squash, 2 suspend (R282, R292). -/
  stop : Nat
deriving DecidableEq, Repr

/-! ### The picture path (chapters 9 to 11) -/

/-- A layer: the packet words and the seat of its committed CMP_LAYER_SET ([] before the first), its latched surface and
sequence number, whether a surface latched at the last edge, and what roll call keeps for it (R301, R327, R334, R337). -/
structure Layer where
  par : List Word
  seat : Nat
  surf : Nat
  seq : Nat
  fresh : Bool
  /-- The surface latched at the edge before the last (R438). -/
  surfLast : Nat
  /-- Whether the last edge is an enabling edge of the layer (R341). -/
  enabling : Bool
  /-- Reading at the last advance. -/
  ref : Option Nat
  /-- Stamp block as sampled at the last edge. -/
  stamp : Option (Word × Word)
  /-- Content signature of the compositions of the current bell, and of the bell before (R338). -/
  sig : Option Nat
  sigLast : Option Nat
deriving DecidableEq, Repr

/-- A canvas: the packet words and the seat of its committed CMP_CANVAS_SET, and its tone curves, one per head entry. -/
structure Canvas where
  par : List Word
  seat : Nat
  curves : List (List Nat)
deriving DecidableEq, Repr

/-- A set or a layer change that waits for its commit (R302): command, seat, whether it is a canvas set, its layer or canvas, packet
words, curves, ring as 8 × seat + ring, whether a chain holds it. -/
structure PendSet where
  cmd : Nat
  seat : Nat
  canvas : Bool
  idx : Nat
  words : List Word
  curves : List (List Nat)
  ring : Nat
  held : Bool
deriving DecidableEq, Repr

/-- A pending flip or flip group (R325 to R327): layer, surface and sequence number of each entry; counter and value. -/
structure PendFlip where
  cmd : Nat
  seat : Nat
  items : List (Nat × Nat × Nat)
  fence : Option (Nat × Nat)
deriving DecidableEq, Repr

/-- A layer as a frame of a head draws it (R343 to R347): number, parameters, seat and surface of what is fetched, the
layer's own parameters, how it is drawn (0 plain, 1 HATCH, 2 DIM_BORDER, 3 FLAT, 4 ALTERNATE), and the cells to mark. -/
structure Item where
  layer : Nat
  src : List Word
  seat : Nat
  surf : Nat
  par : List Word
  draw : Nat
  mark : Nat
deriving DecidableEq, Repr

/-- A composition in hand (R78, R79, R322): its edge, the buffer it fills, tiles still to compose, tiles marked since its edge, what is
drawn, the canvas, the head's entry and tone curve, tiles written so far, content signatures so far by layer (R338), whether a reset of
the composer has stopped it. -/
structure Comp where
  edge : Nat
  buf : Nat
  todo : List Nat
  again : List Nat
  plan : List Item
  canvas : List Word
  entry : Nat
  curve : List Nat
  wrote : Nat
  sigs : List (Nat × Nat)
  dead : Bool
deriving DecidableEq, Repr

/-- Region of a frame as the Prefect checks it: CRC of the pixels that left, predicted CRC, pixels so far. -/
structure RegionRun where
  run : Nat
  pred : Nat
  count : Nat
deriving DecidableEq, Repr

/-- A head's own state. -/
structure HeadSt where
  /-- Timing applied: HDh_TIMING_H, HDh_TIMING_V, HDh_FRAME (R366). -/
  timH : Word
  timV : Word
  timF : Word
  /-- Composed-frame buffers, and buffers that wait for the last frame from them (R298, R299), as address and pages. -/
  bufs : List (Nat × Nat)
  old : List (Nat × Nat)
  /-- Buffer being filled; dirty tiles of the two buffers (R321); tiles left unwritten at the last composition of each. -/
  fill : Nat
  dirty0 : List Nat
  dirty1 : List Nat
  cut0 : List Nat
  cut1 : List Nat
  /-- Edge of the latest composition; the compositions in hand, oldest first. -/
  edge : Nat
  comps : List Comp
  /-- Frame being sent: its starting bell, whether it shows composed content, the buffer. -/
  frame : Option Nat
  shows : Bool
  /-- Whether a fault reset has blanked the rest of the frame (R542). -/
  blank : Bool
  scan : Nat
  /-- The next line of the frame to begin; tiles of the buffer shown that the frame takes from the other. -/
  line : Nat
  cuts : List Nat
  /-- Base addresses of the buffer that the frame shows and of the other; tally and mark settings as applied at its start; whether the head
  reads OFF for SLEEP until it resumes (R581, R583). -/
  view : List Nat
  tally : Word
  colors : Word
  asleep : Bool
  /-- The last good pair as its two lines of codes, the underrun pairs, events of the frame raised (R369 to R371). -/
  pair : List (List Nat)
  und : List Nat
  raised : Nat
  /-- Codes of the active line sent last (R298, R354). -/
  sent : List Nat
  /-- The Prefect's descriptor table as sampled at the last edge, the table and the verdicts of the frame, its region runs (R352, R355). -/
  descNext : List Byte
  desc : List Byte
  crits : List Nat
  runs : List RegionRun
  /-- Self-refresh: idle composing edges, starting bell of the capture frame, exit decision's bell, whether it is a selective update,
  tile rows composed since (R385 to R390). -/
  idle : Nat
  capture : Option Nat
  exit : Option Nat
  select : Bool
  rows : List Nat
  /-- Whether a change to the head, its canvas or its port was committed at the last edge; tiles marked since the head's last composing
  edge (R321). -/
  changed : Bool
  marked : List Nat
deriving DecidableEq, Repr

/-- A port: its applied set (DPTn_CFG, DPTn_STREAM0 to 3), whether bring-up runs, and per stream the bell from which its
frames reach the sink (R375, R380, R382). -/
structure PortSt where
  set : List Word
  bringup : Bool
  since : List Nat
deriving DecidableEq, Repr

/-- The composer, roll call, the heads and the ports. -/
structure Pic where
  layers : List (Nat × Layer)
  canvases : List (Nat × Canvas)
  heads : List (Nat × HeadSt)
  ports : List (Nat × PortSt)
  sets : List PendSet
  flips : List PendFlip
  /-- Stamp blocks of critical layers as sampled at the last edge, keyed 8 × head + layer (R334). -/
  critStamp : List (Nat × Word)
  /-- Region mismatches found, to be reported at the next edge: head and region (R356). -/
  mism : List (Nat × Nat)
  /-- Heads whose unit was unavailable when last looked at (R353). -/
  chkLost : List Nat
deriving DecidableEq, Repr

/-! ### Rendering, capture and codec (chapters 12 and 13) -/

/-- A program of a seat (R401 to R406): its ID, the load that compiles it, the execution models of its entry points (0 vertex,
4 fragment, 5 compute), its pages in the program pool, KiB counted, whether it has compiled, the unload that waits for it. -/
structure Prog where
  seat : Nat
  id : Nat
  load : Option Nat
  models : List Nat
  pages : List Nat
  kib : Nat
  ready : Bool
  unload : Option Nat
deriving DecidableEq, Repr

/-- A pass or dispatch at work. `cmd` is none for a secure submission (R432). -/
structure RndRun where
  cmd : Option Nat
  seat : Option Nat
  words : List Word
  draws : List (List Word)
  /-- Target description and state blocks as read at the decision (R411). -/
  target : List Word
  states : List (List Word)
  /-- Whether its work has begun; the set tables read then, by draw and set: entries as four words each (R429). -/
  begun : Bool
  sets : List (Nat × Nat × List Word)
  /-- Vertex turns ended: draw, vertex output words, assembled primitives with their output primitives. -/
  drawn : List (Nat × Nat × List (List Prim))
  /-- The tiles to be processed, once binning has ended (R413). -/
  tiles : Option (List Nat)
  /-- Tiles, or slices, whose turns have ended; tiles written, or slices finished whole; tiles skipped; workgroups finished. -/
  done : List Nat
  written : Nat
  skipped : Nat
  groups : Nat
  /-- Bytes metered (R431), whether a limit has been reached, whether no further turn starts. -/
  mem : Nat
  past : Bool
  stop : Bool
  fault : Bool
  /-- Workgroup counts of a dispatch. -/
  counts : Nat × Nat × Nat
deriving DecidableEq, Repr

/-- A surface ring in use (Tables 13.1 and 13.2): its owner's seat, or none for device addresses; its publications as slot and
seq, newest first; seq of the latest. -/
structure SurfRing where
  owner : Option Nat
  slots : Nat
  bind : Bool
  layer : Nat
  base : Nat
  stride : Nat
  pitch : Nat
  uv : Nat
  stamp : Nat
  records : Nat
  pubs : List (Nat × Nat)
  seq : Nat
deriving DecidableEq, Repr

/-- A picture that a decode session holds: its slot, its place in output order, its number in decoding order, its tainted block
units, whether it is a reference, whether it awaits output. -/
structure HeldPic where
  slot : Nat
  order : Int
  number : Nat
  taint : List Nat
  isRef : Bool
  wait : Bool
deriving DecidableEq, Repr

/-- A codec session (R447 to R472): the packet that opened it, its pipe (0 to 7 decode, 8 and 9 encode), the open command that
has not ended, the close command that has not ended. -/
structure Session where
  id : Nat
  seat : Option Nat
  pipe : Nat
  words : List Word
  opening : Option Nat
  ring : Option SurfRing
  held : List HeldPic
  number : Nat
  closing : Option Nat
  /-- Encoding: parameter block, buffer fill, sweep index of the next inter picture, columns owed per row, key requests (none is
  a request of the secure world), source of the last picture
  (0 none), its samples as converted: rows of luma, then rows of interleaved chroma (R466). -/
  block : List Word
  fill : Nat
  sweep : Nat
  owed : List (Nat × List Nat)
  keys : List (Option Nat)
  lastSeq : Nat
  input : List (List Nat)
deriving DecidableEq, Repr

/-- A capture port: its applied set (CAPn_CFG, CAPn_GEOM, CAPn_RING), its ring, the slot of the frame in progress, instants of the
last start received and of the start of the last frame written, whether HPD is high, whether its 10 ms pulse runs. -/
structure CapSt where
  set : List Word
  edid : List Word
  ring : Option SurfRing
  slot : Option Nat
  rxAt : Option Nat
  wroteAt : Option Nat
  hpd : Bool
  pulse : Bool
  /-- Whether the received shape has been reported as a mismatch (R443). -/
  mism : Bool
  /-- The latest publication at the last edge: slot and seq (R464). -/
  edgePub : Option (Nat × Nat)
deriving DecidableEq, Repr

/-- A decode or encode at work on a pipe (R452): its command, or none for a secure submission (R472), session and packet; whether one of its
pictures is in progress, the slot that a decoded picture is to fill, the source of an encoded one (port, slot and seq of a capture), whether
it is coded as a key picture, the requests that it answers, the bell in which it started. Then: pictures finished, pictures output (for an
encode, coded), pictures DEGRADED (with cut rows), bytes read or written, whether the bitstream has ended, a limit has been reached, it is to
stop, it has failed. -/
structure CodecRun where
  cmd : Option Nat
  pipe : Nat
  sess : Nat
  words : List Word
  active : Bool
  slot : Option Nat
  src : Option (Nat × Nat × Nat)
  key : Bool
  reqs : List (Option Nat)
  bell : Option Nat
  finished : Nat
  output : Nat
  degraded : Nat
  bytes : Nat
  ended : Bool
  past : Bool
  stop : Bool
  fault : Bool
deriving DecidableEq, Repr

/-- Rendering, capture and codec. -/
structure Vid where
  progs : List Prog
  runs : List RndRun
  caps : List (Nat × CapSt)
  sess : List Session
  /-- Turns that run: core, command (none for the secure submission), draw, tile or slice. -/
  turns : List (Nat × Option Nat × Nat)
  /-- The queue whose background turn was taken last (R400). -/
  lastQueue : Nat
  /-- Core masks in force per queue, and the commands for which cores that leave still wait (R398). -/
  masks : List (Nat × (Nat × List Nat))
  /-- The commands for which a reduction of the render clock waits (R20). -/
  clkWait : List Nat
  /-- Decodes and encodes at work. -/
  codec : List CodecRun
deriving DecidableEq, Repr

/-! ### Audio, touch and haptics (chapters 14 and 15) -/

/-- A crosspoint node (R482 to R485): its level in 1/64 dB as a fraction, none for OFF, and its ramp: start, target, samples, samples
done, whether it ends OFF; whether its word in the Store is uncorrectable. -/
structure Node where
  level : Option (Int × Nat)
  ramp : Option ((Int × Nat) × (Int × Nat) × Nat × Nat × Bool)
  bad : Bool
deriving DecidableEq, Repr

/-- The stages of a bus (R489 to R492): EQ bands as packet words, delay, limiter threshold and release. -/
structure Stages where
  eq : List Word
  delay : Option Nat
  limit : Option (Nat × Nat)
deriving DecidableEq, Repr

/-- The signal state of a bus's stages: equaliser history, delay line, lookahead, limiter gain. -/
structure StageRun where
  hist : List Nat
  line : List Nat
  look : List Nat
  gain : Nat
deriving DecidableEq, Repr

/-- The stages of a bus before a change (R493): their parameters, equaliser history and limiter gain, which stages are changed (bit 0 EQ,
1 DELAY, 2 LIMITER), the samples of the crossfade that are left. -/
structure OldStages where
  st : Stages
  hist : List Nat
  gain : Nat
  which : Nat
  left : Nat
deriving DecidableEq, Repr

/-- A bus: its stages and their signal state, the stages before a change, its latest outputs, the last first. -/
structure Bus where
  st : Stages
  run : StageRun
  old : Option OldStages
  outq : List Nat
deriving DecidableEq, Repr

/-- A host stream (R499 to R501): its ID, seat, open command and packet words, frames moved, frames captured in the last block and not yet
written, whether it fades out (samples left), its close, whether an access of it failed. -/
structure AudStream where
  id : Nat
  seat : Nat
  cmd : Nat
  words : List Word
  moved : Nat
  queued : Nat
  fade : Option Nat
  close : Option Nat
  err : Bool
deriving DecidableEq, Repr

/-- An input converter (R487): source samples, the last first; fade position and direction; whether it has locked to its source before. -/
structure AudIn where
  hist : List Nat
  fade : Nat
  up : Bool
  seen : Bool
deriving DecidableEq, Repr

/-- A TDM port: its applied set (CFG, OUTMAP0, OUTMAP1), the slots it drove last. -/
structure TdmSt where
  set : List Word
  out : List Nat
deriving DecidableEq, Repr

/-- Audio. -/
structure Aud where
  nodes : List (Nat × Node)
  buses : List (Nat × Bus)
  streams : List AudStream
  inputs : List (Nat × AudIn)
  tdm : List (Nat × TdmSt)
  /-- Samples since chip reset; latency L of R477, and the one before a change with the samples of the crossfade that are left; fade of
  every output (R475): position, direction, the source of the sample clock that follows and the one in force (0 FABRIC, 1 + 2 × port). -/
  n : Nat
  lat : Nat
  latOld : Option (Nat × Nat)
  fade : Nat
  fadeUp : Bool
  clkNext : Option Nat
  clkNow : Nat
  /-- Routes whose ramps start with the next block, and effects that apply at the next edge: command and packet words. -/
  routes : List (Option Nat × List Word)
  effects : List (Nat × List Word)
  /-- Last sample of each DP transmit channel, keyed 32 × port + 8 × stream + channel. -/
  dp : List (Nat × Nat)
deriving DecidableEq, Repr

/-- A touch contact: id and position in 1/256 node. -/
structure Contact where
  id : Nat
  x : Nat
  y : Nat
deriving DecidableEq, Repr

/-- A touch port (R509 to R523): its APPLY packet and panel block, its seat (none for a secure port), the configurations that apply
at the next edge and the self-tests that replace a scan, its running self-test, its baselines, counters and last raw counts (nodes in raster
order, then self channels), contacts, touched and non-idle self channels, channels force-released since the last report, its report
sequence, consecutive discarded scans. -/
structure Tch where
  words : List Word
  panel : List Word
  seat : Option Nat
  pend : List (Option Nat × List Word × List Word)
  test : Option (Option Nat × List Word)
  base : List Nat
  drift : List Nat
  neg : List Nat
  contacts : List Contact
  raw : List Nat
  keys : Nat
  busy : Nat
  forced : Nat
  fresh : Bool
  seq : Nat
  bad : Nat
  /-- Whether a scan runs, whether it is noisy, whether it is the self-test. -/
  scan : Bool
  noisy : Bool
  testScan : Bool
  /-- An approach ends the doze at the next scheduled scan; the next report is the first after doze. -/
  approach : Bool
  woke : Bool
  /-- Bell of the last failed bring-up. -/
  failBell : Nat
  /-- The word of the sliders in the last report. -/
  sliders : Nat
deriving DecidableEq, Repr

/-- A start request of a haptic channel: the command of a HAP_PLAY, or none for a hit and for the secure submission (`sec`); its effect
slot. -/
structure HapReq where
  cmd : Option Nat
  sec : Bool
  slot : Nat
deriving DecidableEq, Repr

/-- An effect at play (R528 to R530): its command and descriptor, its phase (1 DRIVE, 2 BRAKE, 3 SETTLE), half-cycle of the phase and frame in
it, its length in frames, frames driven, frames braked or settled, the polarity of the half-cycle, the latest 16 sensed samples (the last
first), whether it was cut short or cut at max_on, bell of onset. -/
structure HapPlay where
  cmd : Option Nat
  sec : Bool
  eff : List Word
  phase : Nat
  half : Nat
  frame : Nat
  len : Nat
  driven : Nat
  after : Nat
  pol : Bool
  sense : List Int
  cutShort : Bool
  overrun : Bool
  onset : Nat
deriving DecidableEq, Repr

/-- A haptic channel: its effect slots, the effect at play, the waiting request, its frame count and the runs of counted frames
(start, length), the last frame sent (drive, drive_en, hiz). -/
structure Hap where
  effects : List (Nat × List Word)
  play : Option HapPlay
  wait : Option HapReq
  n : Nat
  runs : List (Nat × Nat)
  sent : Int × Bool × Bool
deriving DecidableEq, Repr

/-- Audio, touch and haptics. -/
structure Med where
  aud : Aud
  tch : List (Nat × Tch)
  hap : List (Nat × Hap)
deriving DecidableEq, Repr

/-! ### Faults, check-value units, clocks, power (chapters 16, 17) -/

/-- A check-value unit (R553 to R563): its attachment (0 none, 1 by register, 2 by command, 3 the Prefect), and what it computes. -/
structure ChkUnit where
  att : Nat
  /-- Whether the attachment is in force: a command holds the unit from its acceptance, and snoops from its edge X (R561). -/
  on : Bool
  src : Nat
  poly : Nat
  seat : Nat
  area : Nat
  /-- The attach command that has not ended, and a detach command that waits for its edge. -/
  cmd : Option Nat
  det : Option Nat
  /-- Running CRC register and bytes fed to it; whether the running frame was fed from its first byte. -/
  run : Nat
  fed : Nat
  whole : Bool
  /-- CRC of the last frame that ended in this bell, and how many did. -/
  done : Option Nat
  frames : Nat
  /-- Latches made for the attachment; whether SOURCE_LOST has been raised for its source. -/
  latches : Nat
  lost : Bool
deriving DecidableEq, Repr

/-- Safe state and interrupt lines. -/
structure Flt where
  safe : Bool
  /-- Interrupts and non-maskable traps to the management core, as station and source, newest first (R540, R541). -/
  mgtIrq : List (Nat × Nat)
  mgtNmi : List (Nat × Nat)
  /-- Blocks that have received a fault reset, newest first (R542). -/
  blockResets : List Nat
  /-- Pages whose parity injection has been made. -/
  parity : List Nat
deriving DecidableEq, Repr

/-- Clocks. -/
structure Clk where
  /-- PLLs whose domain still runs directly from HOSC (R569), and PLLs that are off. -/
  direct : List Nat
  off : List Nat
  /-- Consecutive windows of at most 0.06% error (R575). -/
  goodWindows : Nat
  /-- Gate requests that wait for the acknowledgement: block, and whether a power transition made it (R578). -/
  gateReq : List (Nat × Bool)
deriving DecidableEq, Repr

/-- A PCIe request that arrived in DEEP_SLEEP or WAKING (R586, R634): a CSR write, a CSR read, an FLR, a write of VF Enable. -/
inductive HeldReq
  | csr (p : Path) (off size : Nat) (v : Word)
  | read (p : Path) (off size : Nat)
  | flr (seat : Nat)
  | vfEnable (pf : Nat) (on : Bool)
deriving DecidableEq, Repr

/-- Start-up and power states. -/
structure Pwr where
  straps : Straps
  /-- Last completed step of Table 17.14. -/
  boot : Nat
  /-- Links whose PERST_N is high, links that are trained. -/
  perst : List Nat
  links : List Nat
  /-- Bell of the SLEEP request; whether it goes on to DEEP_SLEEP (R581, R584); RUN asked for at the next edge. -/
  sleepReq : Nat
  deep : Bool
  runReq : Bool
  /-- The bell from whose edge heads that read OFF for SLEEP resume (R583). -/
  resume : Nat
  /-- PCIe writes held by the endpoint (R586, R634), and a wake that waits for entry to end (R595). -/
  heldReqs : List HeldReq
  wakeReq : Nat
  /-- Whether the rails are up. -/
  rails : Bool
deriving DecidableEq, Repr

/-- Why the machine stops with a fault. No command of this block does: its errors are recorded at stations and answered
with statuses, and the machine goes on (safe: the type is empty of cases a run can meet). -/
inductive Fault
  /-- Raised by no command. Safe. -/
  | none
deriving DecidableEq, Repr

/-- Why a command has no meaning. -/
inductive Refusal
  /-- Raised by an arm of `exec` whose command is not modelled yet. Safe: nothing follows from it. -/
  | notModelled (mnemonic : String)
deriving DecidableEq, Repr

/-- The state of the block. -/
structure State where
  /-- Commands that wait, first in, first out. -/
  pending : List Instr
  /-- Registers by CSR offset: current values, shadows of RWC fields. -/
  csr : List (Nat × Word)
  /-- Committed values of registers with RWC fields. -/
  com : List (Nat × Word)
  /-- Memory by byte: device memory at its device address, host memory of link `l` at `(l + 1) × 2^64 +` bus address. -/
  mem : List Host.Cell
  /-- Words of protected memory whose stored check bits differ from the code of their data: word address to difference (R249). -/
  ecc : List (Nat × Byte)
  /-- What the last register read, or the last read of a memory transaction (its first 8 bytes), returned. -/
  rdata : Word
  /-- Counter of free values (the model's own). -/
  fv : Nat
  tts : Tts
  cfe : Cfe
  adm : Adm
  seats : Seats
  worlds : Worlds
  memc : MemCtl
  dma : List (Nat × DmaCh)
  chk : List (Nat × ChkUnit)
  pic : Pic
  vid : Vid
  med : Med
  flt : Flt
  clk : Clk
  pwr : Pwr
deriving DecidableEq, Repr

/-- The bell setting after reset: FREE, 60 Hz (Tables 2.2 to 2.4). -/
def bellSetReset : BellSet := { mode := 0, num := 60, den := 1, mul := 1, div := 1, capPort := 0, phase := 0 }

/-- The bell generator after reset. -/
def ttsReset : Tts :=
  { bell := 0, period := 0, running := false, edgeAt := 0, len := 20000000, acc := 0, cur := bellSetReset, held := none,
    reqBell := 0, lock := .free, pulses := 0, lastPulse := none, meas := none, aligned := false, divCount := 0, slew := 0,
    jump := 0, blankTo := 0, ptm := [0, 0, 0, 0], snaps := [], sync := [], sampled := [], ttNext := [], ttPending := [],
    ttActive := [] }

/-- The SEAT block after reset (R186, Table 6.2). -/
def seatsReset : Seats :=
  { tblShadow := [], tbl := [], vfFirst := [4, 131, 258, 385], vfTotal := [127, 127, 127, 127],
    vfEnable := [false, false, false, false], msixCount := [], budget := [], budgetNext := [], quota := [], resets := [],
    reclaims := [], msixOn := [], msixOwed := [], msixSent := [], tblOp := none }

/-- The worlds after reset: every unit normal (R218). -/
def worldsReset : Worlds :=
  { moving := [], hoBell := 0, idle := [], resDram := 0, resStore := 0, raiseDram := none, raiseStore := none,
    restarts := [], beyloth := false, measuring := true, secIrq := [], secHeld := [], hoDone := 0 }

/-- The memory controllers after reset. -/
def memCtlReset : MemCtl :=
  { cfg := 0x742, up := false, iecc := [], threshed := [], rows := [], selfRefresh := false, stoOp := none, dmcOp := none,
    applying := [], rhPend := [], rhLog := [] }

/-- The picture path after reset. -/
def picReset : Pic :=
  { layers := [], canvases := [], heads := [], ports := [], sets := [], flips := [], critStamp := [], mism := [], chkLost := [] }

/-- Rendering, capture and codec after reset: every queue may use every core (Table 12.2). -/
def vidReset : Vid := { progs := [], runs := [], caps := [], sess := [], turns := [], lastQueue := 15, masks := [], clkWait := [], codec := [] }

/-- Audio, touch and haptics after reset. -/
def medReset : Med :=
  { aud := { nodes := [], buses := [], streams := [], inputs := [], tdm := [], n := 0, lat := 103, latOld := none, fade := 96, fadeUp := true,
             clkNext := none, clkNow := 0, routes := [], effects := [], dp := [] }
    tch := [], hap := [] }

/-- The state right after reset: POR_N has risen, the boot ROM starts on HOSC (R592 step 1). -/
def State.reset : State :=
  { pending := [], csr := [], com := [], mem := [], ecc := [], rdata := 0, fv := 0
    tts := ttsReset
    cfe := { cmds := [], nextId := 0, seq := [], slotSeq := [], held := [], rr := 0 }
    adm := { shares := [], decisions := 0, mgtUp := false }
    seats := seatsReset
    worlds := worldsReset
    memc := memCtlReset
    dma := []
    chk := []
    pic := picReset
    vid := vidReset
    med := medReset
    flt := { safe := false, mgtIrq := [], mgtNmi := [], blockResets := [], parity := [] }
    clk := { direct := [0, 3, 4], off := [], goodWindows := 0, gateReq := [] }
    pwr := { straps := ⟨0, 0⟩, boot := 1, perst := [], links := [], sleepReq := 0, deep := false, runReq := false, resume := 0,
             heldReqs := [], wakeReq := 0, rails := true } }

end Sys2Proof.Machine
end

