-- ==== Sys2Proof/Machine/Ops.lean ====
section
/-!
DEFINITION. Machine/Ops.lean: what a step can do to the state (`Eff`), programs of such effects (`Act`), and the named
operations over registers, memory and commands. Every meaning is an `Act`, so what no effect does, no step does.
-/

namespace Sys2Proof.Machine

/-! ### Registers -/

/-- Reset value of a register as a word. -/
def regDflt (off : Nat) : Word := BitVec.ofNat 64 (regReset off)

/-- Current value of a register (the shadow of an RWC field). -/
def State.rd (s : State) (off : Nat) : Word := mapGet regDflt off s.csr

/-- Committed value of a register (R9). -/
def State.cm (s : State) (off : Nat) : Word := mapGet regDflt off s.com

/-- A field of a register's current value. -/
def State.fld (s : State) (off lo w : Nat) : Nat := wBits (s.rd off) lo w

/-- One bit of a register's current value. -/
def State.bitAt (s : State) (off i : Nat) : Bool := wBit (s.rd off) i

/-- A field of a register's committed value. -/
def State.cfld (s : State) (off lo w : Nat) : Nat := wBits (s.cm off) lo w

/-- A word with its reserved and write-only bits cleared (R3, R7). -/
def regMask (off : Nat) (v : Word) : Word := v &&& BitVec.ofNat 64 (regImpl off)

/-! ### Memory cells -/

/-- What a byte of memory that nothing has written reads as (assumption 2). -/
def memDflt (_ : Nat) : Byte := 0

/-- The key of a byte of host memory behind a link. -/
def hostKey (link addr : Nat) : Nat := (link + 1) * 2 ^ 64 + addr % 2 ^ 64

/-- The byte at a key. -/
def memGet (m : List Host.Cell) (k : Nat) : Byte := mapGet memDflt k m

/-- Memory with bytes stored from a key up. -/
def memPut : Nat → List Byte → List Host.Cell → List Host.Cell
  | _, [], m => m
  | k, b :: bs, m => memPut (k + 1) bs (mapPut memDflt k b m)

/-- The canonical form of memory: keys strictly rising, no listed byte equal to what an unlisted one reads as. -/
def Memory.wf (m : List Host.Cell) : Bool := mapWf memDflt m

/-- The byte of memory at a key. -/
def State.byte (s : State) (k : Nat) : Byte := memGet s.mem k

/-- `n` bytes of memory from a key up. -/
def State.bytesAt (s : State) (k n : Nat) : List Byte := (List.range n).map fun i => s.byte (k + i)

/-! ### Chip resets (R587) -/

/-- Host memory: what lies outside the device's own memories. -/
def hostCells (m : List Host.Cell) : List Host.Cell := m.filter fun c => decide (2 ^ 64 ≤ c.1)

/-- The registers that every chip reset but power-on keeps: FLT_CAUSE, RST_CAUSE, HOSC code and trimmed (Table 17.10). -/
def keptRegs (s : State) : List (Nat × Word) :=
  mapPut regDflt Reg.clkHosc (wSet (wSet (regDflt Reg.clkHosc) 8 8 (s.fld Reg.clkHosc 8 8)) 16 1 (s.fld Reg.clkHosc 16 1))
    (mapPut regDflt Reg.fltCause (s.rd Reg.fltCause) [])

/-- Start-up from the straps: a reserved link strap halts the boot ROM before step 1 ends (Table 17.13). -/
def bootPwr (st : Straps) : Pwr := { State.reset.pwr with straps := st, boot := if st.link = 3 then 0 else 1 }

/-- The state after a power-on reset: nothing kept but what lies outside the chip (Table 17.10). -/
def powerOnState (st : Straps) (s : State) : State :=
  { State.reset with pending := s.pending, mem := hostCells s.mem, rdata := s.rdata, fv := s.fv
                     pwr := bootPwr st }

/-- A register map with one register set; its reserved bits stay 0. -/
def regPut (off : Nat) (v : Word) (m : List (Nat × Word)) : List (Nat × Word) := mapPut regDflt off (regMask off v) m

/-- The state after any other chip reset (Table 17.10), with what RST_CAUSE records of it (Table 17.11); memory contents are no register
and stay (assumption 5). -/
def chipResetState (st : Straps) (cause : Word) (s : State) : State :=
  { State.reset with pending := s.pending, mem := s.mem, ecc := s.ecc, rdata := s.rdata, fv := s.fv
                     csr := regPut Reg.rstCause cause (keptRegs s)
                     pwr := bootPwr st }

/-! ### Effects and programs of effects -/

/-- Whether an offset is that of a reaction-mask register, FS_REACT0 to 3 of a station page (R540). -/
def reactReg (off : Nat) : Bool := decide (0x600000 ≤ off) && decide (off < 0x610000) && decide (0x40 ≤ off % 0x100) && decide (off % 0x100 < 0x60)

/-- The effects of which every step is made. -/
inductive Eff
  /-- Set a register's current value, of any register but a reaction mask; reserved bits stay 0. -/
  | csr (off : Nat) (v : Word)
  /-- Set a reaction mask. Only a register write has this effect. -/
  | react (off : Nat) (v : Word)
  /-- Set a register's committed value. -/
  | com (off : Nat) (v : Word)
  /-- Store bytes from a key up. -/
  | mem (k : Nat) (bs : List Byte)
  /-- Set the difference of a protected word's stored check bits from the code of its data. -/
  | ecc (w : Nat) (d : Byte)
  /-- Give the data of a register read. -/
  | rdata (v : Word)
  /-- Use up one free value. -/
  | tick
  /-- Enter the safe state (R548). -/
  | safe
  /-- Reset the chip: at power-on, or by another kind (R587). -/
  | powerOn (st : Straps)
  | chipReset (st : Straps) (cause : Word)
  /-- Change the state outside registers and memory, one unit at a time. -/
  | tts (f : Tts → Tts)
  | cfe (f : Cfe → Cfe)
  | adm (f : Adm → Adm)
  | seats (f : Seats → Seats)
  | worlds (f : Worlds → Worlds)
  | memc (f : MemCtl → MemCtl)
  | dma (ch : Nat) (v : DmaCh)
  | chk (u : Nat) (v : ChkUnit)
  | pic (f : Pic → Pic)
  | vid (f : Vid → Vid)
  | med (f : Med → Med)
  | flt (f : Flt → Flt)
  | clk (f : Clk → Clk)
  | pwr (f : Pwr → Pwr)

/-- An idle DMA channel. -/
def dmaIdle (_ : Nat) : DmaCh := { cmd := none, off := 0, issued := 0, snap := [], delta := 0, seed := 0, stop := 0 }

/-- A check-value unit without attachment. -/
def chkIdle (_ : Nat) : ChkUnit :=
  { att := 0, on := false, src := 0, poly := 0, seat := 0, area := 0, cmd := none, det := none, run := 0, fed := 0, whole := false,
    done := none, frames := 0, latches := 0, lost := false }

/-- What one effect does to the state. -/
def applyEff : Eff → State → State
  | .csr off v, s => { s with csr := if reactReg off then s.csr else regPut off v s.csr }
  | .react off v, s => { s with csr := if reactReg off then regPut off v s.csr else s.csr }
  | .com off v, s => { s with com := regPut off v s.com }
  | .mem k bs, s => { s with mem := memPut k bs s.mem }
  | .ecc w d, s => { s with ecc := mapPut (fun _ => 0) w d s.ecc }
  | .rdata v, s => { s with rdata := v }
  | .tick, s => { s with fv := s.fv + 1 }
  | .safe, s => { s with flt := { s.flt with safe := true } }
  | .powerOn st, s => powerOnState st s
  | .chipReset st cause, s => chipResetState st cause s
  | .tts f, s => { s with tts := f s.tts }
  | .cfe f, s => { s with cfe := f s.cfe }
  | .adm f, s => { s with adm := f s.adm }
  | .seats f, s => { s with seats := f s.seats }
  | .worlds f, s => { s with worlds := f s.worlds }
  | .memc f, s => { s with memc := f s.memc }
  | .dma ch v, s => { s with dma := mapPut dmaIdle ch v s.dma }
  | .chk u v, s => { s with chk := mapPut chkIdle u v s.chk }
  | .pic f, s => { s with pic := f s.pic }
  | .vid f, s => { s with vid := f s.vid }
  | .med f, s => { s with med := f s.med }
  | .flt f, s => { s with flt := { f s.flt with safe := s.flt.safe } }
  | .clk f, s => { s with clk := f s.clk }
  | .pwr f, s => { s with pwr := f s.pwr }

/-- A program of effects: nothing, one effect, one program after another, a program that depends on the state it meets. -/
inductive Act
  | skip
  | eff (e : Eff)
  | seq (a b : Act)
  | ask (k : State → Act)

/-- Whether an effect ends what its step does: the entry into the safe state, which freezes the registers as they are (R549), and a
reset of the chip. -/
def Eff.halts : Eff → Bool
  | .safe => true
  | .powerOn _ => true
  | .chipReset _ _ => true
  | _ => false

/-- Run a program of effects; the flag says whether an effect has ended the step. -/
def runGo : Act → State → State × Bool
  | .skip, s => (s, false)
  | .eff e, s => (applyEff e s, e.halts)
  | .seq a b, s =>
    match runGo a s with
    | (s1, true) => (s1, true)
    | (s1, false) => runGo b s1
  | .ask k, s => runGo (k s) s

/-- The state after a program of effects. -/
def runAct (a : Act) (s : State) : State := (runGo a s).1

/-- Programs one after another. -/
def acts : List Act → Act
  | [] => .skip
  | [a] => a
  | a :: as => .seq a (acts as)

/-- A program under a condition. -/
def actIf (c : Bool) (a : Act) : Act := if c then a else .skip

/-- A program under a condition on the state it meets. -/
def whenS (c : State → Bool) (a : Act) : Act := .ask fun s => if c s then a else .skip

/-- A program for each element of a list, in order. -/
def each {α : Type} (xs : List α) (f : α → Act) : Act := acts (xs.map f)

/-- A program for the value of an option. -/
def actOpt {α : Type} (o : Option α) (f : α → Act) : Act :=
  match o with
  | some x => f x
  | none => .skip

/-- What a command's meaning answers: in the safe state, without power, and for operands that no event of the block has, nothing changes
(R548, R549); else its program of effects is run. -/
def live (ok : Bool) (a : Act) (s : State) : Host.Outcome State Fault Refusal :=
  .next (if s.flt.safe || !s.pwr.rails || !ok then s else runAct a s)

/-! ### Register operations -/

/-- Set a register's current value. -/
def setReg (off : Nat) (v : Word) : Act := .eff (.csr off v)

/-- Set a field of a register's current value. -/
def setFld (off lo w x : Nat) : Act := .ask fun s => .eff (.csr off (wSet (s.rd off) lo w x))

/-- Set a field of a register's committed value. -/
def setComFld (off lo w x : Nat) : Act := .ask fun s => .eff (.com off (wSet (s.cm off) lo w x))

/-- Set bits of a register's current value. -/
def setBits (off m : Nat) : Act := .ask fun s => .eff (.csr off (s.rd off ||| BitVec.ofNat 64 m))

/-- Clear bits of a register's current value. -/
def clearBits (off m : Nat) : Act := .ask fun s => .eff (.csr off (s.rd off &&& ~~~ BitVec.ofNat 64 m))

/-- Return a register to its reset value, current and committed. -/
def resetReg (off : Nat) : Act := acts [.eff (.csr off (regDflt off)), .eff (.com off (regDflt off))]

/-! ### Time -/

/-- The current period counted from bell 0: 32 × bell + period. -/
def State.now (s : State) : Nat := 32 * s.tts.bell + s.tts.period

/-- Whether the seat's page, a register, is on the map of seat numbers. -/
def seatOk (n : Nat) : Bool := n < 512

/-! ### Commands -/

/-- The outstanding command with a number. -/
def State.cmd? (s : State) (id : Nat) : Option Cmd := s.cfe.cmds.find? fun c => c.id = id

/-- Change one command. -/
def cmdUpd (id : Nat) (f : Cmd → Cmd) : Act :=
  .eff (.cfe fun c => { c with cmds := mapIf (fun x => x.id = id) f c.cmds })

/-- Run a program on an outstanding command, if there is one. -/
def onCmd (id : Nat) (k : State → Cmd → Act) : Act :=
  .ask fun s => match s.cmd? id with
    | some c => k s c
    | none => .skip

/-- Take a command from the list of outstanding commands. -/
def cmdDrop (id : Nat) : Act := .eff (.cfe fun c => { c with cmds := c.cmds.filter fun x => x.id != id })

/-- Free the shares that a command holds in bells after the current one (R76, R106, R209; assumption 12). -/
def sharesFree (id : Nat) : Act :=
  .ask fun s => .eff (.adm fun a => { a with shares := a.shares.filter fun x => x.cmd != id || decide (x.bell ≤ s.tts.bell) })

/-- End a command (R150): its status conditions and detail are set by `f`; what it booked later is released. A command that
has ended stays as it ended. -/
def cmdEnd (id : Nat) (f : Cmd → Cmd) : Act :=
  onCmd id fun s c =>
    if c.stage = .ended then .skip
    else acts [cmdUpd id fun c => { f c with stage := .ended, endBell := s.tts.bell, endId := s.cfe.nextId }, sharesFree id]

/-- Start a command (R150). -/
def cmdStart (id : Nat) : Act := cmdUpd id fun c => { c with stage := .started }

end Sys2Proof.Machine
end

