-- ==== Sys2Proof/Machine/Flags.lean ====
section
/-!
DEFINITION. Machine/Flags.lean: the status flags of the block: fault stations and their reactions (R537 to R549), seat
interrupts and their messages (R148, R149), security events (R239).
-/

namespace Sys2Proof.Machine

/-! ### The seat table (R188, R190) -/

/-- Key of a word of a seat-table entry: kind 0 GENERAL, 1 RESOURCES, 2 WINDOW, 3 GRANT, 4 COUNTER. -/
def tblKey (kind seat idx w : Nat) : Nat := ((kind * 512 + (if kind = 4 then 0 else seat)) * 4096 + idx) * 4 + w

/-- Reset contents of the seat table (R186): GENERAL grants CTL alone and one vector; all else is 0. -/
def tblDflt (k : Nat) : Word := if k < 512 * 4096 * 4 ∧ k % (4096 * 4) = 0 then 0x10100 else 0

/-- A word of a committed entry. -/
def State.tblW (s : State) (kind seat idx w : Nat) : Word := mapGet tblDflt (tblKey kind seat idx w) s.seats.tbl

/-- A word of a shadow entry. -/
def State.tblSh (s : State) (kind seat idx w : Nat) : Word := mapGet tblDflt (tblKey kind seat idx w) s.seats.tblShadow

/-- Seat state codes of SEAT_STATE (Table 6.6): 0 DISABLED, 1 ACTIVE, 2 DRAINING, 3 SETTLING. -/
def State.seatState (s : State) (n : Nat) : Nat := s.fld (Reg.seatState n) 0 3

/-- Whether a seat is the supervisor seat. -/
def State.isSup (s : State) (n : Nat) : Bool := s.bitAt (Reg.seatState n) 5

/-- Whether the handshake has been made (R185). -/
def State.locked (s : State) : Bool := s.bitAt Reg.seatGlobalCtrl 31

/-- The engines that the committed seat table grants a seat (Table 6.10). -/
def State.engineOk (s : State) (seat e : Nat) : Bool := e = 0 || wBit (s.tblW 0 seat 0 0) (8 + e)

/-! ### Worlds of units and blocks (R217, R218) -/

/-- Whether an assignable unit is secure. -/
def State.unitSec (s : State) (u : Nat) : Bool := s.bitAt (Reg.secWorldMap (u / 32)) (u % 32)

/-- Whether any unit is secure. -/
def State.anySec (s : State) : Bool := (List.range 7).any fun k => decide (s.rd (Reg.secWorldMap k) ≠ 0)

/-- The assignable unit whose faults a station page records (Tables 7.2, 19.3). -/
def unitOfStation (i : Nat) : Option Nat :=
  if 64 ≤ i && i ≤ 95 then some (i - 64)
  else if 96 ≤ i && i ≤ 103 then some (i - 96 + 32)
  else if 104 ≤ i && i ≤ 135 then some (i - 104 + 40)
  else if i = 34 then some 72
  else if 138 ≤ i && i ≤ 145 then some (i - 138 + 89)
  else if 146 ≤ i && i ≤ 153 then some (i - 146 + 97)
  else if 196 ≤ i && i ≤ 211 then some (i - 196 + 73)
  else if 212 ≤ i && i ≤ 219 then some (i - 212 + 32)
  else none

/-- Whether the station is that of a secure unit or of a fixed-secure block (SEC, XSP). -/
def State.stSecure (s : State) (i : Nat) : Bool :=
  i = 13 || i = 193 || (match unitOfStation i with | some u => s.unitSec u | none => false)

/-- The seat that owns the resource whose faults a station records (R541 item 3), from the committed seat table. -/
def State.stOwner (s : State) (i : Nat) : Option Nat :=
  let find (w lo : Nat) : Option Nat := (List.range 512).find? fun n => wBit (s.tblW 1 n 0 w) lo
  if 64 ≤ i && i ≤ 95 then find 0 (i - 64)
  else if 96 ≤ i && i ≤ 103 then find 1 (32 + (i - 96))
  else if 104 ≤ i && i ≤ 135 then find 1 (i - 104)
  else if 138 ≤ i && i ≤ 145 then find 1 (40 + (i - 138))
  else if 146 ≤ i && i ≤ 153 then find 1 (48 + (i - 146))
  else none

/-! ### Seat interrupts (R148, R149, R203) -/

/-- The vector of a bit of IRQ_PEND: a field not below the vectors in use acts as vector 0 (R203). -/
def State.vectorOf (s : State) (seat bit : Nat) : Nat :=
  let v := wBits (s.tblW 0 seat 0 1) (4 * bit) 4
  if v < mapGet (fun _ => 1) seat s.seats.msixCount then v else 0

/-- Send the message of a bit, or hold it while the function may not send (R149). -/
def msixSend (seat bit : Nat) : Act :=
  .ask fun s =>
    if mapGet (fun _ => false) seat s.seats.msixOn then
      .eff (.seats fun t => { t with msixSent := (seat, s.vectorOf seat bit) :: t.msixSent })
    else if s.seats.msixOwed.contains (seat, bit) then .skip
    else .eff (.seats fun t => { t with msixOwed := t.msixOwed ++ [(seat, bit)] })

/-- Set a bit of a seat's IRQ_PEND (R148). Nothing sets a bit of a DISABLED seat (R182). -/
def irqSet (seat bit : Nat) : Act :=
  .ask fun s =>
    if s.seatState seat = 0 then .skip
    else if s.bitAt (Reg.irqPend seat) bit then .skip
    else acts [setBits (Reg.irqPend seat) (2 ^ bit), actIf (!s.bitAt (Reg.irqMask seat) bit) (msixSend seat bit)]

/-- Send what a function owes once it may send: each held bit that is still set and unmasked (R149). -/
def msixRelease (seat : Nat) : Act :=
  .ask fun s =>
    acts [.eff (.seats fun t => { t with msixOwed := t.msixOwed.filter fun x => x.1 != seat }),
      each (s.seats.msixOwed.filter fun x => x.1 = seat) fun x =>
        actIf (s.bitAt (Reg.irqPend seat) x.2 && !s.bitAt (Reg.irqMask seat) x.2) (msixSend seat x.2)]

/-! ### Stations (R537 to R543) -/

/-- Reaction mask of a source as FS_REACT holds it (Table 16.2). -/
def State.react (s : State) (st src : Nat) : Nat := s.fld (Reg.fsReact st (src / 8)) (8 * (src % 8)) 8

/-- Engines of Table 4.9 by station page: the engine whose running commands a fault reset of the block ends (R542). -/
def engineOfStation (st : Nat) : Option Nat :=
  if st = 162 then some 1 else if st = 24 then some 2 else if st = 32 then some 3 else if st = 136 then some 4
  else if st = 137 then some 5 else if 138 ≤ st && st ≤ 145 then some 6 else if 146 ≤ st && st ≤ 153 then some 7
  else none

/-- Engine of an opcode (Table 4.9). -/
def engineOf (op : Nat) : Nat :=
  match op / 256 with
  | 2 => 1
  | 3 => 2
  | 4 => 3
  | 5 => 4
  | 6 => 5
  | 7 => if op % 256 < 16 then 6 else if op % 256 < 32 then 7 else 0
  | _ => 0

/-- Opcode of a command. -/
def Cmd.op (c : Cmd) : Nat := wBits (c.words.headD 0) 48 16

/-- Engine of a command. -/
def Cmd.engine (c : Cmd) : Nat := engineOf c.op

/-- Entry into the safe state (R548): the cause is recorded, FAULT_N goes low, every head reads SAFE (R391), DRAM enters
self-refresh (R271), audio and haptic outputs stop. The registers are frozen from here on (R549). -/
def enterSafe (st src : Nat) (parity : Bool) : Act :=
  .ask fun s =>
    acts [
      setReg Reg.fltCause (BitVec.ofNat 64 (st + src * 2 ^ 8 + b2n parity * 2 ^ 13 + 2 ^ 14 + (s.tts.bell % 2 ^ 48) * 2 ^ 16)),
      setFld Reg.fltPin 0 1 1,
      each (List.range 32) fun h => setFld (Reg.hdStatus h) 0 3 5,
      each (List.range 8) fun n => setFld (Reg.hapStatus n) 0 3 0,
      .eff (.med fun m => { m with
        aud := { m.aud with tdm := m.aud.tdm.map fun p => (p.1, { p.2 with out := p.2.out.map fun _ => 0 }), dp := [] }
        hap := m.hap.map fun h => (h.1, { h.2 with play := none, sent := (0, false, false) }) }),
      .eff (.memc fun m => { m with selfRefresh := true }),
      .eff (.adm fun a => { a with mgtUp := false }),
      .eff (.worlds fun w => { w with beyloth := false }),
      .eff .safe]

/-- What a fault reset clears inside a block: its pipelines, queues and internal memories (R542). A head that is reset shows code 0
until its next frame starts. -/
def blockMemories (st : Nat) : Act :=
  if st = 24 then acts [.eff (.vid fun v => { v with runs := [], turns := [] }),
    .ask fun s => actIf (s.fld Reg.rndSecqStatus 0 2 != 0) (setFld Reg.rndSecqStatus 0 10 (0x22 * 4))]
  else if st = 32 then .eff (.pic fun p => { p with heads := p.heads.map fun h => (h.1, { h.2 with comps := h.2.comps.map fun c => { c with dead := true } }) })
  else if st = 34 then .eff (.pic fun p => { p with heads := p.heads.map fun h => (h.1, { h.2 with desc := [], crits := [], runs := [] }) })
  else if 64 ≤ st && st ≤ 95 then
    .eff (.pic fun p => { p with heads := p.heads.map fun h => if h.1 = st - 64 then (h.1, { h.2 with blank := true }) else h })
  else if 96 ≤ st && st ≤ 103 then
    .eff (.vid fun v => { v with caps := v.caps.map fun c => if c.1 = st - 96 then (c.1, { c.2 with slot := none }) else c })
  else if 104 ≤ st && st ≤ 135 then
    .ask fun s => each (s.chk.filter fun u => u.1 = st - 104) fun u =>
      .eff (.chk u.1 { u.2 with run := 0, fed := 0, whole := false, done := none })
  else if st = 136 then acts [.eff (.vid fun v => { v with codec := [] }),
    .ask fun s => each ((List.range 10).filter fun p => s.fld (Reg.vdcStatus p) 0 2 != 0) fun p => setFld (Reg.vdcStatus p) 0 10 (0x22 * 4)]
  else if 138 ≤ st && st ≤ 145 then
    .eff (.med fun m => { m with tch := m.tch.map fun t => if t.1 = st - 138 then
      (t.1, { t.2 with base := [], drift := [], neg := [], contacts := [], scan := false, testScan := false, fresh := true }) else t })
  else if 146 ≤ st && st ≤ 153 then
    .eff (.med fun m => { m with hap := m.hap.map fun h => if h.1 = st - 146 then (h.1, { h.2 with play := none, wait := none }) else h })
  else .skip

/-- A fault reset of a block (R542): running commands of its engine end with FAULT, what the block held is cleared; its
configuration and its station registers stay. -/
def blockReset (st : Nat) : Act :=
  .ask fun s =>
    acts [
      .eff (.flt fun f => { f with blockResets := st :: f.blockResets }),
      actOpt (engineOfStation st) fun e =>
        each (s.cfe.cmds.filter fun c => c.stage = .started && c.engine = e) fun c =>
          cmdEnd c.id fun c => { c with fault := true },
      actIf (st = 162) (each (s.dma.map Prod.fst) fun k =>
        acts [.eff (.dma k (dmaIdle 0)), actIf (decide (k < 64)) (acts [setFld (Reg.dmaStatus k) 40 2 0, setFld (Reg.dmaStatus k) 42 1 0,
          setFld (Reg.dmaStatus k) 52 2 2])]),
      actIf (st = 11) (.eff (.adm fun a => { a with mgtUp := false })),
      blockMemories st]

/-- Reset the chip on a fault (Table 17.10), recording the cause in RST_CAUSE (Table 17.11). -/
def faultChipReset (st src : Nat) : Act :=
  .ask fun s => .eff (.chipReset s.pwr.straps (BitVec.ofNat 64 (2 + st * 2 ^ 4 + src * 2 ^ 12)))

/-- Deliver an interrupt to the secure core; while a trusted restart runs it is held pending (R244). -/
def secIrq (st src : Nat) : Act :=
  .ask fun s =>
    if s.bitAt Reg.secState 0 then .eff (.worlds fun w => { w with secHeld := w.secHeld ++ [(st, src)] })
    else .eff (.worlds fun w => { w with secIrq := (st, src) :: w.secIrq })

/-- The IRQ reaction (R541). SEC_EXPIRED at HMN is that of the monitor that watches SEC, a fixed-secure block (R217). -/
def irqReact (st src : Nat) (seat : Option Nat) : Act :=
  .ask fun s =>
    if (!stIsRegion st && src = 0) || s.stSecure st || (st = 14 && src = 5) then secIrq st src
    else match seat with
      | some n => irqSet n 10
      | none =>
        match s.stOwner st with
        | some n => irqSet n 10
        | none => .eff (.flt fun f => { f with mgtIrq := (st, src) :: f.mgtIrq })

/-- Detection of a source at a station (R539), with the reactions in the order of R543: SAFE supersedes every other,
CHIP_RESET supersedes BLOCK_RESET, NMI and IRQ. `seat`: the seat that the source is tied to, where a command caused it. -/
def raiseSrc (st src cell : Nat) (seat : Option Nat) : Act :=
  if !srcExists st src then .skip else
  .ask fun s =>
    acts [
      setBits (Reg.fsStatus st) (2 ^ src),
      setFld (Reg.fsCount st) 0 16 (satAdd (s.fld (Reg.fsCount st) 0 16) 1 0xFFFF),
      actIf (!s.bitAt (Reg.fsFirst st) 12) (setReg (Reg.fsFirst st)
        (BitVec.ofNat 64 (src + (cell % 64) * 2 ^ 6 + 2 ^ 12 + (s.tts.bell % 2 ^ 48) * 2 ^ 16))),
      .ask fun s =>
        let m := s.react st src
        if nBit m 5 then enterSafe st src false
        else if nBit m 3 then faultChipReset st src
        else acts [
          actIf (nBit m 4) (setFld Reg.fltPin 0 1 1),
          actIf (nBit m 2) (blockReset (if st = 14 && src = 4 then 11 else st)),
          actIf (nBit m 1) (.eff (.flt fun f => { f with mgtNmi := (st, src) :: f.mgtNmi })),
          actIf (nBit m 0) (irqReact st src seat)]]

/-- Raise a block-specific source without cell or seat. -/
def raise (st src : Nat) : Act := raiseSrc st src 0 none

/-! ### Station page indices (Table 19.3) -/

/-- Station of the timetable sequencer; the names after it follow Table 19.3. -/
def stTts : Nat := 10
/-- Command front end. -/
def stCfe : Nat := 8
/-- SEAT block. -/
def stSeat : Nat := 12
/-- SEC block. -/
def stSec : Nat := 13
/-- Hall monitors. -/
def stHmn : Nat := 14
/-- Clocks. -/
def stClk : Nat := 15
/-- FLT. -/
def stFlt : Nat := 18
/-- Render engine. -/
def stRnd : Nat := 24
/-- Composer. -/
def stCmp : Nat := 32
/-- Roll call. -/
def stRlc : Nat := 33
/-- Prefect. -/
def stPrf : Nat := 34
/-- Head `h`. -/
def stHd (h : Nat) : Nat := 64 + h
/-- Capture port `n`. -/
def stCap (n : Nat) : Nat := 96 + n
/-- Check-value unit `u`. -/
def stChk (u : Nat) : Nat := 104 + u
/-- Codec. -/
def stVdc : Nat := 136
/-- Audio. -/
def stAud : Nat := 137
/-- Touch port `n`. -/
def stTch (n : Nat) : Nat := 138 + n
/-- Haptic channel `n`. -/
def stHap (n : Nat) : Nat := 146 + n
/-- Store. -/
def stSto : Nat := 160
/-- DRAM controller. -/
def stDmc : Nat := 161
/-- DMA. -/
def stDma : Nat := 162
/-- Guard `n`. -/
def stGrd (n : Nat) : Nat := 163 + n
/-- PCIe endpoint. -/
def stPci : Nat := 192
/-- Transmit PHY `n`. -/
def stDpt (n : Nat) : Nat := 196 + n
/-- Memory Region interconnect. -/
def stRgnMem : Nat := 5

/-! ### Security events (R239) -/

/-- Source code of a path in Table 7.7, with the seat it writes for. -/
def pathSource : Path → Nat × Nat
  | .pf p => (0, p)
  | .vf n => (0, n)
  | .mgt => (1, 0)
  | .jtag => (2, 0)
  | .i3c => (3, 0)
  | .sec => (1, 0)

/-- Station of the block whose registers lie at an offset (R618, R619). -/
def stationOfOffset (off : Nat) : Nat :=
  if 0x600000 ≤ off && off < 0x610000 then (off - 0x600000) / 0x100
  else if 0x50000 ≤ off && off < 0x60000 then stSec
  else if 0x60000 ≤ off && off < 0x70000 then stHmn
  else if 0x70000 ≤ off && off < 0x80000 then stClk
  else if 0x80000 ≤ off && off < 0x90000 then 16
  else if 0x90000 ≤ off && off < 0xA0000 then 17
  else if 0xA0000 ≤ off && off < 0xB0000 then stFlt
  else if 0x100000 ≤ off && off < 0x200000 then stRnd
  else if 0x220000 ≤ off && off < 0x240000 then stPrf
  else if 0x240000 ≤ off && off < 0x250000 then stHd ((off - 0x240000) / 0x100)
  else if 0x250000 ≤ off && off < 0x260000 then stCap ((off - 0x250000) / 0x400)
  else if 0x260000 ≤ off && off < 0x270000 then stChk ((off - 0x260000) / 0x20)
  else if 0x300000 ≤ off && off < 0x310000 then stVdc
  else if 0x310000 ≤ off && off < 0x320000 then stAud
  else if 0x320000 ≤ off && off < 0x330000 then stTch ((off - 0x320000) / 0x100)
  else if 0x330000 ≤ off && off < 0x340000 then stHap ((off - 0x330000) / 0x100)
  else if 0x400000 ≤ off && off < 0x410000 then stSto
  else if 0x410000 ≤ off && off < 0x420000 then stDmc
  else if 0x420000 ≤ off && off < 0x440000 then stGrd ((off - 0x420000) / 0x1000)
  else if 0x440000 ≤ off && off < 0x450000 then stDma
  else if 0x510000 ≤ off && off < 0x530000 then stDpt ((off - 0x510000) / 0x1000)
  else if 0x40000 ≤ off && off < 0x50000 then stSeat
  else 11

/-- Log an ignored write as a security event and raise LOCKED_WRITE at the block that ignored it (R239); a region or chip station has no such source
(R544). -/
def secEvent (p : Path) (off : Nat) : Act :=
  .ask fun s =>
    let i := s.fld Reg.secEvtHead 0 5
    acts [
      setReg (Reg.secEvt i) (BitVec.ofNat 64 (off % 2 ^ 24 + (pathSource p).2 * 2 ^ 24 + (pathSource p).1 * 2 ^ 33 + 2 ^ 35
        + (s.tts.bell % 2 ^ 28) * 2 ^ 36)),
      setFld Reg.secEvtHead 0 5 ((i + 1) % 32),
      actIf (!stIsRegion (stationOfOffset off)) (raise (stationOfOffset off) 0)]

end Sys2Proof.Machine
end

