-- ==== Sys2Proof/Machine/Mem.lean ====
section
/-!
DEFINITION. Machine/Mem.lean: device addresses, windows, region guards, error correction, the dirty-page log, and the
accesses that blocks make (chapters 6 to 8, R39, R194 to R206, R234 to R278).
-/

namespace Sys2Proof.Machine

/-! ### The device address map (R245, R247, R263) -/

/-- First device address of the Store. -/
def storeBase : Nat := 0x100000000000

/-- Size of the Store, 96 MiB. -/
def storeSize : Nat := 0x6000000

/-- Installed DRAM: 16, 32 or 64 GiB by density (R245). -/
def State.dramSize (s : State) : Nat := 2 ^ 34 * 2 ^ nBits s.memc.cfg 0 2

/-- Whether a device address lies in the Store. -/
def isStore (a : Nat) : Bool := storeBase ≤ a && a < storeBase + storeSize

/-- Whether a device address is mapped (Table 8.1). -/
def State.mapped (s : State) (a : Nat) : Bool := a < s.dramSize || isStore a

/-- Bank group of a Store address (Table 8.2). -/
def storeGroup (a : Nat) : Nat := nBits (a - storeBase) 23 4

/-- Bank of a Store address: 4 × group + o[7:6]. -/
def storeBank (a : Nat) : Nat := 4 * storeGroup a + nBits (a - storeBase) 6 2

/-- Exponent of the interleave grain: 8 + grain, values above 8 act as 8 (Table 8.7). -/
def State.grainLog (s : State) : Nat := 8 + min 8 (nBits s.memc.cfg 4 4)

/-- Channel of a DRAM address (Table 8.8). -/
def State.dramChannel (s : State) (a : Nat) : Nat :=
  let g := s.grainLog
  let x := a % 2 ^ 36
  let plain := nBits x g 5
  if nBit s.memc.cfg 8 then plain ^^^ nBits x (g + 5) 5 ^^^ nBits x (g + 10) 5 ^^^ nBits x (g + 15) 5 else plain

/-- Channel-local address of a DRAM address (R263). -/
def State.dramLocal (s : State) (a : Nat) : Nat :=
  let g := s.grainLog
  ((a % 2 ^ 36) >>> (g + 5)) * 2 ^ g + a % 2 ^ g

/-- Bank of a DRAM address in its channel (Table 8.8). -/
def State.dramBank (s : State) (a : Nat) : Nat :=
  let l := s.dramLocal a
  let plain := nBits l 11 4
  if nBit s.memc.cfg 9 then plain ^^^ nBits l 15 4 ^^^ nBits l 19 4 ^^^ nBits l 23 4 else plain

/-- Row of a DRAM address in its bank (Table 8.8). -/
def State.dramRow (s : State) (a : Nat) : Nat := nBits (s.dramLocal a) 15 (14 + nBits s.memc.cfg 0 2)

/-- Column burst of a DRAM address (Table 8.8). -/
def State.dramCol (s : State) (a : Nat) : Nat := nBits (s.dramLocal a) 6 5

/-- The guard in front of a device address: 0 to 11 by Store bank group, 12 to 27 by DRAM channel pair (R17). -/
def State.guardOf (s : State) (a : Nat) : Nat := if isStore a then storeGroup a else 12 + s.dramChannel a / 2

/-! ### Requests and guards (R234 to R238) -/

/-- A request to memory: station of the requester, world, seat and window through which it was translated, access kind. -/
structure Req where
  station : Nat
  secure : Bool
  seat : Option Nat
  window : Nat
  kind : AccKind
deriving DecidableEq, Repr

/-- A committed region of a guard: page bounds and attributes. -/
structure Region where
  first : Nat
  last : Nat
  attr : Word
deriving DecidableEq, Repr

/-- Committed region `m` of guard `n`: its first and last byte (Table 7.6). -/
def State.region (s : State) (n m : Nat) : Region :=
  { first := s.cfld (Reg.grdBase n m) 12 36 * 4096
    last := s.cfld (Reg.grdLimit n m) 12 36 * 4096 + 4095
    attr := s.cm (Reg.grdAttr n m) }

/-- World field of a region: 0 NORMAL, 1 SECURE, 2 BOTH, 3 acts as invalid. -/
def Region.world (r : Region) : Nat := wBits r.attr 4 2

/-- Whether a region takes part: valid and of a defined world (R238). -/
def Region.used (r : Region) : Bool := wBit r.attr 0 && r.world != 3

/-- Bit of a seat in a seat set (R234). -/
def State.inSeatSet (s : State) (k seat : Nat) : Bool := s.bitAt (Reg.secSeatSet k (seat / 64)) (seat % 64)

/-- Whether a region matches a request (R237). -/
def State.regionMatches (s : State) (r : Region) (q : Req) : Bool :=
  match wBits r.attr 6 2, q.seat with
  | 0, _ => true
  | 1, some n => s.inSeatSet (wBits r.attr 8 4) n
  | 2, some n => wBits r.attr 12 9 = n && wBits r.attr 21 6 = q.window
  | 3, none => true
  | _, _ => false

/-- Whether a region permits an access kind. -/
def Region.permits (r : Region) : AccKind → Bool
  | .read => wBit r.attr 1
  | .write => wBit r.attr 2
  | .fetch => wBit r.attr 3

/-- The decision of a guard on an access (the pseudocode of R238). -/
def State.guardPermits (s : State) (n : Nat) (q : Req) (a len : Nat) : Bool :=
  let rs := ((List.range 64).map (s.region n)).filter fun r => r.used && decide (r.first < a + len) && decide (a ≤ r.last)
  let deny := rs.any fun r => r.world = 1 && !q.secure
  let allow := rs.any fun r =>
    decide (r.first ≤ a) && decide (a + len ≤ r.last + 1) && (r.world = 2 || r.world = b2n q.secure)
      && s.regionMatches r q && r.permits q.kind
  allow && !deny

/-- The 64-byte lines that an access touches, by their first byte in the access. -/
def linesOf (a len : Nat) : List Nat :=
  if len = 0 then [] else (List.range ((a + len - 1) / 64 - a / 64 + 1)).map fun i => if i = 0 then a else (a / 64 + i) * 64

/-- The first guard that refuses an access, of those that stand in front of its bytes (assumption 6). -/
def State.refusedBy (s : State) (q : Req) (a len : Nat) : Option Nat :=
  ((linesOf a len).map s.guardOf).find? fun n => !s.guardPermits n q a len

/-- Code of an access kind in GRDn_VIOL_INFO. -/
def accCode : AccKind → Nat
  | .read => 0
  | .write => 1
  | .fetch => 2

/-- Record a refused access at its guard (R238): capture the first, count every one, raise VIOLATION. -/
def guardViolation (n : Nat) (q : Req) (a : Nat) : Act :=
  .ask fun s =>
    acts [
      actIf (!s.bitAt (Reg.grdViolInfo n) 19) (acts [
        setReg (Reg.grdViolAddr n) (BitVec.ofNat 64 (a % 2 ^ 48)),
        setFld (Reg.grdViolInfo n) 0 20 (accCode q.kind + b2n q.secure * 4 + b2n q.seat.isSome * 8 + (q.seat.getD 0) * 16
          + (if q.seat.isSome then q.window else 0) * 2 ^ 13 + 2 ^ 19)]),
      setFld (Reg.grdViolInfo n) 20 12 (satAdd (s.fld (Reg.grdViolInfo n) 20 12) 1 0xFFF),
      raiseSrc (stGrd n) 4 0 q.seat]

/-! ### Error correction (R249 to R258, R272 to R278) -/

/-- The inline-ECC range that protects a DRAM address. -/
def State.ieccOf (s : State) (a : Nat) : Option (Nat × Nat × Nat) :=
  s.memc.iecc.find? fun r => decide (r.1 ≤ a) && decide (a ≤ r.2.1)

/-- Whether the word at an address carries check bits: all of the Store, protected DRAM ranges. -/
def State.protected (s : State) (a : Nat) : Bool := isStore a || (s.ieccOf a).isSome

/-- Whether an access touches a carve-out (R274). -/
def State.inCarve (s : State) (a len : Nat) : Bool :=
  s.memc.iecc.any fun r => decide (r.2.2 < a + len) && decide (a < r.2.2 + (r.2.1 + 1 - r.1) / 8)

/-- Station of the memory that holds an address. -/
def memStation (a : Nat) : Nat := if isStore a then stSto else stDmc

/-- Unit of an address's error counts: bank, or channel. -/
def State.eccUnit (s : State) (a : Nat) : Nat := if isStore a then storeBank a else s.dramChannel a

/-- The stored word at an aligned address, and the stored check bits. -/
def State.wordAt (s : State) (w : Nat) : Word := bytesWord (s.bytesAt w 8)

/-- Stored check bits of a protected word. -/
def State.checkAt (s : State) (w : Nat) : Byte := secdedCode (s.wordAt w) ^^^ mapGet (fun _ => 0) w s.ecc

/-- Whether a source's checker is armed for injection (R551). -/
def State.armed (s : State) (st src : Nat) : Bool := s.bitAt (Reg.fsCtrl st) 0 && s.bitAt (Reg.fsInject st) src

/-- The check of a protected word; where it is the first that its checker makes, with the inverted check bits of an armed injection
(R250, R551). -/
def State.wordCheckOf (s : State) (first : Bool) (w : Nat) : EccOut :=
  if !s.protected w then .clean
  else secdedCheck (s.wordAt w) (if first && s.armed (memStation w) 6 then ~~~ s.checkAt w else s.checkAt w)

/-- The aligned words that an access touches. -/
def wordsOf (a len : Nat) : List Nat :=
  if len = 0 then [] else (List.range ((a + len - 1) / 8 - a / 8 + 1)).map fun i => (a / 8 + i) * 8

/-- The check of a word among those that an access checks, in their order. -/
def State.wordCheck (s : State) (ws : List Nat) (w : Nat) : EccOut := s.wordCheckOf (ws.find? s.protected = some w) w

/-- Registers of an error log of the Store or the DMC. -/
def ceAddr (dmc : Bool) (i : Nat) : Nat := if dmc then Reg.dmcCeLogAddr i else Reg.stoCeLogAddr i
/-- INFO register of a correctable-error log entry. -/
def ceInfo (dmc : Bool) (i : Nat) : Nat := if dmc then Reg.dmcCeLogInfo i else Reg.stoCeLogInfo i
/-- ADDR register of an uncorrectable-error log entry. -/
def ueAddr (dmc : Bool) (i : Nat) : Nat := if dmc then Reg.dmcUeLogAddr i else Reg.stoUeLogAddr i
/-- INFO register of an uncorrectable-error log entry. -/
def ueInfo (dmc : Bool) (i : Nat) : Nat := if dmc then Reg.dmcUeLogInfo i else Reg.stoUeLogInfo i
/-- ECC_CTRL of the Store or the DMC. -/
def eccCtrl (dmc : Bool) : Nat := if dmc then Reg.dmcEccCtrl else Reg.stoEccCtrl
/-- UE_HEAD of the Store or the DMC. -/
def ueHead (dmc : Bool) : Nat := if dmc then Reg.dmcUeHead else Reg.stoUeHead
/-- Correction count register of a unit. -/
def ceCount (dmc : Bool) (u : Nat) : Nat := if dmc then Reg.dmcChErr u else Reg.stoCeCount u

/-- Contents of an INFO register: count, syndrome, unit, valid. -/
def logInfo (count syn unit : Nat) : Word := BitVec.ofNat 64 (count + syn * 2 ^ 16 + unit * 2 ^ 24 + 2 ^ 31)

/-- Log, count and report a correction (R251, R252, R256). -/
def ceRecord (w syn : Nat) : Act :=
  .ask fun s =>
    let dmc := !isStore w
    let u := s.eccUnit w
    let st := memStation w
    let entry := (List.range 16).find? fun i => s.bitAt (ceInfo dmc i) 31 && decide (s.fld (ceAddr dmc i) 3 45 * 8 = w)
    let free := (List.range 16).find? fun i => !s.bitAt (ceInfo dmc i) 31
    let log :=
      match entry, free with
      | some i, _ => setReg (ceInfo dmc i) (logInfo (satAdd (s.fld (ceInfo dmc i) 0 16) 1 0xFFFF) syn u)
      | none, some i => acts [setReg (ceAddr dmc i) (BitVec.ofNat 64 w), setReg (ceInfo dmc i) (logInfo 1 syn u)]
      | none, none => setFld (eccCtrl dmc) 3 1 1
    let n := satAdd (s.fld (ceCount dmc u) 0 32) 1 0xFFFFFFFF
    let thresh := s.fld (eccCtrl dmc) 8 24
    let key := u + (if dmc then 64 else 0)
    acts [log, setFld (ceCount dmc u) 0 32 n,
      actIf (decide (thresh ≠ 0) && decide (thresh ≤ n) && !s.memc.threshed.contains key) (acts [
        .eff (.memc fun m => { m with threshed := key :: m.threshed }), raiseSrc st 5 u none]),
      raiseSrc st 4 u none]

/-- Log and report an uncorrectable error (R254, R255); a fired injection is spent (R551). -/
def ueRecord (w syn : Nat) (seat : Option Nat) : Act :=
  .ask fun s =>
    let dmc := !isStore w
    let u := s.eccUnit w
    let st := memStation w
    let entry := (List.range 8).find? fun i => s.bitAt (ueInfo dmc i) 31 && decide (s.fld (ueAddr dmc i) 3 45 * 8 = w)
    let h := s.fld (ueHead dmc) 0 3
    acts [
      match entry with
      | some i => setReg (ueInfo dmc i) (logInfo (satAdd (s.fld (ueInfo dmc i) 0 16) 1 0xFFFF) syn u)
      | none => acts [setReg (ueAddr dmc h) (BitVec.ofNat 64 w), setReg (ueInfo dmc h) (logInfo 1 syn u),
          setFld (ueHead dmc) 0 3 ((h + 1) % 8)],
      actIf (s.armed st 6) (clearBits (Reg.fsInject st) (2 ^ 6)),
      raiseSrc st 6 u seat]

/-- What the checks of the words of an access record: in ascending order (R253). -/
def wordChecksAct (s : State) (ws : List Nat) (seat : Option Nat) : Act :=
  each ws fun w =>
    match s.wordCheck ws w with
    | .clean => .skip
    | .corrected _ syn => ceRecord w syn
    | .bad syn => ueRecord w syn seat

/-- Whether a check found an uncorrectable error. -/
def EccOut.isBad : EccOut → Bool
  | .bad _ => true
  | _ => false

/-- The data that a read returns for an aligned word: corrected where it can be. -/
def State.wordRead (s : State) (ws : List Nat) (w : Nat) : Word :=
  match s.wordCheck ws w with
  | .corrected d _ => d
  | _ => s.wordAt w

/-- `len` bytes as a read returns them. -/
def State.bytesRead (s : State) (a len : Nat) : List Byte :=
  (((wordsOf a len).map fun w => wordBytes (s.wordRead (wordsOf a len) w)).flatten.drop (a % 8)).take len

/-! ### Check-value units fed by traffic (R554) -/

/-- Feed bytes to every unit attached to a source, of the world of the traffic. -/
def chkFeed (src : Nat) (secure : Bool) (bs : List Byte) : Act :=
  .ask fun s =>
    each (s.chk.filter fun u => u.2.on && u.2.att != 3 && u.2.src = src && s.unitSec (40 + u.1) = secure) fun u =>
      .eff (.chk u.1 { u.2 with run := crcFeed u.2.poly u.2.run bs, fed := u.2.fed + bs.length })

/-! ### Accesses to device memory -/

/-- What an access gives its requester: data, whether it received an error response (R38), whether it failed R194 (R195), and what
it records and changes. -/
structure MemOut where
  bytes : List Byte
  err : Bool
  miss : Bool
  act : Act

/-- `n` zero bytes. -/
def zeros (n : Nat) : List Byte := List.replicate n 0

/-- Read device memory (R39, R246, R250, R274). A link error: 1 corrected, 2 uncorrectable (R278). -/
def devRead (s : State) (q : Req) (a len linkErr : Nat) : MemOut :=
  if !((List.range len).all fun i => s.mapped (a + i)) then
    { bytes := zeros len, err := true, miss := false, act := raiseSrc stRgnMem 2 0 q.seat }
  else if s.inCarve a len then
    { bytes := zeros len, err := false, miss := false, act := raiseSrc stDmc 11 (s.dramChannel a) q.seat }
  else match s.refusedBy q a len with
    | some n => { bytes := zeros len, err := false, miss := false, act := guardViolation n q a }
    | none =>
      let ws := wordsOf a len
      let ch := s.dramChannel a
      let link := !isStore a && nBit s.memc.cfg 10
      if link && linkErr = 2 then
        { bytes := zeros len, err := true, miss := false, act := ueRecord (a / 64 * 64) 0 q.seat }
      else
        { bytes := s.bytesRead a len
          err := ws.any fun w => (s.wordCheck ws w).isBad
          miss := false
          act := acts [
            actIf (link && linkErr = 1) (acts [
              setFld (Reg.dmcChErr ch) 32 32 (satAdd (s.fld (Reg.dmcChErr ch) 32 32) 1 0xFFFFFFFF), raiseSrc stDmc 12 ch none]),
            wordChecksAct s ws q.seat] }

/-- The part of an access's data that falls into the aligned word at `w`: offset in the word, bytes. -/
def partOf (a : Nat) (bs : List Byte) (w : Nat) : Nat × List Byte :=
  if a ≤ w then (0, (bs.drop (w - a)).take 8) else (a - w, bs.take (w + 8 - a))

/-- The words of which a write covers a part only. -/
def partWords (a : Nat) (bs : List Byte) : List Nat := (wordsOf a bs.length).filter fun w => (partOf a bs w).2.length != 8

/-- Store the part of a write that falls into one word (R254, R275): a whole word takes new check bits; part of a protected word is
merged into the word as read, and dropped where that read is uncorrectable. -/
def storeWord (s : State) (a : Nat) (bs : List Byte) (w : Nat) (seat : Option Nat) : Act :=
  let p := partOf a bs w
  if p.2.length = 8 || !s.protected w then acts [.eff (.mem (w + p.1) p.2), .eff (.ecc w 0)]
  else
    match s.wordCheck (partWords a bs) w with
    | .bad syn => ueRecord w syn seat
    | .corrected d syn =>
      acts [ceRecord w syn, .eff (.mem w (wordBytes d)), .eff (.mem (w + p.1) p.2), .eff (.ecc w 0)]
    | .clean => acts [.eff (.mem (w + p.1) p.2), .eff (.ecc w 0)]

/-- Write device memory. -/
def devWrite (s : State) (q : Req) (a : Nat) (bs : List Byte) : MemOut :=
  let len := bs.length
  if !((List.range len).all fun i => s.mapped (a + i)) then
    { bytes := [], err := true, miss := false, act := raiseSrc stRgnMem 2 0 q.seat }
  else if s.inCarve a len then
    { bytes := [], err := false, miss := false, act := raiseSrc stDmc 11 (s.dramChannel a) q.seat }
  else match s.refusedBy q a len with
    | some n => { bytes := [], err := false, miss := false, act := guardViolation n q a }
    | none =>
      { bytes := []
        err := (partWords a bs).any fun w => (s.wordCheck (partWords a bs) w).isBad
        miss := false
        act := acts [each (wordsOf a len) fun w => storeWord s a bs w q.seat,
          actIf (isStore a) (chkFeed (104 + storeGroup a) q.secure bs)] }

/-! ### Functions, links and windows (R178, R179, R193, R194) -/

/-- Physical function of a seat: its own, or that of its virtual function under the map in force; none where no function has it. -/
def State.pfOf (s : State) (seat : Nat) : Option Nat :=
  if seat < 4 then some seat
  else (List.range 4).find? fun p =>
    decide (s.seats.vfFirst.getD p 0 ≤ seat) && decide (seat < s.seats.vfFirst.getD p 0 + s.seats.vfTotal.getD p 0)

/-- Link that carries a physical function (Table 6.1). -/
def State.linkOfPf (s : State) (p : Nat) : Nat :=
  if s.pwr.straps.link = 0 then 0 else if s.pwr.straps.link = 1 then p / 2 else p

/-- Link of a seat's function. -/
def State.linkOf (s : State) (seat : Nat) : Nat :=
  match s.pfOf seat with
  | some p => s.linkOfPf p
  | none => 0

/-- A window of a seat in the committed table: the four words. -/
def State.window (s : State) (seat i : Nat) : Word × Word × Word × Word :=
  (s.tblW 2 seat i 0, s.tblW 2 seat i 1, s.tblW 2 seat i 2, s.tblW 2 seat i 3)

/-- First and last seat address of a window's words. -/
def winFirst (w0 : Word) : Nat := wBits w0 12 52 * 4096
/-- Last seat address of a window. -/
def winLast (w1 : Word) : Nat := wBits w1 12 52 * 4096 + 4095

/-- Whether a window permits an access kind (Table 6.11). -/
def winPermits (w0 : Word) : AccKind → Bool
  | .read => wBit w0 1
  | .write => wBit w0 2
  | .fetch => wBit w0 3

/-- Where a seat address leads: window, target (0 HOST, 1 DRAM, 2 STORE), target address. -/
structure Place where
  win : Nat
  target : Nat
  addr : Nat
deriving DecidableEq, Repr

/-- Translate an access of `len` bytes at a seat address: every byte of it lies in one valid window that permits the kind (R194). -/
def State.translate (s : State) (seat a len : Nat) (k : AccKind) : Option Place :=
  match (List.range 64).find? fun i =>
      let w := s.window seat i
      wBit w.1 0 && winPermits w.1 k && decide (winFirst w.1 ≤ a) && decide (a + len ≤ winLast w.2.1 + 1) with
  | some i =>
    let w := s.window seat i
    some { win := i, target := wBits w.1 5 2, addr := wBits w.2.2.1 12 52 * 4096 + (a - winFirst w.1) }
  | none => none

/-- Whether every byte of an area lies in a valid window with a permission, windows adjoining (R116). -/
def State.areaOk (s : State) (seat a len : Nat) (k : AccKind) : Bool :=
  (List.range (ceilDiv (a % 4096 + len) 4096)).all fun i => (s.translate seat ((a / 4096 + i) * 4096) 1 k).isSome

/-- The dirty-page log (R205, R206): set the bit of each page that a logged host write touches, before the write. -/
def dirtyLog (seat : Nat) (pl : Place) (a len : Nat) : Act :=
  .ask fun s =>
    let w := s.window seat pl.win
    if !(s.cfld (Reg.dirtyLogBase seat) 0 1 = 1 && wBit w.1 4 && pl.target = 0 && decide (len ≠ 0)) then .skip
    else
      let hl := s.cfld (Reg.dirtyLogBase seat) 4 5
      let half := 2 ^ (if 12 ≤ hl && hl ≤ 27 then hl else 12)
      let buf := s.cfld (Reg.dirtyLogBase seat) 12 52 * 4096 + s.fld (Reg.dirtyLogBase seat) 1 1 * half
      let p0 := (a - winFirst w.1) / 4096
      let p1 := (a + len - 1 - winFirst w.1) / 4096
      each (rangeFrom p0 (p1 - p0 + 1)) fun p =>
        .ask fun s =>
          let o := wBits w.2.2.2 3 29 * 8 + p / 8
          if half ≤ o then setFld (Reg.dirtyLogBase seat) 9 1 1
          else
            let q : Req := { station := stSeat, secure := false, seat := none, window := 0, kind := .write }
            let old := (s.bytesRead (buf + o) 1).headD 0
            (devWrite s q (buf + o) [old ||| BitVec.ofNat 8 (2 ^ (p % 8))]).act

/-! ### Accesses on behalf of a seat (R194 to R196) -/

/-- An access that fails R194 is not made: zeros, WINDOW_MISS at the block's station with the seat (R195). -/
def missOut (st seat len : Nat) : MemOut :=
  { bytes := zeros len, err := false, miss := true, act := raiseSrc st 1 0 (some seat) }

/-- Read at a seat address; a link error is that of `devRead`. -/
def seatReadE (s : State) (st seat a len : Nat) (k : AccKind) (h : HostAns) (linkErr : Nat) : MemOut :=
  match s.translate seat a len k with
  | none => missOut st seat len
  | some pl =>
    if pl.target = 0 then
      if h = .atsFail && wBit (s.tblW 2 seat pl.win 0) 7 then missOut st seat len
      else if h = .error then
        { bytes := zeros len, err := true, miss := false, act := raiseSrc stPci 4 0 (some seat) }
      else { bytes := s.bytesAt (hostKey (s.linkOf seat) pl.addr) len, err := false, miss := false, act := .skip }
    else devRead s { station := st, secure := false, seat := some seat, window := pl.win, kind := k } pl.addr len linkErr

/-- Read at a seat address without a link error. -/
def seatRead (s : State) (st seat a len : Nat) (k : AccKind) (h : HostAns) : MemOut := seatReadE s st seat a len k h 0

/-- Write at a seat address. A host write is posted: it has no completion of its own (R38, R289). -/
def seatWrite (s : State) (st seat a : Nat) (bs : List Byte) (h : HostAns) : MemOut :=
  match s.translate seat a bs.length .write with
  | none => missOut st seat 0
  | some pl =>
    if pl.target = 0 then
      if h = .atsFail && wBit (s.tblW 2 seat pl.win 0) 7 then missOut st seat 0
      else { bytes := [], err := false, miss := false
             act := acts [dirtyLog seat pl a bs.length, .eff (.mem (hostKey (s.linkOf seat) pl.addr) bs)] }
    else devWrite s { station := st, secure := false, seat := some seat, window := pl.win, kind := .write } pl.addr bs

/-- Write at a seat address, in parts that cross no 4 KiB page, so that adjoining windows serve one area. -/
def seatStore (st seat a : Nat) (bs : List Byte) : Act :=
  .ask fun s =>
    let n0 := min bs.length (4096 - a % 4096)
    acts [(seatWrite s st seat a (bs.take n0) .ok).act,
      actIf (decide (n0 < bs.length)) (.ask fun s => (seatWrite s st seat (a + n0) (bs.drop n0) .ok).act)]

end Sys2Proof.Machine
end

