-- ==== Sys2Proof/Machine/Operands.lean ====
section
/-!
DEFINITION. Machine/Operands.lean: the operand forms of command packets: the header, the opcodes with their lengths and
replies, the parameter words (R125, R143, R158, R165, R197, R284, R559 and the tables they name), and their
well-formedness as the decision checks it.
-/

namespace Sys2Proof.Machine

/-! ### The packet header (Table 4.6) -/

/-- Word `i` of a packet; 0 past its end. -/
def Cmd.w (c : Cmd) (i : Nat) : Word := c.words.getD i 0

/-- Field of word `i` of a packet. -/
def Cmd.f (c : Cmd) (i lo w : Nat) : Nat := wBits (c.w i) lo w

/-- One bit of word `i` of a packet. -/
def Cmd.b (c : Cmd) (i bit : Nat) : Bool := wBit (c.w i) bit

/-- Word `i` of a packet as a number. -/
def Cmd.n (c : Cmd) (i : Nat) : Nat := (c.w i).toNat

/-- Length field of a header. -/
def hdrLen (h : Word) : Nat := wBits h 40 8
/-- Opcode field of a header. -/
def hdrOp (h : Word) : Nat := wBits h 48 16
/-- Non-zero reserved bits of a header (R4). -/
def hdrReserved (h : Word) : Bool := wBits h 32 4 != 0 || wBits h 16 4 != 0
/-- ORDERED flag. -/
def Cmd.ordered (c : Cmd) : Bool := c.b 0 39
/-- BACKGROUND flag. -/
def Cmd.background (c : Cmd) : Bool := c.b 0 38
/-- PARTIAL_OK flag. -/
def Cmd.partialOk (c : Cmd) : Bool := c.b 0 36
/-- Deadline field. -/
def Cmd.deadline (c : Cmd) : Nat := c.f 0 24 8
/-- Tag. -/
def Cmd.tag (c : Cmd) : Nat := c.f 0 0 16

/-! ### Opcodes (Table 4.12) -/

/-- Shortest and longest packet of an opcode; none for an unknown opcode. -/
def opLength : Nat → Option (Nat × Nat)
  | 0x0100 => some (1, 1)
  | 0x0101 => some (3, 3)
  | 0x0102 => some (7, 7)
  | 0x0103 => some (3, 3)
  | 0x0110 => some (1, 1)
  | 0x0200 => some (4, 4)
  | 0x0201 => some (4, 4)
  | 0x0210 => some (2, 2)
  | 0x0300 => some (4, 4)
  | 0x0301 => some (8, 8)
  | 0x0302 => some (5, 14)
  | 0x0303 => some (8, 8)
  | 0x0304 => some (1, 1)
  | 0x0400 => some (6, 36)
  | 0x0401 => some (24, 24)
  | 0x0402 => some (5, 5)
  | 0x0403 => some (5, 67)
  | 0x0500 => some (8, 8)
  | 0x0501 => some (6, 6)
  | 0x0502 => some (6, 6)
  | 0x0503 => some (2, 2)
  | 0x0600 => some (2, 255)
  | 0x0601 => some (6, 6)
  | 0x0602 => some (4, 34)
  | 0x0700 => some (4, 8)
  | 0x0710 => some (4, 4)
  | 0x0711 => some (2, 2)
  | 0x0800 => some (2, 2)
  | 0x0801 => some (3, 3)
  | 0x0802 => some (3, 3)
  | 0x0900 => some (2, 2)
  | 0x0901 => some (2, 2)
  | _ => none

/-- Whether a length is one that Table 4.12 gives for an opcode: TCH_CONFIG has 4 or 8 words. -/
def lengthOk (op len : Nat) : Bool :=
  match opLength op with
  | some (lo, hi) => decide (lo ≤ len) && decide (len ≤ hi) && (op != 0x0700 || len = 4 || len = 8)
  | none => false

/-- The opcodes that receive a single reply (Table 4.12, R133). -/
def opSingle (op : Nat) : Bool :=
  [0x0100, 0x0101, 0x0102, 0x0103, 0x0110, 0x0503, 0x0900, 0x0901].contains op

/-- The opcodes that take no part in fences (R647). -/
def opImmediate (op : Nat) : Bool := [0x0100, 0x0101, 0x0102, 0x0103, 0x0503, 0x0900, 0x0901].contains op

/-- The commands that are neither deadline nor background work and no timetable entries (R69, R161, R326, R493, R499, R512, R560, R643). -/
def opUntimed (op : Nat) : Bool :=
  opSingle op || [0x0800, 0x0402, 0x0403, 0x0602, 0x0601, 0x0700, 0x0210, 0x0400, 0x0401, 0x0500].contains op

/-! ### Parameter words of the control opcodes -/

/-- FENCE: scope 0 RING or 1 SEAT, kind 1 EXEC, 2 MEM, 3 FULL, other bits 0 (Table 5.2). -/
def fenceOk (c : Cmd) : Bool := decide (c.f 1 0 2 ≤ 1) && c.f 1 2 2 = 0 && c.f 1 4 2 != 0 && c.f 1 6 58 = 0

/-- Scope of a FENCE is SEAT. -/
def Cmd.fenceSeat (c : Cmd) : Bool := c.f 1 0 2 = 1

/-- Kind of a FENCE: 1 EXEC, 2 MEM, 3 FULL. -/
def Cmd.fenceKind (c : Cmd) : Nat := c.f 1 4 2

/-- SIGNAL and WAIT: counter index in bits [11:0] of word 1, other bits 0 (R165). -/
def counterOk (c : Cmd) : Bool := c.f 1 12 52 = 0

/-- SET_BUDGET: seat in word 1 bits [8:0]; word 6 bits [63:32] reserved (Table 4.12). -/
def setBudgetOk (c : Cmd) : Bool := c.f 1 9 55 = 0 && c.f 6 32 32 = 0

/-- Budget of class `k` in a SET_BUDGET: word 2 + k/2, low half for even classes. -/
def Cmd.budgetOf (c : Cmd) (k : Nat) : Nat := c.f (2 + k / 2) (32 * (k % 2)) 32

/-- SET_QUOTA: seat, kind 0 to 5, reclaim; other bits 0 (R197). -/
def setQuotaOk (c : Cmd) : Bool :=
  c.f 1 9 7 = 0 && decide (c.f 1 16 8 ≤ 5) && c.f 1 25 39 = 0 && c.f 2 32 32 = 0

/-- QUERY_CAPS: word 2 bits [63:32] reserved. -/
def queryCapsOk (c : Cmd) : Bool := c.f 2 32 32 = 0

/-- QUERY_STATUS: tag, ring, by_tag; other bits 0. -/
def queryStatusOk (c : Cmd) : Bool := c.f 1 20 44 = 0

/-- QUERY_BUDGET: class in bits [3:0]; other bits 0. -/
def queryBudgetOk (c : Cmd) : Bool := c.f 1 4 60 = 0

/-! ### DMA (Table 8.11) -/

/-- Byte count of a DMA command. -/
def Cmd.dmaN (c : Cmd) : Nat := if c.op = 0x0200 then c.f 3 0 40 else c.f 2 0 40
/-- Priority. -/
def Cmd.dmaPrio (c : Cmd) : Nat := if c.op = 0x0200 then c.f 3 40 3 else c.f 2 40 3
/-- Source of a copy. -/
def Cmd.dmaSrc (c : Cmd) : Nat := if c.op = 0x0200 then c.n 1 else 0
/-- Destination. -/
def Cmd.dmaDst (c : Cmd) : Nat := if c.op = 0x0200 then c.n 2 else c.n 1
/-- Source does not increment. -/
def Cmd.dmaSrcFixed (c : Cmd) : Bool := c.op = 0x0200 && c.b 3 43
/-- Destination does not increment. -/
def Cmd.dmaDstFixed (c : Cmd) : Bool := if c.op = 0x0200 then c.b 3 44 else c.b 2 44

/-- R285: a fixed end is 8-byte aligned, and n is then a multiple of 8. -/
def dmaEndsOk (n src dst : Nat) (sf df : Bool) : Bool :=
  (!sf || (src % 8 = 0 && n % 8 = 0)) && (!df || (dst % 8 = 0 && n % 8 = 0))

/-- DMA_COPY and DMA_FILL parameters (R284). -/
def dmaOk (c : Cmd) : Bool :=
  (if c.op = 0x0200 then c.f 3 45 19 = 0 else c.f 2 43 1 = 0 && c.f 2 45 19 = 0)
    && c.dmaN != 0 && dmaEndsOk c.dmaN c.dmaSrc c.dmaDst c.dmaSrcFixed c.dmaDstFixed

/-! ### CHK_ATTACH (Table 16.10) -/

/-- Unit of a CHK_ATTACH. -/
def Cmd.chkUnit (c : Cmd) : Nat := c.f 1 0 5
/-- Detach flag. -/
def Cmd.chkDetach (c : Cmd) : Bool := c.b 1 5
/-- Polynomial code. -/
def Cmd.chkPoly (c : Cmd) : Nat := c.f 1 6 2
/-- Source code. -/
def Cmd.chkSrc (c : Cmd) : Nat := c.f 1 8 8
/-- Result area; 0 for none. -/
def Cmd.chkArea (c : Cmd) : Nat := c.f 1 16 48 * 65536

/-- CHK_ATTACH encodings: sources 116 to 255 are refused, a detach has its other bits 0 (R554, R559). -/
def chkAttachOk (c : Cmd) : Bool :=
  if c.chkDetach then c.f 1 6 10 = 0 && c.f 1 16 48 = 0 else decide (c.chkSrc ≤ 115)

end Sys2Proof.Machine
end

