-- ==== Sys2Proof/Machine/Rings.lean ====
section
/-!
DEFINITION. Machine/Rings.lean: command rings, packets, replies and status words (chapter 4).
-/

namespace Sys2Proof.Machine

/-! ### Status codes (Table 4.10) and rejections (Table 3.8) -/

/-- DONE. -/
def stDone : Nat := 0x00
/-- ACCEPTED. -/
def stAccepted : Nat := 0x01
/-- RUNNING. -/
def stRunning : Nat := 0x02
/-- PARTIAL. -/
def stPartial : Nat := 0x03
/-- REJECT_BUDGET. -/
def rjBudget : Nat := 0x10
/-- REJECT_BUSY. -/
def rjBusy : Nat := 0x11
/-- REJECT_DEADLINE. -/
def rjDeadline : Nat := 0x12
/-- REJECT_PERMISSION. -/
def rjPermission : Nat := 0x13
/-- REJECT_MALFORMED. -/
def rjMalformed : Nat := 0x14
/-- REJECT_QUOTA. -/
def rjQuota : Nat := 0x15

/-- A rejection: status, sub-reason, credit class, bell (Table 3.7). -/
structure Reject where
  code : Nat
  sub : Nat
  cls : Nat := 0xFF
  bell : Nat := 0
deriving DecidableEq, Repr

/-- Word 1 of a rejection (Table 3.7). -/
def Reject.word (r : Reject) : Nat := r.bell % 2 ^ 32 + r.cls * 2 ^ 32 + r.sub * 2 ^ 48

/-- The final status of a command: the first condition met in the order of R132. -/
def Cmd.finalStatus (c : Cmd) : Nat :=
  if c.fault then 0x22 else if c.timedOut then 0x23 else if c.squashed then 0x21 else if c.overrun then 0x20
  else if c.degraded then 0x24 else stDone

/-- Engine that a reply names: that of the opcode; CTL for an unknown opcode (Tables 4.7, 4.9). -/
def replyEngine (op : Nat) : Nat := if (opLength op).isSome then engineOf op else 0

/-! ### Ring registers -/

/-- Words of the command ring. -/
def State.ringLog (s : State) (seat ring : Nat) : Nat := s.fld (Reg.ringPtrs seat ring) 0 5
/-- Exponent of the reply ring's entries. -/
def State.replyLog (s : State) (seat : Nat) : Nat := s.fld (Reg.replyBase seat) 0 4
/-- Command read pointer. -/
def State.cmdRd (s : State) (seat ring : Nat) : Nat := s.fld (Reg.ringPtrs seat ring) 32 17
/-- Reply write pointer. -/
def State.replyWr (s : State) (seat ring : Nat) : Nat := s.fld (Reg.ringPtrs seat ring) 49 15
/-- Command write pointer. -/
def State.cmdWr (s : State) (seat ring : Nat) : Nat := s.fld (Reg.doorbell seat ring) 0 17
/-- Reply read pointer. -/
def State.replyRd (s : State) (seat ring : Nat) : Nat := s.fld (Reg.doorbell seat ring) 32 15
/-- Whether a ring is enabled. -/
def State.ringOn (s : State) (seat ring : Nat) : Bool := s.bitAt (Reg.ringBase seat ring) 0
/-- Seat address of a page-aligned base register. -/
def State.baseOf (s : State) (off : Nat) : Nat := s.fld off 12 52 * 4096
/-- Status-word slots per ring: values 17 to 31 act as 16 (Table 4.4). -/
def State.slotCount (s : State) (seat : Nat) : Nat := min 16 (s.fld (Reg.statusBase seat) 0 5)
/-- The outstanding commands of a ring. -/
def State.ringCmds (s : State) (seat ring : Nat) : List Cmd := s.cfe.cmds.filter fun c => c.seat = seat && c.ring = ring
/-- Unread reply entries (R138). -/
def State.unread (s : State) (seat ring : Nat) : Nat :=
  subMod (s.replyWr seat ring) (s.replyRd seat ring) (2 ^ (s.replyLog seat + 1))
/-- Reply entries that are neither unread nor reserved (R122). -/
def State.replyFree (s : State) (seat ring : Nat) : Nat :=
  2 ^ s.replyLog seat - s.unread seat ring - sumOn (s.ringCmds seat ring) Cmd.reserved

/-! ### Writing to the areas -/

/-- Write to a ring's area. What can no longer be written is discarded (R118); with `noHost`, writes to host memory are not issued
(R213). -/
def areaStore (seat a : Nat) (bs : List Byte) (noHost : Bool) : Act :=
  .ask fun s =>
    match s.translate seat a 1 .write with
    | none => .skip
    | some pl => if noHost && pl.target = 0 then .skip else seatStore stCfe seat a bs

/-- Rewrite the pointer mirror of a ring (R115). -/
def mirrorPut (seat ring : Nat) (noHost : Bool) : Act :=
  .ask fun s =>
    areaStore seat (s.baseOf (Reg.replyBase seat) + 8 * ring)
      (leBytes 8 (s.cmdRd seat ring + s.replyWr seat ring * 2 ^ 32)) noHost

/-- Put a reply entry: the entry is visible before the pointer and the mirror cover it (R129, R136); the threshold event is raised
when the unread entries rise to the threshold (R138). -/
def replyPut (seat ring : Nat) (w0 w1 : Nat) (noHost : Bool) : Act :=
  .ask fun s =>
    let e := s.replyLog seat
    let wr := s.replyWr seat ring
    let th := s.fld (Reg.ringPtrs seat ring) 16 15
    acts [
      areaStore seat (s.baseOf (Reg.replyBase seat) + 64 + ring * 16 * 2 ^ e + 16 * (wr % 2 ^ e))
        (leBytes 8 w0 ++ leBytes 8 w1) noHost,
      setFld (Reg.ringPtrs seat ring) 49 15 ((wr + 1) % 2 ^ (e + 1)),
      mirrorPut seat ring noHost,
      actIf (decide (th ≠ 0) && decide (s.unread seat ring < th) && decide (th ≤ s.unread seat ring + 1)) (irqSet seat ring)]

/-- Word 0 of a reply entry (Table 4.8). -/
def replyWord (status engine tag bell : Nat) : Nat := bell % 2 ^ 32 + tag * 2 ^ 32 + engine * 2 ^ 48 + status * 2 ^ 56

/-- Update the status word of a command that keeps one (R139, R140). -/
def statusPut (id state : Nat) : Act :=
  onCmd id fun s c =>
    actOpt c.slot fun sl =>
      let key := 128 * c.seat + 16 * c.ring + sl
      let n := (mapGet (fun _ => 0) key s.cfe.slotSeq + 1) % 2 ^ 32
      acts [
        .eff (.cfe fun x => { x with slotSeq := mapPut (fun _ => 0) key n x.slotSeq }),
        areaStore c.seat (s.baseOf (Reg.statusBase c.seat) + 512 * c.ring + 32 * sl)
          (leBytes 8 (n + c.tag * 2 ^ 32 + c.engine * 2 ^ 48 + state * 2 ^ 56)
            ++ leBytes 8 (c.unitsDone % 2 ^ 32 + (c.unitsTotal % 2 ^ 32) * 2 ^ 32)
            ++ leBytes 8 c.part
            ++ leBytes 8 (n + (s.tts.bell % 2 ^ 32) * 2 ^ 32)) c.mute]

/-- State that a running command's status word reads: PARTIAL once partial results are visible (R141). -/
def Cmd.runState (c : Cmd) : Nat := if c.partialOk && decide (c.part ≠ 0) then stPartial else stRunning

/-- A ring's idle bit: 1 when no command of it is outstanding (Table 4.1). -/
def idleUpdate (seat ring : Nat) : Act :=
  .ask fun s => setFld (Reg.ringBase seat ring) 1 1 (b2n (s.ringCmds seat ring).isEmpty)

/-- Write a command's last reply and take it from the outstanding ones. -/
def cmdLastReply (c : Cmd) (status detail bell : Nat) : Act :=
  acts [replyPut c.seat c.ring (replyWord status (replyEngine c.op) c.tag bell) detail c.mute, cmdDrop c.id, idleUpdate c.seat c.ring]

/-- Reject a command: one reply, which is its only one; its slot and its reservations are released (R128, R133). -/
def cmdReject (c : Cmd) (r : Reject) : Act :=
  .ask fun s => cmdLastReply c r.code r.word s.tts.bell

/-- Complete an ended command: the final status word, then the final reply (R134, R136, R150). -/
def cmdFinish (c : Cmd) : Act :=
  acts [statusPut c.id c.finalStatus, cmdLastReply c c.finalStatus c.detail c.endBell]

/-- End and complete a single-reply command at its decision (R133). -/
def cmdSingle (c : Cmd) (detail : Nat) : Act :=
  .ask fun s => acts [statusPut c.id stDone, cmdLastReply c stDone detail s.tts.bell]

/-! ### Enabling and disabling (R116 to R118) -/

/-- Bytes of the reply area (R114). -/
def replyAreaLen (e : Nat) : Nat := 64 + 8 * 16 * 2 ^ e

/-- Whether the areas of a ring lie in the seat's windows with the permissions of R116. -/
def State.ringAreasOk (s : State) (seat ring : Nat) : Bool :=
  s.areaOk seat (s.baseOf (Reg.ringBase seat ring)) (8 * 2 ^ s.ringLog seat ring) .fetch
    && s.areaOk seat (s.baseOf (Reg.replyBase seat)) (replyAreaLen (s.replyLog seat)) .write
    && s.areaOk seat (s.baseOf (Reg.statusBase seat)) 4096 .write

/-- enable_result of an attempt to enable a ring: the first failing condition of R116, 0 for none. -/
def State.enableResult (s : State) (seat ring : Nat) : Nat :=
  if !s.bitAt (Reg.ringBase seat ring) 1 then 2
  else if !(decide (6 ≤ s.ringLog seat ring) && decide (s.ringLog seat ring ≤ 16) && decide (6 ≤ s.replyLog seat)
      && decide (s.replyLog seat ≤ 14)) then 3
  else if !s.ringAreasOk seat ring then 1
  else 0

/-- A write of enable as 1 to a ring whose enable is 0 (R116). -/
def ringEnableOp (seat ring : Nat) : Act :=
  .ask fun s =>
    let r := s.enableResult seat ring
    acts [setFld (Reg.ringBase seat ring) 2 2 r,
      actIf (r = 0) (acts [setFld (Reg.ringBase seat ring) 0 1 1, setFld (Reg.ringPtrs seat ring) 32 32 0,
        setReg (Reg.doorbell seat ring) 0])]

/-- Stop fetching from a ring; a pass that has been opened and not received is rejected (R117). -/
def ringDisableOp (seat ring : Nat) : Act :=
  .ask fun s =>
    acts [setFld (Reg.ringBase seat ring) 0 1 0,
      .eff (.cfe fun c => { c with held := mapPut (fun _ => []) (8 * seat + ring) [] c.held }),
      each ((s.ringCmds seat ring).filter fun c => c.stage = .opened) fun c => cmdReject c ⟨rjMalformed, 5, 0xFF, 0⟩,
      idleUpdate seat ring]

/-! ### Doorbells (R119, R120) -/

/-- Whether a doorbell value is valid for a ring (R119). -/
def State.doorbellOk (s : State) (seat ring wr rd : Nat) : Bool :=
  let n := 2 ^ s.ringLog seat ring
  let r := 2 ^ s.replyLog seat
  decide (wr < 2 * n) && decide (rd < 2 * r)
    && decide (subMod wr (s.cmdRd seat ring) (2 * n) ≤ n)
    && decide (subMod wr (s.cmdWr seat ring) (2 * n) ≤ n - subMod (s.cmdWr seat ring) (s.cmdRd seat ring) (2 * n))
    && decide (subMod (s.replyWr seat ring) rd (2 * r) ≤ r)
    && decide (subMod rd (s.replyRd seat ring) (2 * r) ≤ s.unread seat ring)

/-- A 64-bit write of DOORBELLn: ignored while the ring is disabled or the seat resets (R117, R211), ignored whole with
DOORBELL_INVALID where it is invalid (R120), else both pointers are taken. -/
def doorbellOp (seat ring : Nat) (v : Word) : Act :=
  .ask fun s =>
    if !s.ringOn seat ring || s.seatState seat != 1 then .skip
    else if s.doorbellOk seat ring (wBits v 0 17) (wBits v 32 15) && wBits v 17 15 = 0 && wBits v 47 17 = 0 then setReg (Reg.doorbell seat ring) v
    else if s.doorbellOk seat ring (wBits v 0 17) (wBits v 32 15) then
      setReg (Reg.doorbell seat ring) (BitVec.ofNat 64 (wBits v 0 17 + wBits v 32 15 * 2 ^ 32))
    else raiseSrc stCfe 4 0 (some seat)

/-! ### Fetch (R121 to R128, R144, R645) -/

/-- The rings whose enable is 1, as 8 × seat + ring. -/
def State.enabledRings (s : State) : List Nat :=
  s.csr.filterMap fun kv =>
    if 0x800000 ≤ kv.1 && kv.1 < 0xA00000 && decide (0x100 ≤ kv.1 % 0x1000) && decide (kv.1 % 0x1000 < 0x140) && wBit kv.2 0 then
      some (8 * ((kv.1 - 0x800000) / 0x1000) + (kv.1 % 0x1000 - 0x100) / 8) else none

/-- The enabled rings of ACTIVE seats, as 8 × seat + ring, ascending (R182, R211). -/
def State.liveRings (s : State) : List Nat := s.enabledRings.filter fun r => s.seatState (r / 8) = 1

/-- The accesses by which CFE reads `n` words of a ring from a pointer, wrapping at the ring's end (R121). -/
def State.ringReads (s : State) (seat ring ptr n : Nat) (h : HostAns) : List MemOut :=
  (List.range n).map fun i =>
    seatRead s stCfe seat (s.baseOf (Reg.ringBase seat ring) + 8 * ((ptr + i) % 2 ^ s.ringLog seat ring)) 8 .fetch h

/-- Words between the read and the write pointer. -/
def State.ringAvail (s : State) (seat ring : Nat) : Nat :=
  subMod (s.cmdWr seat ring) (s.cmdRd seat ring) (2 ^ (s.ringLog seat ring + 1))

/-- The packet at a ring's read pointer takes this many words (length 0 takes 1, Table 4.7). -/
def State.nextLen (s : State) (seat ring : Nat) : Nat :=
  match s.ringReads seat ring (s.cmdRd seat ring) 1 .ok with
  | [o] => max 1 (hdrLen (bytesWord o.bytes))
  | _ => 1

/-- Whether CFE can fetch a packet from a ring now (R121, R122): its words are there, fewer than 1,024 commands are outstanding, two
reply entries are free, and the packet before it has been taken up. -/
def State.canFetch (s : State) (r : Nat) : Bool :=
  let seat := r / 8
  let ring := r % 8
  decide (s.ringAvail seat ring ≠ 0) && decide ((s.ringCmds seat ring).length < 1024) && decide (2 ≤ s.replyFree seat ring)
    && (mapGet (fun _ => []) r s.cfe.held).isEmpty && decide (s.nextLen seat ring ≤ s.ringAvail seat ring)

/-- The ring that CFE serves next: round robin over the rings of all seats (R124). -/
def State.nextRing (s : State) : Option Nat :=
  let rs := s.liveRings.filter s.canFetch
  match rs.find? fun r => decide (s.cfe.rr < r) with
  | some r => some r
  | none => rs.head?

/-- Whether a status-word slot of a ring is held (R128). -/
def State.slotHeld (s : State) (seat ring sl : Nat) : Bool := (s.ringCmds seat ring).any fun c => c.slot = some sl

/-- The sub-reason of the rejection that Table 4.7 gives a fetched packet, 0 for none. -/
def State.fetchReject (s : State) (seat ring : Nat) (h : Word) : Nat :=
  if hdrLen h = 0 then 2
  else if hdrReserved h then 1
  else if (opLength (hdrOp h)).isNone then 3
  else if !lengthOk (hdrOp h) (hdrLen h) then 2
  else if hdrOp h = 0x0302 || hdrOp h = 0x0304 then 0
  else if wBit h 37 && (decide (s.slotCount seat ≤ wBits h 20 4) || s.slotHeld seat ring (wBits h 20 4)) then 5
  else 0

/-- A fetched command, before it is received. -/
def cmdNew (s : State) (seat ring : Nat) (ws : List Word) : Cmd :=
  { id := s.cfe.nextId, seat := seat, ring := ring, words := ws, draws := [], stage := .opened, bad := 0, seq := 0,
    rBell := s.tts.bell, rPeriod := s.tts.period, age := 0, dl := 0, latest := 0, fault := false, timedOut := false,
    squashed := false, overrun := false, degraded := false, single := opSingle (hdrOp (ws.headD 0)), reserved := 2,
    slot := if wBit (ws.headD 0) 37 then some (wBits (ws.headD 0) 20 4) else none, unitsDone := 0, unitsTotal := 0, part := 0,
    detail := 0, endBell := 0, endId := 0, inflight := 0, squashReq := false, res := [], mute := false }

/-- Add a fetched command. -/
def cmdAdd (c : Cmd) : Act :=
  acts [.eff (.cfe fun x => { x with cmds := x.cmds ++ [c], nextId := x.nextId + 1 }), setFld (Reg.ringBase c.seat c.ring) 1 1 0]

/-- Make a command received: it takes the seat's next sequence number and the last place in the order of decisions, and its decision
window opens (R72, R100, R123, R159). -/
def cmdReceive (id : Nat) : Act :=
  onCmd id fun s c =>
    let n := mapGet (fun _ => 0) c.seat s.cfe.seq
    acts [cmdUpd id fun c => { c with stage := .received, seq := n, rBell := s.tts.bell, rPeriod := s.tts.period, age := 0,
                                      dl := s.tts.bell + 1 + c.deadline },
      .eff (.cfe fun x => { x with seq := mapPut (fun _ => 0) c.seat (n + 1) x.seq,
                                   cmds := (x.cmds.filter fun y => y.id != id) ++ x.cmds.filter fun y => y.id = id })]

/-- The open pass of a ring. -/
def State.openPass (s : State) (seat ring : Nat) : Option Cmd := (s.ringCmds seat ring).find? fun c => c.stage = .opened

/-- A packet other than a member meets an open pass: the pass is to be rejected with PARAMETER (R144). -/
def passInterrupt (seat ring : Nat) : Act :=
  .ask fun s => actOpt (s.openPass seat ring) fun c =>
    acts [cmdUpd c.id fun c => { c with bad := if c.bad = 0 then 5 else c.bad }, cmdReceive c.id]

/-- Reply of CFE to a malformed packet: a single reply at once; the packet takes no part in anything else (R127). -/
def fetchReply (seat ring : Nat) (h : Word) (sub : Nat) : Act :=
  .ask fun s =>
    replyPut seat ring (replyWord rjMalformed (replyEngine (hdrOp h)) (wBits h 0 16) s.tts.bell)
      (Reject.word ⟨rjMalformed, sub, 0xFF, 0⟩) false

/-- Take up a packet of which CFE holds a copy: reject it (R127), hold a packet of a pass for its pass (R144), or make it received. -/
def packetTake (seat ring : Nat) (ws : List Word) : Act :=
  .ask fun s =>
    let h := ws.headD 0
    let bad := s.fetchReject seat ring h
    let member := hdrOp h = 0x0302 || hdrOp h = 0x0304
    if bad != 0 && !(member && (s.openPass seat ring).isSome && (bad = 1 || bad = 2)) then
      acts [actIf (!member) (passInterrupt seat ring), fetchReply seat ring h bad]
    else if member || hdrOp h = 0x0301 then
      .eff (.cfe fun x => { x with held := mapPut (fun _ => []) (8 * seat + ring) ws x.held })
    else acts [passInterrupt seat ring, .ask fun s => acts [cmdAdd (cmdNew s seat ring ws), cmdReceive s.cfe.nextId]]

/-- Fetch the next packet of the ring whose turn it is (R121 to R124). A read that receives an error response fetches nothing and
disables the ring (R645). -/
def fetchOp (h : HostAns) : Act :=
  .ask fun s => actOpt s.nextRing fun r =>
    let seat := r / 8
    let ring := r % 8
    let n := s.nextLen seat ring
    let os := s.ringReads seat ring (s.cmdRd seat ring) n h
    acts [
      each os fun o => o.act,
      .eff (.cfe fun x => { x with rr := r }),
      if os.any fun o => o.miss then .skip
      else if os.any fun o => o.err then acts [ringDisableOp seat ring, raiseSrc stCfe 6 0 (some seat)]
      else acts [
        setFld (Reg.ringPtrs seat ring) 32 17 ((s.cmdRd seat ring + n) % 2 ^ (s.ringLog seat ring + 1)),
        mirrorPut seat ring false,
        packetTake seat ring (os.map fun o => bytesWord o.bytes)]]

/-- Drop the packet that CFE holds for a ring's pass. -/
def heldClear (seat ring : Nat) : Act :=
  .eff (.cfe fun x => { x with held := mapPut (fun _ => []) (8 * seat + ring) [] x.held })

/-- The packet that CFE holds for a ring's pass, if it has an opcode. -/
def State.heldPacket (s : State) (seat ring op : Nat) : Option (List Word) :=
  let ws := mapGet (fun _ => []) (8 * seat + ring) s.cfe.held
  if !ws.isEmpty && hdrOp (ws.headD 0) = op then some ws else none

/-- A member that stands outside a pass is a command of its own, to be rejected with PARAMETER; its slot is ignored (R144). -/
def strayMember (seat ring : Nat) (ws : List Word) : Act :=
  .ask fun s => acts [cmdAdd { cmdNew s seat ring ws with bad := 5, slot := none }, cmdReceive s.cfe.nextId]

/-- A seat's RND_PASS_BEGIN opens a pass (R144). -/
def passBeginOp (seat ring : Nat) : Act :=
  .ask fun s => actOpt (s.heldPacket seat ring 0x0301) fun ws =>
    acts [heldClear seat ring, passInterrupt seat ring, .ask fun s => cmdAdd (cmdNew s seat ring ws)]

/-- A member RND_DRAW joins the open pass: its header is still checked (R4), and draws beyond the declared number reject the pass
with ENVELOPE (R144). -/
def passDrawOp (seat ring : Nat) : Act :=
  .ask fun s => actOpt (s.heldPacket seat ring 0x0302) fun ws =>
    acts [heldClear seat ring,
      match s.openPass seat ring with
      | none => strayMember seat ring ws
      | some c =>
        let sub := s.fetchReject seat ring (ws.headD 0)
        let extra := decide (c.f 2 16 16 < c.draws.length + 1)
        cmdUpd c.id fun c =>
          { c with draws := c.draws ++ [ws], bad := if c.bad != 0 then c.bad else if sub != 0 then sub else if extra then 4 else 0 }]

/-- RND_PASS_END closes the pass, which makes it received (R123, R144). -/
def passEndOp (seat ring : Nat) : Act :=
  .ask fun s => actOpt (s.heldPacket seat ring 0x0304) fun ws =>
    acts [heldClear seat ring,
      match s.openPass seat ring with
      | none => strayMember seat ring ws
      | some c =>
        let sub := s.fetchReject seat ring (ws.headD 0)
        acts [cmdUpd c.id fun c => { c with bad := if c.bad = 0 then sub else c.bad }, cmdReceive c.id]]

end Sys2Proof.Machine
end

