-- ==== Sys2Proof/Machine/Layers.lean ====
section
/-!
DEFINITION. Machine/Layers.lean: canvases, layers, heads and their tiles as plain geometry (chapters 9 and 11), and the
standing composition costs that follow from them (R89, R90).
-/

namespace Sys2Proof.Machine

/-! ### Reading and changing the picture path -/

/-- Field of word `i` of a packet kept as words. -/
def fw (ws : List Word) (i lo w : Nat) : Nat := wBits (ws.getD i 0) lo w

/-- One bit of word `i`. -/
def fb (ws : List Word) (i b : Nat) : Bool := wBit (ws.getD i 0) b

/-- A layer that no CMP_LAYER_SET has set. -/
def layerNone (_ : Nat) : Layer :=
  { par := [], seat := 0, surf := 0, seq := 0, fresh := false, surfLast := 0, enabling := false, ref := none, stamp := none, sig := none, sigLast := none }

/-- A canvas that no CMP_CANVAS_SET has set. -/
def canvasNone (_ : Nat) : Canvas := { par := [], seat := 0, curves := [] }

/-- A head after reset: the reset timing of Tables 11.1 and 11.2, no buffers, no frame. -/
def headNone (_ : Nat) : HeadSt :=
  { timH := 0x002000300FA00F00, timV := 0x0005000308AE0870, timF := 0x600, bufs := [], old := [], fill := 0, dirty0 := [], dirty1 := [],
    cut0 := [], cut1 := [], edge := 0, comps := [], frame := none, shows := false, blank := false,
    scan := 0, line := 0, cuts := [], view := [], tally := 0, colors := 0, asleep := false, pair := [], und := [], raised := 0, sent := [], descNext := [], desc := [], crits := [], runs := [], idle := 0, capture := none,
    exit := none, select := false, rows := [], changed := false, marked := [] }

/-- A port after reset: the reset values of Tables 11.8 and 11.9. -/
def portNone (_ : Nat) : PortSt :=
  { set := [0x2020C, 0x1008C00000, 0x1008C00000, 0x1008C00000, 0x1008C00000], bringup := false, since := [0, 0, 0, 0] }

/-- Layer `l`. -/
def State.layer (s : State) (l : Nat) : Layer := mapGet layerNone l s.pic.layers
/-- Canvas `c`. -/
def State.canvas (s : State) (c : Nat) : Canvas := mapGet canvasNone c s.pic.canvases
/-- Head `h`. -/
def State.head (s : State) (h : Nat) : HeadSt := mapGet headNone h s.pic.heads
/-- Port `n`. -/
def State.port (s : State) (n : Nat) : PortSt := mapGet portNone n s.pic.ports

/-- Change a layer. -/
def layerUpd (l : Nat) (f : Layer → Layer) : Act :=
  .ask fun s => .eff (.pic fun p => { p with layers := mapPut layerNone l (f (s.layer l)) p.layers })
/-- Change a canvas. -/
def canvasUpd (c : Nat) (f : Canvas → Canvas) : Act :=
  .ask fun s => .eff (.pic fun p => { p with canvases := mapPut canvasNone c (f (s.canvas c)) p.canvases })
/-- Change a head. -/
def headUpd (h : Nat) (f : HeadSt → HeadSt) : Act :=
  .ask fun s => .eff (.pic fun p => { p with heads := mapPut headNone h (f (s.head h)) p.heads })
/-- Change a port. -/
def portUpd (n : Nat) (f : PortSt → PortSt) : Act :=
  .ask fun s => .eff (.pic fun p => { p with ports := mapPut portNone n (f (s.port n)) p.ports })

/-! ### Fields of CMP_LAYER_SET and CMP_CANVAS_SET (Tables 9.1, 9.3, 10.2) -/

/-- Whether a layer's parameters enable it. -/
def lpOn (p : List Word) : Bool := fb p 1 9
/-- Canvas of a layer. -/
def lpCanvas (p : List Word) : Nat := fw p 1 10 5
/-- Stacking position. -/
def lpZ (p : List Word) : Nat := fw p 1 16 9
/-- Pixel format. -/
def lpFmt (p : List Word) : Nat := fw p 2 0 4
/-- Rotation. -/
def lpRot (p : List Word) : Nat := fw p 2 4 2
/-- Declared opaque. -/
def lpOpaque (p : List Word) : Bool := fb p 2 15
/-- Blend mode. -/
def lpBlend (p : List Word) : Nat := fw p 2 19 2
/-- Width of the oriented source. -/
def lpW (p : List Word) : Nat := if lpRot p % 2 = 0 then fw p 3 32 16 else fw p 3 48 16
/-- Height of the oriented source. -/
def lpH (p : List Word) : Nat := if lpRot p % 2 = 0 then fw p 3 48 16 else fw p 3 32 16
/-- Destination rectangle: left, top, width, height. -/
def lpDst (p : List Word) : Int × Int × Nat × Nat :=
  (signed (fw p 6 0 16) 16, signed (fw p 6 16 16) 16, fw p 6 32 16, fw p 6 48 16)
/-- Global alpha. -/
def lpAlpha (p : List Word) : Nat := fw p 7 0 16
/-- Liveness mode: 0 STATIC, 1 STAMP, 2 SEQ, 3 MOTION. -/
def lpMode (p : List Word) : Nat := fw p 11 0 2
/-- Stamp-block address, 0 for none. -/
def lpStamp (p : List Word) : Nat := fw p 12 0 64

/-- Twice the bytes per pixel of a format, for R89 (Table 9.4). -/
def fmtB2 : Nat → Nat
  | 0 | 1 | 2 => 8
  | 3 => 16
  | 4 | 6 => 4
  | 5 | 11 => 2
  | 7 => 3
  | 8 => 6
  | 9 => 4
  | 10 => 8
  | _ => 0

/-- Bytes per unit and pixels per unit of plane 0 of a format (Table 9.4). -/
def fmtUnit : Nat → Nat × Nat
  | 0 | 1 | 2 => (4, 1)
  | 3 => (8, 1)
  | 4 | 6 => (2, 1)
  | 5 | 11 => (1, 1)
  | 7 => (1, 1)
  | 8 => (2, 1)
  | 9 => (4, 2)
  | 10 => (8, 2)
  | _ => (1, 1)

/-- Two-plane formats. -/
def fmtTwo (f : Nat) : Bool := f = 7 || f = 8

/-- Whether a canvas's parameters enable it. -/
def cpOn (p : List Word) : Bool := fb p 1 6
/-- Slice mode. -/
def cpSlice (p : List Word) : Bool := fb p 1 5
/-- Number of heads of a canvas. -/
def cpHeads (p : List Word) : Nat := fw p 1 8 4 + 1
/-- The entries of an enabled canvas: entry index and head. -/
def cpEntries (p : List Word) : List (Nat × Nat) :=
  if cpOn p then (List.range (cpHeads p)).map fun i => (i, fw p (4 + 2 * i) 0 5) else []
/-- Clip of an entry: column and row. -/
def cpClip (p : List Word) (i : Nat) : Nat × Nat := (fw p (4 + 2 * i) 16 15, fw p (4 + 2 * i) 32 15)
/-- Canvas size. -/
def cpSize (p : List Word) : Nat × Nat := (fw p 2 0 16, fw p 2 16 16)

/-! ### Head timing (Tables 11.1, 11.2) -/

/-- Active width of a head's applied timing. -/
def HeadSt.w (h : HeadSt) : Nat := wBits h.timH 0 16
/-- Active height. -/
def HeadSt.ht (h : HeadSt) : Nat := wBits h.timV 0 16
/-- V total. -/
def HeadSt.vt (h : HeadSt) : Nat := wBits h.timV 16 16
/-- H total. -/
def HeadSt.htot (h : HeadSt) : Nat := wBits h.timH 16 16
/-- Frame-rate divisor k. -/
def HeadSt.k (h : HeadSt) : Nat := wBits h.timF 0 2 + 1
/-- Start slot s. -/
def HeadSt.slot (h : HeadSt) : Nat := wBits h.timF 2 2
/-- Phase offset φ in periods. -/
def HeadSt.phi (h : HeadSt) : Nat := wBits h.timF 4 5
/-- Tiles across the clip. -/
def HeadSt.tw (h : HeadSt) : Nat := ceilDiv h.w 64
/-- Tiles down the clip. -/
def HeadSt.th (h : HeadSt) : Nat := ceilDiv h.ht 64

/-- Whether a head starts a frame at the edge of a bell (R78). -/
def HeadSt.starts (h : HeadSt) (bell : Nat) : Bool := bell % h.k = h.slot % h.k

/-- Period, counted from the head's starting edge, in which the composition of a slice row starts (R79). -/
def HeadSt.rowStart (h : HeadSt) (j : Nat) : Nat := h.phi + (if h.vt = 0 then 0 else 64 * j * 32 * h.k / h.vt) - 2

/-! ### Tiles (R295, R296, R319) -/

/-- A rectangle of canvas pixels: left, top, right and bottom, the last two exclusive. -/
structure Rect where
  l : Int
  t : Int
  r : Int
  b : Int
deriving DecidableEq, Repr

/-- Whether a rectangle holds no pixel. -/
def Rect.empty (a : Rect) : Bool := decide (a.r ≤ a.l) || decide (a.b ≤ a.t)

/-- Intersection of rectangles. -/
def Rect.inter (a b : Rect) : Rect := { l := max a.l b.l, t := max a.t b.t, r := min a.r b.r, b := min a.b b.b }

/-- Whether one rectangle holds every pixel of another. -/
def Rect.holds (a b : Rect) : Bool := b.empty || (decide (a.l ≤ b.l) && decide (b.r ≤ a.r) && decide (a.t ≤ b.t) && decide (b.b ≤ a.b))

/-- Destination rectangle of a layer. -/
def lpRect (p : List Word) : Rect :=
  let d := lpDst p
  { l := d.1, t := d.2.1, r := d.1 + d.2.2.1, b := d.2.1 + d.2.2.2 }

/-- The canvas pixels of tile `t` of a clip: the tile's pixels in the clip that lie on the canvas. -/
def tileRect (cp : List Word) (i : Nat) (h : HeadSt) (t : Nat) : Rect :=
  let c := cpClip cp i
  let x := 64 * (t % h.tw)
  let y := 64 * (t / h.tw)
  Rect.inter
    { l := c.1 + x, t := c.2 + y, r := c.1 + min h.w (x + 64), b := c.2 + min h.ht (y + 64) }
    { l := 0, t := 0, r := (cpSize cp).1, b := (cpSize cp).2 }

/-- Whether a layer touches a tile. -/
def touches (lp : List Word) (tile : Rect) : Bool := !(Rect.inter (lpRect lp) tile).empty

/-- Whether a layer occludes a tile (R319). -/
def occludes (lp : List Word) (tile : Rect) : Bool :=
  lpOn lp && lpOpaque lp && lpAlpha lp = 0xFFFF && decide (lpBlend lp ≤ 1) && !tile.empty && (lpRect lp).holds tile

/-- A set of committed layer parameters, or one that a decision looks ahead to: layer number and packet words. -/
abbrev LayerSet := List (Nat × List Word)

/-- The enabled layers of a canvas, bottom first: ascending z, then ascending number (R305). -/
def stackOf (ls : LayerSet) (c : Nat) : LayerSet :=
  sortBy (fun x => 512 * lpZ x.2 + x.1) (ls.filter fun x => lpOn x.2 && lpCanvas x.2 = c)

/-- The layers of a stack that are fetched for a tile: those that touch it, none beneath the highest that occludes it. -/
def fetchedIn (stack : LayerSet) (tile : Rect) : LayerSet :=
  stack.foldl (fun acc x => if occludes x.2 tile then [x] else if touches x.2 tile then acc ++ [x] else acc) []

/-- Tile-slots of one layer over one tile (R90). -/
def slotsOf (lp : List Word) : Nat := ceilDiv (lpW lp) (fw lp 6 32 16) * ceilDiv (lpH lp) (fw lp 6 48 16)

/-! ### The configuration that a decision costs -/

/-- What causes composition cost: layers, canvases, heads. -/
structure PicCfg where
  layers : LayerSet
  canvases : List (Nat × Nat × List Word)
  heads : Nat → HeadSt

/-- The committed configuration. -/
def State.picNow (s : State) : PicCfg :=
  { layers := s.pic.layers.map fun x => (x.1, x.2.par), canvases := s.pic.canvases.map fun x => (x.1, x.2.seat, x.2.par), heads := s.head }

/-- A configuration after a pending set of a seat. -/
def PicCfg.apply (c : PicCfg) (canvas : Bool) (idx seat : Nat) (ws : List Word) : PicCfg :=
  if canvas then { c with canvases := (c.canvases.filter fun x => x.1 != idx) ++ [(idx, seat, ws)] }
  else { c with layers := (c.layers.filter fun x => x.1 != idx) ++ [(idx, ws)] }

/-- The configuration with every decided set. -/
def State.picShadow (s : State) : PicCfg := s.pic.sets.foldl (fun c x => c.apply x.canvas x.idx x.seat x.words) s.picNow

/-- A charge of a standing cost: class, unit (pipe or group), credits, the seat whose configuration causes it. -/
structure Charge where
  cls : Nat
  unit : Nat
  n : Nat
  seat : Option Nat := none
deriving DecidableEq, Repr

/-- A total split over groups in proportion to weights (R85): floors, then one each by descending fraction, lowest group first. -/
def splitShares (total : Nat) (weights : List (Nat × Nat)) : List (Nat × Nat) :=
  let w := sumOn weights Prod.snd
  if w = 0 then []
  else
    let base := weights.map fun x => (x.1, total * x.2 / w, total * x.2 % w)
    let left := total - sumOn base fun x => x.2.1
    let order := sortBy (fun x => (w - x.2.2) * 64 + x.1) base
    let lucky := (order.take left).map Prod.fst
    base.map fun x => (x.1, x.2.1 + b2n (lucky.contains x.1))

/-- Store charges spread over all 12 groups alike (R89 names no group for composition; assumption 13). -/
def spreadStore (total : Nat) (seat : Option Nat) : List Charge :=
  (splitShares total ((List.range 12).map fun g => (g, 1))).map fun x => { cls := 6, unit := x.1, n := x.2, seat := seat }

/-- The tiles of an entry that are composed in a bell: all of them in its composing bells, or the slice rows that fall in it
(R78, R81, R84). -/
def composedTiles (cp : List Word) (h : HeadSt) (bell : Nat) : List Nat :=
  if cpSlice cp then
    (List.range (h.tw * h.th)).filter fun t =>
      let o := h.rowStart (t / h.tw) / 32
      decide (o ≤ bell) && h.starts (bell - o)
  else if h.starts (bell + 1) then List.range (h.tw * h.th) else []

/-- The charges of composition and head fetch in a bell (Table 3.5). -/
def PicCfg.charges (c : PicCfg) (bell : Nat) : List Charge :=
  (c.canvases.map fun (cn, seat, cp) =>
    let stack := stackOf c.layers cn
    ((cpEntries cp).map fun e =>
      let h := c.heads e.2
      let tiles := composedTiles cp h bell
      let hits := (tiles.map fun t => fetchedIn stack (tileRect cp e.1 h t)).flatten
      let slots := sumOn hits fun x => slotsOf x.2
      let reads := sumOn stack fun l => (sumOn (hits.filter fun x => x.1 = l.1) fun x => slotsOf x.2) * 8 * fmtB2 (lpFmt l.2)
      [ { cls := 5, unit := 0, n := ceilDiv (h.w * h.ht * 4) (h.k * 256), seat := some seat : Charge },
        { cls := 1, unit := 0, n := slots, seat := some seat },
        { cls := 5, unit := 0, n := 64 * tiles.length + reads, seat := some seat } ]
        ++ spreadStore (128 * tiles.length) (some seat)).flatten).flatten

end Sys2Proof.Machine
end

