-- ==== Sys2Proof/Machine/Ledger.lean ====
section
/-!
DEFINITION. Machine/Ledger.lean: credit classes, capacities, standing costs, budgets and the booking ledger
(R83 to R95, R102, R221 to R225).
-/

namespace Sys2Proof.Machine

/-! ### Capacities (Table 3.1) -/

/-- Numerator of the bell length in seconds, over the denominator `bellDen`: in GENLOCK and CAPTURE 0.3% less (R52, R84). -/
def bellNum (b : BellSet) : Nat := b.den * (if b.mode = 0 then 1000 else 997)
/-- Denominator of the bell length in seconds. -/
def bellDen (b : BellSet) : Nat := b.num * 1000

/-- floor(rate × T) for a rate in units per second. -/
def perBell (b : BellSet) (rate : Nat) : Nat := if bellDen b = 0 then 0 else rate * bellNum b / bellDen b

/-- The committed render clock in steps of 100 MHz (R395): values below 4 act as 4, above 16 as 16. -/
def State.rndFreq (s : State) : Nat := max 4 (min 16 (s.cfld Reg.rndClk 0 5))

/-- Period of render-core cycles: P = floor(f_rnd × T / 32) (R98). -/
def State.rndPeriod (s : State) : Nat :=
  let b := s.tts.cur
  if bellDen b = 0 then 0 else s.rndFreq * 100000000 * bellNum b / (32 * bellDen b)

/-- The DRAM ceiling in force (R87, R276): clamped to 0x40 to 0xE0, to 0xC0 while a range is protected. -/
def State.dramCeiling (s : State) : Nat :=
  max 0x40 (min (if s.memc.iecc.isEmpty then 0xE0 else 0xC0) (s.cfld Reg.admCtrl 0 8))

/-- Whether an assignable unit counts as normal for the bookings of a bell (R221, R228): a unit that a hand-over moves to the secure
world does not count from the second bell after the request. -/
def State.unitNormal (s : State) (u bell : Nat) : Bool :=
  !s.unitSec u && !(s.worlds.moving.contains u && decide (s.worlds.hoBell + 2 ≤ bell))

/-- How many units of a range are normal in a bell. -/
def State.normalCount (s : State) (first n bell : Nat) : Nat :=
  ((List.range n).filter fun i => s.unitNormal (first + i) bell).length

/-- Capacity of a class in a bell under a bell setting, in one pipe or group where the class has them (R83 to R85, R221). -/
def State.capWith (s : State) (b : BellSet) (cls unit bell : Nat) : Nat :=
  match cls with
  | 0 => if bellDen b = 0 then 0 else
      s.normalCount 123 24 bell * s.rndFreq * 100000000 * bellNum b / (1024 * bellDen b)
  | 1 => if bellDen b = 0 then 0 else 13500000000 * bellNum b / (1024 * bellDen b)
  | 2 => if decide (unit < 8) && s.unitNormal (113 + unit) bell then perBell b 250000 else 0
  | 3 => if decide (8 ≤ unit) && decide (unit < 10) && s.unitNormal (113 + unit) bell then perBell b 250000 else 0
  | 4 => if bellDen b = 0 then 0 else s.normalCount 147 64 bell * 1200000000 * bellNum b / (256 * bellDen b)
  | 5 => if bellDen b = 0 then 0 else 546112000000 * s.dramCeiling * bellNum b / (65536 * bellDen b)
  | 6 => if unit < 12 then (if bellDen b = 0 then 0 else 307200000000 * bellNum b / (256 * bellDen b)) else 0
  | 7 => 1024
  | 8 => 32 * s.normalCount 97 8 bell
  | _ => 0

/-- The bell settings that bookings must fit: the one in force, and the one held while a change is pending (R643). -/
def State.settings (s : State) : List BellSet := s.tts.cur :: s.tts.held.toList

/-- Least of a list, 0 for an empty one. -/
def minOf : List Nat → Nat
  | [] => 0
  | [x] => x
  | x :: xs => min x (minOf xs)

/-- Capacity of a class and unit in a bell. -/
def State.cap (s : State) (cls unit bell : Nat) : Nat := minOf (s.settings.map fun b => s.capWith b cls unit bell)

/-- The units of a class: decode pipes 0 to 7, encode pipes 8 and 9, Store groups 0 to 11. -/
def unitsOf : Nat → List Nat
  | 2 => List.range 8
  | 3 => [8, 9]
  | 6 => List.range 12
  | _ => [0]

/-! ### Standing costs (Table 3.5) -/

/-- A capture port's charge from its set words (R446). -/
def capCharge (b : BellSet) (set : List Word) (seat : Option Nat) : List Charge :=
  if !fb set 0 0 then []
  else [{ cls := 5, unit := 0, n := ceilDiv (fw set 1 0 16 * fw set 1 16 16 * fmtB2 (fw set 0 7 4) * ceilDiv (fw set 1 32 8 * b.den) b.num) 512,
          seat := seat }]

/-- Block units of a picture. -/
def blockUnits (w h : Nat) : Nat := ceilDiv w 64 * ceilDiv h 64

/-- 256-byte credits of `m` pictures at `k` transfers each (Table 3.6): b is 1.5 or 3.0. -/
def picDramNum (w h : Nat) (ten : Bool) (k m : Nat) : Nat := roundUp w 64 * roundUp h 64 * (if ten then 6 else 3) * k * m

/-- Pictures of a LIVE session per bell (R451). -/
def livePics (b : BellSet) (ws : List Word) : Nat := ceilDiv (fw ws 3 0 32 * b.den) (fw ws 3 32 32 * b.num)

/-- A session's standing charge: LIVE decode sessions only (R451). -/
def sessCharge (b : BellSet) (ws : List Word) (pipe : Nat) (seat : Option Nat) : List Charge :=
  if !fb ws 1 7 || fb ws 1 1 then []
  else
    let m := livePics b ws
    [{ cls := 2, unit := pipe, n := blockUnits (fw ws 2 0 16) (fw ws 2 16 16) * m, seat := seat },
     { cls := 5, unit := 0, n := ceilDiv (picDramNum (fw ws 2 0 16) (fw ws 2 16 16) (fb ws 1 6) 3 m) 512, seat := seat }]

/-- Channels of a host stream. -/
def streamCh (ws : List Word) : Nat := fw ws 1 2 3 + 1

/-- A host stream's charge (R89). -/
def streamCharge (b : BellSet) (ws : List Word) (seat : Nat) : List Charge :=
  [{ cls := 7, unit := 0, n := streamCh ws, seat := some seat },
   { cls := 5, unit := 0, n := ceilDiv (streamCh ws * 384000 * b.den) (256 * b.num), seat := some seat }]

/-- Bits set in a mask of `n` bits. -/
def popCount (n m : Nat) : Nat := (bitsOf n m).length

/-- A TDM port's charge: one AUDIO credit per active input slot. -/
def tdmCharge (set : List Word) (seat : Option Nat) : List Charge :=
  if fb set 0 0 then [{ cls := 7, unit := 0, n := popCount (fw set 0 4 4 + 1) (fw set 0 16 16), seat := seat }] else []

/-- The audio charge of a capture port: all 8 channels count with audio set (R498). -/
def capAudio (set : List Word) (seat : Option Nat) : List Charge :=
  if fb set 0 0 && fb set 0 11 then [{ cls := 7, unit := 0, n := 8, seat := seat }] else []

/-- Enabled stages of a bus. -/
def Stages.count (t : Stages) : Nat := b2n (!t.eq.isEmpty) + b2n t.delay.isSome + b2n t.limit.isSome

/-- A bus without effects (after reset). -/
def busNone (_ : Nat) : Bus :=
  { st := ⟨[], none, none⟩, run := ⟨[], [], [], 0x3F800000⟩, old := none, outq := [] }

/-- Stages after an AUD_EFFECT packet (Table 14.7). -/
def Stages.after (t : Stages) (ws : List Word) : Stages :=
  let on := fb ws 1 19
  match fw ws 1 17 2 with
  | 0 => { t with eq := if on then ws else [] }
  | 1 => { t with delay := if on then some (fw ws 2 0 14) else none }
  | _ => { t with limit := if on then some (fw ws 2 0 32, fw ws 2 32 10) else none }

/-- The buses that an AUD_EFFECT names. -/
def effBuses (ws : List Word) : List Nat := rangeFrom (fw ws 1 0 8) (fw ws 1 8 9)

/-- The stages of every bus that has any, after effects not yet applied. -/
def State.stagesWith (s : State) (effs : List (List Word)) : List (Nat × Nat) :=
  (List.range 256).filterMap fun b =>
    let t := effs.foldl (fun t ws => if (effBuses ws).contains b then t.after ws else t) (mapGet busNone b s.med.aud.buses).st
    if t.count = 0 then none else some (b, t.count)

/-- The seat that owns a bus (R480): none where no seat is in force or the bus is secure. -/
def State.busOwner (s : State) (b : Nat) : Option Nat :=
  if s.cfld (Reg.audBusOwner b) 9 1 = 1 && s.cfld (Reg.audBusOwner b) 10 1 = 0 then some (s.cfld (Reg.audBusOwner b) 0 9) else none

/-- A seat that holds a bit of a RESOURCES word in the committed table. -/
def State.ownerBit (s : State) (w bit : Nat) : Option Nat := (List.range 512).find? fun n => wBit (s.tblW 1 n 0 w) bit

/-- A capture port's own state. -/
def capNone (_ : Nat) : CapSt :=
  { set := [], edid := [], ring := none, slot := none, rxAt := none, wroteAt := none, hpd := false, pulse := false, mism := false, edgePub := none }
/-- Capture port `n`. -/
def State.capSt (s : State) (n : Nat) : CapSt := mapGet capNone n s.vid.caps
/-- A TDM port's own state. -/
def tdmNone (_ : Nat) : TdmSt := { set := [], out := [] }
/-- TDM port `p`. -/
def State.tdmSt (s : State) (p : Nat) : TdmSt := mapGet tdmNone p s.med.aud.tdm

/-- Seat of a normal unit's owner, none for a secure one. -/
def State.unitOwner (s : State) (u w bit : Nat) : Option Nat := if s.unitSec u then none else s.ownerBit w bit

/-- Where an address of the Prefect's leads in the Store (R350): through the safety seat's windows in the normal world, a device
address in the secure world. -/
def State.prfPlace (s : State) (a : Nat) : Option Nat :=
  if s.unitSec 72 then (if isStore a then some a else none)
  else if s.cfld Reg.prfCtrl 9 1 = 1 then
    match s.translate (s.cfld Reg.prfCtrl 0 9) a 1 .read with
    | some pl => if pl.target = 2 then some pl.addr else none
    | none => none
  else none

/-- Word `w` of the descriptor table of a head as memory holds it. -/
def State.descWord (s : State) (h o : Nat) : Word :=
  match s.prfPlace (s.cfld (Reg.prfCfg h) 12 52 * 4096 + o) with
  | some a => s.wordAt a
  | none => 0

/-- The charges of the Prefect's critical layers of a head (R89, R352): the 1 KiB table, and pitch × h for each valid layer, against
the groups that hold them. -/
def State.prfCharge (s : State) (h : Nat) : List Charge :=
  if s.cfld (Reg.prfCfg h) 0 1 = 0 then []
  else
    let base := s.cfld (Reg.prfCfg h) 12 52 * 4096
    let parts := (base, 1024) :: (List.range 8).filterMap fun i =>
      if wBit (s.descWord h (64 * i)) 0 then
        some ((s.descWord h (64 * i + 16)).toNat, wBits (s.descWord h (64 * i + 8)) 32 16 * wBits (s.descWord h (64 * i + 8)) 16 16)
      else none
    let placed := parts.filterMap fun x => (s.prfPlace x.1).map fun a => (storeGroup a, x.2)
    let total := ceilDiv (sumOn parts Prod.snd) ((s.head h).k * 256)
    let weights := (List.range 12).map fun g => (g, sumOn (placed.filter fun x => x.1 = g) Prod.snd)
    (splitShares total (weights.filter fun x => x.2 != 0)).map fun x => { cls := 6, unit := x.1, n := x.2 }

/-- A reservation of the secure world as bookings of a bell see it (R225). -/
def resAt (now : Nat) (raise : Option (Nat × Nat)) (bell : Nat) : Nat :=
  match raise with
  | some (v, q) => if q + 2 ≤ bell then max now v else now
  | none => now

/-- What does not come from canvases: capture, sessions, audio, the Prefect, secure reservations. -/
def State.otherCharges (s : State) (b : BellSet) (bell : Nat) : List Charge :=
  ((List.range 8).map fun n =>
      let o := s.unitOwner (32 + n) 1 (32 + n)
      capCharge b (s.capSt n).set o ++ capAudio (s.capSt n).set o).flatten
    ++ (s.vid.sess.map fun x => if x.seat.isSome then sessCharge b x.words x.pipe x.seat else []).flatten
    ++ (s.med.aud.streams.map fun x => streamCharge b x.words x.seat).flatten
    ++ ((List.range 8).map fun p => tdmCharge (s.tdmSt p).set (s.unitOwner (105 + p) 1 (56 + p))).flatten
    ++ ((s.stagesWith []).map fun x => ({ cls := 7, unit := 0, n := x.2, seat := s.busOwner x.1 } : Charge))
    ++ ((List.range 32).map s.prfCharge).flatten
    ++ [{ cls := 5, unit := 0, n := resAt s.worlds.resDram s.worlds.raiseDram bell }]
    ++ (List.range 12).map fun g => ({ cls := 6, unit := g, n := resAt s.worlds.resStore s.worlds.raiseStore bell } : Charge)

/-- Sum of the charges of a class and unit. -/
def chargeSum (cs : List Charge) (cls unit : Nat) : Nat := sumOn (cs.filter fun c => c.cls = cls && c.unit = unit) Charge.n

/-- The greatest standing charge of a class and unit in a bell: over the committed configuration and the one with every decided set, and
over the settings that bookings must fit (assumption 14). -/
def State.standing (s : State) (cls unit bell : Nat) : Nat :=
  let pic := max (chargeSum (s.picNow.charges bell) cls unit) (chargeSum (s.picShadow.charges bell) cls unit)
  let other := s.settings.foldl (fun m b => max m (chargeSum (s.otherCharges b bell) cls unit)) 0
  let effs := if cls = 7 then
      sumOn (s.stagesWith (s.med.aud.effects.map Prod.snd)) Prod.snd - sumOn (s.stagesWith []) Prod.snd else 0
  pic + other + effs

/-- The standing charges that a seat's configurations cause in a class (R93). -/
def State.seatStanding (s : State) (seat cls bell : Nat) : Nat :=
  sumOn ((s.picNow.charges bell ++ s.otherCharges s.tts.cur bell).filter fun c => c.cls = cls && c.seat = some seat) Charge.n

/-! ### The ledger (R73) -/

/-- Credits of a class and unit booked in a bell. -/
def State.booked (s : State) (cls unit bell : Nat) : Nat :=
  sumOn (s.adm.shares.filter fun x => x.cls = cls && x.unit = unit && x.bell = bell) Share.n

/-- Credits of a class that a seat has booked in a bell. -/
def State.seatBooked (s : State) (seat cls bell : Nat) : Nat :=
  sumOn (s.adm.shares.filter fun x => x.cls = cls && x.seat = seat && x.bell = bell) Share.n

/-- Unbooked capacity of a class and unit in a bell. -/
def State.freeCap (s : State) (cls unit bell : Nat) : Nat :=
  s.cap cls unit bell - s.standing cls unit bell - s.booked cls unit bell

/-- Budget of a class that decisions made now use (R95). -/
def State.budgetOf (s : State) (seat cls : Nat) : Nat := mapGet (fun _ => 0) (16 * seat + cls) s.seats.budget

/-- A seat's unbooked budget of a class in a bell (R92, R93). -/
def State.freeBudget (s : State) (seat cls bell : Nat) : Nat :=
  if s.budgetOf seat cls = 0xFFFFFFFF then 2 ^ 64
  else s.budgetOf seat cls - s.seatBooked seat cls bell - s.seatStanding seat cls bell

/-- The earliest bell that a decision can book (R71). -/
def State.firstBell (s : State) : Nat := if s.tts.period < 24 then s.tts.bell + 1 else s.tts.bell + 2

/-! ### book_earliest_first (R102) -/

/-- A cost: class, unit, credits. Class 16 is the standing reservation of the LIVE session that the unit names (R451). -/
abbrev Cost := List (Nat × Nat × Nat)

/-- Class that a rejection names for a class of costs. -/
def costClass (c : Nat) : Nat := if c = 16 then 2 else c

/-- What limits a fraction: nothing, a seat's budget of a class, the capacity of a class, time. -/
inductive Limit
  | none | budget (cls : Nat) | capacity (cls : Nat) | time
deriving DecidableEq, Repr

/-- A fraction with what set it. -/
structure Frac where
  num : Nat
  den : Nat
  by_ : Limit
deriving DecidableEq, Repr

/-- The lesser fraction; the first on a tie. -/
def Frac.min (a b : Frac) : Frac := if b.num * a.den < a.num * b.den then b else a

/-- A share of `n` credits at a fraction, rounded up. -/
def Frac.of (f : Frac) (n : Nat) : Nat := ceilDiv (n * f.num) f.den

/-- The greatest fraction at which a rounded share of `n` credits is at most `lim`. -/
def fracFit (n lim : Nat) (by_ : Limit) : Frac := if n ≤ lim then ⟨1, 1, .none⟩ else ⟨lim, n, by_⟩

/-- The sum of the rounded shares of several units at a fraction. -/
def fracSum (f : Frac) (ns : List Nat) : Nat := sumOn ns f.of

/-- Lower a fraction, one step of some rounded share at a time, until the sum of the shares fits. -/
def fracShrink (ns : List Nat) (lim : Nat) (by_ : Limit) : Nat → Frac → Frac
  | 0, f => ⟨0, f.den, by_⟩
  | k + 1, f =>
    if fracSum f ns ≤ lim then f
    else
      let steps := (ns.filter fun n => n != 0).map fun n => (⟨f.of n - 1, n, by_⟩ : Frac)
      let best := steps.foldl (fun (a b : Frac) => if a.num * b.den < b.num * a.den then b else a) ⟨0, 1, by_⟩
      fracShrink ns lim by_ k best

/-- The classes of a cost that seat budgets bound, once each. -/
def costClasses (c : Cost) : List Nat := ((List.range 9).filter fun k => c.any fun x => x.1 = k && x.2.2 != 0)

/-- Credits of a LIVE session's reservation that no command has booked in a bell. -/
def State.freeLive (s : State) (sess bell : Nat) : Nat :=
  match s.vid.sess.find? fun x => x.id = sess with
  | some x => blockUnits (fw x.words 2 0 16) (fw x.words 2 16 16) * livePics s.tts.cur x.words - s.booked 16 sess bell
  | none => 0

/-- The largest fraction of a remaining cost that a bell takes, and what set it: the seat's budgets, then the capacities, then the time
that the bell leaves (`cap`: class and credits that can run within one bell). -/
def State.fraction (s : State) (seat bell : Nat) (c : Cost) (cap : Option (Nat × Nat)) : Frac :=
  let f0 := (costClasses c).foldl (fun f k =>
    let ns := (c.filter fun x => x.1 = k).map fun x => x.2.2
    let lim := s.freeBudget seat k bell
    let start := fracFit (sumOn ns id) lim (.budget k)
    Frac.min f (fracShrink ns lim (.budget k) 64 start)) ⟨1, 1, .none⟩
  let f1 := c.foldl (fun f x =>
    if x.2.2 = 0 then f
    else Frac.min f (fracFit x.2.2 (if x.1 = 16 then s.freeLive x.2.1 bell else s.freeCap x.1 x.2.1 bell) (.capacity (costClass x.1)))) f0
  match cap with
  | some (k, m) => Frac.min f1 (fracFit (sumOn (c.filter fun x => x.1 = k) fun x => x.2.2) m .time)
  | none => f1

/-- A booking plan: the shares, what remains, what set the last fraction, the last bell examined. -/
structure Plan where
  shares : List Share
  left : Cost
  by_ : Limit
  last : Nat
deriving DecidableEq, Repr

/-- Book a cost in the bells from `bell` on, `n` of them at most (R102). -/
def State.book (s : State) (cmd seat : Nat) (cap : Option (Nat × Nat)) : Nat → Nat → Cost → Plan → Plan
  | 0, _, c, p => { p with left := c }
  | n + 1, bell, c, p =>
    if c.all fun x => x.2.2 = 0 then { p with left := [] }
    else
      let f := s.fraction seat bell c cap
      let got := c.map fun x => (x, f.of x.2.2)
      let shares := (got.filter fun x => x.2 != 0).map fun x =>
        ({ cmd := cmd, seat := seat, bell := bell, cls := x.1.1, unit := x.1.2.1, n := x.2 } : Share)
      s.book cmd seat cap n (bell + 1) (got.map fun x => (x.1.1, x.1.2.1, x.1.2.2 - x.2))
        { shares := p.shares ++ shares, left := [], by_ := f.by_, last := bell }

/-- The commands booked in a bell. -/
def State.bookedCmds (s : State) (bell : Nat) : List Nat := ((s.adm.shares.filter fun x => x.bell = bell).map Share.cmd).eraseDups

/-! ### R91: standing costs against every bell -/

/-- The first class, if any, in which a change of standing charges from `old` to `new` does not fit the capacity of some of the next 256
bells: only classes that the change enlarges count (R91). -/
def State.standingRefused (s : State) (old new : Nat → List Charge) : Option Nat :=
  (List.range 9).find? fun cls => (unitsOf cls).any fun u => (rangeFrom (s.tts.bell + 1) 256).any fun bell =>
    let o := chargeSum (old bell) cls u
    let n := chargeSum (new bell) cls u
    decide (o < n) && decide (s.cap cls u bell < s.standing cls u bell - o + n + s.booked cls u bell)

/-- Charges of a configuration of canvases under R91. -/
def State.picRefused (s : State) (new : PicCfg) : Option Nat := s.standingRefused s.picShadow.charges new.charges

/-! ### ADM_CAPn and ADM_FREEn (R88), cores_now (Table 12.2) -/

/-- cores_now of a queue: the normal cores of its committed mask that new decisions count; a core that a hand-over moves counts no more
from the request on (R397, R398). -/
def coresNowReg (q : Nat) : Act :=
  .ask fun s => setFld (Reg.rndQueueCfg q) 48 5
    (((bitsOf 24 (s.cfld (Reg.rndQueueCfg q) 8 24)).filter fun c => !s.unitSec (123 + c) && !s.worlds.moving.contains (123 + c)).length)

/-- Update the capacity registers for the next bell, and cores_now. -/
def capRegs : Act :=
  acts [each (List.range 16) coresNowReg, .ask fun s => each (List.range 9) fun k =>
    let caps := sumOn (unitsOf k) fun u => s.cap k u (s.tts.bell + 1)
    let free := sumOn (unitsOf k) fun u => s.freeCap k u (s.tts.bell + 1)
    acts [setFld (Reg.admCap k) 0 32 (min caps 0xFFFFFFFF), setFld (Reg.admFree k) 0 32 (min free 0xFFFFFFFF)]]

/-- Update ADM_QUEUE: commands awaiting a decision, age of the oldest. -/
def queueReg : Act :=
  .ask fun s =>
    let w := s.cfe.cmds.filter fun c => c.stage = .received
    acts [setFld Reg.admQueue 0 16 w.length, setFld Reg.admQueue 16 7 (min 64 (match w with | c :: _ => c.age | [] => 0))]

end Sys2Proof.Machine
end

