-- ==== Sys2Proof/Machine/Judge.lean ====
section
/-!
DEFINITION. Machine/Judge.lean: how a decision judges a command: its checks in the order of R101, its quota (R197 to
R200), its ownership (R191), the reads that it makes (R644).
-/

namespace Sys2Proof.Machine

/-- What a decision comes to, before bookings. -/
inductive Verdict
  /-- Rejected at one of the checks. -/
  | reject (r : Reject)
  /-- A single-reply opcode that is done at its decision. -/
  | single (detail : Nat) (act : Act)
  /-- A single-reply opcode whose reply follows later. -/
  | later (act : Act)
  /-- A command that ignores BACKGROUND and deadline: accepted without booking (R69, R643). -/
  | hold (act : Act)
  /-- A command of the deadline or the background class: cost, length in periods for its latest start, the credits of a class that one
  bell's time can run, what the acceptance does. -/
  | book (cost : Cost) (dur : Nat) (cap : Option (Nat × Nat)) (act : Act)
  /-- A deadline command whose shares its own rules have fixed (R465): shares, latest start. -/
  | fixed (shares : List Share) (latest : Nat) (act : Act)

/-- A judged command: what its reads recorded, and the verdict. -/
structure Judged where
  reads : Act
  v : Verdict

/-- A rejection without reads. -/
def rej (code sub : Nat) (cls : Nat := 0xFF) : Judged := { reads := .skip, v := .reject ⟨code, sub, cls, 0⟩ }

/-- A verdict without reads. -/
def ok (v : Verdict) : Judged := { reads := .skip, v := v }

/-- REJECT_MALFORMED, PARAMETER. -/
def rejParam : Judged := rej rjMalformed 5
/-- REJECT_MALFORMED, LENGTH. -/
def rejLength : Judged := rej rjMalformed 2
/-- REJECT_MALFORMED, ENVELOPE. -/
def rejEnvelope : Judged := rej rjMalformed 4
/-- REJECT_PERMISSION, WINDOW. -/
def rejWindow : Judged := rej rjPermission 2

/-- The first check that fails decides; else the rest. -/
def check (c : Bool) (r : Judged) (k : Judged) : Judged := if c then k else r

/-- A check that yields a rejection itself. -/
def checkO (r : Option Judged) (k : Judged) : Judged :=
  match r with
  | some j => j
  | none => k

/-- A read that the decision makes on behalf of the seat: outside the windows WINDOW, on an error response READ_ERROR (R195, R644). -/
def readThen (s : State) (seat a len : Nat) (h : HostAns) (k : List Byte → Judged) : Judged :=
  match s.translate seat a len .read with
  | none => rejWindow
  | some _ =>
    let o := seatRead s 9 seat a len .read h
    if o.miss then { reads := o.act, v := .reject ⟨rjPermission, 2, 0xFF, 0⟩ }
    else if o.err then { reads := o.act, v := .reject ⟨rjMalformed, 6, 0xFF, 0⟩ }
    else { reads := acts [o.act, (k o.bytes).reads], v := (k o.bytes).v }

/-- The engine grant of R191 and R101: bit clear gives ENGINE. -/
def engineCheck (s : State) (c : Cmd) (k : Judged) : Judged := check (s.engineOk c.seat c.engine) (rej rjPermission 1) k

/-- The ownership of R191: a secure target gives WORLD, one not owned PARAMETER. -/
def ownCheck (owned secure : Bool) (k : Judged) : Judged :=
  check (!secure) (rej rjPermission 5) (check owned rejParam k)

/-- Whether the committed table gives a seat head `h`. -/
def State.ownsHead (s : State) (seat h : Nat) : Bool := wBit (s.tblW 1 seat 0 0) h
/-- Canvas `c`. -/
def State.ownsCanvas (s : State) (seat c : Nat) : Bool := wBit (s.tblW 1 seat 0 0) (32 + c)
/-- Check-value unit `u`. -/
def State.ownsChk (s : State) (seat u : Nat) : Bool := wBit (s.tblW 1 seat 0 1) u
/-- Capture port `n`. -/
def State.ownsCap (s : State) (seat n : Nat) : Bool := wBit (s.tblW 1 seat 0 1) (32 + n)
/-- Touch port `n`. -/
def State.ownsTch (s : State) (seat n : Nat) : Bool := wBit (s.tblW 1 seat 0 1) (40 + n)
/-- Haptic channel `n`. -/
def State.ownsHap (s : State) (seat n : Nat) : Bool := wBit (s.tblW 1 seat 0 1) (48 + n)
/-- TDM port `n`. -/
def State.ownsTdm (s : State) (seat n : Nat) : Bool := wBit (s.tblW 1 seat 0 1) (56 + n)
/-- Layer `l`. -/
def State.ownsLayer (s : State) (seat l : Nat) : Bool :=
  let first := wBits (s.tblW 1 seat 0 2) 0 9
  decide (first ≤ l) && decide (l < first + wBits (s.tblW 1 seat 0 2) 16 9)

/-- The owner of a layer in the committed table. -/
def State.layerOwner (s : State) (l : Nat) : Option Nat := (List.range 512).find? fun n => s.ownsLayer n l

/-- Whether a seat may WAIT on a counter (R170): it owns it or has a grant of kind OBSERVE or SIGNAL. -/
def State.mayObserve (s : State) (seat c : Nat) : Bool :=
  let w := s.tblW 4 0 c 0
  (wBit w 9 && wBits w 0 9 = seat)
    || (List.range 32).any fun i => wBits (s.tblW 3 seat i 0) 0 12 = c && wBits (s.tblW 3 seat i 0) 12 2 != 0

/-- Whether a seat may SIGNAL a counter (R170). -/
def State.maySignal (s : State) (seat c : Nat) : Bool :=
  let w := s.tblW 4 0 c 0
  (wBit w 9 && wBits w 0 9 = seat)
    || (List.range 32).any fun i => wBits (s.tblW 3 seat i 0) 0 12 = c && wBits (s.tblW 3 seat i 0) 12 2 = 2

/-! ### Quotas (R197 to R200) -/

/-- A haptic channel after reset. -/
def hapNone (_ : Nat) : Hap := { effects := [], play := none, wait := none, n := 0, runs := [], sent := (0, false, false) }
/-- Haptic channel `n`. -/
def State.hap (s : State) (n : Nat) : Hap := mapGet hapNone n s.med.hap

/-- What a seat holds of a kind (Table 6.13). -/
def State.useOf (s : State) (seat kind : Nat) : Nat :=
  match kind with
  | 0 => (s.vid.sess.filter fun x => x.seat = some seat).length
  | 1 => (s.med.aud.streams.filter fun x => x.seat = seat).length
  | 2 => (s.vid.progs.filter fun x => x.seat = seat && x.ready).length
  | 3 => sumOn (s.vid.progs.filter fun x => x.seat = seat && x.ready) Prog.kib
  | 4 => sumOn ((List.range 8).filter fun n => s.ownsHap seat n) fun n => (s.hap n).effects.length
  | 5 => (s.chk.filter fun u => u.2.att = 2 && u.2.seat = seat).length
  | _ => 0

/-- Whether an accepted command of a seat is a load into an effect slot that is empty. -/
def State.loadsEmpty (s : State) (seat : Nat) (c : Cmd) : Bool :=
  c.seat = seat && c.op = 0x0710 && (c.stage = .accepted || c.stage = .started) && c.f 3 0 32 = 32
    && ((s.hap (c.f 1 0 3)).effects.all fun e => e.1 != c.f 1 8 6)

/-- Allocations of accepted commands that have not yet completed (R198). -/
def State.allocOf (s : State) (seat kind : Nat) : Nat :=
  match kind with
  | 2 => (s.vid.progs.filter fun x => x.seat = seat && !x.ready).length
  | 3 => sumOn (s.vid.progs.filter fun x => x.seat = seat && !x.ready) Prog.kib
  | 4 => (s.cfe.cmds.filter (s.loadsEmpty seat)).length
  | _ => 0

/-- A seat's quota limit of a kind; 0 after reset (R186). -/
def State.quotaOf (s : State) (seat kind : Nat) : Nat := mapGet (fun _ => 0) (8 * seat + kind) s.seats.quota

/-- Whether a seat is OVER_QUOTA (R200). -/
def State.overQuota (s : State) (seat : Nat) : Bool := (List.range 6).any fun k => decide (s.quotaOf seat k < s.useOf seat k)

/-- Update over_quota of SEAT_STATE. -/
def overUpdate (seat : Nat) : Act := .ask fun s => setFld (Reg.seatState seat) 3 1 (b2n (s.overQuota seat))

/-- The quota check of an allocating command: OVER_QUOTA first, then EXCEEDED (R198, R200). -/
def quotaCheck (s : State) (seat : Nat) (needs : List (Nat × Nat)) (k : Judged) : Judged :=
  check (!s.overQuota seat) (rej rjQuota 1)
    (check (needs.all fun x => decide (s.useOf seat x.1 + s.allocOf seat x.1 + x.2 ≤ s.quotaOf seat x.1)) (rej rjQuota 2) k)

/-! ### The control opcodes -/

/-- NOP. -/
def judgeNop : Judged := ok (.single 0 .skip)

/-- Bytes of the capability image (R622). -/
def State.capsImage (s : State) : List Byte :=
  (List.range 4).map (fun i => wordBytes (s.rd (Reg.mgtCap0 + 8 * i))) |>.flatten

/-- QUERY_CAPS (R622). -/
def judgeQueryCaps (s : State) (c : Cmd) : Judged :=
  let n := min 32 (c.f 2 0 32 / 8 * 8)
  check (queryCapsOk c) rejParam
    (check (s.areaOk c.seat (c.n 1) (c.f 2 0 32) .write || c.f 2 0 32 = 0) rejWindow
      (ok (.single (s.fld Reg.mgtChipId 16 4 + n * 2 ^ 32) (actIf (decide (n ≠ 0)) (seatStore 0 c.seat (c.n 1) (s.capsImage.take n))))))

/-- Give a seat its budgets from the next edge (R95). -/
def budgetSet (seat : Nat) (v : Nat → Nat) : Act :=
  each (List.range 9) fun k =>
    .eff (.seats fun t => { t with budgetNext := mapPut (fun _ => 0) (16 * seat + k) (v k) t.budgetNext })

/-- SET_BUDGET (R92, R95, R146). -/
def judgeSetBudget (s : State) (c : Cmd) : Judged :=
  check (setBudgetOk c) rejParam
    (check (s.isSup c.seat) (rej rjPermission 4)
      (ok (.single ((s.tts.bell + 1) % 2 ^ 32) (budgetSet (c.f 1 0 9) c.budgetOf))))

/-- SET_QUOTA (R197, R199, R201): a reclaim that leaves the seat OVER_QUOTA is owed once the reply is written. -/
def judgeSetQuota (s : State) (c : Cmd) : Judged :=
  let seat := c.f 1 0 9
  let kind := c.f 1 16 8
  let key := 8 * seat + kind
  let tooMuch := (List.range 6).any fun k => decide ((if k = kind then c.f 2 0 32 else s.quotaOf seat k) < s.useOf seat k)
  check (setQuotaOk c) rejParam
    (check (s.isSup c.seat) (rej rjPermission 4)
      (ok (.single (min (s.useOf seat kind) 0xFFFFFFFF + b2n tooMuch * 2 ^ 32) (acts [
        .eff (.seats fun t => { t with quota := mapPut (fun _ => 0) key (c.f 2 0 32) t.quota }),
        overUpdate seat,
        actIf (c.b 1 24 && tooMuch) (.eff (.seats fun t => { t with reclaims := t.reclaims ++ [seat] }))]))))

/-- COMMIT: its reply follows the commit edge (R9, R146). -/
def judgeCommit (s : State) (c : Cmd) : Judged :=
  check (s.isSup c.seat) (rej rjPermission 4) (ok (.later .skip))

/-- FENCE (R158, R161). -/
def judgeFence (c : Cmd) : Judged := check (fenceOk c) rejParam (ok (.hold (cmdStart c.id)))

/-- SIGNAL (R165, R170). -/
def judgeSignal (s : State) (c : Cmd) : Judged :=
  check (counterOk c) rejParam (check (s.maySignal c.seat (c.f 1 0 12)) (rej rjPermission 3) (ok (.book [] 1 none .skip)))

/-- WAIT (R165, R170). -/
def judgeWait (s : State) (c : Cmd) : Judged :=
  check (counterOk c) rejParam (check (s.mayObserve c.seat (c.f 1 0 12)) (rej rjPermission 3) (ok (.book [] 1 none .skip)))

/-- Bit 63 of the details of QUERY_STATUS and QUERY_BUDGET (R147). -/
def State.secUnavailable (s : State) : Nat := b2n (s.bitAt Reg.secState 0) * 2 ^ 63

/-- The state reported for an outstanding command (R646). -/
def Cmd.shown (c : Cmd) : Nat := if c.stage = .accepted then stAccepted else c.runState

/-- The latest outstanding command of a ring with a tag: accepted, with its final reply not yet produced, of highest sequence number. -/
def State.latestTagged (s : State) (seat ring tag : Nat) : Option Cmd :=
  ((s.ringCmds seat ring).filter fun c =>
    c.tag = tag && !c.single && (c.stage = .accepted || c.stage = .started || c.stage = .ended)).foldl
    (fun best c => match best with
      | none => some c
      | some b => if b.seq ≤ c.seq then some c else some b) none

/-- QUERY_STATUS (R143, R147, R646). -/
def judgeQueryStatus (s : State) (c : Cmd) : Judged :=
  check (queryStatusOk c) rejParam (ok (.single
    ((if c.b 1 19 then (match s.latestTagged c.seat (c.f 1 16 3) (c.f 1 0 16) with | some x => x.shown | none => 0xFF)
      else s.fld (Reg.seatState c.seat) 0 32) + s.secUnavailable) .skip))

/-- The unbooked budget of a class in the next bell, as QUERY_BUDGET and BUDGET_VIEW show it (R95, R646). -/
def State.budgetShown (s : State) (seat cls : Nat) : Nat :=
  if 9 ≤ cls then 0
  else s.budgetOf seat cls - s.seatBooked seat cls (s.tts.bell + 1) - s.seatStanding seat cls (s.tts.bell + 1)

/-- QUERY_BUDGET. -/
def judgeQueryBudget (s : State) (c : Cmd) : Judged :=
  check (queryBudgetOk c) rejParam (ok (.single (s.budgetShown c.seat (c.f 1 0 4) % 2 ^ 32 + s.secUnavailable) .skip))

/-! ### DMA (R284, R285, Table 3.6) -/

/-- The ends of a DMA command as places; none where an address fails R194. A fixed end covers 8 bytes. -/
def State.dmaEnd (s : State) (seat a n : Nat) (fixed : Bool) (k : AccKind) : Option Place := s.translate seat a (if fixed then 8 else n) k

/-- Charges of one end of a transfer: DRAM or the Store group by group (R85). -/
def endCost (pl : Place) (n : Nat) (fixed : Bool) : Cost :=
  let total := ceilDiv n 256
  match pl.target with
  | 1 => [(5, 0, total)]
  | 2 =>
    let bytesIn (g : Nat) : Nat :=
      let lo := max pl.addr (storeBase + g * 2 ^ 23)
      let hi := min (pl.addr + (if fixed then 8 else n)) (storeBase + (g + 1) * 2 ^ 23)
      hi - lo
    (splitShares total (((List.range 12).map fun g => (g, bytesIn g)).filter fun x => x.2 != 0)).map fun x => (6, x.1, x.2)
  | _ => []

/-- A cost with the entries of one class and unit added up. -/
def costMerge (c : Cost) : Cost :=
  c.foldl (fun acc x =>
    if acc.any fun y => y.1 = x.1 && y.2.1 = x.2.1 then
      acc.map fun y => if y.1 = x.1 && y.2.1 = x.2.1 then (y.1, y.2.1, y.2.2 + x.2.2) else y
    else acc ++ [x]) []

/-- Periods that DMA credits take at the engine's rate. -/
def State.dmaPeriods (s : State) (credits : Nat) : Nat := max 1 (ceilDiv (credits * 32) (s.cap 4 0 (s.tts.bell + 1)))

/-- DMA_COPY and DMA_FILL. -/
def judgeDma (s : State) (c : Cmd) : Judged :=
  let n := c.dmaN
  let src := if c.op = 0x0200 then s.dmaEnd c.seat c.dmaSrc n c.dmaSrcFixed .read else none
  let dst := s.dmaEnd c.seat c.dmaDst n c.dmaDstFixed .write
  check (dmaOk c) rejParam
    (engineCheck s c
      (check ((c.op = 0x0201 || src.isSome) && dst.isSome) rejWindow
        (let cost := costMerge ((4, 0, ceilDiv n 256) ::
          ((match src with | some pl => endCost pl n c.dmaSrcFixed | none => [])
            ++ (match dst with | some pl => endCost pl n c.dmaDstFixed | none => [])))
         ok (.book cost (s.dmaPeriods (ceilDiv n 256)) none
          (cmdUpd c.id fun c => { c with unitsTotal := ceilDiv n 256 })))))

end Sys2Proof.Machine
end

