-- ==== Sys2Proof/Machine/Ordering.lean ====
section
/-!
DEFINITION. Machine/Ordering.lean: milestones, ORDERED, fences, sync counters and the dispatch of timetable entries
(R76, R150 to R173, R282, R647).
-/

namespace Sys2Proof.Machine

/-! ### Milestones (R150) -/

/-- Whether a command has been accepted and is still outstanding. -/
def Cmd.taken (c : Cmd) : Bool := c.stage = .accepted || c.stage = .started || c.stage = .ended

/-- Whether a command has ended for what waits on it: an AUD_STREAM open ends for it at the first frame that it moves (R647). -/
def Cmd.hasEnded (c : Cmd) : Bool := c.stage = .ended || (c.op = 0x0601 && !c.b 1 0 && decide (c.part ≠ 0))

/-- Whether a command that is still outstanding has completed: it has ended and no write response is owed. -/
def Cmd.completed (c : Cmd) : Bool := c.hasEnded && c.inflight = 0

/-- Whether `a` is an earlier command of fence `f` (R159, R647). -/
def isEarlier (f a : Cmd) : Bool :=
  a.id != f.id && a.seat = f.seat && a.taken && !opImmediate a.op && decide (a.seq < f.seq) && (f.fenceSeat || a.ring = f.ring)

/-- Whether `b` is a later command of fence `f`. -/
def isLater (f b : Cmd) : Bool :=
  b.id != f.id && b.seat = f.seat && !opImmediate b.op && decide (f.seq < b.seq) && (f.fenceSeat || b.ring = f.ring)

/-- The fences that have been decided and have not ended. -/
def State.fences (s : State) : List Cmd := s.cfe.cmds.filter fun c => c.op = 0x0800 && c.stage = .started

/-- Whether a fence of kind EXEC or FULL holds a command (R162, R647). -/
def State.heldBack (s : State) (b : Cmd) : Bool := s.fences.any fun f => f.fenceKind != 2 && isLater f b

/-- Whether an ORDERED predecessor of a command has not completed (R157). -/
def State.orderedBack (s : State) (b : Cmd) : Bool :=
  b.ordered && b.op != 0x0800 && s.cfe.cmds.any fun a =>
    a.id != b.id && a.seat = b.seat && a.ring = b.ring && a.engine = b.engine && a.taken && !opImmediate a.op
      && decide (a.seq < b.seq) && !a.completed

/-- Whether nothing holds the start, or the action, of an accepted command. -/
def State.free (s : State) (c : Cmd) : Bool := !s.heldBack c && !s.orderedBack c

/-- Whether a fence of kind MEM or FULL keeps the memory accesses and counter writes of a command waiting: an earlier command of it has
ended and not completed (Table 5.3). -/
def State.memBack (s : State) (b : Cmd) : Bool :=
  s.fences.any fun f => f.fenceKind != 1 && isLater f b
    && s.cfe.cmds.any fun a => isEarlier f a && a.hasEnded && !a.completed

/-! ### Sync counters (R164 to R167) -/

/-- Value of a sync counter. -/
def State.sync (s : State) (n : Nat) : Word := mapGet (fun _ => 0) n s.tts.sync

/-- Write a sync counter. -/
def syncPut (n : Nat) (v : Word) : Act := .eff (.tts fun t => { t with sync := mapPut (fun _ => 0) n v t.sync })

/-- Whether the condition of a WAIT holds. -/
def State.waitMet (s : State) (c : Cmd) : Bool := decide (c.n 2 ≤ (s.sync (c.f 1 0 12)).toNat)

/-- The action of a WAIT at a test: it ends when its condition holds, and counts the greatest value seen (Table 4.13). -/
def waitTest (id : Nat) : Act :=
  onCmd id fun s c =>
    if c.stage != .started then .skip
    else acts [cmdUpd id fun c => { c with part := max c.part (s.sync (c.f 1 0 12)).toNat, detail := (s.sync (c.f 1 0 12)).toNat % 2 ^ 32 },
      actIf (s.waitMet c) (cmdEnd id fun c => c)]

/-- The action of a SIGNAL: its counter write, which ends it; a fence of kind MEM can keep the write waiting. -/
def signalAct (id : Nat) : Act :=
  onCmd id fun s c =>
    if c.stage != .started || s.memBack c then .skip
    else acts [syncPut (c.f 1 0 12) (c.w 2), cmdEnd id fun c => { c with detail := s.tts.bell % 2 ^ 32 }]

/-! ### Fences (R160, R161, R163) -/

/-- Whether the condition under which a fence ends holds. -/
def State.fenceMet (s : State) (f : Cmd) : Bool :=
  s.cfe.cmds.all fun a => !isEarlier f a || (a.hasEnded && (f.fenceKind = 1 || a.completed))

/-- Whether an earlier command of a fence has ended with WAIT_TIMEOUT. -/
def State.fenceTimed (s : State) (f : Cmd) : Bool :=
  s.cfe.cmds.any fun a => isEarlier f a && a.stage = .ended && a.timedOut

/-- Take a command's mark from an option. -/
def unmark (id : Nat) (o : Option Nat) : Option Nat := if o = some id then none else o

/-- A command that ends with WAIT_TIMEOUT before it has started has no action (R163, R647): what it had put in wait is taken back. -/
def withdraw (id : Nat) : Act :=
  .ask fun s => acts [
    .eff (.pic fun p => { p with sets := p.sets.filter fun x => x.cmd != id, flips := p.flips.filter fun x => x.cmd != id }),
    .eff (.med fun m => { m with
      aud := { m.aud with
        effects := m.aud.effects.filter fun x => x.1 != id
        streams := (m.aud.streams.filter fun x => x.cmd != id || x.moved != 0).map fun x => { x with close := unmark id x.close } }
      tch := m.tch.map fun x => (x.1, { x.2 with pend := x.2.pend.filter fun y => y.1 != some id }) }),
    .eff (.vid fun v => { v with
      runs := v.runs.filter fun x => x.cmd != some id
      codec := v.codec.filter fun x => x.cmd != some id
      progs := (v.progs.filter fun x => x.load != some id).map fun x => { x with unload := unmark id x.unload }
      sess := (v.sess.filter fun x => x.opening != some id).map fun x => { x with closing := unmark id x.closing } }),
    each (s.chk.filter fun u => u.2.cmd = some id && !u.2.on) fun u => acts [.eff (.chk u.1 (chkIdle 0)), setFld (Reg.chkCfg u.1) 11 10 0],
    each (s.chk.filter fun u => u.2.det = some id) fun u => .eff (.chk u.1 { u.2 with det := none })]

/-- End commands with WAIT_TIMEOUT, and with them the fences behind them and the commands that those hold (R163). -/
def timeoutAll : Nat → List Nat → Act
  | 0, _ => .skip
  | n + 1, ids =>
    .ask fun s =>
      let new := ids.filter fun id => match s.cmd? id with | some c => c.stage != .ended | none => false
      if new.isEmpty then .skip
      else acts [
        each new fun id => acts [withdraw id, cmdEnd id fun c => { c with timedOut := true }],
        .ask fun s' =>
          let hit := s'.fences.filter s'.fenceTimed
          let held := s'.cfe.cmds.filter fun b =>
            b.stage = .accepted && hit.any fun f => f.fenceKind != 2 && isLater f b
          timeoutAll n (hit.map Cmd.id ++ held.map Cmd.id)]

/-- End commands with WAIT_TIMEOUT. -/
def timeoutCmds (ids : List Nat) : Act := .ask fun s => timeoutAll (s.cfe.cmds.length + 1) ids

/-- The action of a FENCE at a test. -/
def fenceTest (id : Nat) : Act :=
  onCmd id fun s c =>
    if c.op != 0x0800 || c.stage != .started then .skip
    else if s.fenceTimed c then timeoutCmds [id]
    else if s.fenceMet c then cmdEnd id fun c => c
    else .skip

/-! ### The timetable (R66, R74 to R76) -/

/-- Whether an accepted command is one that the TTS starts: of the deadline or the background class. -/
def Cmd.entry (c : Cmd) : Bool := c.stage = .accepted && !opUntimed c.op

/-- Whether a command can be started now: an entry of the active timetable, or background work. -/
def State.eligible (s : State) (c : Cmd) : Bool := c.entry && (c.background || s.tts.ttActive.contains c.id)

/-- Station page of an engine's block, for its clock gate. -/
def gateOfEngine : Nat → Nat
  | 1 => 162
  | 2 => 24
  | 3 => 32
  | 4 => 136
  | 5 => 137
  | _ => 11

/-- Whether an engine is clocked: its gate is open (R576, R577). -/
def State.engineUp (s : State) (e : Nat) : Bool := !s.bitAt (Reg.clkGate (gateOfEngine e)) 3

/-- Start a WAIT whose turn has come; one that is already satisfied ends at its start. -/
def waitStart (c : Cmd) : Act := acts [cmdStart c.id, statusPut c.id stRunning, waitTest c.id]

/-- One pass of R168: WAITs, then fences, then the WAITs that can start. -/
def resolveOnce : Act :=
  .ask fun s => acts [
    each (s.cfe.cmds.filter fun c => c.op = 0x0802 && c.stage = .started) fun c => waitTest c.id,
    each s.fences fun f => fenceTest f.id,
    .ask fun s => each (s.cfe.cmds.filter fun c => c.op = 0x0802 && s.eligible c && s.free c) fun c =>
      onCmd c.id fun s c => actIf (c.stage = .accepted && s.free c) (waitStart c)]

/-- Repeat an action. -/
def times : Nat → Act → Act
  | 0, _ => .skip
  | n + 1, a => .seq a (times n a)

/-- The entries that reach their latest start unsatisfied (R76, R169). -/
def State.lateEntries (s : State) : List Nat :=
  ((s.cfe.cmds.filter fun c =>
    !c.background && decide (c.latest ≤ s.now)
      && ((s.eligible c && !s.free c) || (c.op = 0x0802 && c.stage = .started && !s.waitMet c))).map Cmd.id)

/-- Squash them with WAIT_TIMEOUT, and release their credits. -/
def lateSquash : Act := .ask fun s => timeoutCmds s.lateEntries

/-! ### DMA channels (R282, R291) -/

/-- Whether a channel is normal and free. -/
def State.dmaFree (s : State) (k : Nat) : Bool := !s.unitSec (147 + k) && s.fld (Reg.dmaStatus k) 40 2 = 0

/-- A channel's own state. -/
def State.dmaCh (s : State) (k : Nat) : DmaCh := mapGet dmaIdle k s.dma

/-- Whether two ranges of bytes overlap. -/
def overlaps (a n b m : Nat) : Bool := decide (a < b + m) && decide (b < a + n)

/-- Where the ends of a copy meet, the source bytes from before it and destination less source (R288); nothing where they do not. -/
def State.dmaSnap (s : State) (c : Cmd) : List Byte × Int :=
  if c.op != 0x0200 || c.dmaSrcFixed || c.dmaDstFixed then ([], 0)
  else match s.dmaEnd c.seat c.dmaSrc c.dmaN false .read, s.dmaEnd c.seat c.dmaDst c.dmaN false .write with
    | some a, some b =>
      if a.target = b.target && overlaps a.addr c.dmaN b.addr c.dmaN then
        (s.bytesAt (if a.target = 0 then hostKey (s.linkOf c.seat) a.addr else a.addr) c.dmaN, (b.addr : Int) - a.addr)
      else ([], 0)
    | _, _ => ([], 0)

/-- Give a channel to a command: the TTS loads its registers, and a command that was suspended goes on where it stopped (R282, R291). -/
def dmaLoad (k id : Nat) : Act :=
  onCmd id fun s c =>
    let old := mapGet dmaIdle (64 + id) s.dma
    let new : DmaCh := { cmd := some id, off := 0, issued := 0, snap := (s.dmaSnap c).1, delta := (s.dmaSnap c).2, seed := s.fv, stop := 0 }
    acts [
      .eff (.dma k (if old.cmd = some id then { old with issued := old.off, stop := 0 } else new)),
      .eff .tick,
      .eff (.dma (64 + id) (dmaIdle 0)),
      setReg (Reg.dmaSrc k) (BitVec.ofNat 64 c.dmaSrc),
      setReg (Reg.dmaDst k) (BitVec.ofNat 64 c.dmaDst),
      actIf (c.op = 0x0201) (setReg (Reg.dmaPattern k) (c.w 3)),
      setReg (Reg.dmaCtrl k) (BitVec.ofNat 64 (c.dmaN + c.dmaPrio * 2 ^ 40 + b2n c.dmaSrcFixed * 2 ^ 43 + b2n c.dmaDstFixed * 2 ^ 44
        + b2n (c.op = 0x0201) * 2 ^ 45)),
      setFld (Reg.dmaStatus k) 0 54 (old.off + 1 * 2 ^ 40 + 2 ^ 42 + c.seat * 2 ^ 43 + (s.fld (Reg.dmaStatus k) 52 2) * 2 ^ 52)]

/-- Take the channel from a command, with the outcome given (R292). -/
def dmaUnload (k outcome : Nat) : Act :=
  acts [.eff (.dma k (dmaIdle 0)), setFld (Reg.dmaStatus k) 40 14 (outcome * 2 ^ 12)]

/-- The channel that runs a command. -/
def State.dmaOf (s : State) (id : Nat) : Option Nat :=
  (s.dma.find? fun x => decide (x.1 < 64) && x.2.cmd = some id).map Prod.fst

/-- Suspend the command of a channel: it resumes later from the byte at which it stopped; the channel reads ABORTED. -/
def dmaSuspend (k : Nat) : Act :=
  .ask fun s => match (s.dmaCh k).cmd with
    | some id => acts [.eff (.dma (64 + id) (s.dmaCh k)), dmaUnload k 3]
    | none => .skip

/-- The channel of the running background DMA command of lowest priority, the one accepted last on ties (R282). -/
def State.dmaVictim (s : State) : Option Nat :=
  let runs := s.dma.filterMap fun x =>
    match x.2.cmd with
    | some id => if decide (x.1 < 64) && s.fld (Reg.dmaStatus x.1) 40 2 = 1 then (match s.cmd? id with | some c => if c.background then some (x.1, c) else none | none => none) else none
    | none => none
  (leastBy (fun x => x.2.dmaPrio * 2 ^ 64 + (2 ^ 64 - 1 - x.2.id)) runs).map Prod.fst

/-- Give a DMA command a channel: a free one, or for a deadline command that of a background command. -/
def dmaStart (c : Cmd) : Act :=
  .ask fun s => match (List.range 64).find? s.dmaFree with
    | some k => acts [cmdStart c.id, dmaLoad k c.id, statusPut c.id stRunning]
    | none =>
      if c.background then .skip
      else match s.dmaVictim with
        | some k => acts [dmaSuspend k, cmdStart c.id, dmaLoad k c.id, statusPut c.id stRunning]
        | none => .skip

/-! ### Dispatch (R76) -/

/-- Start one ready entry: its first turn, or for a command of engine CTL its action. -/
def startEntry (id : Nat) : Act :=
  onCmd id fun s c =>
    if !s.eligible c || !s.free c || !s.engineUp c.engine then .skip
    else if c.op = 0x0200 || c.op = 0x0201 then dmaStart c
    else if c.op = 0x0802 then waitStart c
    else acts [cmdStart id, statusPut id stRunning]

/-- Order of dispatch: least slack first, ties by seat, ring, place in the ring; background work after the entries. -/
def State.dispatchKey (s : State) (c : Cmd) : Nat :=
  let slack := if c.background then 2 ^ 32 else min (2 ^ 32 - 1) (c.latest - s.now)
  ((slack * 512 + c.seat) * 8 + c.ring) * 2 ^ 64 + c.seq

/-- The suspended DMA commands, in the order in which they resume. -/
def State.suspended (s : State) : List Nat :=
  (s.dma.filterMap fun x => if 64 ≤ x.1 then x.2.cmd else none)

/-- Dispatch: the entries that are ready, then suspended commands on free channels, then background work. -/
def dispatchAll : Act :=
  .ask fun s =>
    let order := sortBy s.dispatchKey (s.cfe.cmds.filter s.eligible)
    acts [
      each (order.filter fun c => !c.background) fun c => startEntry c.id,
      each s.suspended fun id => .ask fun s =>
        actIf (s.engineUp 1) (actOpt ((List.range 64).find? s.dmaFree) fun k => dmaLoad k id),
      each (order.filter Cmd.background) fun c => startEntry c.id]

/-- Status words of running commands are updated at least once in every period (R140). -/
def statusAll : Act :=
  .ask fun s => each (s.cfe.cmds.filter fun c => c.stage = .started && c.slot.isSome) fun c => statusPut c.id c.runState

end Sys2Proof.Machine
end

