-- ==== Sys2Proof/Machine/CmpJudge.lean ====
section
/-!
DEFINITION. Machine/CmpJudge.lean: how the Registrar judges the commands of the composer: canvases, layers, flips (R293 to
R304, R325 to R329, R335, R336, R366, R367), and the frame pool (R299, R300).
-/

namespace Sys2Proof.Machine

/-! ### Heads and streams (R22, R366, R367) -/

/-- The enabled streams of a port's applied set. -/
def portStreams (p : PortSt) : List Nat :=
  if wBits (p.set.getD 0 0) 0 2 = 0 then []
  else (List.range 4).filter fun i => fb p.set (1 + i) 0

/-- The heads that the enabled streams of a port carry. -/
def portHeads (p : PortSt) : List Nat := (portStreams p).map fun i => fw p.set (1 + i) 1 5

/-- Whether a head is carried by an enabled stream of some applied port set. -/
def State.streaming (s : State) (h : Nat) : Bool :=
  (List.range 16).any fun n => (portStreams (s.port n)).any fun i => fw (s.port n).set (1 + i) 1 5 = h

/-- Sum of active pixel rates, in pixels per second times 12 × the rate's denominator (12 is a multiple of every divisor k). -/
def rateSum (b : BellSet) (hs : List HeadSt) : Nat := sumOn hs fun h => h.w * h.ht * b.num * (12 / h.k)

/-- Whether the pixel rates of heads keep a limit in pixels per second. -/
def rateWithin (b : BellSet) (hs : List HeadSt) (lim : Nat) : Bool := decide (rateSum b hs ≤ lim * b.den * 12)

/-- The heads that are enabled and belong to a canvas of a configuration. -/
def PicCfg.activeHeads (c : PicCfg) : List Nat := ((c.canvases.map fun x => (cpEntries x.2.2).map Prod.snd).flatten).eraseDups

/-- Whether the heads of a configuration keep R22: 16.0 Gpixel/s over all, 2.0 Gpixel/s over the heads of each port. -/
def State.rateOk (s : State) (c : PicCfg) : Bool :=
  let hs := c.activeHeads
  s.settings.all fun b =>
    rateWithin b (hs.map s.head) 16000000000
      && (List.range 16).all fun n =>
        rateWithin b ((hs.filter fun h => (portStreams (s.port n)).any fun i => fw (s.port n).set (1 + i) 1 5 = h).map s.head) 2000000000

/-! ### The frame pool (R298 to R300) -/

/-- Pages of one composed-frame buffer: 256 bytes per tile column and line, 64 lines per tile row. -/
def HeadSt.bufPages (h : HeadSt) : Nat := 4 * h.tw * h.th

/-- First page of the pool in force. -/
def State.poolFirst (s : State) : Nat := s.cfld Reg.cmpPoolBase 12 36
/-- Last page of the pool in force; below the first, the pool is empty. -/
def State.poolLast (s : State) : Nat := s.cfld Reg.cmpPoolLimit 12 36

/-- Page runs that hold buffers: first page and count. -/
def State.bufRuns (s : State) : List (Nat × Nat) :=
  (s.pic.heads.map fun x => (x.2.bufs ++ x.2.old).map fun b => (b.1 / 4096, b.2)).flatten

/-- First-fit search for a run of pages in the pool that meets none of the runs given. -/
def runFind (n last : Nat) (used : List (Nat × Nat)) : Nat → Nat → Option Nat
  | 0, _ => none
  | fuel + 1, p =>
    if last < p + n - 1 then none
    else match used.find? fun r => overlaps p n r.1 r.2 with
      | some r => runFind n last used fuel (r.1 + r.2)
      | none => some p

/-- Pages for one buffer. -/
def State.bufFind (s : State) (used : List (Nat × Nat)) (n : Nat) : Option Nat :=
  if n = 0 then none else runFind n s.poolLast used (used.length + 1) s.poolFirst

/-- Pages for both buffers of each head of a list that has none. -/
def State.bufPlan (s : State) : List Nat → List (Nat × Nat) → Option (List (Nat × Nat × Nat))
  | [], _ => some []
  | h :: hs, used =>
    let n := (s.head h).bufPages
    match s.bufFind used n with
    | none => none
    | some a =>
      match s.bufFind ((a, n) :: used) n with
      | none => none
      | some b => (s.bufPlan hs ((a, n) :: (b, n) :: used)).map ((h, a, b) :: ·)

/-- CMP_POOL_FREE: pages of the pool in force that no buffer occupies. -/
def poolFree : Act :=
  .ask fun s =>
    let total := if s.poolLast < s.poolFirst then 0 else s.poolLast + 1 - s.poolFirst
    let used := sumOn s.bufRuns fun r => min (r.1 + r.2) (s.poolLast + 1) - max r.1 s.poolFirst
    setFld Reg.cmpPoolFree 0 32 (min (total - used) 0xFFFFFFFF)

/-- `n` pixels of code 0 as buffers hold them: 0b11 above (R298, R372). -/
def blackPixels (n : Nat) : List Byte := (List.replicate n [0, 0, 0, 0xC0]).flatten

/-- Allocate and clear the buffers of the heads of a plan (R299, R372). -/
def bufTake (plan : List (Nat × Nat × Nat)) : Act :=
  each plan fun x => .ask fun s =>
    let n := (s.head x.1).bufPages
    let q : Req := { station := stCmp, secure := s.unitSec x.1, seat := none, window := 0, kind := .write }
    acts [
      headUpd x.1 fun h => { h with bufs := [(x.2.1 * 4096, n), (x.2.2 * 4096, n)], fill := 0,
                                    dirty0 := List.range (h.tw * h.th), dirty1 := List.range (h.tw * h.th), cut0 := [], cut1 := [] },
      .ask fun s => (devWrite s q (x.2.1 * 4096) (blackPixels (n * 1024))).act,
      .ask fun s => (devWrite s q (x.2.2 * 4096) (blackPixels (n * 1024))).act]

/-! ### CMP_CANVAS_SET (R293, R294, R80, R367) -/

/-- binary16 that is finite and not negative; −0 counts as 0 (R641). -/
def half0k (v : Nat) : Bool := nBits v 10 5 != 31 && (!nBit v 15 || nBits v 0 15 = 0)

/-- Word forms of a CMP_CANVAS_SET (Table 9.1). -/
def canvasWordsOk (ws : List Word) : Bool :=
  let h := cpHeads ws
  fw ws 1 12 52 = 0 && (cpOn ws || h = 1)
    && decide (1 ≤ (cpSize ws).1) && decide ((cpSize ws).1 ≤ 32768) && decide (1 ≤ (cpSize ws).2) && decide ((cpSize ws).2 ≤ 32768)
    && fw ws 2 32 32 = 0 && fw ws 3 48 16 = 0
    && half0k (fw ws 3 0 16) && half0k (fw ws 3 16 16) && half0k (fw ws 3 32 16)
    && (!cpOn ws || (List.range h).all fun i =>
      fw ws (4 + 2 * i) 5 11 = 0 && fw ws (4 + 2 * i) 31 1 = 0 && fw ws (4 + 2 * i) 47 1 = 0 && fw ws (4 + 2 * i) 56 8 = 0
        && decide (1 ≤ fw ws (4 + 2 * i) 48 3) && decide (fw ws (4 + 2 * i) 48 3 ≤ 4)
        && fw ws (4 + 2 * i) 51 2 != 3 && fw ws (4 + 2 * i) 54 2 != 3 && fw ws (5 + 2 * i) 0 12 = 0)

/-- Heads that another canvas holds, committed or decided. -/
def State.headsElsewhere (s : State) (c : Nat) : List Nat :=
  let of (p : PicCfg) := ((p.canvases.filter fun x => x.1 != c).map fun x => (cpEntries x.2.2).map Prod.snd).flatten
  of s.picNow ++ (s.pic.sets.filterMap fun x =>
    if x.canvas && x.idx != c then some ((cpEntries x.words).map Prod.snd) else none).flatten

/-- Whether a head may be added to a canvas: enabled, not held, in an enabled stream (R367). -/
def State.addable (s : State) (h : Nat) : Bool :=
  s.cfld (Reg.hdFrame h) 12 1 = 1 && !s.bitAt (Reg.hdStatus h) 5 && s.streaming h

/-- Whether two lists of words hold no element twice. -/
def allDiff (xs : List Nat) : Bool := xs.eraseDups.length = xs.length

/-- The chained sets that a ring holds back (R302). -/
def State.chainLen (s : State) (ring : Nat) : Nat := (s.pic.sets.filter fun x => x.held && x.ring = ring).length

/-- Ring of a command as 8 × seat + ring. -/
def Cmd.ringKey (c : Cmd) : Nat := 8 * c.seat + c.ring

/-- Squash the held members of a ring's chain (R302). -/
def chainSquash (ring : Nat) : Act :=
  .ask fun s =>
    let held := s.pic.sets.filter fun x => x.held && x.ring = ring
    acts [.eff (.pic fun p => { p with sets := p.sets.filter fun x => !(x.held && x.ring = ring) }),
      each held fun x => cmdEnd x.cmd fun c => { c with squashed := true }]

/-- The acceptance of a set: its shadow is written; a command with chain clear releases the shadows that its ring holds (R302). -/
def setAccept (c : Cmd) (canvas : Bool) (idx : Nat) (chain : Bool) (curves : List (List Nat)) : Act :=
  .eff (.pic fun p => { p with sets :=
    (if chain then p.sets else p.sets.map fun x => if x.ring = c.ringKey then { x with held := false } else x)
      ++ [{ cmd := c.id, seat := c.seat, canvas := canvas, idx := idx, words := c.words, curves := curves, ring := c.ringKey, held := chain }] })

/-- The 1,024 entries of a tone curve (R316). -/
def curveOf (bs : List Byte) : List Nat := (List.range 1024).map fun j => leNat ((bs.drop (2 * j)).take 2)

/-- Read the tone curves of the entries that use one, in order, then go on. -/
def readCurves (s : State) (c : Cmd) (h : HostAns) : List Nat → List (List Nat) → (List (List Nat) → Judged) → Judged
  | [], acc, k => k acc.reverse
  | i :: is, acc, k =>
    if fw c.words (4 + 2 * i) 54 2 = 0 then readCurves s c h is ([] :: acc) k
    else readThen s c.seat (fw c.words (5 + 2 * i) 12 52 * 4096) 2048 h fun bs => readCurves s c h is (curveOf bs :: acc) k

/-- CMP_CANVAS_SET. -/
def judgeCanvas (s : State) (c : Cmd) (h : HostAns) : Judged :=
  let ws := c.words
  let n := fw ws 1 0 5
  let heads := (cpEntries ws).map Prod.snd
  let old := match s.picShadow.canvases.find? fun x => x.1 = n with | some x => (cpEntries x.2.2).map Prod.snd | none => []
  let now := (cpEntries (s.canvas n).par).map Prod.snd
  let new := s.picShadow.apply true n c.seat ws
  let need := heads.filter fun x => (s.head x).bufs.isEmpty
  check (ws.length = 4 + 2 * cpHeads ws) rejLength
    (check (canvasWordsOk ws && allDiff heads && (heads.all fun x => !(s.headsElsewhere n).contains x)
        && (heads.all fun x => old.contains x || now.contains x || s.addable x)
        && (!(cpOn ws && cpSlice ws) || ((heads.all fun x => decide (3 ≤ (s.head x).phi))
          && (heads.all fun x => (s.head x).k = (s.head (heads.headD 0)).k)))
        && !(fb ws 1 7 && decide (32 ≤ s.chainLen c.ringKey))) rejParam
      (engineCheck s c
        (ownCheck (s.ownsCanvas c.seat n && heads.all (s.ownsHead c.seat)) (heads.any s.unitSec)
          (readCurves s c h (if cpOn ws then List.range (cpHeads ws) else []) [] fun curves =>
            check (curves.all fun x => x.all half0k) rejParam
              (match s.bufPlan need s.bufRuns with
                | none => rej rjBudget 2
                | some plan =>
                  check (s.rateOk new) (rej rjBudget 4)
                    (match s.picRefused new with
                      | some cls => rej rjBudget 2 cls
                      | none => ok (.hold (acts [bufTake plan, poolFree, setAccept c true n (fb ws 1 7) curves]))))))))

/-! ### CMP_LAYER_SET (R301, R303, R335, R336) -/

/-- Whether a layer's scale steps lie in the range of R309. -/
def stepsOk (w h dw dh : Nat) : Bool :=
  let step (a b : Nat) := a * 65536 / b
  decide (0 < dw) && decide (0 < dh)
    && decide (4096 ≤ step w dw) && decide (step w dw ≤ 524288) && decide (4096 ≤ step h dh) && decide (step h dh ≤ 524288)

/-- Word forms of a CMP_LAYER_SET (Tables 9.3, 10.2) and the geometry of R303. -/
def layerWordsOk (ws : List Word) : Bool :=
  let f := lpFmt ws
  let dim (v : Nat) := decide (1 ≤ v) && decide (v ≤ 32768)
  decide (fw ws 1 0 9 < 384) && fw ws 1 25 39 = 0
    && decide (f < 11) && decide (fw ws 2 8 3 < 5) && fw ws 2 11 2 != 3 && fw ws 2 16 2 != 3 && fw ws 2 19 2 != 3 && fw ws 2 22 42 = 0
    && decide (1 ≤ fw ws 3 32 16) && decide (1 ≤ fw ws 3 48 16)
    && dim (fw ws 4 0 16) && dim (fw ws 4 16 16) && fw ws 4 32 24 % 64 = 0 && fw ws 4 56 8 = 0
    && (!fmtTwo f || (fw ws 5 0 40 % 256 = 0 && fw ws 5 40 24 % 64 = 0))
    && dim (fw ws 6 32 16) && dim (fw ws 6 48 16)
    && fw ws 7 16 48 = 0
    && (fb ws 2 13 || (fw ws 8 0 64 = 0 && fw ws 9 0 64 = 0 && fw ws 10 0 64 = 0)) && fw ws 10 16 48 = 0
    && fw ws 11 2 6 = 0 && fw ws 11 18 2 != 3 && fw ws 11 20 12 = 0 && decide (fw ws 11 32 9 < 384) && fw ws 11 41 23 = 0
    && fw ws 13 48 16 = 0 && fw ws 14 48 16 = 0 && fw ws 15 0 64 = 0
    && ([(13, 0), (13, 16), (13, 32), (14, 0), (14, 16), (14, 32)].all fun x => half0k (fw ws x.1 x.2 16))
    && fw ws 16 0 64 % 256 = 0 && fw ws 17 32 32 = 0 && ((rangeFrom 18 6).all fun i => fw ws i 0 64 = 0)
    && decide (fw ws 3 0 16 + fw ws 3 32 16 ≤ fw ws 4 0 16) && decide (fw ws 3 16 16 + fw ws 3 48 16 ≤ fw ws 4 16 16)
    && (!fmtTwo f || ((fw ws 3 0 16 % 2 = 0 && fw ws 3 16 16 % 2 = 0) && (fw ws 3 32 16 % 2 = 0 && fw ws 3 48 16 % 2 = 0)))
    && (!(f = 9 || f = 10) || (fw ws 3 0 16 % 2 = 0 && fw ws 3 32 16 % 2 = 0))
    && stepsOk (lpW ws) (lpH ws) (fw ws 6 32 16) (fw ws 6 48 16)
    && !(lpMode ws = 1 && lpStamp ws = 0)
    && !(fw ws 11 16 2 = 3 && fw ws 11 32 9 = fw ws 1 0 9)

/-- Whether a surface lies within a seat's windows with read permission, over the extent that layer parameters give (R303). Without
parameters, one byte is checked. -/
def State.surfaceOk (s : State) (seat a : Nat) (par : List Word) : Bool :=
  if par.isEmpty then s.areaOk seat a 1 .read
  else
    (fw par 4 32 24 = 0 || s.areaOk seat a (fw par 4 32 24 * fw par 4 16 16) .read)
      && (!fmtTwo (lpFmt par) || fw par 5 40 24 = 0
        || s.areaOk seat (a + fw par 5 0 40) (fw par 5 40 24 * ceilDiv (fw par 4 16 16) 2) .read)

/-- Squash the pending flips of layers, groups whole (R145, R304). -/
def flipsSquash (layers : List Nat) : Act :=
  .ask fun s =>
    let hit := s.pic.flips.filter fun x => x.items.any fun i => layers.contains i.1
    acts [.eff (.pic fun p => { p with flips := p.flips.filter fun x => !(x.items.any fun i => layers.contains i.1) }),
      each hit fun x => cmdEnd x.cmd fun c => { c with squashed := true, detail := 0 }]

/-- Whether a ring holds a layer (R437). -/
def State.bound (s : State) (l : Nat) : Bool :=
  (s.vid.caps.filterMap (fun x => x.2.ring) ++ s.vid.sess.filterMap Session.ring).any fun r => r.bind && r.layer = l

/-- CMP_LAYER_SET. -/
def judgeLayer (s : State) (c : Cmd) : Judged :=
  let ws := c.words
  let l := fw ws 1 0 9
  let sa := lpStamp ws
  let place := s.translate c.seat sa 16 .read
  check (layerWordsOk ws && !(fb ws 1 15 && decide (32 ≤ s.chainLen c.ringKey)) && !(s.bound l && fw ws 16 0 64 != 0)
      && (sa = 0 || (sa % 16 = 0 && match place with | some pl => pl.target = 2 && pl.addr % 16 = 0 | none => true))) rejParam
    (engineCheck s c
      (ownCheck (s.ownsLayer c.seat l && s.ownsCanvas c.seat (lpCanvas ws)
          && (fw ws 11 16 2 != 3 || s.ownsLayer c.seat (fw ws 11 32 9))) false
        (check ((sa = 0 || place.isSome) && (fw ws 16 0 64 = 0 || s.surfaceOk c.seat (fw ws 16 0 64) ws)) rejWindow
          (match s.picRefused (s.picShadow.apply false l c.seat ws) with
            | some cls => rej rjBudget 2 cls
            | none => ok (.hold (acts [actIf (fw ws 16 0 64 != 0) (flipsSquash [l]), setAccept c false l (fb ws 1 15) []]))))))

/-! ### Flips (R325 to R329) -/

/-- The entries of a flip: layer, surface, sequence number. -/
def flipItems (c : Cmd) : List (Nat × Nat × Nat) :=
  if c.op = 0x0402 then [(c.f 1 0 9, c.n 2, c.f 3 0 32)]
  else (List.range (c.f 1 0 6)).map fun i => (c.f (3 + 2 * i) 0 9, c.n (4 + 2 * i), c.f (3 + 2 * i) 32 32)

/-- The fence of a flip: counter and value; none where it is unfenced. -/
def flipFence (c : Cmd) : Option (Nat × Nat) :=
  if c.b 1 28 then none else some (c.f 1 16 12, if c.op = 0x0402 then c.n 4 else c.n 2)

/-- Word forms of CMP_FLIP and CMP_FLIP_GROUP (Table 9.11). -/
def flipWordsOk (c : Cmd) : Bool :=
  c.f 1 29 35 = 0
    && (if c.op = 0x0402 then c.f 1 9 7 = 0 && c.f 3 32 32 = 0
        else c.f 1 6 10 = 0 && decide (1 ≤ c.f 1 0 6) && decide (c.f 1 0 6 ≤ 32)
          && (List.range (c.f 1 0 6)).all fun i => c.f (3 + 2 * i) 9 23 = 0)
    && ((flipItems c).all fun x => decide (x.1 < 384) && x.2.1 % 256 = 0) && allDiff ((flipItems c).map Prod.fst)

/-- CMP_FLIP and CMP_FLIP_GROUP. An accepted flip squashes the flips of its layers that are pending (R145, Table 9.12). -/
def judgeFlip (s : State) (c : Cmd) : Judged :=
  let items := flipItems c
  check (c.op = 0x0402 || c.words.length = 3 + 2 * c.f 1 0 6) rejLength
    (check (flipWordsOk c && items.all fun x => !s.bound x.1) rejParam
      (engineCheck s c
        (ownCheck (items.all fun x => s.ownsLayer c.seat x.1) false
          (check (match flipFence c with | some (n, _) => s.mayObserve c.seat n | none => true) (rej rjPermission 3)
            (check (items.all fun x => s.surfaceOk c.seat x.2.1 (s.layer x.1).par) rejWindow
              (ok (.hold (acts [
                flipsSquash (items.map Prod.fst),
                .eff (.pic fun p => { p with flips := p.flips ++ [{ cmd := c.id, seat := c.seat, items := items, fence := flipFence c }] })]))))))))

/-! ### CHK_ATTACH (R559, R560) -/

/-- Own state of a check-value unit. -/
def State.chkU (s : State) (u : Nat) : ChkUnit := mapGet chkIdle u s.chk

/-- Whether a seat may use a source: heads and capture ports under R191. -/
def State.chkSrcOwned (s : State) (seat src : Nat) : Bool :=
  if src < 32 then s.ownsHead seat src else if src < 40 then s.ownsCap seat (src - 32) else true

/-- Whether a source is that of a secure unit. -/
def State.chkSrcSec (s : State) (src : Nat) : Bool :=
  if src < 32 then s.unitSec src else if src < 40 then s.unitSec src else false

/-- The checks of an attach, in the order of R560. -/
def judgeAttach (s : State) (c : Cmd) : Judged :=
  let u := c.chkUnit
  let src := c.chkSrc
  ownCheck (s.ownsChk c.seat u && s.chkSrcOwned c.seat src) (s.unitSec (40 + u) || s.chkSrcSec src)
    (check (decide (src < 40) || s.isSup c.seat) (rej rjPermission 4)
      (check ((s.chkU u).att = 0 && !s.bitAt (Reg.chkCfg u) 0) rejParam
        (quotaCheck s c.seat [(5, 1)]
          (check (c.chkArea = 0 || s.areaOk c.seat c.chkArea 256 .write) rejWindow
            (ok (.hold (acts [
              .eff (.chk u { chkIdle 0 with att := 2, src := src, poly := c.chkPoly, seat := c.seat, area := c.chkArea, cmd := some c.id }),
              setFld (Reg.chkCfg u) 11 10 (1 + c.seat * 2)])))))))

/-- A detach: of a unit that a command attachment of the seat holds, and that no detach waits for. -/
def judgeDetach (s : State) (c : Cmd) : Judged :=
  let x := s.chkU c.chkUnit
  check (x.att = 2 && x.seat = c.seat && x.det.isNone) rejParam (ok (.hold (.eff (.chk c.chkUnit { x with det := some c.id }))))

/-- CHK_ATTACH. -/
def judgeChk (s : State) (c : Cmd) : Judged :=
  engineCheck s c (check (chkAttachOk c) rejParam (if c.chkDetach then judgeDetach s c else judgeAttach s c))

end Sys2Proof.Machine
end

