-- ==== Sys2Proof/Machine/RndJudge.lean ====
section
/-!
DEFINITION. Machine/RndJudge.lean: how the Registrar judges the commands of the render engine: programs (R401 to R407),
passes (R408 to R418) and dispatches (R426), with the engine pools (R412, R423).
-/

namespace Sys2Proof.Machine

/-! ### Pools (R412, R423) -/

/-- Pages of a pool in force, of those that lie in the Store. -/
def State.poolPages (s : State) (baseReg limitReg : Nat) : List Nat :=
  let first := max (s.cfld baseReg 12 36) (storeBase / 4096)
  let last := min (s.cfld limitReg 12 36) ((storeBase + storeSize) / 4096 - 1)
  if last < first then [] else rangeFrom first (last + 1 - first)

/-- Pages of the tile-list pool that accepted passes hold. -/
def State.tlUsed (s : State) : List Nat := (s.cfe.cmds.map fun c => if c.op = 0x0301 then c.res else []).flatten

/-- Pages of the program pool that programs hold. -/
def State.progUsed (s : State) : List Nat := (s.vid.progs.map Prog.pages).flatten

/-- `n` free pages of a pool, lowest first. -/
def takePages (pool used : List Nat) (n : Nat) : Option (List Nat) :=
  let free := pool.filter fun p => !used.contains p
  if n ≤ free.length then some (free.take n) else none

/-- RND_POOL_FREE. -/
def rndPools : Act :=
  .ask fun s =>
    let n (pool used : List Nat) := (pool.filter fun p => !used.contains p).length
    acts [setFld Reg.rndPoolFree 0 16 (n (s.poolPages Reg.rndTlBase Reg.rndTlLimit) s.tlUsed),
      setFld Reg.rndPoolFree 16 16 (n (s.poolPages Reg.rndProgBase Reg.rndProgLimit) s.progUsed)]

/-- The Store credits of a reservation, split over the groups that hold its pages (R85). -/
def pagesCost (total : Nat) (pages : List Nat) : Cost :=
  (splitShares total (((List.range 12).map fun g => (g, (pages.filter fun p => storeGroup (p * 4096) = g).length)).filter fun x => x.2 != 0)).map
    fun x => (6, x.1, x.2)

/-! ### Modules (R401, R403) -/

/-- The 32-bit words of a module. -/
def words32 (bs : List Byte) : List Nat := (List.range (bs.length / 4)).map fun i => leNat ((bs.drop (4 * i)).take 4)

/-- The instructions of a module from a position on: opcode and first operand. -/
def spvInsts : Nat → List Nat → List (Nat × Nat)
  | 0, _ => []
  | _, [] => []
  | n + 1, w :: ws =>
    if w / 65536 = 0 then []
    else (w % 65536, ws.headD 0) :: spvInsts n (ws.drop (w / 65536 - 1))

/-- The capabilities of Table 12.4 by their numbers in SPIR-V 1.6. -/
def spvCaps : List Nat := [1, 0, 9, 39, 22, 11, 12, 50, 55, 56, 35, 32, 33, 61, 64, 63, 5379]

/-- The instructions of a module after its five header words. -/
def spvBody (bs : List Byte) : List (Nat × Nat) := let ws := words32 bs; spvInsts ws.length (ws.drop 5)

/-- Whether the words that a decision checks are those of a module (R403). -/
def spvOk (bs : List Byte) : Bool :=
  let ws := words32 bs
  ws.getD 0 0 = 0x07230203 && ws.getD 1 0 = 0x00010600
    && (spvBody bs).all fun x => x.1 != 17 || spvCaps.contains x.2

/-- Execution models of a module's entry points, in order (R402). -/
def spvModels (bs : List Byte) : List Nat := ((spvBody bs).filter fun x => x.1 = 15).map Prod.snd

/-- The program that a seat holds under an ID. -/
def State.prog? (s : State) (seat id : Nat) : Option Prog := s.vid.progs.find? fun p => p.seat = seat && p.id = id

/-- RND_PROGRAM_LOAD with bytes (R402, R403, R146). -/
def judgeProgLoad (s : State) (c : Cmd) (h : HostAns) : Judged :=
  let n := c.f 2 0 32
  let id := c.f 3 0 16
  let kib := ceilDiv (2 * n) 1024
  engineCheck s c
    (check (s.prog? c.seat id).isNone rejParam
      (readThen s c.seat (c.n 1) n h fun bs =>
        check (spvOk bs) rejParam
          (quotaCheck s c.seat [(2, 1), (3, kib)]
            (match takePages (s.poolPages Reg.rndProgBase Reg.rndProgLimit) s.progUsed (ceilDiv (2 * n) 4096) with
              | none => rej rjBudget 2
              | some pages =>
                ok (.book [] 1 none (acts [
                  .eff (.vid fun v => { v with progs := v.progs ++ [{ seat := c.seat, id := id, load := some c.id, models := spvModels bs,
                                                                      pages := pages, kib := kib, ready := false, unload := none }] }),
                  cmdUpd c.id fun c => { c with unitsTotal := 1000 },
                  rndPools]))))))

/-- RND_PROGRAM_LOAD with byte count 0 (R406). -/
def judgeProgUnload (s : State) (c : Cmd) : Judged :=
  let id := c.f 3 0 16
  engineCheck s c
    (check (match s.prog? c.seat id with | some p => p.ready && p.unload.isNone | none => false) rejParam
      (ok (.book [] 1 none (.eff (.vid fun v =>
        { v with progs := mapIf (fun p => p.seat = c.seat && p.id = id) (fun p => { p with unload := some c.id }) v.progs })))))

/-- RND_PROGRAM_LOAD. -/
def judgeProg (s : State) (c : Cmd) (h : HostAns) : Judged :=
  check (c.background && c.n 1 % 4 = 0 && c.f 2 0 32 % 4 = 0 && decide (c.f 2 0 32 ≤ 4 * 2 ^ 20) && c.f 2 32 32 = 0 && c.f 3 16 48 = 0) rejParam
    (if c.f 2 0 32 = 0 then judgeProgUnload s c else judgeProgLoad s c h)

/-- Whether a command may use an entry point of a program, with the execution model its use requires (R407). -/
def State.entryOk (s : State) (seat id entry model : Nat) : Bool :=
  match s.prog? seat id with
  | some p => p.ready && p.unload.isNone && p.models[entry]? = some model
  | none => false

/-! ### Passes -/

/-- Whether a queue may be named by a seat (R397). -/
def State.queueOk (s : State) (seat q : Nat) : Bool := s.cfld (Reg.rndQueueCfg q) 32 1 = 0 || s.cfld (Reg.rndQueueCfg q) 33 9 = seat

/-- cores_now of a queue. -/
def State.coresNow (s : State) (q : Nat) : Nat := s.fld (Reg.rndQueueCfg q) 48 5

/-- The colour records in use and the depth record of a target description: record word, whether it is the depth record. -/
def targetRecs (t : List Word) : List (Nat × Bool) :=
  ((List.range (min 8 (fw t 0 0 4))).map fun i => (4 + 4 * i, false)) ++ (if fw t 0 4 3 = 0 then [] else [(36, true)])

/-- Bytes per pixel and sample of a record. -/
def recBytes (t : List Word) (r : Nat × Bool) : Nat :=
  if r.2 then (if fw t 0 4 3 = 1 then 2 else 4) else fmtB2 (fw t (r.1 + 1) 24 4) / 2

/-- Samples per pixel of a target. -/
def targetSamples (t : List Word) : Nat := if fb t 0 7 then 4 else 1

/-- Stored bytes per pixel of a record (R410). -/
def recStored (t : List Word) (r : Nat × Bool) : Nat :=
  match fw t (r.1 + 1) 30 2 with
  | 0 => recBytes t r * targetSamples t
  | 2 => recBytes t r
  | _ => 0

/-- Render area of a pass: left, top, width, height. -/
def passArea (ws : List Word) : Nat × Nat × Nat × Nat := (fw ws 7 0 16, fw ws 7 16 16, fw ws 7 32 16, fw ws 7 48 16)

/-- Tile grid of a render area: first column, last column, first row, last row (R413). -/
def passGrid (ws : List Word) : Nat × Nat × Nat × Nat :=
  let a := passArea ws
  (a.1 / 32, (a.1 + a.2.2.1 - 1) / 32, a.2.1 / 32, (a.2.1 + a.2.2.2 - 1) / 32)

/-- Tiles of a render area. -/
def passTiles (ws : List Word) : Nat := let g := passGrid ws; (g.2.1 + 1 - g.1) * (g.2.2.2 + 1 - g.2.2.1)

/-- Reserved bits, alignments and ranges of a RND_PASS_BEGIN (Table 12.6). -/
def passWordsOk (ws : List Word) : Bool :=
  fw ws 1 0 6 = 0 && fw ws 2 4 12 = 0 && fw ws 2 32 32 = 0 && decide (1 ≤ fw ws 2 16 16) && fw ws 4 32 8 = 0 && fw ws 5 40 24 = 0
    && fw ws 6 40 24 = 0 && decide (1 ≤ fw ws 7 32 16) && decide (1 ≤ fw ws 7 48 16)

/-- The envelope of a pass (R98, R411). -/
def passEnvelopeOk (p : Nat) (ws : List Word) : Bool :=
  decide (1 ≤ fw ws 3 0 32) && decide (1 ≤ fw ws 3 32 32) && decide (fw ws 4 0 32 ≤ p) && decide (fw ws 5 0 40 ≤ p * fw ws 2 16 16)
    && decide (16 * passTiles ws ≤ fw ws 4 32 32)

/-- Whether a draw is indexed. -/
def drawIndexed (d : List Word) : Bool := fb d 1 32

/-- Lengths of a RND_DRAW (R416). -/
def drawLenOk (d : List Word) : Bool :=
  let x := b2n (drawIndexed d)
  decide (5 + x ≤ d.length) && decide (d.length ≤ 13 + x)

/-- Reserved bits and encodings of a RND_DRAW. -/
def drawWordsOk (d : List Word) : Bool := fw d 1 35 29 = 0 && decide (fw d 1 29 3 ≤ 5) && fw d 4 0 6 = 0

/-- The entry points that a draw uses (R407). -/
def State.drawEntriesOk (s : State) (seat : Nat) (d : List Word) : Bool :=
  s.entryOk seat (fw d 1 0 16) (fw d 1 16 6) 0 && (fb d 1 22 || s.entryOk seat (fw d 1 0 16) (fw d 1 23 6) 4)

/-- A finite binary32. -/
def f32Finite (v : Nat) : Bool := nBits v 23 8 != 255
/-- The number of a finite binary32, scaled to an integer by 2^149. -/
def f32Scaled (v : Nat) : Int :=
  let m := nBits v 0 23
  let e := nBits v 23 8
  let a : Int := if e = 0 then m else (2 ^ 23 + m) * 2 ^ (e - 1)
  if nBit v 31 then -a else a

/-- Content of a state block (R418). -/
def stateOk (w : List Word) : Bool :=
  let unit (v : Nat) := f32Finite v && decide (0 ≤ f32Scaled v) && decide (f32Scaled v ≤ 2 ^ 149)
  let dim (v : Nat) := f32Finite v && decide (2 ^ 149 ≤ f32Scaled v) && decide (f32Scaled v ≤ 32768 * 2 ^ 149)
  fw w 0 0 2 != 3 && fw w 0 7 57 = 0
    && f32Finite (fw w 1 0 32) && f32Finite (fw w 1 32 32) && dim (fw w 2 0 32) && dim (fw w 2 32 32)
    && unit (fw w 3 0 32) && unit (fw w 3 32 32)
    && fw w 5 30 2 = 0 && fw w 5 56 8 = 0
    && f32Finite (fw w 6 0 32) && f32Finite (fw w 6 32 32)
    && ([0, 16, 32, 48].all fun o => nBits (fw w 7 o 16) 10 5 != 31)
    && (List.range 8).all fun k =>
      let b := fw w (8 + k / 2) (32 * (k % 2)) 32
      decide (nBits b 1 5 ≤ 14) && decide (nBits b 6 5 ≤ 14) && decide (nBits b 11 3 ≤ 4)
        && decide (nBits b 14 5 ≤ 14) && decide (nBits b 19 5 ≤ 14) && decide (nBits b 24 3 ≤ 4) && nBits b 31 1 = 0

/-- Content of a target description for a render area (R409, R411). -/
def targetOk (ws t : List Word) (states : List (List Word)) : Bool :=
  let recs := targetRecs t
  let a := passArea ws
  !recs.isEmpty && decide (fw t 0 0 4 ≤ 8) && decide (fw t 0 4 3 ≤ 3) && fw t 0 8 56 = 0
    && fw t 1 0 4 = 0 && fw t 2 0 64 = 0 && fw t 3 0 64 = 0
    && (recs.all fun r => (r.2 || decide (fw t (r.1 + 1) 24 4 ≤ 6)) && fw t (r.1 + 1) 28 2 != 3 && fw t (r.1 + 1) 30 2 != 3
        && fw t (r.1 + 1) 32 2 != 3 && fw t (r.1 + 1) 34 30 = 0 && fw t r.1 0 8 = 0 && fw t (r.1 + 1) 0 24 % 64 = 0
        && (fw t (r.1 + 1) 32 2 = 0 || fw t (r.1 + 3) 0 3 = 0))
    && decide (sumOn recs (fun r => recBytes t r * targetSamples t) ≤ 256)
    && (targetSamples t = 4 || recs.all fun r => fw t (r.1 + 1) 30 2 != 2)
    && (fw t 0 4 3 = 2 || states.all fun w => !fb w 5 5)
    && decide (a.1 + a.2.2.1 ≤ 16384) && decide (a.2.1 + a.2.2.2 ≤ 16384)
    && (recs.all fun r => decide ((a.1 + a.2.2.1) * recStored t r ≤ fw t (r.1 + 1) 0 24))

/-- Whether an area is empty or lies in the seat's windows. -/
def State.extentOk (s : State) (seat a n : Nat) (k : AccKind) : Bool := n = 0 || s.areaOk seat a n k

/-- The extents of a pass under R194 (R411). -/
def State.passExtentsOk (s : State) (seat : Nat) (ws t : List Word) (draws : List (List Word)) : Bool :=
  let a := passArea ws
  let g := passGrid ws
  ((targetRecs t).all fun r =>
    let n := fw t (r.1 + 1) 0 24 * (a.2.1 + a.2.2.2)
    let sigs := 8 * (512 * g.2.2.2 + g.2.1 + 1)
    (fw t (r.1 + 1) 28 2 != 0 || s.extentOk seat (fw t r.1 0 64) n .read)
      && (fw t (r.1 + 1) 30 2 = 1 || s.extentOk seat (fw t r.1 0 64) n .write)
      && (fw t (r.1 + 1) 32 2 = 0 || (s.extentOk seat (fw t (r.1 + 3) 0 64) sigs .read && s.extentOk seat (fw t (r.1 + 3) 0 64) sigs .write)))
    && (fw t 1 0 64 = 0 || (s.extentOk seat (fw t 1 0 64) 16 .read && s.extentOk seat (fw t 1 0 64) 16 .write))
    && draws.all fun d =>
      let n := if fb d 1 33 then 4 else 2
      !drawIndexed d || fw d 2 0 32 = 0 || fw d 2 32 32 = 0
        || s.extentOk seat (fw d 5 0 64 + fw d 3 0 32 * n) (fw d 2 0 32 * n) .read

/-- Read the state blocks of draws, in order, then go on. -/
def readStates (s : State) (seat : Nat) (h : HostAns) : List (List Word) → List (List Word) → (List (List Word) → Judged) → Judged
  | [], acc, k => k acc.reverse
  | d :: ds, acc, k => readThen s seat (fw d 4 0 64) 96 h fun bs => readStates s seat h ds (bytesWords bs :: acc) k

/-- The time limit of one bell on a render cost: the credits that its cores can run in 31 periods (R99, R102). -/
def State.rndTime (s : State) (q : Nat) : Option (Nat × Nat) := some (0, 31 * s.rndPeriod * s.coresNow q / 1024)

/-- Periods of a render cost on the cores of a queue, plus one (R99). -/
def State.rndDur (s : State) (q credits : Nat) : Nat := ceilDiv (credits * 1024) (s.coresNow q * s.rndPeriod) + 1

/-- A pass or dispatch that has been accepted and has not started. -/
def rndRunNew (cmd seat : Option Nat) (ws : List Word) (draws : List (List Word)) (t : List Word) (states : List (List Word)) : RndRun :=
  { cmd := cmd, seat := seat, words := ws, draws := draws, target := t, states := states, begun := false, sets := [], drawn := [],
    tiles := none, done := [], written := 0, skipped := 0, groups := 0, mem := 0, past := false, stop := false, fault := false,
    counts := (0, 0, 0) }

/-- A render pass (R408 to R418, R98, R412). -/
def judgePass (s : State) (c : Cmd) (h : HostAns) : Judged :=
  let ws := c.words
  let q := fw ws 2 0 4
  check (c.bad = 0) (rej rjMalformed c.bad)
    (check (c.draws.all drawLenOk) rejLength
      (check (passWordsOk ws && c.draws.all drawWordsOk && s.queueOk c.seat q && c.draws.all (s.drawEntriesOk c.seat)) rejParam
        (check (passEnvelopeOk s.rndPeriod ws) rejEnvelope
          (engineCheck s c
            (readThen s c.seat (c.n 1) 320 h fun bs =>
              readStates s c.seat h c.draws [] fun states =>
                let t := bytesWords bs
                let stamp := s.translate c.seat (fw t 1 0 64) 16 .write
                check (states.all stateOk && targetOk ws t states
                    && (fw t 1 0 64 = 0 || match stamp with | some pl => pl.target = 2 | none => true)) rejParam
                  (check (s.passExtentsOk c.seat ws t c.draws) rejWindow
                    (check (s.coresNow q != 0) (rej rjBudget 2 0)
                      (match takePages (s.poolPages Reg.rndTlBase Reg.rndTlLimit) s.tlUsed (ceilDiv (fw ws 4 32 32) 4096) with
                        | none => rej rjBudget 2
                        | some pages =>
                          let render := ceilDiv (fw ws 5 0 40 + fw ws 3 32 32 * (fw ws 4 0 32 + 256)) 1024
                          let tileBytes := 1024 * sumOn (targetRecs t) (recStored t)
                          ok (.book ([(0, 0, render), (5, 0, ceilDiv (fw ws 3 32 32 * tileBytes + fw ws 6 0 40) 256)]
                              ++ pagesCost (ceilDiv (2 * fw ws 4 32 32) 256) pages) (s.rndDur q render) (s.rndTime q)
                            (acts [cmdUpd c.id fun c => { c with unitsTotal := fw ws 3 32 32, res := pages },
                              .eff (.vid fun v => { v with runs := v.runs ++ [rndRunNew (some c.id) (some c.seat) ws c.draws t states] }),
                              rndPools]))))))))))

/-- A member that stands outside a pass (R144). -/
def judgeStray : Judged := rejParam

/-! ### Dispatches (R426) -/

/-- Workgroup counts of a dispatch packet. -/
def dispCounts (ws : List Word) : Nat × Nat × Nat := (fw ws 2 0 21, fw ws 2 21 21, fw ws 2 42 21)

/-- Product of workgroup counts. -/
def countsProd (g : Nat × Nat × Nat) : Nat := g.1 * g.2.1 * g.2.2

/-- Whether a dispatch is indirect. -/
def dispIndirect (ws : List Word) : Bool := let g := dispCounts ws; g.1 = 0 && g.2.1 = 0 && g.2.2 = 0

/-- Reserved bits of a RND_DISPATCH (Table 12.14). -/
def dispWordsOk (ws : List Word) : Bool :=
  fw ws 1 10 6 = 0 && fw ws 1 32 32 = 0 && fw ws 2 63 1 = 0 && fw ws 3 32 32 = 0 && fw ws 4 32 32 = 0 && fw ws 5 40 24 = 0 && fw ws 7 0 64 = 0

/-- The envelope of a dispatch. -/
def dispEnvelopeOk (p : Nat) (ws : List Word) : Bool :=
  decide (1 ≤ fw ws 3 0 32) && decide (fw ws 4 0 32 ≤ p) && decide (countsProd (dispCounts ws) ≤ fw ws 3 0 32)

/-- RND_DISPATCH. -/
def judgeDispatch (s : State) (c : Cmd) : Judged :=
  let ws := c.words
  let q := fw ws 1 0 4
  check (dispWordsOk ws && s.queueOk c.seat q && s.entryOk c.seat (fw ws 1 16 16) (fw ws 1 4 6) 5) rejParam
    (check (dispEnvelopeOk s.rndPeriod ws) rejEnvelope
      (engineCheck s c
        (check (s.areaOk c.seat (fw ws 6 0 64) (if dispIndirect ws then 76 else 64) .read) rejWindow
          (check (s.coresNow q != 0) (rej rjBudget 2 0)
            (let render := ceilDiv (ceilDiv (fw ws 3 0 32) 64 * fw ws 4 0 32) 1024
             ok (.book [(0, 0, render), (5, 0, ceilDiv (fw ws 5 0 40) 256)] (s.rndDur q render) (s.rndTime q)
              (acts [cmdUpd c.id fun c => { c with unitsTotal := ceilDiv (fw ws 3 0 32) 64 },
                .eff (.vid fun v => { v with runs := v.runs ++ [rndRunNew (some c.id) (some c.seat) ws [] [] []] })])))))))

end Sys2Proof.Machine
end

