-- ==== Sys2Proof/Machine/VdcJudge.lean ====
section
/-!
DEFINITION. Machine/VdcJudge.lean: surface rings (R433 to R438) and how the Registrar judges the commands of the codec: sessions
(R447 to R451), decodes (R454), encodes (R461, R463, R465), key requests (R470).
-/

namespace Sys2Proof.Machine

/-! ### Surface rings -/

/-- A surface ring of an owner from its descriptor (Table 13.1). -/
def ringOf (owner : Option Nat) (d : List Word) : SurfRing :=
  { owner := owner, slots := fw d 0 0 6, bind := fb d 0 8, layer := fw d 0 16 9, base := fw d 1 0 64, stride := fw d 2 0 40,
    pitch := fw d 3 0 24, uv := fw d 3 24 40, stamp := fw d 4 0 64, records := fw d 5 0 64, pubs := [], seq := 0 }

/-- Encodings of a ring descriptor. -/
def ringWordsOk (d : List Word) : Bool :=
  decide (5 ≤ fw d 0 0 6) && decide (fw d 0 0 6 ≤ 32) && fw d 0 6 2 = 0 && fw d 0 9 7 = 0 && decide (fw d 0 16 9 < 384) && fw d 0 25 39 = 0
    && fw d 1 0 8 = 0 && fw d 2 0 12 = 0 && fw d 2 40 24 = 0 && fw d 3 0 6 = 0 && fw d 3 24 8 = 0 && fw d 4 0 4 = 0 && fw d 5 0 5 = 0
    && fw d 6 0 64 = 0 && fw d 7 0 64 = 0

/-- Bytes of a row of plane 0 of a format; a row of plane 1 has as many. -/
def rowBytes (fmt w : Nat) : Nat := ceilDiv w (fmtUnit fmt).2 * (fmtUnit fmt).1

/-- Whether every slot holds a picture of a format and a size: plane 1 follows plane 0 at the same pitch (R434, R448). -/
def slotFits (r : SurfRing) (fmt w h : Nat) : Bool :=
  decide (rowBytes fmt w ≤ r.pitch)
    && (if fmtTwo fmt then decide (r.pitch * h ≤ r.uv) && decide (r.uv + r.pitch * ceilDiv h 2 ≤ r.stride) else decide (r.pitch * h ≤ r.stride))

/-- The rings in use. -/
def State.rings (s : State) : List SurfRing := s.vid.caps.filterMap (fun x => x.2.ring) ++ s.vid.sess.filterMap Session.ring

/-- Whether an extent at a device address is memory. -/
def State.memExtent (s : State) (a n : Nat) : Bool := n = 0 || decide (a + n ≤ s.dramSize) || (isStore a && isStore (a + n - 1))

/-- Whether the areas of a ring may be written by its owner: through the seat's windows, or as device memory (R434). -/
def State.ringAreas (s : State) (r : SurfRing) : Bool :=
  match r.owner with
  | some n =>
    s.areaOk n r.base (r.slots * r.stride) .write && s.areaOk n r.records (32 * r.slots) .write
      && (r.stamp = 0 || match s.translate n r.stamp 16 .write with | some pl => pl.target = 2 | none => false)
  | none => s.memExtent r.base (r.slots * r.stride) && s.memExtent r.records (32 * r.slots) && (r.stamp = 0 || isStore r.stamp)

/-- Whether the layer that a ring binds is free for it: owned by the ring's owner, held by no ring but one it replaces (R437). -/
def State.ringLayerOk (s : State) (r : SurfRing) (mine : Option SurfRing) : Bool :=
  !r.bind || ((match r.owner with | some n => s.ownsLayer n r.layer | none => false)
    && (s.rings.filter fun x => some x != mine).all fun x => !(x.bind && x.layer = r.layer))

/-- Whether a descriptor gives a valid ring for pictures of a format and a size. -/
def State.ringValid (s : State) (owner : Option Nat) (d : List Word) (mine : Option SurfRing) (fmt w h : Nat) : Bool :=
  let r := ringOf owner d
  ringWordsOk d && s.ringAreas r && s.ringLayerOk r mine && slotFits r fmt w h

/-! ### Writing for an owner, stamps and publications (R333, R415, R435) -/

/-- Write for an owner: through its windows, or as a secure unit at a device address. -/
def ownerStore (st : Nat) (owner : Option Nat) (a : Nat) (bs : List Byte) : Act :=
  match owner with
  | some n => seatStore st n a bs
  | none => .ask fun s => (devWrite s { station := st, secure := true, seat := none, window := 0, kind := .write } a bs).act

/-- Read for an owner. -/
def ownerRead (s : State) (st : Nat) (owner : Option Nat) (a n : Nat) (h : HostAns) : MemOut :=
  match owner with
  | some k => seatRead s st k a n .read h
  | none => devRead s { station := st, secure := true, seat := none, window := 0, kind := .read } a n 0

/-- Word 0 of a stamp block (Table 10.1). -/
def stampWord (bell : Nat) (degraded : Bool) : Nat := bell % 2 ^ 48 + b2n degraded * 2 ^ 48

/-- Write a stamp block: word 1 before word 0 (R333). -/
def stampPut (st : Nat) (owner : Option Nat) (a bell : Nat) (degraded : Bool) (concealed : Nat) : Act :=
  actIf (decide (a ≠ 0)) (acts [ownerStore st owner (a + 8) (leBytes 8 concealed), ownerStore st owner a (leBytes 8 (stampWord bell degraded))])

/-- The writes of a publication, in their order (R435): words 1 to 3 of the record, word 0, the stamp block. -/
def publishWrites (st : Nat) (r : SurfRing) (slot seq number bell : Nat) (degraded : Bool) (concealed : Nat) : Act :=
  let a := r.records + 32 * slot
  acts [ownerStore st r.owner (a + 8) (leBytes 8 concealed ++ leBytes 8 (seq % 2 ^ 32) ++ leBytes 8 number),
    ownerStore st r.owner a (leBytes 8 (stampWord bell degraded)),
    stampPut st r.owner r.stamp bell degraded concealed]

/-- A ring after a publication in a slot. -/
def SurfRing.publish (r : SurfRing) (slot : Nat) : SurfRing := { r with pubs := (slot, r.seq + 1) :: r.pubs, seq := r.seq + 1 }

/-! ### Levels (R448, R453) -/

/-- A level: its number, the largest picture and the largest rate in its standard's unit, the largest width and height. -/
structure CodecLevel where
  idc : Nat
  pic : Nat
  rate : Nat
  maxW : Nat
  maxH : Nat
deriving DecidableEq, Repr

/-- Levels of H.264 in macroblocks (PRESUMED from the standard, assumption 20). -/
def levelsAvc : List CodecLevel :=
  [⟨9, 99, 1485, 28, 28⟩, ⟨10, 99, 1485, 28, 28⟩, ⟨11, 396, 3000, 56, 56⟩, ⟨12, 396, 6000, 56, 56⟩, ⟨13, 396, 11880, 56, 56⟩,
   ⟨20, 396, 11880, 56, 56⟩, ⟨21, 792, 19800, 79, 79⟩, ⟨22, 1620, 20250, 113, 113⟩, ⟨30, 1620, 40500, 113, 113⟩,
   ⟨31, 3600, 108000, 169, 169⟩, ⟨32, 5120, 216000, 202, 202⟩]
  ++ [⟨40, 8192, 245760, 256, 256⟩, ⟨41, 8192, 245760, 256, 256⟩, ⟨42, 8704, 522240, 263, 263⟩, ⟨50, 22080, 589824, 420, 420⟩,
   ⟨51, 36864, 983040, 543, 543⟩, ⟨52, 36864, 2073600, 543, 543⟩]

/-- Levels of HEVC in luma samples, up to 6.1 (PRESUMED from the standard, assumption 20). -/
def levelsHevc : List CodecLevel :=
  [⟨30, 36864, 552960, 543, 543⟩, ⟨60, 122880, 3686400, 991, 991⟩, ⟨63, 245760, 7372800, 1402, 1402⟩, ⟨90, 552960, 16588800, 2103, 2103⟩,
   ⟨93, 983040, 33177600, 2804, 2804⟩, ⟨120, 2228224, 66846720, 4222, 4222⟩, ⟨123, 2228224, 133693440, 4222, 4222⟩]
  ++ [⟨150, 8912896, 267386880, 8444, 8444⟩, ⟨153, 8912896, 534773760, 8444, 8444⟩, ⟨156, 8912896, 1069547520, 8444, 8444⟩,
   ⟨180, 35651584, 1069547520, 16888, 16888⟩, ⟨183, 35651584, 2139095040, 16888, 16888⟩]

/-- Levels of AV1 in luma samples, up to 6.0 (PRESUMED from the standard, assumption 20). -/
def levelsAv1 : List CodecLevel :=
  [⟨0, 147456, 4423680, 2048, 1152⟩, ⟨1, 278784, 8363520, 2816, 1584⟩, ⟨4, 665856, 19975680, 4352, 2448⟩, ⟨5, 1065024, 31950720, 5504, 3096⟩,
   ⟨8, 2359296, 70778880, 6144, 3456⟩, ⟨9, 2359296, 141557760, 6144, 3456⟩]
  ++ [⟨12, 8912896, 267386880, 8192, 4352⟩, ⟨13, 8912896, 534773760, 8192, 4352⟩, ⟨14, 8912896, 1069547520, 8192, 4352⟩,
   ⟨15, 8912896, 1069547520, 8192, 4352⟩, ⟨16, 35651584, 1069547520, 16384, 8704⟩]

/-- Unit of a standard's levels: macroblocks for H.264, samples for the others. -/
def levelUnit (std : Nat) : Nat := if std = 0 then 16 else 1

/-- Whether a size and a rate lie within the declared level and the limits of Table 13.6, or R462 for encoding. -/
def levelOk (ws : List Word) : Bool :=
  let w := fw ws 2 0 16
  let h := fw ws 2 16 16
  let std := fw ws 1 2 2
  let u := levelUnit std
  let lim := if fb ws 1 1 then (7680, 4320) else if std = 0 then (4096, 2304) else if std = 1 then (8192, 4320) else (8192, 4352)
  let min := if fb ws 1 1 then 128 else 2
  match (if std = 0 then levelsAvc else if std = 1 then levelsHevc else levelsAv1).find? fun l => l.idc = fw ws 1 16 8 with
  | none => false
  | some l =>
    let n := ceilDiv w u * ceilDiv h u
    decide (min ≤ w) && decide (min ≤ h) && decide (w ≤ lim.1) && decide (h ≤ lim.2) && decide (ceilDiv w u ≤ l.maxW) && decide (ceilDiv h u ≤ l.maxH)
      && decide (n ≤ l.pic) && decide (n * fw ws 3 0 32 ≤ l.rate * fw ws 3 32 32)
      && decide (blockUnits w h * fw ws 3 0 32 ≤ 250000 * fw ws 3 32 32)

/-! ### VDC_SESSION_OPEN -/

/-- Word forms of an open (Table 13.5). -/
def openWordsOk (ws : List Word) : Bool :=
  let std := fw ws 1 2 2
  let prof := fw ws 1 4 2
  std != 3 && (if std = 2 then prof = 0 else decide (prof ≤ 1)) && !(fb ws 1 6 && std != 2 && prof = 0)
    && !(fb ws 1 7 && fb ws 1 1) && (if fb ws 1 1 then fw ws 1 8 5 = 0 else decide (1 ≤ fw ws 1 8 5) && decide (fw ws 1 8 5 ≤ 16))
    && (!fb ws 1 1 || (std = 1 && prof = 1) || std = 2)
    && fw ws 1 13 3 = 0 && fw ws 1 32 32 = 0 && fw ws 2 0 1 = 0 && fw ws 2 16 1 = 0 && fw ws 2 32 32 = 0 && decide (1 ≤ fw ws 3 32 32)
    && fw ws 4 0 6 = 0 && ((rangeFrom 5 3).all fun i => fw ws i 0 64 = 0)

/-- Ranges of the encoder parameter block (Table 13.8). -/
def encBlockOk (ws b : List Word) : Bool :=
  let rows := ceilDiv (fw ws 2 16 16) 64
  let top := if fw ws 1 2 2 = 1 then 51 else 255
  decide (fw b 0 0 8 ≤ top) && decide (fw b 0 8 8 ≤ top) && decide (fw b 0 0 8 ≤ fw b 0 8 8)
    && decide (8 ≤ fw b 0 16 7) && decide (fw b 0 16 7 ≤ 120) && fw b 0 23 1 = 0 && fw b 0 24 2 != 3 && fw b 0 27 2 != 3
    && decide (1 ≤ fw b 0 29 3) && decide (fw b 0 29 3 ≤ 4) && fw b 0 32 32 = 0
    && decide (256 + 128 * rows ≤ fw b 1 0 32) && decide (256 + 128 * rows ≤ fw b 1 32 32)
    && decide (fw b 1 0 32 ≤ fw b 2 0 32) && fw b 2 32 32 = 0 && ((rangeFrom 4 4).all fun i => fw b i 0 64 = 0)

/-- Format of the pictures of a decode session's ring. -/
def sessFmt (ws : List Word) : Nat := if fb ws 1 6 then 8 else 7

/-- Sessions on a pipe. -/
def State.pipeSess (s : State) (p : Nat) : Nat := (s.vid.sess.filter fun x => x.pipe = p).length

/-- Least unbooked capacity of a pipe over the bells that bookings reach. -/
def State.pipeLeast (s : State) (cls p : Nat) : Nat :=
  minOf ((rangeFrom (s.tts.bell + 1) 256).map fun b => s.freeCap cls p b)

/-- Whether the standing cost of a session fits on a pipe (R91, R449). -/
def State.pipeFits (s : State) (ws : List Word) (p seat : Nat) : Bool :=
  s.settings.all fun b => (s.standingRefused (fun _ => []) (fun _ => sessCharge b ws p (some seat))).isNone

/-- The pipe that a session gets: with room, of greatest least unbooked capacity, the lowest on ties (R449). -/
def State.pipePick (s : State) (ws : List Word) (seat : Nat) : Option Nat :=
  let enc := fb ws 1 1
  let ps := (if enc then [8, 9] else List.range 8).filter fun p =>
    !s.unitSec (113 + p) && decide (s.pipeSess p < if enc then 4 else 16) && s.pipeFits ws p seat
  leastBy (fun p => 2 ^ 64 - s.pipeLeast (if enc then 3 else 2) p) ps

/-- An ID that is free, of those below `n`: which one the spec leaves open. -/
def pickFree (fv n : Nat) (used : List Nat) : Nat :=
  let free := (List.range n).filter fun i => !used.contains i
  free.getD (Config.idPick fv % max 1 free.length) 0

/-- A session just opened. -/
def sessNew (id : Nat) (seat : Option Nat) (pipe : Nat) (ws : List Word) (opening : Option Nat) (ring : Option SurfRing) (block : List Word) : Session :=
  { id := id, seat := seat, pipe := pipe, words := ws, opening := opening, ring := ring, held := [], number := 0, closing := none,
    block := block, fill := 0, sweep := 0, owed := [], keys := [], lastSeq := 0, input := [] }

/-- The ID that a session opened now gets. -/
def State.sessId (s : State) : Nat := pickFree s.fv 256 (s.vid.sess.map Session.id)

/-- The acceptance of an open: the session holds its pipe; the open ends when nothing holds it (R643, R647). -/
def sessOpenAct (c : Cmd) (pipe : Nat) (ring : Option SurfRing) (block : List Word) : Act :=
  .ask fun s => acts [
    .eff (.vid fun v => { v with sess := v.sess ++ [sessNew s.sessId (some c.seat) pipe c.words (some c.id) ring block] }), .eff .tick]

/-- Whether the areas that an encoder block names may be written. -/
def State.encAreasOk (s : State) (seat : Nat) (b : List Word) : Bool := fw b 3 0 64 = 0 || s.areaOk seat (fw b 3 0 64) 4096 .write

/-- VDC_SESSION_OPEN without close (R448). -/
def judgeSessOpen (s : State) (c : Cmd) (h : HostAns) : Judged :=
  let ws := c.words
  let enc := fb ws 1 1
  check (openWordsOk ws && levelOk ws) rejParam
    (engineCheck s c
      (quotaCheck s c.seat [(0, 1)]
        (readThen s c.seat (fw ws 4 0 64) 64 h fun bs =>
          let d := bytesWords bs
          let ring := if enc then none else some (ringOf (some c.seat) d)
          let w64 := roundUp (fw ws 2 0 16) 64
          let h64 := roundUp (fw ws 2 16 16) 64
          check (if enc then encBlockOk ws d
              else s.ringValid (some c.seat) d none (sessFmt ws) w64 h64 && decide (fw ws 1 8 5 + 4 ≤ fw d 0 0 6)) rejParam
            (check (!enc || s.encAreasOk c.seat d) rejWindow
              (match s.pipePick ws c.seat with
                | none => rej rjBudget 2 (if enc then 3 else 2)
                | some p => ok (.hold (sessOpenAct c p ring (if enc then d else []))))))))

/-- The session that a seat holds under an ID, open to new commands (R448, R450). -/
def State.sess? (s : State) (seat : Option Nat) (id : Nat) : Option Session :=
  s.vid.sess.find? fun x => x.id = id && x.seat = seat && x.closing.isNone

/-- Change a session. -/
def sessUpd (id : Nat) (f : Session → Session) : Act :=
  .eff (.vid fun v => { v with sess := mapIf (fun x => x.id = id) f v.sess })

/-- VDC_SESSION_OPEN with close (R450): pending key requests end with SQUASHED. -/
def judgeSessClose (s : State) (c : Cmd) : Judged :=
  let id := fw c.words 1 24 8
  check ((rangeFrom 2 6).all fun i => fw c.words i 0 64 = 0) rejParam
    (engineCheck s c
      (match s.sess? (some c.seat) id with
        | none => rejParam
        | some x => ok (.hold (acts [
            sessUpd id fun y => { y with closing := some c.id, keys := [] },
            each (x.keys.filterMap fun k => k) fun k => cmdEnd k fun c => { c with squashed := true }]))))

/-- VDC_SESSION_OPEN. -/
def judgeSession (s : State) (c : Cmd) (h : HostAns) : Judged := if c.b 1 0 then judgeSessClose s c else judgeSessOpen s c h

/-! ### VDC_DECODE -/

/-- Periods that a number of block units takes at 4 µs each, rounded up (R455, R465). -/
def State.unitPeriods (s : State) (n : Nat) : Nat :=
  let b := s.tts.cur
  max 1 (ceilDiv (n * 4 * 32 * bellDen b) (bellNum b * 1000000))

/-- Block units of a session's pictures. -/
def Session.units (x : Session) : Nat := blockUnits (fw x.words 2 0 16) (fw x.words 2 16 16)

/-- Whether a session is of the LIVE class. -/
def Session.live (x : Session) : Bool := fb x.words 1 7

/-- The longest picture of the NORMAL sessions of a pipe (R452). -/
def State.longestNormal (s : State) (pipe : Nat) : Nat :=
  ((s.vid.sess.filter fun x => x.pipe = pipe && !x.live).map Session.units).foldl max 0

/-- Word forms of a VDC_DECODE (Table 13.7). -/
def decodeWordsOk (ws : List Word) : Bool :=
  fw ws 1 9 7 = 0 && fw ws 1 32 32 = 0 && decide (1 ≤ fw ws 1 16 16) && fw ws 3 40 24 = 0 && fw ws 4 40 24 = 0
    && decide (1 ≤ fw ws 4 0 40) && fw ws 5 0 6 = 0

/-- The cost of a decode (Table 3.6, R451). -/
def decodeCost (x : Session) (ws : List Word) : Cost :=
  let n := fw ws 1 16 16
  if x.live then [(16, x.id, x.units * n), (5, 0, ceilDiv (fw ws 4 0 40) 256)]
  else [(2, x.pipe, x.units * n),
    (5, 0, ceilDiv (picDramNum (fw x.words 2 0 16) (fw x.words 2 16 16) (fb x.words 1 6) 3 n + 2 * fw ws 4 0 40) 512)]

/-- A decode's booking; a replacement ring is kept as its descriptor's words. -/
def State.decodeBook (s : State) (c : Cmd) (x : Session) (d : List Word) : Judged :=
  let n := fw c.words 1 16 16
  ok (.book (decodeCost x c.words) (s.unitPeriods (x.units * n + if x.live then s.longestNormal x.pipe else 0)) none
    (cmdUpd c.id fun c => { c with unitsTotal := n, res := d.map BitVec.toNat }))

/-- VDC_DECODE. -/
def judgeDecode (s : State) (c : Cmd) (h : HostAns) : Judged :=
  let ws := c.words
  check (decodeWordsOk ws) rejParam
    (engineCheck s c
      (match s.sess? (some c.seat) (fw ws 1 0 8) with
        | none => rejParam
        | some x =>
          check (!fb x.words 1 1 && (fw ws 5 0 64 = 0 || x.held.isEmpty)) rejParam
            (check (s.extentOk c.seat (fw ws 2 0 64) (fw ws 3 0 40) .read) rejWindow
              (if fw ws 5 0 64 = 0 then s.decodeBook c x []
               else readThen s c.seat (fw ws 5 0 64) 64 h fun bs =>
                let d := bytesWords bs
                check (s.ringValid (some c.seat) d x.ring (sessFmt x.words) (roundUp (fw x.words 2 0 16) 64) (roundUp (fw x.words 2 16 16) 64)
                    && decide (fw x.words 1 8 5 + 4 ≤ fw d 0 0 6)) rejParam (s.decodeBook c x d)))))

/-! ### VDC_ENCODE -/

/-- Source of an encode: 0 SURFACES, 1 CAPTURE, 2 HEAD. -/
def encSrc (ws : List Word) : Nat := fw ws 1 8 2
/-- Port or head of an encode. -/
def encIndex (ws : List Word) : Nat := fw ws 1 10 5

/-- Word forms of a VDC_ENCODE (Table 13.9). -/
def encodeWordsOk (ws : List Word) : Bool :=
  let surf := encSrc ws = 0
  encSrc ws != 3 && (if surf then encIndex ws = 0 else if encSrc ws = 1 then decide (encIndex ws < 8) else true)
    && fw ws 1 15 1 = 0 && decide (1 ≤ fw ws 1 16 16) && fw ws 1 36 4 = 0
    && (if surf then [0, 1, 2, 7, 8, 9, 10].contains (fw ws 1 32 4) && fw ws 1 40 24 % 64 = 0 && fw ws 2 0 8 = 0 else fw ws 2 0 64 = 0)
    && fw ws 5 40 24 = 0

/-- Bytes of one source picture of a SURFACES encode. -/
def encSpan (x : Session) (ws : List Word) : Nat :=
  let h := fw x.words 2 16 16
  let p := fw ws 1 40 24
  if fmtTwo (fw ws 1 32 4) then max (p * h) (fw ws 3 40 24 * 256 + p * ceilDiv h 2) else p * h

/-- Whether the seat may read the source. -/
def State.encReadOk (s : State) (seat : Nat) (x : Session) (ws : List Word) : Bool :=
  encSrc ws != 0 || s.extentOk seat (fw ws 2 0 64) (fw ws 3 0 40 * (fw ws 1 16 16 - 1) + encSpan x ws) .read

/-- The cost of an encode (Table 3.6). -/
def encodeCost (x : Session) (ws : List Word) : Cost :=
  let n := fw ws 1 16 16
  [(3, x.pipe, x.units * n),
    (5, 0, ceilDiv (picDramNum (fw x.words 2 0 16) (fw x.words 2 16 16) (fb x.words 1 6) 4 n + 2 * fw ws 5 0 40) 512)]

/-- The bells in which a head's frames start, `n` of them from a bell on: one in every k bells. -/
def frameBells (h : HeadSt) (n from_ : Nat) : List Nat :=
  match (rangeFrom from_ 4).find? h.starts with
  | some b => (List.range n).map fun j => b + j * h.k
  | none => []

/-- The bells of a CAPTURE or HEAD encode (R465). -/
def State.encBells (s : State) (ws : List Word) : List Nat :=
  let n := fw ws 1 16 16
  if encSrc ws = 1 then rangeFrom s.firstBell n else frameBells (s.head (encIndex ws)) n s.firstBell

/-- The shares of a CAPTURE or HEAD encode: one picture per bell, its DRAM credits an even part of the cost. -/
def encShares (c : Cmd) (x : Session) (bells : List Nat) : List Share :=
  let dram := match encodeCost x c.words with | [_, y] => y.2.2 | _ => 0
  let parts := (splitShares dram ((List.range bells.length).map fun i => (i, 1))).map Prod.snd
  ((bells.zip parts).map fun (b, d) =>
    [{ cmd := c.id, seat := c.seat, bell := b, cls := 3, unit := x.pipe, n := x.units : Share },
     { cmd := c.id, seat := c.seat, bell := b, cls := 5, unit := 0, n := d }]).flatten

/-- The rejection of the first fixed share that its bell does not hold (R465). -/
def State.fixedRefused (s : State) (seat : Nat) (shares : List Share) : Option Reject :=
  (shares.find? fun x => decide (s.freeBudget seat x.cls x.bell < x.n) || decide (s.freeCap x.cls x.unit x.bell < x.n)).map fun x =>
    if s.freeBudget seat x.cls x.bell < x.n then ⟨rjBudget, 1, x.cls, x.bell⟩ else ⟨rjBudget, 2, x.cls, x.bell⟩

/-- Booking of an encode. A background encode books nothing. -/
def State.encodeBook (s : State) (c : Cmd) (x : Session) : Judged :=
  let ws := c.words
  let n := fw ws 1 16 16
  let act := cmdUpd c.id fun c => { c with unitsTotal := n * ceilDiv (fw x.words 2 16 16) 64 }
  if encSrc ws = 0 || c.background then ok (.book (encodeCost x ws) (s.unitPeriods (x.units * n)) none act)
  else
    let bells := s.encBells ws
    let shares := encShares c x bells
    if c.dl < bells.getLastD 0 then { reads := .skip, v := .reject ⟨rjDeadline, 1, 0xFF, s.firstBell⟩ }
    else match s.fixedRefused c.seat shares with
      | some r => { reads := .skip, v := .reject r }
      | none => ok (.fixed shares (32 * (bells.headD 0 + 1) - s.unitPeriods x.units) act)

/-- VDC_ENCODE. -/
def judgeEncode (s : State) (c : Cmd) : Judged :=
  let ws := c.words
  check (encodeWordsOk ws) rejParam
    (engineCheck s c
      (match s.sess? (some c.seat) (fw ws 1 0 8) with
        | none => rejParam
        | some x =>
          check (fb x.words 1 1) rejParam
            (check (decide (fw ws 1 16 16 * (256 + 128 * ceilDiv (fw x.words 2 16 16) 64) ≤ fw ws 5 0 40)) rejEnvelope
              (ownCheck (encSrc ws = 0 || (if encSrc ws = 1 then s.ownsCap c.seat (encIndex ws) else s.ownsHead c.seat (encIndex ws)))
                  (encSrc ws != 0 && s.unitSec (if encSrc ws = 1 then 32 + encIndex ws else encIndex ws))
                (check (s.extentOk c.seat (fw ws 4 0 64) (fw ws 5 0 40) .write && s.encReadOk c.seat x ws) rejWindow (s.encodeBook c x))))))

/-- VDC_KEY_REQUEST (R470): its reply follows when its picture is coded. -/
def judgeKey (s : State) (c : Cmd) : Judged :=
  check (c.f 1 8 56 = 0) rejParam
    (engineCheck s c
      (match s.sess? (some c.seat) (c.f 1 0 8) with
        | none => rejParam
        | some x => check (fb x.words 1 1) rejParam (ok (.later (sessUpd x.id fun y => { y with keys := y.keys ++ [some c.id] })))))

end Sys2Proof.Machine
end

