-- ==== Sys2Proof/Machine/MedJudge.lean ====
section
/-!
DEFINITION. Machine/MedJudge.lean: how the Registrar judges the commands of audio (R481, R482, R490 to R493, R499), touch (R510 to
R515) and haptics (R525 to R527).
-/

namespace Sys2Proof.Machine

/-! ### AUD_ROUTE (R481, R482) -/

/-- Input of a node word. -/
def nodeIn (w : Word) : Nat := wBits w 0 8
/-- Bus of a node word. -/
def nodeBus (w : Word) : Nat := wBits w 8 8
/-- Target of a node word in 1/64 dB; none for OFF. -/
def nodeGain (w : Word) : Option Int := if wBits w 32 16 = 0x8000 then none else some (signed (wBits w 32 16) 16)

/-- Encodings of a node word (Table 14.4). -/
def nodeOk (w : Word) : Bool :=
  decide (1 ≤ wBits w 16 10) && decide (wBits w 16 10 ≤ 1000) && wBits w 26 6 = 0 && wBits w 48 16 = 0
    && (match nodeGain w with | none => true | some g => decide (-9216 ≤ g) && decide (g ≤ 1536))

/-- Node words of an AUD_ROUTE. -/
def routeNodes (ws : List Word) : List Word := ws.drop 1

/-- The stream that holds an input. -/
def State.streamOfInput (s : State) (i : Nat) : Option AudStream :=
  s.med.aud.streams.find? fun x => !fb x.words 1 1 && decide (fw x.words 1 16 8 ≤ i) && decide (i < fw x.words 1 16 8 + streamCh x.words)

/-- Whether a seat owns an input (Table 14.2). -/
def State.ownsInput (s : State) (seat i : Nat) : Bool :=
  if i < 128 then s.ownsTdm seat (i / 16)
  else if i < 192 then s.ownsCap seat ((i - 128) / 8)
  else match s.streamOfInput i with | some x => x.seat = seat | none => false

/-- Whether an input is secure (R481). -/
def State.inputSec (s : State) (i : Nat) : Bool :=
  if i < 128 then s.unitSec (105 + i / 16) else if i < 192 then s.unitSec (32 + (i - 128) / 8) else false

/-- Whether a bus belongs to the secure world. -/
def State.busSec (s : State) (b : Nat) : Bool := s.cfld (Reg.audBusOwner b) 10 1 = 1

/-- AUD_ROUTE: its latest start includes one period for its ramps (R483). -/
def judgeRoute (s : State) (c : Cmd) : Judged :=
  let ns := routeNodes c.words
  check (ns.all nodeOk && allDiff (ns.map fun w => wBits w 0 16)) rejParam
    (engineCheck s c
      (ownCheck (ns.all fun w => s.ownsInput c.seat (nodeIn w) && s.busOwner (nodeBus w) = some c.seat)
          (ns.any fun w => s.inputSec (nodeIn w) || s.busSec (nodeBus w))
        (ok (.book ((splitShares (ceilDiv (8 * ns.length) 256) ((List.range 12).map fun g => (g, 1))).map fun x => (6, x.1, x.2)) 2 none .skip))))

/-! ### AUD_STREAM (R499, R501) -/

/-- Word forms of an open (Table 14.10). -/
def streamWordsOk (ws : List Word) : Bool :=
  let p := fw ws 1 16 8
  fw ws 1 5 3 = 0 && fw ws 1 24 40 = 0 && (fb ws 1 1 || decide (192 ≤ p)) && decide (p + streamCh ws ≤ 256) && fw ws 2 0 6 = 0
    && decide (512 ≤ fw ws 3 0 32) && decide (fw ws 3 0 32 ≤ 16777216) && fw ws 3 32 32 = 0 && fw ws 4 0 64 = 0 && fw ws 5 0 64 = 0

/-- Whether a buffer lies in windows of target HOST or DRAM with a permission. -/
def State.bufferOk (s : State) (seat a n : Nat) (k : AccKind) : Bool :=
  (List.range (ceilDiv (a % 4096 + n) 4096)).all fun i =>
    match s.translate seat ((a / 4096 + i) * 4096) 1 k with
    | some pl => decide (pl.target ≤ 1)
    | none => false

/-- The ID that a stream opened now gets. -/
def State.streamId (s : State) : Nat := pickFree s.fv 64 (s.med.aud.streams.map AudStream.id)

/-- The acceptance of an open. -/
def streamOpenAct (c : Cmd) : Act :=
  .ask fun s => acts [
    .eff (.med fun m => { m with aud := { m.aud with streams := m.aud.streams ++
      [{ id := s.streamId, seat := c.seat, cmd := c.id, words := c.words, moved := 0, queued := 0, fade := none, close := none, err := false }] } }),
    cmdUpd c.id fun c => { c with detail := s.streamId },
    .eff .tick]

/-- The ports of a stream. -/
def streamPorts (ws : List Word) : List Nat := rangeFrom (fw ws 1 16 8) (streamCh ws)

/-- The class in which new standing charges fail R91, if any. -/
def State.addRefused (s : State) (f : BellSet → List Charge) : Option Nat :=
  s.settings.findSome? fun b => s.standingRefused (fun _ => []) (fun _ => f b)

/-- AUD_STREAM without close. Stream IDs run from 0 to 63: with none free the open fails like a full resource (assumption 21). -/
def judgeStreamOpen (s : State) (c : Cmd) : Judged :=
  let ws := c.words
  let cap := fb ws 1 1
  check (streamWordsOk ws) rejParam
    (engineCheck s c
      (quotaCheck s c.seat [(1, 1)]
        (check (s.bufferOk c.seat (fw ws 2 0 64) (streamCh ws * 4 * fw ws 3 0 32) (if cap then .write else .read)) rejWindow
          (ownCheck ((streamPorts ws).all fun i => if cap then s.busOwner i = some c.seat else (s.streamOfInput i).isNone)
              (cap && (streamPorts ws).any s.busSec)
            (match s.addRefused fun b => streamCharge b ws c.seat with
              | some cls => rej rjBudget 2 cls
              | none =>
                check (decide (s.med.aud.streams.length < 64)) (rej rjBudget 2 7) (ok (.hold (streamOpenAct c))))))))

/-- The stream that a seat holds under an ID, not closing. -/
def State.stream? (s : State) (seat id : Nat) : Option AudStream :=
  s.med.aud.streams.find? fun x => x.id = id && x.seat = seat && x.close.isNone

/-- Change a stream. -/
def streamUpd (id : Nat) (f : AudStream → AudStream) : Act :=
  .eff (.med fun m => { m with aud := { m.aud with streams := mapIf (fun x => x.id = id) f m.aud.streams } })

/-- AUD_STREAM with close: the stream stops at the decision (R501). -/
def judgeStreamClose (s : State) (c : Cmd) : Judged :=
  let ws := c.words
  check (fw ws 1 5 3 = 0 && fw ws 1 24 40 = 0 && fw ws 3 32 32 = 0 && fw ws 4 0 64 = 0 && fw ws 5 0 64 = 0) rejParam
    (engineCheck s c
      (match s.stream? c.seat (fw ws 1 8 8) with
        | none => rejParam
        | some x => ok (.hold (acts [streamUpd x.id fun y => { y with close := some c.id }, cmdUpd c.id fun c => { c with detail := x.id }]))))

/-- AUD_STREAM. -/
def judgeStream (s : State) (c : Cmd) : Judged := if c.b 1 0 then judgeStreamClose s c else judgeStreamOpen s c

/-! ### AUD_EFFECT (R490 to R493) -/

/-- Lengths of an AUD_EFFECT. -/
def effLenOk (ws : List Word) : Bool :=
  if fw ws 1 17 2 = 0 && fb ws 1 19 then ws.length = 4 + 3 * fw ws 2 0 4 else ws.length = 4

/-- The coefficients b0, b1, b2, a1, a2 of a band. -/
def bandCoefs (ws : List Word) (j : Nat) : List Nat :=
  [fw ws (4 + 3 * j) 0 32, fw ws (4 + 3 * j) 32 32, fw ws (5 + 3 * j) 0 32, fw ws (5 + 3 * j) 32 32, fw ws (6 + 3 * j) 0 32]

/-- Whether a band is accepted: finite, a2 below 1, |a1| below 1 + a2 (R491). -/
def bandOk (ws : List Word) (j : Nat) : Bool :=
  fw ws (6 + 3 * j) 32 32 = 0
    && match (bandCoefs ws j).map f32.ofBits with
      | [.num _, .num _, .num _, .num a1, .num a2] => decide (a2 < 1) && decide (absR a1 < 1 + a2)
      | _ => false

/-- Word forms of an AUD_EFFECT (Table 14.7). -/
def effWordsOk (ws : List Word) : Bool :=
  let stage := fw ws 1 17 2
  stage != 3 && decide (1 ≤ fw ws 1 8 9) && decide (fw ws 1 0 8 + fw ws 1 8 9 ≤ 256) && fw ws 1 20 44 = 0
    && (!fb ws 1 19 || (fw ws 3 0 64 = 0
      && (if stage = 0 then decide (1 ≤ fw ws 2 0 4) && decide (fw ws 2 0 4 ≤ 10) && fw ws 2 4 60 = 0 && (List.range (fw ws 2 0 4)).all (bandOk ws)
          else if stage = 1 then decide (fw ws 2 0 14 ≤ 9600) && fw ws 2 14 50 = 0
          else fw ws 2 42 22 = 0 && decide (10 ≤ fw ws 2 32 10) && decide (fw ws 2 32 10 ≤ 1000)
            && (match f32.ofBits (fw ws 2 0 32) with | .num t => decide (1 / 1000 ≤ t) && decide (t ≤ 1) | _ => false))))

/-- Enabled stages after a list of effects. -/
def State.stageSum (s : State) (effs : List (List Word)) : Nat := sumOn (s.stagesWith effs) Prod.snd

/-- AUD_EFFECT. -/
def judgeEffect (s : State) (c : Cmd) : Judged :=
  let ws := c.words
  let effs := s.med.aud.effects.map Prod.snd
  let more := s.stageSum (effs ++ [ws]) - s.stageSum effs
  check (effLenOk ws) rejLength
    (check (effWordsOk ws) rejParam
      (engineCheck s c
        (ownCheck ((effBuses ws).all fun b => s.busOwner b = some c.seat) ((effBuses ws).any s.busSec)
          (match s.addRefused fun _ => [{ cls := 7, unit := 0, n := more }] with
            | some cls => rej rjBudget 2 cls
            | none => ok (.hold (.eff (.med fun m => { m with aud := { m.aud with effects := m.aud.effects ++ [(c.id, ws)] } })))))))

/-! ### TCH_CONFIG (R510 to R515) -/

/-- A touch port after reset. -/
def tchNone (_ : Nat) : Tch :=
  { words := [], panel := [], seat := none, pend := [], test := none, base := [], drift := [], neg := [], contacts := [], raw := [], keys := 0, busy := 0,
    forced := 0, fresh := false, seq := 0, bad := 0, scan := false, noisy := false, testScan := false, approach := false, woke := false,
    failBell := 0, sliders := 0 }
/-- Touch port `n`. -/
def State.tch (s : State) (n : Nat) : Tch := mapGet tchNone n s.med.tch
/-- Change a touch port. -/
def tchUpd (n : Nat) (f : Tch → Tch) : Act :=
  .ask fun s => .eff (.med fun m => { m with tch := mapPut tchNone n (f (s.tch n)) m.tch })

/-- Port of a TCH_CONFIG. -/
def tcPort (ws : List Word) : Nat := fw ws 1 0 3
/-- Op of a TCH_CONFIG: 0 APPLY, 1 SELFTEST, 2 RECALIBRATE, 3 DISABLE. -/
def tcOp (ws : List Word) : Nat := fw ws 1 3 2

/-- Rows of a panel block. -/
def pnRows (p : List Word) : Nat := fw p 0 0 8
/-- Columns. -/
def pnCols (p : List Word) : Nat := fw p 0 8 8
/-- Self channels. -/
def pnSelf (p : List Word) : Nat := fw p 0 16 6

/-- Word forms of a TCH_CONFIG (Table 15.4). -/
def tcWordsOk (ws : List Word) : Bool :=
  fw ws 1 5 59 = 0
    && match tcOp ws with
      | 0 => fw ws 2 9 23 = 0 && fw ws 3 43 21 = 0 && decide (20 ≤ fw ws 3 32 11) && decide (fw ws 3 32 11 ≤ 2000)
          && decide (fw ws 4 0 10 ≤ 1000) && decide (10 ≤ fw ws 4 10 10) && decide (fw ws 4 10 10 ≤ 1000) && fw ws 4 21 43 = 0
          && fw ws 5 0 6 = 0 && fw ws 6 0 8 = 0 && decide (2 ≤ fw ws 7 0 4) && decide (fw ws 7 0 4 ≤ 8) && fw ws 7 4 60 = 0
      | 1 => fw ws 2 32 32 = 0 && fw ws 3 0 3 = 0
      | _ => fw ws 2 0 64 = 0 && fw ws 3 0 64 = 0

/-- The words of a panel block between two indices are 0. -/
def zeroWords (p : List Word) (a n : Nat) : Bool := (rangeFrom a n).all fun i => fw p i 0 64 = 0

/-- Whether the numbers of a panel block keep Table 15.5. -/
def panelOk (p : List Word) : Bool :=
  decide (1 ≤ pnRows p) && decide (pnRows p ≤ 128) && decide (1 ≤ pnCols p) && decide (pnCols p ≤ 128) && decide (pnRows p * pnCols p ≤ 4096)
    && decide (pnSelf p ≤ 32) && fw p 0 22 42 = 0
    && decide (1 ≤ fw p 1 16 16) && decide (fw p 1 16 16 ≤ fw p 1 0 16)
    && decide (1 ≤ fw p 2 0 16) && decide (1 ≤ fw p 2 16 10) && decide (fw p 2 16 10 ≤ 600) && fw p 2 26 38 = 0 && zeroWords p 3 1
    && ((List.range 4).all fun k =>
      fw p (4 + k) 10 54 = 0
        && (!fb p (4 + k) 9 || (decide (3 ≤ fw p (4 + k) 5 4) && decide (fw p (4 + k) 5 4 ≤ 8) && decide (fw p (4 + k) 0 5 + fw p (4 + k) 5 4 ≤ pnSelf p))))
    && ((List.range 4).all fun g =>
      fw p (8 + g) 7 1 = 0 && fw p (8 + g) 15 1 = 0 && fw p (8 + g) 23 1 = 0 && fw p (8 + g) 32 32 = 0
        && (!fb p (8 + g) 31 || (decide (fw p (8 + g) 0 7 ≤ fw p (8 + g) 8 7) && decide (fw p (8 + g) 8 7 < pnRows p)
          && decide (fw p (8 + g) 16 7 ≤ fw p (8 + g) 24 7) && decide (fw p (8 + g) 24 7 < pnCols p))))
    && fw p 12 16 48 = 0 && zeroWords p 13 3
    && (List.range 64).all fun z => fw p (16 + z) 57 2 != 3 && fw p (16 + z) 48 16 / 2 ^ 11 = 0

/-- The channels that the zones of a panel block name. -/
def panelChannels (p : List Word) : List Nat :=
  (List.range 64).filterMap fun z => if fw p (16 + z) 57 2 = 0 then none else some (fw p (16 + z) 54 3)

/-- Divider of a port's link clock (Table 15.6). -/
def State.linkDiv (s : State) (n : Nat) : Nat := max 24 (min 1200 (s.cfld (Reg.tchLink n) 0 11))

/-- The worst-case scan time in 1/1200 µs (R514). -/
def State.scanTime (s : State) (n : Nat) (ws p : List Word) : Nat :=
  (fw ws 3 32 11 + 2) * 1200 + (110 + 4 * (pnRows p * pnCols p + pnSelf p)) * s.linkDiv n

/-- The least spacing of the set bits of a scan mask in periods, over bells taken one in `div`. -/
def maskSpacing (mask div : Nat) : Nat :=
  let bs := bitsOf 32 mask
  let gaps := (bs.zip (bs.drop 1)).map fun x => x.2 - x.1
  minOf (gaps ++ [bs.headD 0 + 32 * div - bs.getLastD 0])

/-- The conditions of Table 15.7 against the committed bell rate and head timing. -/
def State.scheduleOk (s : State) (n : Nat) (ws p : List Word) : Bool :=
  let b := s.tts.cur
  let t := s.scanTime n ws p
  let div := fw ws 2 6 2 + 1
  if fw ws 2 0 1 = 0 then
    let mask := fw ws 2 32 32
    mask != 0 && decide (popCount 32 mask * b.num ≤ 480 * b.den * div)
      && decide (t * b.num * 32 ≤ maskSpacing mask div * 1200000000 * b.den)
      && (fw ws 3 0 32 = 0 || decide (fw ws 3 32 11 * b.num * 32 ≤ 1000000 * b.den))
  else
    let h := s.head (fw ws 2 1 5)
    decide (fw ws 3 32 11 * b.num * h.vt ≤ (h.vt - h.ht) * h.k * 1000000 * b.den)
      && decide (t * b.num ≤ h.k * 1200000000 * b.den)

/-- The acceptance of an op that applies at the next edge. -/
def tchPend (c : Cmd) (panel : List Word) : Act :=
  tchUpd (tcPort c.words) fun t => { t with pend := t.pend ++ [(some c.id, c.words, panel)] }

/-- TCH_CONFIG with op APPLY. -/
def judgeApply (s : State) (c : Cmd) (h : HostAns) : Judged :=
  let ws := c.words
  readThen s c.seat (fw ws 5 0 64) 640 h fun bs =>
    let p := bytesWords bs
    check (panelOk p && ((panelChannels p).all fun ch => s.ownsHap c.seat ch && !s.unitSec (97 + ch)) && s.scheduleOk (tcPort ws) ws p) rejParam
      (check (s.areaOk c.seat (fw ws 6 0 64) (256 * 2 ^ fw ws 7 0 4) .write) rejWindow (ok (.hold (tchPend c p))))

/-- TCH_CONFIG. -/
def judgeTch (s : State) (c : Cmd) (h : HostAns) : Judged :=
  let ws := c.words
  let n := tcPort ws
  check (ws.length = if tcOp ws = 0 then 8 else 4) rejLength
    (check (tcWordsOk ws) rejParam
      (engineCheck s c
        (ownCheck (s.ownsTch c.seat n) (s.unitSec (89 + n))
          (match tcOp ws with
            | 0 => judgeApply s c h
            | 1 =>
              check (s.extentOk c.seat (fw ws 3 0 64) (2 * (pnCols (s.tch n).panel + pnSelf (s.tch n).panel)) .write) rejWindow
                (ok (.hold (tchUpd n fun t => { t with pend := t.pend ++ [(some c.id, ws, [])] })))
            | _ => ok (.hold (tchPend c []))))))

/-! ### HAP_EFFECT_LOAD and HAP_PLAY (R525 to R527, R99) -/

/-- Channel of a haptic packet. -/
def hpCh (ws : List Word) : Nat := fw ws 1 0 3
/-- Slot of a haptic packet. -/
def hpSlot (ws : List Word) : Nat := fw ws 1 8 6

/-- Encodings of an effect descriptor (Table 15.10). -/
def descOk (e : List Word) : Bool :=
  decide (1600 ≤ fw e 0 0 16) && decide (fw e 0 0 16 ≤ 6400) && decide (1 ≤ fw e 0 16 8) && decide (1 ≤ fw e 1 0 16) && decide (fw e 1 0 16 ≤ 2000)
    && decide (fw e 1 16 10 ≤ 1000) && fw e 1 28 36 = 0 && fw e 2 16 48 = 0 && fw e 3 0 64 = 0

/-- The effect in a slot of a channel; [] where the slot is empty. -/
def State.hapEffect (s : State) (ch slot : Nat) : List Word := mapGet (fun _ => []) slot (s.hap ch).effects

/-- Samples of the first half-cycle of an effect at a frequency in 1/16 Hz (R528). -/
def halfCycle (f : Nat) : Nat := if f = 0 then 480 else max 120 (min 480 (roundNear (768000 / (f : Rat))).toNat)

/-- Longest half-cycle of an effect. -/
def longHalf (e : List Word) : Nat := if fb e 1 26 || fb e 1 27 then 480 else halfCycle (fw e 0 0 16)

/-- Frames of the longest course of an effect's drive and braking. -/
def effectFrames (e : List Word) : Nat :=
  if e.isEmpty then 0
  else min (fw e 1 0 16 * 96) (fw e 0 16 8 * longHalf e) + min 768 (fw e 0 24 8 * longHalf e)

/-- Frames of a channel's longest effect that a zone triggers (R99). -/
def State.zoneFrames (s : State) (ch : Nat) : Nat :=
  ((s.med.tch.map fun x => ((List.range 64).filterMap fun z =>
    if fw x.2.panel (16 + z) 57 2 != 0 && fw x.2.panel (16 + z) 54 3 = ch then some (effectFrames (s.hapEffect ch (fw x.2.panel (16 + z) 48 6)))
    else none)).flatten).foldl max 0

/-- Periods that frames of the sample clock take, rounded up. -/
def State.framePeriods (s : State) (n : Nat) : Nat := ceilDiv (n * s.tts.cur.num * 32) (96000 * s.tts.cur.den)

/-- HAP_EFFECT_LOAD: the descriptor read is kept with the command. -/
def judgeHapLoad (s : State) (c : Cmd) (h : HostAns) : Judged :=
  let ws := c.words
  let ch := hpCh ws
  let n := fw ws 3 0 32
  check (fw ws 1 3 5 = 0 && fw ws 1 14 50 = 0 && (n = 0 || n = 32) && fw ws 3 32 32 = 0 && fw ws 2 0 3 = 0) rejParam
    (engineCheck s c
      (ownCheck (s.ownsHap c.seat ch) (s.unitSec (97 + ch))
        (if n = 0 then ok (.book [] 1 none .skip)
         else
          let need := if (s.hapEffect ch (hpSlot ws)).isEmpty && !(s.cfe.cmds.any fun x =>
              s.loadsEmpty c.seat x && hpCh x.words = ch && hpSlot x.words = hpSlot ws) then [(4, 1)] else []
          readThen s c.seat (fw ws 2 0 64) 32 h fun bs =>
            let book := ok (.book [(6, 0, 1)] 1 none (cmdUpd c.id fun c => { c with res := (bytesWords bs).map BitVec.toNat }))
            check (descOk (bytesWords bs)) rejParam (if need.isEmpty then book else quotaCheck s c.seat need book))))

/-- HAP_PLAY. -/
def judgePlay (s : State) (c : Cmd) : Judged :=
  let ws := c.words
  let ch := hpCh ws
  let zone := s.zoneFrames ch
  let e := s.hapEffect ch (hpSlot ws)
  check (fw ws 1 3 5 = 0 && fw ws 1 14 50 = 0) rejParam
    (engineCheck s c
      (ownCheck (s.ownsHap c.seat ch) (s.unitSec (97 + ch))
        (check (s.cfld (Reg.hapCfg ch) 0 1 = 1) rejParam
          (ok (.book [(8, 0, s.framePeriods (zone + fw e 1 0 16 * 96))] (max 1 (s.framePeriods zone)) none .skip)))))

end Sys2Proof.Machine
end

