-- ==== Sys2Proof/Machine/Admission.lean ====
section
/-!
DEFINITION. Machine/Admission.lean: decisions (R70 to R75, R100 to R104, R281 to R283, R581, R642, R643) and the meanings of the
commands that act at their decision.
-/

namespace Sys2Proof.Machine

/-! ### What a decision comes to -/

/-- How a command is judged, by opcode. -/
def judge (s : State) (c : Cmd) (h : HostAns) : Judged :=
  match c.op with
  | 0x0100 => judgeNop
  | 0x0101 => judgeQueryCaps s c
  | 0x0102 => judgeSetBudget s c
  | 0x0103 => judgeSetQuota s c
  | 0x0110 => judgeCommit s c
  | 0x0200 => judgeDma s c
  | 0x0201 => judgeDma s c
  | 0x0210 => judgeChk s c
  | 0x0300 => judgeProg s c h
  | 0x0301 => judgePass s c h
  | 0x0302 => judgeStray
  | 0x0303 => judgeDispatch s c
  | 0x0304 => judgeStray
  | 0x0400 => judgeCanvas s c h
  | 0x0401 => judgeLayer s c
  | 0x0402 => judgeFlip s c
  | 0x0403 => judgeFlip s c
  | 0x0500 => judgeSession s c h
  | 0x0501 => judgeDecode s c h
  | 0x0502 => judgeEncode s c
  | 0x0503 => judgeKey s c
  | 0x0600 => judgeRoute s c
  | 0x0601 => judgeStream s c
  | 0x0602 => judgeEffect s c
  | 0x0700 => judgeTch s c h
  | 0x0710 => judgeHapLoad s c h
  | 0x0711 => judgePlay s c
  | 0x0800 => judgeFence c
  | 0x0801 => judgeSignal s c
  | 0x0802 => judgeWait s c
  | 0x0900 => judgeQueryStatus s c
  | _ => judgeQueryBudget s c

/-- A rejection, with what it does to the held chain of its ring (R302). -/
def rejectAct (c : Cmd) (r : Reject) : Act :=
  acts [cmdReject c r, actIf (c.op = 0x0400 || c.op = 0x0401) (chainSquash c.ringKey)]

/-- Acceptance: what it does, the status word, the reply ACCEPTED with its word 1 (R133, R140, Table 3.7). -/
def acceptAct (c : Cmd) (word1 : Nat) (act : Act) : Act :=
  acts [cmdUpd c.id fun c => { c with stage := .accepted, reserved := 1 }, act, statusPut c.id stAccepted,
    .ask fun s => replyPut c.seat c.ring (replyWord stAccepted c.engine c.tag s.tts.bell) word1 c.mute]

/-- Whether a bell change is pending (R59). -/
def State.bellChanging (s : State) : Bool := s.bitAt Reg.ttsChange 1

/-- Whether a block is clocked in SLEEP (Table 17.7). -/
def State.sleepClocked (s : State) (b : Nat) : Bool :=
  match gateRow b with
  | some (_, .forcedOn, _) => true
  | some (_, .forcedOff, _) => false
  | some (_, .enable _, _) => s.bitAt (Reg.clkGate b) 1
  | none => true

/-- The last bell that a command may book because of a SLEEP request (R581 step 1), if any. -/
def State.sleepLast (s : State) (c : Cmd) : Option Nat :=
  let st := s.fld Reg.pwrStatus 0 3
  if decide (1 ≤ st) && decide (st ≤ 3) && !s.sleepClocked (gateOfEngine c.engine) then some (s.pwr.sleepReq + 1) else none

/-- The rejection of a plan that leaves part of the cost (R102). -/
def State.shortReject (s : State) (p : Plan) : Reject :=
  match p.by_ with
  | .budget k => ⟨rjBudget, 1, k, p.last⟩
  | .capacity k => ⟨rjBudget, 2, k, p.last⟩
  | _ => ⟨rjDeadline, 1, 0xFF, s.firstBell⟩

/-- The rejection of shares that a timetable, the DMA channels or a SLEEP request do not admit (R74, R283, R581). -/
def State.shareReject (s : State) (c : Cmd) (shares : List Share) : Option Reject :=
  let bells := (shares.map Share.bell).eraseDups
  let isDma (id : Nat) : Bool := match s.cmd? id with | some x => x.op = 0x0200 || x.op = 0x0201 | none => false
  match (match s.sleepLast c with | some last => shares.find? fun (x : Share) => decide (last < x.bell) | none => none) with
  | some x => some ⟨rjBudget, 2, costClass x.cls, x.bell⟩
  | none =>
    match bells.find? fun b => decide (16384 < (s.bookedCmds b).length + 1) with
    | some b => some ⟨rjBudget, 3, 0xFF, b⟩
    | none =>
      if c.op != 0x0200 && c.op != 0x0201 then none
      else (bells.find? fun b => decide (s.normalCount 147 64 b < ((s.bookedCmds b).filter isDma).length + 1)).map fun b => ⟨rjBudget, 3, 4, b⟩

/-- Enter shares into the ledger and accept. A command without cost takes an entry in the first bookable bell. -/
def bookAct (c : Cmd) (shares : List Share) (latest : Nat) (act : Act) : Act :=
  .ask fun s =>
    match s.shareReject c shares with
    | some r => rejectAct c r
    | none =>
      let bells := ((shares.filter fun x => x.n != 0).map Share.bell).eraseDups
      acceptAct c (c.dl % 2 ^ 32 + bells.length * 2 ^ 32) (acts [
        .eff (.adm fun a => { a with shares := a.shares ++ shares }),
        cmdUpd c.id fun c => { c with latest := latest }, act])

/-- Decide a deadline command of a cost (R101, R102). -/
def planAct (c : Cmd) (cost : Cost) (dur : Nat) (cap : Option (Nat × Nat)) (act : Act) : Act :=
  .ask fun s =>
    let first := s.firstBell
    let latest := 32 * (c.dl + 1) - dur
    if s.bellChanging then rejectAct c ⟨rjDeadline, 2, 0xFF, first⟩
    else if c.dl < first || latest < 32 * first then rejectAct c ⟨rjDeadline, 1, 0xFF, first⟩
    else if cost.all fun x => x.2.2 = 0 then
      bookAct c [{ cmd := c.id, seat := c.seat, bell := first, cls := 0, unit := 0, n := 0 }] latest act
    else
      let p := s.book c.id c.seat cap (latest / 32 + 1 - first) first cost { shares := [], left := cost, by_ := .none, last := first }
      if p.left.all fun x => x.2.2 = 0 then bookAct c p.shares latest act else rejectAct c (s.shortReject p)

/-- Carry out a verdict. -/
def verdictAct (c : Cmd) : Verdict → Act
  | .reject r => rejectAct c r
  | .single detail act => acts [act, cmdSingle c detail]
  | .later act => acts [cmdUpd c.id fun c => { c with stage := .accepted }, act]
  | .hold act => acceptAct c 0 act
  | .book cost dur cap act => if c.background then acceptAct c 0 act else planAct c cost dur cap act
  | .fixed shares latest act =>
    .ask fun s =>
      if s.bellChanging then rejectAct c ⟨rjDeadline, 2, 0xFF, s.firstBell⟩
      else if c.dl < s.firstBell || latest < 32 * s.firstBell then rejectAct c ⟨rjDeadline, 1, 0xFF, s.firstBell⟩
      else bookAct c shares latest act

/-! ### What follows once nothing holds a command (R406, R450, R647) -/

/-- Detail of a session's open and close. -/
def sessDetail (x : Session) : Nat := x.id + x.pipe * 2 ^ 8

/-- Whether a command works for a session. -/
def Cmd.usesSession (c : Cmd) (x : Session) : Bool :=
  (c.op = 0x0501 || c.op = 0x0502) && some c.seat = x.seat && c.f 1 0 8 = x.id && c.taken && !c.completed

/-- Whether a command uses a program. -/
def Cmd.usesProg (c : Cmd) (p : Prog) : Bool :=
  c.seat = p.seat && c.taken && !c.completed
    && ((c.op = 0x0303 && c.f 1 16 16 = p.id) || (c.op = 0x0301 && c.draws.any fun d => fw d 1 0 16 = p.id))

/-- A session goes: its ring is released, its ID is free. -/
def sessDrop (id : Nat) : Act := .eff (.vid fun v => { v with sess := v.sess.filter fun x => x.id != id })

/-- A session's open ends when nothing holds it; its close ends when the session's commands have completed too. -/
def sessSettle (x : Session) : Act :=
  acts [
    actOpt x.opening fun id => onCmd id fun s c => actIf (s.free c) (acts [
      sessUpd x.id fun y => { y with opening := none }, cmdEnd id fun c => { c with detail := sessDetail x }]),
    actOpt x.closing fun id => onCmd id fun s c => actIf (s.free c && s.cfe.cmds.all fun y => !y.usesSession x) (acts [
      sessDrop x.id, cmdEnd id fun c => { c with detail := sessDetail x }, overUpdate c.seat])]

/-- A program goes when its unload has started and no accepted command uses it. -/
def progSettle (p : Prog) : Act :=
  actOpt p.unload fun id => onCmd id fun s c => actIf (c.stage = .started && s.cfe.cmds.all fun y => !y.usesProg p) (acts [
    .eff (.vid fun v => { v with progs := v.progs.filter fun x => !(x.seat = p.seat && x.id = p.id) }),
    cmdEnd id fun c => { c with detail := p.id + p.models.length * 2 ^ 16 }, rndPools, overUpdate p.seat])

/-- Everything that settles without an event of its own. -/
def settleAll : Act :=
  acts [.ask fun s => each s.vid.sess sessSettle, .ask fun s => each s.vid.progs progSettle]

/-- Resolve all dependencies, repeatedly until nothing more changes (R168): every pass that changes something ends or starts one of the
outstanding commands. -/
def resolveAll : Act := .ask fun s => times (2 * s.cfe.cmds.length + 1) (acts [resolveOnce, settleAll])

/-! ### Decisions -/

/-- Update what a decision changes in registers: capacities, the queue, the seat's quota flag. -/
def afterDecision (seat : Nat) : Act := acts [settleAll, capRegs, queueReg, overUpdate seat]

/-- Decide one command. A decision counts into Table 16.4. -/
def decideCmd (c : Cmd) (h : HostAns) : Act :=
  .ask fun s =>
    let j := judge s c h
    acts [.eff (.adm fun a => { a with decisions := a.decisions + 1 }), j.reads, verdictAct c j.v, afterDecision c.seat]

/-- The command whose decision comes next: the one received first whose window is open (R72, R100). -/
def State.nextDecision (s : State) : Option Cmd := s.cfe.cmds.find? fun c => c.stage = .received

/-- A decision of the next command, if it is one that `p` names, while the management core decides. -/
def decideOp (p : Cmd → Bool) (h : HostAns) : Act :=
  .ask fun s => actOpt s.nextDecision fun c => actIf (s.adm.mgtUp && decide (c.age < 64) && p c) (decideCmd c h)

/-- ADMISSION_DECISION (R101): whatever command is next. -/
def execAdmissionDecision (host : HostAns) (s : State) : Host.Outcome State Fault Refusal := live true (decideOp (fun _ => true) host) s

/-- The commands whose decision window has closed. -/
def State.overdue (s : State) : List Cmd := s.cfe.cmds.filter fun c => c.stage = .received && decide (64 ≤ c.age)

/-- DECISION_TIMEOUT (R72): every command whose window has closed is rejected with REJECT_BUSY and counted (R88). -/
def execDecisionTimeout (s : State) : Host.Outcome State Fault Refusal :=
  live true (.ask fun s => acts [
    each s.overdue fun c => acts [rejectAct c ⟨rjBusy, 1, 0xFF, 0⟩,
      .ask fun s => setFld Reg.admBusyCount 0 32 (satAdd (s.fld Reg.admBusyCount 0 32) 1 0xFFFFFFFF)],
    queueReg]) s

/-- A decision of the next command where it has an opcode. -/
def decideOpcode (op : Nat) : Act := decideOp (fun c => c.op = op) .ok

/-! ### The commands that act at their decision -/

/-- NOP (R143). -/
def execNop (s : State) : Host.Outcome State Fault Refusal := live true (decideOpcode 0x0100) s
/-- QUERY_CAPS (R143, R622). -/
def execQueryCaps (s : State) : Host.Outcome State Fault Refusal := live true (decideOpcode 0x0101) s
/-- SET_BUDGET (R92, R95). -/
def execSetBudget (s : State) : Host.Outcome State Fault Refusal := live true (decideOpcode 0x0102) s
/-- SET_QUOTA (R197, R199). -/
def execSetQuota (s : State) : Host.Outcome State Fault Refusal := live true (decideOpcode 0x0103) s
/-- COMMIT (R9): accepted, it waits for the commit edge. -/
def execCommit (s : State) : Host.Outcome State Fault Refusal := live true (decideOpcode 0x0110) s
/-- CHK_ATTACH with detach clear (R559, R560). -/
def execChkAttach (s : State) : Host.Outcome State Fault Refusal := live true (decideOp (fun c => c.op = 0x0210 && !c.chkDetach) .ok) s
/-- CHK_ATTACH with detach set. -/
def execChkDetach (s : State) : Host.Outcome State Fault Refusal := live true (decideOp (fun c => c.op = 0x0210 && c.chkDetach) .ok) s
/-- RND_PROGRAM_LOAD with bytes (R402). -/
def execRndProgramLoad (s : State) : Host.Outcome State Fault Refusal := live true (decideOp (fun c => c.op = 0x0300 && c.f 2 0 32 != 0) .ok) s
/-- RND_PROGRAM_LOAD with byte count 0 (R406). -/
def execRndProgramUnload (s : State) : Host.Outcome State Fault Refusal := live true (decideOp (fun c => c.op = 0x0300 && c.f 2 0 32 = 0) .ok) s
/-- CMP_CANVAS_SET (R293, R294). -/
def execCmpCanvasSet (s : State) : Host.Outcome State Fault Refusal := live true (decideOpcode 0x0400) s
/-- CMP_LAYER_SET (R301 to R304). -/
def execCmpLayerSet (s : State) : Host.Outcome State Fault Refusal := live true (decideOpcode 0x0401) s
/-- CMP_FLIP (R325). -/
def execCmpFlip (s : State) : Host.Outcome State Fault Refusal := live true (decideOpcode 0x0402) s
/-- CMP_FLIP_GROUP (R325). -/
def execCmpFlipGroup (s : State) : Host.Outcome State Fault Refusal := live true (decideOpcode 0x0403) s
/-- VDC_SESSION_OPEN (R447 to R449). -/
def execVdcSessionOpen (s : State) : Host.Outcome State Fault Refusal := live true (decideOp (fun c => c.op = 0x0500 && !c.b 1 0) .ok) s
/-- VDC_SESSION_OPEN with close set (R450). -/
def execVdcSessionClose (s : State) : Host.Outcome State Fault Refusal := live true (decideOp (fun c => c.op = 0x0500 && c.b 1 0) .ok) s
/-- VDC_KEY_REQUEST (R470). -/
def execVdcKeyRequest (s : State) : Host.Outcome State Fault Refusal := live true (decideOpcode 0x0503) s
/-- AUD_STREAM, open (R499). -/
def execAudStreamOpen (s : State) : Host.Outcome State Fault Refusal := live true (decideOp (fun c => c.op = 0x0601 && !c.b 1 0) .ok) s
/-- AUD_STREAM, close (R501). -/
def execAudStreamClose (s : State) : Host.Outcome State Fault Refusal := live true (decideOp (fun c => c.op = 0x0601 && c.b 1 0) .ok) s
/-- AUD_EFFECT (R490 to R493). -/
def execAudEffect (s : State) : Host.Outcome State Fault Refusal := live true (decideOpcode 0x0602) s
/-- A TCH_CONFIG of an op. -/
def decideTch (op : Nat) : Act := decideOp (fun c => c.op = 0x0700 && tcOp c.words = op) .ok
/-- TCH_CONFIG, APPLY (R510 to R515). -/
def execTchConfigApply (s : State) : Host.Outcome State Fault Refusal := live true (decideTch 0) s
/-- TCH_CONFIG, SELFTEST (R522). -/
def execTchConfigSelftest (s : State) : Host.Outcome State Fault Refusal := live true (decideTch 1) s
/-- TCH_CONFIG, RECALIBRATE (R520). -/
def execTchConfigRecalibrate (s : State) : Host.Outcome State Fault Refusal := live true (decideTch 2) s
/-- TCH_CONFIG, DISABLE (R512). -/
def execTchConfigDisable (s : State) : Host.Outcome State Fault Refusal := live true (decideTch 3) s
/-- QUERY_STATUS without by_tag (R143). -/
def execQueryStatus (s : State) : Host.Outcome State Fault Refusal := live true (decideOp (fun c => c.op = 0x0900 && !c.b 1 19) .ok) s
/-- QUERY_STATUS with by_tag (R646). -/
def execQueryStatusByTag (s : State) : Host.Outcome State Fault Refusal := live true (decideOp (fun c => c.op = 0x0900 && c.b 1 19) .ok) s
/-- QUERY_BUDGET (R143, R147). -/
def execQueryBudget (s : State) : Host.Outcome State Fault Refusal := live true (decideOpcode 0x0901) s

/-! ### The commands that act when they have started -/

/-- FENCE (R160): the test of its condition. -/
def execFence (cmd : Nat) (s : State) : Host.Outcome State Fault Refusal := live true (fenceTest cmd) s
/-- SIGNAL (R166): its counter write. -/
def execSignal (cmd : Nat) (s : State) : Host.Outcome State Fault Refusal :=
  live true (onCmd cmd fun _ c => actIf (c.op = 0x0801) (signalAct cmd)) s
/-- WAIT (R167): the test of its condition. -/
def execWait (cmd : Nat) (s : State) : Host.Outcome State Fault Refusal :=
  live true (onCmd cmd fun _ c => actIf (c.op = 0x0802) (waitTest cmd)) s

/-- The last reply of an ended command that has a single reply: its detail as it stands. -/
def cmdFinishAny (c : Cmd) : Act := acts [cmdFinish c, settleAll, queueReg, capRegs, overUpdate c.seat]

/-- The stamp of a pass that ends with DONE (R415). -/
def passStamp (c : Cmd) : Act :=
  .ask fun s => actOpt (s.vid.runs.find? fun r => r.cmd = some c.id) fun r =>
    acts [actIf (c.op = 0x0301 && c.finalStatus = stDone) (stampPut stRnd (some c.seat) (fw r.target 1 0 64) c.endBell false 0),
      .eff (.vid fun v => { v with runs := v.runs.filter fun x => x.cmd != some c.id })]

/-- COMMAND_COMPLETE (R134, R150): every write response of an ended command has returned, so its stamp, its final status word and its final
reply are written, and what it held is free. -/
def execCommandComplete (cmd : Nat) (s : State) : Host.Outcome State Fault Refusal :=
  live true (onCmd cmd fun _ c => actIf (c.stage = .ended && c.inflight = 0) (acts [
    passStamp c, cmdFinishAny c, rndPools])) s

end Sys2Proof.Machine
end

