-- ==== Sys2Proof/Machine/Real.lean ====
section
/-!
DEFINITION. Machine/Real.lean: the real functions that the colour path names (R311, R313): sine, logarithm, exponential, powers.
Numbers are integers in units of 2^-160, so a result is off by far less than the deviations that the rules allow.
-/

namespace Sys2Proof.Machine

/-- Fixed-point numbers: units of 2^-160. -/
abbrev Fix := Int

/-- The unit. -/
def fixOne : Fix := 2 ^ 160

/-- A rational as fixed point. -/
def fixOf (r : Rat) : Fix := (r * (fixOne : Rat)).floor

/-- Fixed point as a rational. -/
def fixRat (x : Fix) : Rat := (x : Rat) / (fixOne : Rat)

/-- Product. -/
def fixMul (a b : Fix) : Fix := a * b / fixOne

/-- Quotient; 0 where the divisor is 0. -/
def fixDiv (a b : Fix) : Fix := if b = 0 then 0 else a * fixOne / b

/-- Sum of a series: `n` terms, each got from the one before. -/
def fixSeries (next : Nat → Fix → Fix) : Nat → Nat → Fix → Fix
  | 0, _, _ => 0
  | n + 1, k, t => t + fixSeries next n (k + 1) (next k t)

/-- arctan of the reciprocal of `q`. -/
def fixArcInv (q : Int) : Fix :=
  (List.range 120).foldl (fun (a : Fix) (k : Nat) => a + (if k % 2 = 0 then 1 else -1) * (fixOne / q ^ (2 * k + 1) / ((2 * k + 1 : Nat) : Int))) 0

/-- π, by Machin's formula. -/
def fixPi : Fix := 4 * (4 * fixArcInv 5 - fixArcInv 239)

/-- sin x for |x| of a few units, by its series. -/
def fixSin (x : Fix) : Fix :=
  fixSeries (fun k t => -(fixMul (fixMul t x) x) / (((2 * k + 2) * (2 * k + 3) : Nat) : Int)) 60 0 x

/-- atanh z for |z| at most 1/3, by its series: `p` is the odd power of z. -/
def fixAtanh (z : Fix) : Fix :=
  let z2 := fixMul z z
  ((List.range 60).foldl (fun (a : Fix × Fix) k => (a.1 + a.2 / ((2 * k + 1 : Nat) : Int), fixMul a.2 z2)) (0, z)).1

/-- ln 2. -/
def fixLn2 : Fix := 2 * fixAtanh (fixOne / 3)

/-- ln x for x > 0. -/
def fixLn (x : Fix) : Fix :=
  let e : Int := (Nat.log2 x.toNat : Int) - 160
  let m := if 0 ≤ e then x / 2 ^ e.toNat else x * 2 ^ (-e).toNat
  e * fixLn2 + 2 * fixAtanh (fixDiv (m - fixOne) (m + fixOne))

/-- exp x. -/
def fixExp (x : Fix) : Fix :=
  let k := x / fixLn2
  let r := x - k * fixLn2
  let y := fixSeries (fun k t => fixMul t r / ((k + 1 : Nat) : Int)) 60 0 fixOne
  if 0 ≤ k then y * 2 ^ k.toNat else y / 2 ^ (-k).toNat

/-- x to the power y for x at least 0; 0 for x = 0. -/
def fixPow (x y : Fix) : Fix := if x ≤ 0 then 0 else fixExp (fixMul y (fixLn x))

/-! ### Results within a bound of an exact value -/

/-- The unit in the last place of binary16 at a number. -/
def ulp16 (r : Rat) : Rat := pow2 (max (if r = 0 then -14 else exponentOf (absR r)) (-14) - 10)

/-- A binary16 number within 2 units in the last place of an exact value (R312): which one is a free value of the function (`code`) and
its operands (`key`). -/
def near16 (code : Nat) (key : List Nat) (exact : Rat) : Rat :=
  let base := match f16.roundR exact with
    | .num r => r
    | .inf neg => if neg then -65504 else 65504
    | .nan => 0
  let d : Int := (Config.tfDeviation code key % 5 : Nat) - 2
  let x := base + (d : Rat) * ulp16 base
  match f16.roundR x with
  | .num r => if absR (r - exact) ≤ 2 * ulp16 exact then r else base
  | _ => base

end Sys2Proof.Machine
end

