-- ==== Sys2Proof/Machine/Gate.lean ====
section
/-!
DEFINITION. Machine/Gate.lean: who reaches a register, who may write it, and what a write does to its fields (R3 to R7,
R183, R185, R187, R224, R235, R239, R240, R291, R361, R439, R503, R538, R556, R615 to R621).
-/

namespace Sys2Proof.Machine

/-! ### Paths -/

/-- Whether a path is that of the secure world. -/
def isSecPath (p : Path) : Bool := p = .sec

/-- The paths whose writes are those of the management firmware (R617). -/
def isFirmware : Path → Bool
  | .mgt | .i3c | .jtag => true
  | _ => false

/-- The paths through the PCIe endpoint. -/
def isPcie : Path → Bool
  | .pf _ | .vf _ => true
  | _ => false

/-- Whether a path is the BAR0 of the supervisor seat's function (R185). -/
def State.supPath (s : State) : Path → Bool
  | .pf k => s.locked && decide (k = s.fld Reg.seatGlobalCtrl 0 2)
  | _ => false

/-- The read-only registers that every physical function reaches (Table 6.3). -/
def ttsView : List Nat := [Reg.ttsStatus, Reg.ttsLength, Reg.ttsCountLo, Reg.ttsCountHi, Reg.ttsPtmLo, Reg.ttsPtmHi]

/-- The CSR offset that an access through a path reaches, if any (R183, R621, R623). -/
def State.reach (s : State) (p : Path) (off : Nat) (write : Bool) : Option Nat :=
  match p with
  | .vf n =>
    if off < 0x1000 && decide (4 ≤ n) && decide (n < 512) && s.seatState n != 0 then some (0x800000 + n * 0x1000 + off) else none
  | .pf k =>
    if 4 ≤ k || 2 ^ 24 ≤ off then none
    else if decide (0x800000 + k * 0x1000 ≤ off) && decide (off < 0x801000 + k * 0x1000) then some off
    else if !s.locked then (if off < 0x10 then some off else none)
    else if s.supPath p then some off
    else if !write && ttsView.contains (off / 8 * 8) then some off
    else none
  | _ => if off < 2 ^ 24 then some off else none

/-! ### Who may write what -/

/-- What a write meets: it acts; it is ignored; it is ignored and logged (R239); its RWL fields are ignored and logged. -/
inductive Gate
  | pass | drop | log | locked
deriving DecidableEq, Repr

/-- Registers that only the supervisor seat's BAR0 writes. -/
def State.supGate (s : State) (p : Path) : Gate := if s.supPath p then .pass else .drop

/-- Registers that only the secure world writes; a write from the normal world is logged. -/
def secGate (p : Path) : Gate := if isSecPath p then .pass else .log

/-- Registers of an assignable unit (R361, R439, R494, R503): the supervisor seat for a normal unit, the secure world for a secure one;
writes from the other world are logged. -/
def State.unitGate (s : State) (p : Path) (u : Nat) : Gate :=
  if s.unitSec u then secGate p else if s.supPath p then .pass else if isSecPath p then .log else .drop

/-- A world lock: the RWL fields are held by one world (Table 7.8). -/
def lockGate (secure : Bool) (p : Path) : Gate := if isSecPath p = secure then .pass else .locked

/-- The shared blocks of Table 7.1 by station page, with the codec, whose page serves units of both worlds (assumption 22). -/
def sharedStation (b : Nat) : Bool :=
  b ≤ 6 || [32, 33, 137, 24, 160, 161, 162, 136, 15, 16, 17, 18].contains b || (decide (163 ≤ b) && decide (b ≤ 190))

/-- The world that holds the lock of a block's clock gating (Table 7.8); none for a fixed-normal block. -/
def State.gateLock (s : State) (b : Nat) : Option Bool :=
  match unitOfStation b with
  | some u => some (s.unitSec u)
  | none => if sharedStation b then some s.anySec else if b = 13 || b = 193 then some true else none

/-- The world that holds the lock of a station's reaction table and test_en (Table 7.8). -/
def State.stationLock (s : State) (i : Nat) : Bool :=
  match unitOfStation i with
  | some u => s.unitSec u
  | none => if sharedStation i then s.anySec else i = 13 || i = 193

/-- The assignable units that a PLL's domain clocks (Tables 1.3, 17.2). -/
def pllUnits : Nat → List Nat
  | 0 => rangeFrom 147 64
  | 1 => [72]
  | 2 => rangeFrom 123 24
  | 5 => rangeFrom 0 16
  | 6 => rangeFrom 16 16
  | 9 => rangeFrom 97 16
  | _ => []

/-- Index of a region of a guard and the guard, by offset. -/
def grdIndex (off : Nat) : Nat × Nat := ((off - 0x420000) / 0x1000, (off - 0x420000) % 0x1000 / 0x20)

/-- First delegated region of a guard: values above 64 act as 64. -/
def State.delegateFirst (s : State) (n : Nat) : Nat := min 64 (s.fld (Reg.grdCtrl n) 0 7)

/-- The gate of a register, by its offset; `w` holds the written word with the bits that the access does not cover left at 0 in `m`. -/
def State.gate (s : State) (p : Path) (off : Nat) (w m : Word) : Gate :=
  if off < 0x20000 then .pass
  else if off < 0x30000 then s.supGate p                                                    -- ADM (R87)
  else if off < 0x40000 then .pass                                                          -- TTS
  else if off = Reg.seatGlobalCtrl then (if s.locked then .drop else .pass)                 -- R185
  else if off < 0x50000 then s.supGate p                                                    -- SEAT (R179, R188, R208)
  else if off < 0x60000 then secGate p                                                      -- SEC (R224)
  else if off < 0x70000 then (if off = Reg.hmnCfg 1 || off = Reg.hmnKick 1 then secGate p else if isSecPath p then .log else .pass)
  else if off = Reg.clkHosc then lockGate true p                                            -- R574
  else if off < 0x70100 then .pass
  else if off < 0x70800 then
    (if (pllUnits ((off - 0x70100) / 0x10)).any s.unitSec then lockGate true p else .pass)  -- R240
  else if off < 0x80000 then
    (match s.gateLock ((off - 0x70800) / 8) with | some b => lockGate b p | none => .pass)
  else if off < 0xA0000 then (if s.supPath p || isFirmware p then .pass else .drop)           -- R580, R589
  else if off < 0xB0000 then (if isSecPath p then .log else .pass)                               -- FLT (R547)
  else if decide (0x100200 ≤ off) && decide (off < 0x100228) then (if isSecPath p then .pass else .drop)   -- R432
  else if off < 0x220000 then s.supGate p                                                   -- RND, CMP (R300, R395, R396, R423)
  else if off < 0x240000 then s.unitGate p 72                                               -- PRF (R349)
  else if off < 0x250000 then s.unitGate p ((off - 0x240000) / 0x100)                       -- HD (R361)
  else if off < 0x260000 then s.unitGate p (32 + (off - 0x250000) / 0x400)                  -- CAP (R439)
  else if off < 0x300000 then                                                               -- CHK (R556)
    (let u := (off - 0x260000) / 0x20
     if s.unitSec (40 + u) then (if isSecPath p then .pass else .drop)
     else if s.bitAt (Reg.chkCfg u) 11 then .drop else s.supGate p)
  else if off < 0x310000 then (if isSecPath p then .pass else .drop)                             -- VDC (R472)
  else if off = Reg.audSecRoute then secGate p                                              -- R486
  else if off < 0x310100 then s.supGate p                                                   -- AUD_CLK, AUD_DP_RATE96 (R474)
  else if off < 0x310200 then s.unitGate p (105 + (off - 0x310100) / 0x20)                  -- TDM (R494)
  else if off < 0x310400 then s.unitGate p (73 + (off - 0x310200) / 0x20)                   -- AUD_DPTn_SiMAP
  else if off < 0x320000 then .pass                                                         -- AUD_BUSb_OWNER by field (R480)
  else if off < 0x330000 then s.unitGate p (89 + (off - 0x320000) / 0x100)                  -- TCH (R503)
  else if off < 0x400000 then s.unitGate p (97 + (off - 0x330000) / 0x100)                  -- HAP (R503)
  else if off < 0x420000 then .pass                                                         -- STO, DMC
  else if off < 0x440000 then                                                               -- GRD (R235)
    (let n := (grdIndex off).1
     let m' := (grdIndex off).2
     if off % 0x1000 < 0x800 then
       (if isSecPath p then .pass
        else if m' < s.delegateFirst n then .log
        else if off = Reg.grdAttr n m' && wBits m 4 2 != 0 && (wBits w 4 2 = 1 || wBits w 4 2 = 2) then .log else .pass)
     else .pass)
  else if off < 0x500000 then                                                               -- DMA (R291)
    (if s.unitSec (147 + (off - 0x440000) / 0x40) then secGate p else .drop)
  else if off < 0x600000 then s.unitGate p (73 + (off - 0x510000) / 0x1000)                 -- DPT (R361)
  else if off < 0x610000 then                                                               -- stations (R240, R538)
    (let i := (off - 0x600000) / 0x100
     if off % 0x100 < 0x18 then .pass
     else if decide (0x40 ≤ off % 0x100) && s.bitAt (Reg.fsCtrl i) 1 then .log
     else if off % 0x100 = 0x20 then .pass
     else if s.stationLock i then lockGate true p
     else if isSecPath p then .locked
     else if s.supPath p || isFirmware p then .pass else .drop)
  else .pass                                                                                 -- seat pages

/-! ### What a write does to the fields of a register (R7) -/

/-- The bits of a register whose fields have an access code. -/
def accBits (f : RegFam) (q : RegAcc → Bool) : Word := BitVec.ofNat 64 (famMask q f)

/-- The covered bits of an access of 4 or 8 bytes. -/
def coverMask (off size : Nat) : Word := BitVec.ofNat 64 (if size = 8 then 2 ^ 64 - 1 else (2 ^ 32 - 1) * 2 ^ (8 * (off % 8)))

/-- The written data, in the place of the slot that it covers. -/
def coverWord (off size : Nat) (v : Word) : Word :=
  if size = 8 then v else BitVec.ofNat 64 ((v.toNat % 2 ^ 32) * 2 ^ (8 * (off % 8)))

/-- The value of a register after a write of `w` to the bits of `m`. -/
def writeWord (f : RegFam) (lock : Bool) (old w m : Word) : Word :=
  let rep := accBits f (fun a => a = .rw || a = .rwc || (a = .rwl && !lock)) &&& m
  let clr := accBits f (fun a => a = .w1c) &&& m &&& w
  let set := accBits f (fun a => a = .w1s) &&& m &&& w
  (((old &&& ~~~ rep) ||| (w &&& rep)) &&& ~~~ clr) ||| set

/-- Whether a write covers an RWL field. -/
def coversRwl (f : RegFam) (m : Word) : Bool := accBits f (fun a => a = .rwl) &&& m != 0

/-- Whether an access has a size and an alignment that act (R616). -/
def accessOk (off size : Nat) : Bool := (size = 4 || size = 8) && off % size = 0

end Sys2Proof.Machine
end

