-- ==== Sys2Proof/Machine/ClockGate.lean ====
section
/-!
DEFINITION. Machine/ClockGate.lean: clock gating of blocks (R576 to R579).
-/

namespace Sys2Proof.Machine

/-- Whether a rule of Table 17.7 clocks a block whose enable is bit `i` of CLK_GATEb. -/
def State.ruleOn (s : State) (b i : Nat) : GateRule → Bool
  | .forcedOn => true
  | .forcedOff => false
  | .enable _ => s.bitAt (Reg.clkGate b) i

/-- Whether a block is to be clocked in the present power state: the column of Table 17.7. -/
def State.wantClock (s : State) (b : Nat) : Bool :=
  match gateRow b with
  | none => true
  | some (r, sl, d) =>
    let st := s.fld Reg.pwrStatus 0 3
    if st ≤ 1 then s.ruleOn b 0 r else if st ≤ 3 then s.ruleOn b 1 sl else s.ruleOn b 2 d

/-- Clock a block again, at once. -/
def ungate (b : Nat) : Act :=
  acts [setFld (Reg.clkGate b) 3 1 0, .eff (.clk fun c => { c with gateReq := c.gateReq.filter fun x => x.1 != b })]

/-- Bring a block's clock in line with Table 17.7: one that is to go off makes a gate request (R578). `trans`: the request is one of a
power transition. -/
def gateReview (trans : Bool) (b : Nat) : Act :=
  .ask fun s =>
    if (gateRow b).isNone then .skip
    else if s.wantClock b then ungate b
    else if s.bitAt (Reg.clkGate b) 3 then .skip
    else .eff (.clk fun c => { c with gateReq := (c.gateReq.filter fun x => x.1 != b) ++ [(b, trans)] })

/-- The gate requests of a state change: every block. -/
def gateAll : Act := each (List.range 256) (gateReview true)

/-- A gate request is refused: the block stays clocked (R578, Table 17.16). -/
def gateRefuse (b : Nat) : Act :=
  .ask fun s => actOpt (s.clk.gateReq.find? fun x => x.1 = b) fun x => acts [
    .eff (.clk fun c => { c with gateReq := c.gateReq.filter fun y => y.1 != b }),
    setFld (Reg.clkGate b) 4 1 1,
    actIf x.2 (setFld Reg.pwrStatus 9 1 1),
    raise stClk 7]

/-- GATE_ACK_TIMEOUT (R578). -/
def execGateAckTimeout (b : Nat) (s : State) : Host.Outcome State Fault Refusal := live (b < 256) (gateRefuse b) s

end Sys2Proof.Machine
end

