-- ==== Sys2Proof/Machine/Seats.lean ====
section
/-!
DEFINITION. Machine/Seats.lean: the seat table, the supervisor handshake, functions and their seats, seat reset, the swap of
the dirty-page log (chapter 6, R149, R592 step 7).
-/

namespace Sys2Proof.Machine

/-! ### FAULT_N (R546, R547) -/

/-- Whether some station holds a status bit whose reaction mask holds PIN (R546). -/
def State.pinHeld (s : State) : Bool :=
  s.csr.any fun kv =>
    decide (0x600000 ≤ kv.1) && decide (kv.1 < 0x610000) && kv.1 % 0x100 = 0
      && (bitsOf 32 kv.2.toNat).any fun src => nBit (s.react ((kv.1 - 0x600000) / 0x100) src) 4

/-- A write of FLT_PIN.release (R547): FAULT_N goes high unless a condition of R546 holds. -/
def pinRelease : Act :=
  .ask fun s =>
    if s.bitAt Reg.fltPin 2 || s.pinHeld then setFld Reg.fltPin 3 1 1 else setFld Reg.fltPin 0 1 0

/-! ### The seat table (R188 to R190, R220) -/

/-- The bits that a word of an entry kind uses (Tables 6.10, 6.11). -/
def tblUsed : Nat → Nat → Nat
  | 0, 0 => 0x1FFF00
  | 0, 1 => 0xFFFFFFFFFFFF
  | 1, 0 => 2 ^ 64 - 1
  | 1, 1 => 2 ^ 64 - 1
  | 1, 2 => 0x1FF01FF
  | 2, 0 => 0xFFFFFFFFFFFFF0FF
  | 2, 1 => 0xFFFFFFFFFFFFF000
  | 2, 2 => 0xFFFFFFFFFFFFF000
  | 2, 3 => 0xFFFFFFF8
  | 3, 0 => 0x3FFF
  | 4, 0 => 0x3FF
  | _, _ => 0

/-- Number of indices of an entry kind; kinds 0 and 1 ignore the index. -/
def tblIndices : Nat → Nat
  | 2 => 64
  | 3 => 32
  | 4 => 4096
  | _ => 1

/-- Entry that SEAT_TBL_ADDR names: kind, seat, index. -/
def State.tblAddr (s : State) : Nat × Nat × Nat :=
  let k := s.fld Reg.seatTblAddr 12 3
  (k, s.fld Reg.seatTblAddr 0 9, if k = 0 || k = 1 then 0 else s.fld Reg.seatTblAddr 16 12)

/-- Whether two RESOURCES entries own a resource in common (R191). -/
def resourcesMeet (a b : Nat → Word) : Bool :=
  (a 0 &&& b 0) != 0 || (a 1 &&& b 1) != 0
    || overlaps (wBits (a 2) 0 9) (wBits (a 2) 16 9) (wBits (b 2) 0 9) (wBits (b 2) 16 9)

/-- The assignable units that a RESOURCES entry owns (Table 7.2). -/
def resourceUnits (a : Nat → Word) : List Nat :=
  bitsOf 32 (a 0).toNat
    ++ ((bitsOf 32 (a 1).toNat).map (40 + ·))
    ++ ((bitsOf 8 (wBits (a 1) 32 8)).map (32 + ·))
    ++ ((bitsOf 8 (wBits (a 1) 40 8)).map (89 + ·))
    ++ ((bitsOf 8 (wBits (a 1) 48 8)).map (97 + ·))
    ++ ((bitsOf 8 (wBits (a 1) 56 8)).map (105 + ·))

/-- Whether a unit is secure, or moves to the secure world (R220). -/
def State.goesSecure (s : State) (u : Nat) : Bool := s.unitSec u || s.worlds.moving.contains u

/-- Result of a write of an entry: 0 OK, 1 RANGE, 2 OVERLAP, 3 CONFLICT (Table 6.9). -/
def State.tblCheck (s : State) (kind seat idx : Nat) (d : Nat → Word) : Nat :=
  if 5 ≤ kind || tblIndices kind ≤ idx then 1
  else if (List.range 4).any fun i => (d i).toNat &&& tblUsed kind i != (d i).toNat then 1
  else match kind with
    | 0 =>
      let n := wBits (d 0) 16 5
      if n = 0 || 16 < n || ((List.range 12).any fun b => decide (n ≤ wBits (d 1) (4 * b) 4)) then 1 else 0
    | 1 =>
      if 384 < wBits (d 2) 0 9 + wBits (d 2) 16 9 || 383 < wBits (d 2) 0 9 then 1
      else if (List.range 512).any fun n => n != seat && resourcesMeet d (s.tblSh 1 n 0) then 3
      else if (resourceUnits d).any s.goesSecure then 3
      else 0
    | 2 =>
      let t := wBits (d 0) 5 2
      let base := wBits (d 2) 12 52 * 4096
      let len := winLast (d 1) - winFirst (d 0)
      if t = 3 then 1
      else if !wBit (d 0) 0 then 0
      else if winLast (d 1) < winFirst (d 0) then 1
      else if t = 1 && s.dramSize ≤ base + len then 1
      else if t = 2 && !(isStore base && isStore (base + len)) then 1
      else if (List.range 64).any fun i =>
          i != idx && wBit (s.tblSh 2 seat i 0) 0
            && overlaps (winFirst (d 0)) (len + 1) (winFirst (s.tblSh 2 seat i 0))
                (winLast (s.tblSh 2 seat i 1) + 1 - winFirst (s.tblSh 2 seat i 0)) then 2
      else 0
    | 3 => if wBits (d 0) 12 2 = 3 then 1 else 0
    | _ => 0

/-- Load the data registers from an entry. -/
def tblLoad (w : Nat → Word) : Act := each (List.range 4) fun i => setReg (Reg.seatTblData i) (w i)

/-- A write of SEAT_TBL_CMD.op (R188): the operation takes its operands and its effect at the write; busy clears and result is set when
it has finished. While busy is 1 the write is ignored with result BUSY. -/
def seatTblOp (op : Nat) : Act :=
  .ask fun s =>
    if op = 0 then .skip
    else if s.bitAt Reg.seatTblCmd 2 then
      acts [setFld Reg.seatTblCmd 4 3 4, .eff (.seats fun t => { t with tblOp := some 4 })]
    else
      let a := s.tblAddr
      let d := fun i => s.rd (Reg.seatTblData i)
      let bad := decide (5 ≤ a.1) || decide (tblIndices a.1 ≤ a.2.2)
      let res := if op = 3 then s.tblCheck a.1 a.2.1 a.2.2 d else if bad then 1 else 0
      acts [
        setFld Reg.seatTblCmd 2 1 1,
        .eff (.seats fun t => { t with tblOp := some res }),
        if res != 0 then .skip
        else if op = 1 then tblLoad (s.tblSh a.1 a.2.1 a.2.2)
        else if op = 2 then tblLoad (s.tblW a.1 a.2.1 a.2.2)
        else each (List.range 4) fun i =>
          let w := if a.1 = 0 && i = 0 then d 0 ||| 0x100 else d i
          .eff (.seats fun t => { t with tblShadow := mapPut tblDflt (tblKey a.1 a.2.1 a.2.2 i) w t.tblShadow })]

/-- SEAT_TBL_CMD_DONE (R188). -/
def execSeatTblCmdDone (s : State) : Host.Outcome State Fault Refusal :=
  live true (.ask fun s => actOpt s.seats.tblOp fun r => acts [
    setFld Reg.seatTblCmd 2 1 0, setFld Reg.seatTblCmd 4 3 r, .eff (.seats fun t => { t with tblOp := none })]) s

/-- Commit the shadows of all entries (R188). -/
def tblCommit : Act := .eff (.seats fun t => { t with tbl := t.tblShadow })

/-! ### Functions and seats (R178 to R182) -/

/-- SEAT_ID of a seat (Table 6.5), under the map in force. -/
def State.seatIdWord (s : State) (n : Nat) : Word :=
  let pf := (s.pfOf n).getD 0
  let vf := if n < 4 then 0 else match s.pfOf n with | some p => n + 1 - s.seats.vfFirst.getD p 0 | none => 0
  BitVec.ofNat 64 (n + pf * 2 ^ 9 + b2n (decide (4 ≤ n)) * 2 ^ 11 + vf * 2 ^ 12 + s.linkOf n * 2 ^ 21)

/-- The seats of the virtual functions of a physical function under the map in force. -/
def State.vfSeats (s : State) (p : Nat) : List Nat := rangeFrom (s.seats.vfFirst.getD p 0) (s.seats.vfTotal.getD p 0)

/-- The set of SEAT_VFMAP values that a commit would put in force: those in force where VF Enable is 1 (R181). -/
def State.vfNext (s : State) : List (Nat × Nat) :=
  (List.range 4).map fun p =>
    if s.seats.vfEnable.getD p false then (s.seats.vfFirst.getD p 0, s.seats.vfTotal.getD p 0)
    else (s.cfld (Reg.seatVfmap p) 0 9, s.cfld (Reg.seatVfmap p) 9 9)

/-- Whether ranges of seats lie within 4 to 511, do not overlap and sum to at most 508 (R180). -/
def vfRangesOk : List (Nat × Nat) → Bool
  | rs => rs.all (fun r => r.2 = 0 || (decide (4 ≤ r.1) && decide (r.1 + r.2 ≤ 512)))
      && decide (sumOn rs Prod.snd ≤ 508)
      && (List.range rs.length).all fun i => (List.range i).all fun j =>
          !overlaps (rs.getD i (0, 0)).1 (rs.getD i (0, 0)).2 (rs.getD j (0, 0)).1 (rs.getD j (0, 0)).2
            || (rs.getD i (0, 0)).2 = 0 || (rs.getD j (0, 0)).2 = 0

/-- SEAT_VFMAP_APPLY: put a committed set of SEAT_VFMAP in force, hold part of it, or mark it as a conflict (R180, R181). -/
def vfmapApply : Act :=
  .ask fun s =>
    let next := s.vfNext
    let ok := vfRangesOk next
    acts [
      actIf ok (.eff (.seats fun t => { t with vfFirst := next.map Prod.fst, vfTotal := next.map Prod.snd })),
      each (List.range 4) fun p => acts [
        setFld (Reg.seatVfmap p) 31 1 (b2n !ok),
        setFld (Reg.seatVfmap p) 30 1 (b2n (s.seats.vfEnable.getD p false
          && !(s.cfld (Reg.seatVfmap p) 0 9 = s.seats.vfFirst.getD p 0 && s.cfld (Reg.seatVfmap p) 9 9 = s.seats.vfTotal.getD p 0)))]]

/-- Take the vectors that a function may use from its committed entry (Table 6.10). -/
def msixApply (seat : Nat) : Act :=
  .ask fun s => .eff (.seats fun t => { t with msixCount := mapPut (fun _ => 1) seat (wBits (s.tblW 0 seat 0 0) 16 5) t.msixCount })

/-- Set a seat's state (Table 6.6). -/
def seatStatePut (seat v : Nat) : Act := setFld (Reg.seatState seat) 0 3 v

/-- The host sets VF Enable of a physical function (R182). -/
def vfEnableOp (p : Nat) : Act :=
  .ask fun s => actIf (!s.seats.vfEnable.getD p true) (acts [
    .eff (.seats fun t => { t with vfEnable := listSet t.vfEnable p true }),
    each (s.vfSeats p) fun n => acts [msixApply n, seatStatePut n 1]])

/-- VF Enable of a physical function is cleared (R182): its seats become DISABLED, those in a reset when it ends. -/
def vfDisableOp (p : Nat) : Act :=
  .ask fun s => acts [
    .eff (.seats fun t => { t with vfEnable := listSet t.vfEnable p false,
                                   resets := mapIf (fun r => (s.vfSeats p).contains r.seat) (fun r => { r with toDisabled := true }) t.resets }),
    each (s.vfSeats p) fun n => actIf (!s.seats.resets.any fun r => r.seat = n) (seatStatePut n 0)]

/-- The supervisor seat's budgets and quota limits (R186), and its flag. -/
def supervisorMake (sup : Nat) : Act :=
  acts [
    setFld (Reg.seatState sup) 5 1 1,
    .eff (.seats fun t => { t with
      budget := (List.range 9).foldl (fun m k => mapPut (fun _ => 0) (16 * sup + k) 0xFFFFFFFF m) t.budget
      budgetNext := (List.range 9).foldl (fun m k => mapPut (fun _ => 0) (16 * sup + k) 0xFFFFFFFF m) t.budgetNext
      quota := (List.range 6).foldl (fun m k => mapPut (fun _ => 0) (8 * sup + k) 0xFFFFFFFF m) t.quota })]

/-- The supervisor seat handshake and what follows it: sup_pf and locked are set, the supervisor's budgets and quotas, the PF seats become
ACTIVE, the firmware reports ready (R182, R185, R186, R592 steps 7 and 8). -/
def handshake : Act :=
  .ask fun s =>
    let sup := s.pwr.straps.sup
    acts [
      setReg Reg.seatGlobalCtrl (BitVec.ofNat 64 (sup + 2 ^ 31)),
      setReg Reg.mgtHostReady 2,
      each (List.range 4) fun p => seatStatePut p 1,
      supervisorMake sup,
      .eff (.pwr fun p => { p with boot := 8 }),
      setFld Reg.fltPin 2 1 0,
      pinRelease]

/-! ### Seat reset (R208 to R216) -/

/-- Squash a command at once: what it had put in wait is taken back, and it ends with SQUASHED. -/
def squashNow (id : Nat) : Act := acts [withdraw id, cmdEnd id fun c => { c with squashed := true }]

/-- Engines with a preemption point of their own: DMA, the render engine, the codec (R210). -/
def preempted (e : Nat) : Bool := e = 1 || e = 2 || e = 4

/-- Squash an accepted command: at its engine's next preemption point while it runs there, else at once (R209, R210). -/
def squashCmd (c : Cmd) : Act :=
  if c.stage = .started && preempted c.engine && (c.op != 0x0210 && c.op != 0x0300 && c.op != 0x0500) then
    acts [
      cmdUpd c.id fun c => { c with squashReq := true },
      .ask fun s => actOpt (s.dmaOf c.id) fun k => .eff (.dma k { s.dmaCh k with stop := 1 }),
      .ask fun s => actIf ((s.dmaOf c.id).isNone && c.engine = 1) (acts [.eff (.dma (64 + c.id) (dmaIdle 0)), squashNow c.id]),
      .eff (.vid fun v => { v with runs := mapIf (fun r => r.cmd = some c.id) (fun r => { r with stop := true }) v.runs })]
  else
    acts [
      .ask fun s => each (s.med.hap.filter fun h => (match h.2.play with | some p => p.cmd = some c.id | none => false)
          || (match h.2.wait with | some w => w.cmd = some c.id | none => false)) fun h =>
        .eff (.med fun m => { m with hap := mapPut hapNone h.1 { h.2 with
          play := h.2.play.map fun p => if p.cmd = some c.id then { p with cmd := none, cutShort := true } else p
          wait := match h.2.wait with | some w => if w.cmd = some c.id then none else some w | none => none } m.hap }),
      actIf (c.op = 0x0601 && !c.b 1 0) (.eff (.med fun m => { m with aud := { m.aud with
        streams := mapIf (fun x => x.cmd = c.id) (fun x => { x with fade := some 96 }) m.aud.streams } })),
      squashNow c.id]

/-- Whether a deadline command is drained by a reset whose trigger fell in bell `t` (Table 6.16). -/
def Cmd.drains (c : Cmd) (t : Nat) : Bool := !opUntimed c.op && c.op != 0x0802 && !c.background && decide (c.dl ≤ t + 1)

/-- What the trigger does to the commands of a seat (Table 6.16). Untimed commands have no deadline to drain to and are squashed
(assumption 23). -/
def drainOrSquash (seat : Nat) : Act :=
  .ask fun s =>
    let cs := s.cfe.cmds.filter fun c => c.seat = seat
    let t := s.tts.bell
    acts [
      .eff (.cfe fun x => { x with held := x.held.filter fun h => h.1 / 8 != seat }),
      each (cs.filter fun c => c.stage = .opened) fun c => cmdDrop c.id,
      each (cs.filter fun c => c.stage = .received) fun c => .ask fun s => cmdLastReply c 0x21 0 s.tts.bell,
      each (cs.filter fun c => (c.stage = .accepted || c.stage = .started) && !c.drains t) squashCmd]

/-- Mute the replies of a seat's commands that are bound for host memory (R213). -/
def muteSeat (seat : Nat) : Act :=
  .eff (.cfe fun x => { x with cmds := mapIf (fun c => c.seat = seat) (fun c => { c with mute := true }) x.cmds })

/-- A trigger of a seat reset: cause 1 FLR, 2 SUPERVISOR, 3 RECLAIM. One that meets a reset in progress joins it (R215). -/
def seatResetOp (seat cause : Nat) (toDisabled : Bool) : Act :=
  .ask fun s =>
    let flr := cause = 1
    if s.seatState seat = 0 then .skip
    else acts [
      actIf flr (acts [muteSeat seat, .eff (.seats fun t => { t with msixOn := mapPut (fun _ => false) seat false t.msixOn })]),
      if s.seats.resets.any fun r => r.seat = seat then
        let join := fun r : SeatReset => { r with cause := cause, byFlr := r.byFlr || flr, toDisabled := r.toDisabled || toDisabled }
        .eff (.seats fun t => { t with resets := mapIf (fun r => r.seat = seat) join t.resets })
      else acts [
        .eff (.seats fun t => { t with resets := t.resets ++
          [{ seat := seat, bell := s.tts.bell, cause := cause, byFlr := flr, toDisabled := toDisabled }] }),
        seatStatePut seat 2,
        drainOrSquash seat,
        settleAll, queueReg, capRegs]]

/-- An FLR of a function; one of a physical function also clears its VF Enable and resets its virtual functions' seats. -/
def flrOp (seat : Nat) : Act :=
  .ask fun s => acts [
    seatResetOp seat 1 false,
    actIf (decide (seat < 4) && s.seats.vfEnable.getD seat false) (acts [
      .eff (.seats fun t => { t with vfEnable := listSet t.vfEnable seat false }),
      each (s.vfSeats seat) fun n => seatResetOp n 1 true])]

/-- A write of SEAT_RESET with go (R208). -/
def seatResetGoOp (w : Word) : Act := actIf (wBit w 9) (seatResetOp (wBits w 0 9) 2 false)

/-- The reset of a seat in progress. -/
def State.resetOf (s : State) (seat : Nat) : Option SeatReset := s.seats.resets.find? fun r => r.seat = seat

/-- QUOTA_RECLAIM (R201): a reclaim that a SET_QUOTA left owed starts once its reply is written. -/
def execQuotaReclaim (seat : Nat) (s : State) : Host.Outcome State Fault Refusal :=
  live (seatOk seat) (.ask fun s => actIf (s.seats.reclaims.contains seat) (acts [
    .eff (.seats fun t => { t with reclaims := t.reclaims.filter fun n => n != seat }), seatResetOp seat 3 false])) s

/-- SEAT_RESET_SETTLE (R211): the last command of a DRAINING seat has ended. -/
def execSeatResetSettle (seat : Nat) (s : State) : Host.Outcome State Fault Refusal :=
  live (seatOk seat) (.ask fun s => actIf (s.seatState seat = 2
      && s.cfe.cmds.all fun c => c.seat != seat || c.stage = .ended) (seatStatePut seat 3)) s

/-- Release every holding of Table 6.13 of a seat (R214, R406, R501, R563, Table 13.11). -/
def releaseHoldings (seat : Nat) : Act :=
  .ask fun s => acts [
    .eff (.vid fun v => { v with sess := v.sess.filter fun x => x.seat != some seat, progs := v.progs.filter fun x => x.seat != seat }),
    .eff (.med fun m => { m with aud := { m.aud with streams := m.aud.streams.filter fun x => x.seat != seat } }),
    each ((List.range 8).filter (s.ownsHap seat)) fun n =>
      .eff (.med fun m => { m with hap := mapPut hapNone n { s.hap n with effects := [] } m.hap }),
    each (s.chk.filter fun u => u.2.att = 2 && u.2.seat = seat) fun u => acts [
      .eff (.chk u.1 (chkIdle 0)), setFld (Reg.chkCfg u.1) 11 10 0],
    rndPools]

/-- The rings of a seat after its reset (R214): disabled, idle, every pointer 0. -/
def ringsReset (seat : Nat) (noHost : Bool) : Act :=
  each (List.range 8) fun r => acts [
    setFld (Reg.ringBase seat r) 0 2 2,
    setFld (Reg.ringPtrs seat r) 32 32 0,
    setReg (Reg.doorbell seat r) 0,
    mirrorPut seat r noHost]

/-- SEAT_RESET_COMPLETE (R214, R216): no transfer is in flight and every final reply has been produced. -/
def execSeatResetComplete (seat : Nat) (s : State) : Host.Outcome State Fault Refusal :=
  live (seatOk seat) (.ask fun s => actOpt (s.resetOf seat) fun r =>
    actIf (s.seatState seat = 3 && s.cfe.cmds.all fun c => c.seat != seat) (acts [
      ringsReset seat r.byFlr,
      setReg (Reg.irqPend seat) 0, setReg (Reg.irqMask seat) 0xFFF,
      .eff (.seats fun t => { t with msixOwed := t.msixOwed.filter fun x => x.1 != seat }),
      releaseHoldings seat,
      actIf r.byFlr (msixApply seat),
      setFld (Reg.seatState seat) 8 2 r.cause,
      .eff (.seats fun t => { t with resets := t.resets.filter fun x => x.seat != seat }),
      seatStatePut seat (if r.toDisabled then 0 else 1),
      overUpdate seat])) s

/-- TRANSFER_ABANDONED (R212): from bell T+2, period 1, a transfer of a resetting seat still without response is ended by the requesting
block. A drained command ends with FAULT; a squashed one keeps SQUASHED. -/
def execTransferAbandoned (st seat : Nat) (cmd : Option Nat) (s : State) : Host.Outcome State Fault Refusal :=
  live (seatOk seat && decide (st < 256)) (.ask fun s => actOpt (s.resetOf seat) fun r =>
    actIf (decide (32 * (r.bell + 2) + 1 ≤ s.now)) (acts [
      raiseSrc st 2 0 (some seat),
      actOpt cmd fun id => onCmd id fun _ c => actIf (c.seat = seat) (acts [
        cmdUpd id fun c => { c with fault := c.fault || !(c.squashed || c.squashReq), inflight := 0 },
        cmdEnd id fun c => { c with squashed := c.squashed || c.squashReq },
        .ask fun s => actOpt (s.dmaOf id) fun k => dmaUnload k 2])])) s

/-! ### Interrupts of a seat (R149) -/

/-- The messages that a write of IRQ_MASK releases: bits cleared while they are pending (R149). -/
def unmaskSend (seat : Nat) (old new : Word) : Act :=
  .ask fun s => each (List.range 12) fun b => actIf (wBit old b && !wBit new b && s.bitAt (Reg.irqPend seat) b) (msixSend seat b)

/-- PENDING_VECTOR_RELEASE (R149): the function becomes able to send. -/
def execPendingVectorRelease (seat : Nat) (s : State) : Host.Outcome State Fault Refusal :=
  live (seatOk seat) (acts [.eff (.seats fun t => { t with msixOn := mapPut (fun _ => false) seat true t.msixOn }), msixRelease seat]) s

/-! ### The dirty-page log (R207) -/

/-- A write of DIRTY_LOG_BASE.swap as 1 while swap_busy is 0: the active buffer is exchanged at once. -/
def dirtySwap (seat : Nat) : Act :=
  .ask fun s =>
    if s.bitAt (Reg.dirtyLogBase seat) 3 then .skip
    else acts [setFld (Reg.dirtyLogBase seat) 1 1 (1 - s.fld (Reg.dirtyLogBase seat) 1 1), setFld (Reg.dirtyLogBase seat) 3 1 1]

/-- DIRTY_LOG_SWAP_DONE (R207). -/
def execDirtyLogSwapDone (seat : Nat) (s : State) : Host.Outcome State Fault Refusal :=
  live (seatOk seat) (setFld (Reg.dirtyLogBase seat) 3 1 0) s

end Sys2Proof.Machine
end

