-- ==== Sys2Proof/Machine/Worlds.lean ====
section
/-!
DEFINITION. Machine/Worlds.lean: hand-over, secure reservations, region guards' applies, trusted restart, hall monitors
(R217 to R244, R545, R630, R635).
-/

namespace Sys2Proof.Machine

/-! ### Notices to seats (R232, R241) -/

/-- Set a bit of IRQ_PEND in every ACTIVE seat of those that `p` names. -/
def seatsNotify (p : Nat → Bool) (bit : Nat) : Act :=
  .ask fun s => each ((List.range 512).filter fun n => s.seatState n = 1 && p n) fun n => irqSet n bit

/-- Engine whose work an assignable unit serves: RND for render cores, VDC for pipes, DMA for channels (R232). -/
def engineOfUnit (u : Nat) : Nat :=
  if decide (123 ≤ u) && decide (u < 147) then 2 else if decide (113 ≤ u) && decide (u < 123) then 4 else if 147 ≤ u then 1 else 0

/-- The handover bit in the seats whose engines field grants the engine of a moving core, pipe or channel (R232). -/
def handoverNotice (moving : List Nat) : Act :=
  let es := (moving.map engineOfUnit).filter (· != 0)
  .ask fun s => seatsNotify (fun n => es.any fun e => s.engineOk n e) 11

/-! ### The request of a hand-over (R226, R227) -/

/-- The units whose target differs from their world. -/
def State.hoMoving (s : State) : List Nat :=
  (List.range 211).filter fun u => s.bitAt (Reg.secHoTarget (u / 32)) (u % 32) != s.unitSec u

/-- World of a unit after a hand-over. -/
def State.worldAfter (s : State) (moving : List Nat) (u : Nat) : Bool := if moving.contains u then !s.unitSec u else s.unitSec u

/-- Whether a seat owns a unit in the committed or the shadow table. -/
def State.unitOwned (s : State) (u : Nat) : Bool :=
  (List.range 512).any fun n => (resourceUnits (s.tblW 1 n 0)).contains u || (resourceUnits (s.tblSh 1 n 0)).contains u

/-- Whether some head would stream on a transmit PHY of the other world. -/
def State.hoSplit (s : State) (moving : List Nat) : Bool :=
  (List.range 16).any fun n => (portHeads (s.port n)).any fun h => s.worldAfter moving h != s.worldAfter moving (73 + n)

/-- Result of a go: 5, 2, 3, 4 in the order of R227, 0 where it starts. -/
def State.hoCheck (s : State) (moving : List Nat) : Nat :=
  if moving.isEmpty then 5
  else if moving.any fun u => !s.unitSec u && s.unitOwned u then 2
  else if s.hoSplit moving then 3
  else if moving.any fun u => decide (113 ≤ u) && decide (u < 123) && (s.vid.sess.any fun x => x.pipe = u - 113) then 4
  else 0

/-- Station page of a unit, where it has one of its own. -/
def stationOfUnit (u : Nat) : Option Nat :=
  if u < 32 then some (64 + u) else if u < 40 then some (96 + (u - 32)) else if u < 72 then some (104 + (u - 40)) else if u = 72 then some 34
  else if u < 89 then some (196 + (u - 73)) else if u < 97 then some (138 + (u - 89)) else if u < 105 then some (146 + (u - 97))
  else none

/-- Block whose bus-idle acknowledgement covers a unit. -/
def idleStation (u : Nat) : Nat :=
  match stationOfUnit u with
  | some i => i
  | none => if u < 113 then 137 else if u < 123 then 136 else if u < 147 then 24 else 162

/-- A write of SEC_HO_CTRL.go (R226): ignored while a hand-over runs, during a trusted restart (R243) and while DEEP_SLEEP is
entered (R584). -/
def secHoGoOp : Act :=
  .ask fun s =>
    if s.fld Reg.secHoStatus 0 2 != 0 || s.bitAt Reg.secState 0 || s.fld Reg.pwrStatus 0 3 = 3 then .skip
    else
      let moving := s.hoMoving
      let r := s.hoCheck moving
      if r != 0 then setFld Reg.secHoStatus 2 4 r
      else acts [
        setFld Reg.secHoStatus 0 6 1,
        .eff (.worlds fun w => { w with moving := moving, hoBell := s.tts.bell, idle := [] }),
        actIf (decide (2 ≤ s.fld Reg.pwrStatus 0 3)) (each (moving.map idleStation).eraseDups ungate),
        handoverNotice moving, capRegs]

/-! ### Edge E (R226, R228, R630, R635) -/

/-- The state as it will be booked after the move. -/
def State.afterMove (s : State) : State :=
  { s with
    csr := s.worlds.moving.foldl (fun m u =>
      mapPut regDflt (Reg.secWorldMap (u / 32)) (mapGet regDflt (Reg.secWorldMap (u / 32)) m ^^^ BitVec.ofNat 64 (2 ^ (u % 32))) m) s.csr
    worlds := { s.worlds with moving := [] } }

/-- Whether the bookings of every bell from `n` on fit a state's capacities. -/
def State.bookingsFit (s : State) (n : Nat) : Bool :=
  (rangeFrom n 257).all fun b => (List.range 9).all fun k => (unitsOf k).all fun u =>
    s.booked k u b = 0 || decide (s.booked k u b + s.standing k u b ≤ s.cap k u b)

/-- HANDOVER_QUIESCE at the edge of bell `n`: the moving units stop taking work, streaming units stop at E. -/
def handoverQuiesce : Act :=
  .ask fun s =>
    let n := s.tts.bell
    if s.fld Reg.secHoStatus 0 2 = 1
        && decide (s.worlds.hoBell + 2 ≤ n) && (s.afterMove.bookingsFit n || decide (s.worlds.hoBell + 257 ≤ n)) then
      acts [
        setFld Reg.secHoStatus 0 2 2,
        setFld Reg.secHoEdge 0 32 (n % 2 ^ 32),
        each s.worlds.moving fun u =>
          if u < 32 then acts [setFld (Reg.hdStatus u) 0 3 0, headUpd u fun h => { h with frame := none }]
          else if decide (147 ≤ u) then
            .ask fun s => match (s.dmaCh (u - 147)).cmd with
              | some id => onCmd id fun s c => .eff (.dma (u - 147) { s.dmaCh (u - 147) with stop := if c.background then 2 else 0 })
              | none => .skip
          else if decide (97 ≤ u) && decide (u < 105) then
            .eff (.med fun m => { m with hap := m.hap.map fun h =>
              if h.1 = u - 97 then (h.1, { h.2 with play := h.2.play.map fun p => { p with cutShort := true } }) else h })
          else if decide (105 ≤ u) && decide (u < 113) then
            .eff (.med fun m => { m with aud := { m.aud with inputs := m.aud.inputs.map fun i =>
              if i.1 / 16 = u - 105 then (i.1, { i.2 with up := false }) else i } })
          else .skip,
        capRegs]
    else .skip

/-! ### Reset and reassign (R229, R230, R630, R635) -/

/-- The register offsets of an assignable unit: first offset and size. -/
def unitWindow (u : Nat) : Nat × Nat :=
  if u < 32 then (0x240000 + 0x100 * u, 0x100)
  else if u < 40 then (0x250000 + 0x400 * (u - 32), 0x400)
  else if u < 72 then (0x260000 + 0x20 * (u - 40), 0x20)
  else if u = 72 then (0x220000, 0x20000)
  else if u < 89 then (0x510000 + 0x1000 * (u - 73), 0x1000)
  else if u < 97 then (0x320000 + 0x100 * (u - 89), 0x100)
  else if u < 105 then (0x330000 + 0x100 * (u - 97), 0x100)
  else if u < 113 then (0x310100 + 0x20 * (u - 105), 0x20)
  else if u < 123 then (0x300000 + 0x20 * (u - 113), 0x20)
  else if u < 147 then (0, 0)
  else (0x440000 + 0x40 * (u - 147), 0x40)

/-- Return the registers of a window to their reset values. -/
def windowReset (first size : Nat) : Act :=
  .ask fun s => each ((s.csr ++ s.com).map Prod.fst |>.filter fun k => decide (first ≤ k) && decide (k < first + size)) resetReg

/-- The entries of a canvas that are not a head's. -/
def entriesWithout (p : List Word) (h : Nat) : List Nat := (List.range (cpHeads p)).filter fun i => fw p (4 + 2 * i) 0 5 != h

/-- A canvas's words without a head. -/
def canvasWithout (p : List Word) (h : Nat) : List Word :=
  let keep := entriesWithout p h
  if keep.isEmpty then listSet p 1 (wSet (p.getD 1 0) 6 1 0)
  else listSet (p.take 4) 1 (wSet (p.getD 1 0) 8 4 (keep.length - 1)) ++ (keep.map fun i => [p.getD (4 + 2 * i) 0, p.getD (5 + 2 * i) 0]).flatten

/-- Take a head out of its canvas: its buffers return to the pool (R299, R630). -/
def headLeave (h : Nat) : Act :=
  .ask fun s => acts [
    each (s.pic.canvases.filter fun c => (cpEntries c.2.par).any fun e => e.2 = h) fun c =>
      canvasUpd c.1 fun x => { x with par := canvasWithout x.par h, curves := (entriesWithout x.par h).map fun i => x.curves.getD i [] },
    headUpd h fun x => { x with bufs := [], old := [] }, poolFree]

/-- Release the check-value units that serve the Prefect (R635). -/
def chkUnserve : Act :=
  .ask fun s => each (s.chk.filter fun u => u.2.att = 3) fun u => acts [.eff (.chk u.1 (chkIdle 0)), setFld (Reg.chkCfg u.1) 21 1 0]

/-- Clear the memories inside a unit and everything it held (R230, R563, R635). -/
def unitClear (u : Nat) : Act :=
  if u < 32 then acts [headLeave u, .eff (.pic fun p => { p with heads := mapPut headNone u (headNone u) p.heads })]
  else if u < 40 then .eff (.vid fun v => { v with caps := mapPut capNone (u - 32) (capNone (u - 32)) v.caps })
  else if u < 72 then .ask fun s => acts [
    actOpt (s.chkU (u - 40)).cmd fun id => cmdEnd id fun c => { c with squashed := true },
    actOpt (s.chkU (u - 40)).det fun id => cmdEnd id fun c => { c with squashed := true },
    .eff (.chk (u - 40) (chkIdle 0))]
  else if u = 72 then acts [chkUnserve, .eff (.pic fun p =>
    { p with mism := [], chkLost := [], heads := p.heads.map fun h => (h.1, { h.2 with desc := [], crits := [], runs := [] }) })]
  else if u < 89 then .eff (.pic fun p => { p with ports := mapPut portNone (u - 73) (portNone (u - 73)) p.ports })
  else if u < 97 then .eff (.med fun m =>
    { m with tch := mapPut tchNone (u - 89) (tchNone (u - 89)) m.tch })
  else if u < 105 then .eff (.med fun m =>
    { m with hap := mapPut hapNone (u - 97) (hapNone (u - 97)) m.hap })
  else if u < 113 then .eff (.med fun m => { m with aud := { m.aud with tdm := mapPut tdmNone (u - 105) (tdmNone (u - 105)) m.aud.tdm } })
  else if u < 123 then .eff (.vid fun v => { v with codec := v.codec.filter fun x => x.pipe != u - 113 })
  else if u < 147 then .skip
  else acts [dmaSuspend (u - 147), .eff (.dma (u - 147) (dmaIdle 0))]

/-- The block reset of a moving unit (R230). -/
def unitReset (u : Nat) : Act :=
  acts [
    unitClear u,
    windowReset (unitWindow u).1 (unitWindow u).2,
    actOpt (stationOfUnit u) fun i => acts [setReg (Reg.fsStatus i) 0, setReg (Reg.fsFirst i) 0, setReg (Reg.fsCount i) 0]]

/-- HANDOVER_RESET: every moving unit is idle: reset, reassign, ready (R226, R230, R232). -/
def execHandoverReset (s : State) : Host.Outcome State Fault Refusal :=
  live true (.ask fun s =>
    actIf (s.fld Reg.secHoStatus 0 2 = 2 && s.worlds.moving.all fun u => s.worlds.idle.contains (idleStation u)) (acts [
      each s.worlds.moving unitReset,
      each s.worlds.moving fun u => .ask fun s =>
        setReg (Reg.secWorldMap (u / 32)) (s.rd (Reg.secWorldMap (u / 32)) ^^^ BitVec.ofNat 64 (2 ^ (u % 32))),
      .eff (.worlds fun w => { w with moving := [], idle := [], hoDone := w.hoDone + 1 }),
      setFld Reg.secHoStatus 0 6 (1 * 4),
      each (s.worlds.moving.map idleStation).eraseDups (gateReview true),
      handoverNotice s.worlds.moving, capRegs])) s

/-- BUS_IDLE_ACKNOWLEDGEMENT (R226, R578): of a gate request, which gates the block, or of moving units of the block. -/
def execBusIdleAcknowledgement (b : Nat) (s : State) : Host.Outcome State Fault Refusal :=
  live (b < 256) (.ask fun s => acts [
    actIf (s.clk.gateReq.any fun x => x.1 = b) (acts [
      .eff (.clk fun c => { c with gateReq := c.gateReq.filter fun x => x.1 != b }),
      setFld (Reg.clkGate b) 3 1 1]),
    actIf (s.fld Reg.secHoStatus 0 2 = 2 && s.worlds.moving.any fun u => idleStation u = b)
      (.eff (.worlds fun w => { w with idle := if w.idle.contains b then w.idle else w.idle ++ [b] }))]) s

/-! ### Reservations (R225) -/

/-- A write of a reservation: a cut waits for the next edge, a raise for the edge of R225 with pending at 1. -/
def reserveOp (store : Bool) (v : Nat) : Act :=
  .ask fun s =>
    let set : Act := .eff (.worlds fun w =>
      if store then { w with raiseStore := some (v, s.tts.bell) } else { w with raiseDram := some (v, s.tts.bell) })
    acts [set, .ask fun s =>
      setFld Reg.secReserveStatus 0 1 (b2n (
        (match s.worlds.raiseDram with | some (x, _) => decide (s.worlds.resDram < x) | none => false)
          || (match s.worlds.raiseStore with | some (x, _) => decide (s.worlds.resStore < x) | none => false)))]

/-- Whether a waiting reservation takes effect at the edge of the current bell: a cut does; a raise where the bookings of every later
bell fit it, at the latest at the edge of bell Q+257. -/
def State.reserveDue (s : State) (now : Nat) (raise : Option (Nat × Nat)) : Bool :=
  match raise with
  | some (v, q) => decide (v ≤ now) || (decide (q + 2 ≤ s.tts.bell) && (s.bookingsFit s.tts.bell || decide (q + 257 ≤ s.tts.bell)))
  | none => false

/-- RESERVE_RAISE_APPLY and the cuts, at a bell edge. -/
def reserveEdge : Act :=
  .ask fun s =>
    let d := s.reserveDue s.worlds.resDram s.worlds.raiseDram
    let t := s.reserveDue s.worlds.resStore s.worlds.raiseStore
    acts [
      .eff (.worlds fun w => { w with
        resDram := if d then (w.raiseDram.map Prod.fst).getD w.resDram else w.resDram
        raiseDram := if d then none else w.raiseDram
        resStore := if t then (w.raiseStore.map Prod.fst).getD w.resStore else w.resStore
        raiseStore := if t then none else w.raiseStore }),
      .ask fun s => setFld Reg.secReserveStatus 0 1 (b2n (s.worlds.raiseDram.isSome || s.worlds.raiseStore.isSome))]

/-! ### Region guards: committing shadows (R236) -/

/-- The three registers of a region. -/
def regionRegs (n m : Nat) : List Nat := [Reg.grdBase n m, Reg.grdLimit n m, Reg.grdAttr n m]

/-- A write of GRDn_CTRL.apply: the shadows that the writer's world may write are taken as they stand. -/
def grdApplyOp (n : Nat) (secure : Bool) : Act :=
  .ask fun s =>
    if s.bitAt (Reg.grdCtrl n) 9 then .skip
    else
      let first := if secure then 0 else s.delegateFirst n
      let snap := ((rangeFrom first (64 - first)).map fun m => (regionRegs n m).map fun r => (r, s.rd r)).flatten
      acts [setFld (Reg.grdCtrl n) 9 1 1, .eff (.memc fun m => { m with applying := (m.applying.filter fun x => x.1 != n) ++ [(n, snap)] })]

/-- GRD_APPLY_DONE (R236). -/
def execGrdApplyDone (n : Nat) (s : State) : Host.Outcome State Fault Refusal :=
  live (n < 28) (.ask fun s => actOpt (s.memc.applying.find? fun x => x.1 = n) fun x => acts [
    each x.2 fun r => .eff (.com r.1 r.2),
    .eff (.memc fun m => { m with applying := m.applying.filter fun y => y.1 != n }),
    setFld (Reg.grdCtrl n) 9 1 0]) s

/-! ### Trusted restart (R241 to R244) -/

/-- Restarts begun within the preceding 4,096 bells. -/
def State.recentRestarts (s : State) : List Nat := s.worlds.restarts.filter fun b => decide (s.tts.bell ≤ b + 4096)

/-- Every seat reads secure_unavailable with a value, and every ACTIVE seat gets the handover bit. -/
def secureNotice (v : Nat) : Act := acts [each (List.range 512) fun n => setFld (Reg.seatState n) 4 1 v, seatsNotify (fun _ => true) 11]

/-- A trigger of a trusted restart: a fourth within 4,096 bells leads to the safe state (R242). In DEEP_SLEEP it cannot start. -/
def restartTrigger (byGo : Bool) : Act :=
  .ask fun s =>
    if s.fld Reg.pwrStatus 0 3 = 4 then .skip
    else if 3 ≤ s.recentRestarts.length then enterSafe stSec 5 false
    else acts [
      .eff (.worlds fun w => { w with restarts := s.tts.bell :: s.recentRestarts, beyloth := false, measuring := false }),
      setReg Reg.secState (BitVec.ofNat 64 (1 + 2 * (s.recentRestarts.length + 1) + 8 * b2n byGo)),
      secureNotice 1]

/-- A write of SEC_RESTART.go. -/
def secRestartGoOp : Act := restartTrigger true

/-- A write of SEC_RESTART.ready: during a restart it lifts quiesce and delivers what was held (Table 7.9 step 6, R244). -/
def secRestartReadyOp : Act :=
  .ask fun s => actIf (s.bitAt Reg.secState 0 && s.worlds.beyloth) (acts [
    setFld Reg.secState 0 1 0,
    secureNotice 0,
    .eff (.worlds fun w => { w with secIrq := w.secHeld.reverse ++ w.secIrq, secHeld := [] })])

/-- SEC_BOOT_ROM_START (Table 7.9 step 3). -/
def execSecBootRomStart (s : State) : Host.Outcome State Fault Refusal :=
  live true (whenS (fun s => s.bitAt Reg.secState 0 && !s.worlds.beyloth) (.eff (.worlds fun w => { w with measuring := true }))) s

/-- BEYLOTH_MEASURE_DONE (Table 7.9 step 4, Table 17.14 step 3). -/
def execBeylothMeasureDone (ok : Bool) (s : State) : Host.Outcome State Fault Refusal :=
  live true (.ask fun s => actIf (s.worlds.measuring && decide (2 ≤ s.pwr.boot)) (acts [
    .eff (.worlds fun w => { w with measuring := false, beyloth := ok }),
    if ok then .eff (.pwr fun p => { p with boot := max p.boot 3 }) else raise stSec 5])) s

/-- SEC_FATAL_TRAP (R241). -/
def execSecFatalTrap (s : State) : Host.Outcome State Fault Refusal :=
  live true (whenS (fun s => s.worlds.beyloth) (restartTrigger false)) s

/-- READY_LIMIT_EXPIRED (R242, R592): a new trigger. -/
def execReadyLimitExpired (s : State) : Host.Outcome State Fault Refusal :=
  live true (whenS (fun s => s.bitAt Reg.secState 0 || decide (s.pwr.boot < 4)) (restartTrigger false)) s

/-! ### Hall monitors (R545) -/

/-- MGT_EXPIRED: the monitor of the management core, started at step 4 of boot. -/
def execMgtExpired (s : State) : Host.Outcome State Fault Refusal :=
  live true (whenS (fun s => decide (4 ≤ s.pwr.boot)) (raise stHmn 4)) s

/-- SEC_EXPIRED: the monitor stands still during a restart; its expiry starts one whatever its mask holds. -/
def execSecExpired (s : State) : Host.Outcome State Fault Refusal :=
  live true (whenS (fun s => s.worlds.beyloth && !s.bitAt Reg.secState 0) (acts [raise stHmn 5, restartTrigger false])) s

/-- TTS_EXPIRED: no bell edge within twice the bell length while the bell runs. -/
def execTtsExpired (s : State) : Host.Outcome State Fault Refusal :=
  live true (whenS (fun s => s.tts.running) (raise stHmn 6)) s

end Sys2Proof.Machine
end

