-- ==== Sys2Proof/Machine/MemCtl.lean ====
section
/-!
DEFINITION. Machine/MemCtl.lean: memory transactions of the blocks, the Store and DRAM controllers' logs, test interface, refresh
and row-hammer protection, faults of the interconnect (R38, R177, R249 to R278, R537 to R552).
-/

namespace Sys2Proof.Machine

/-! ### Row-activate counts (R269) -/

/-- Key of a bank. -/
def bankKey (ch bank : Nat) : Nat := 16 * ch + bank

/-- The table of a bank. -/
def State.rowTable (s : State) (key : Nat) : List (Nat × Nat × Nat) := mapGet (fun _ => []) key s.memc.rows

/-- The threshold in force (Table 8.9). -/
def State.rhThreshold (s : State) : Nat := max 0x100 (min 0x8000 (s.cfld Reg.dmcRhCfg 0 16))

/-- The radius in force (Table 8.9). -/
def State.rhRadius (s : State) : Nat := if s.cfld Reg.dmcRhCfg 16 2 = 2 || s.cfld Reg.dmcRhCfg 16 2 = 3 then 2 else 1

/-- The table after an activate of a row, and the entry's count. -/
def rowAfter (es : List (Nat × Nat × Nat)) (row : Nat) : List (Nat × Nat × Nat) × Nat :=
  match es.find? fun e => e.2.1 = row with
  | some e => (mapIf (fun x => x.1 = e.1) (fun x => (x.1, x.2.1, x.2.2 + 1)) es, e.2.2 + 1)
  | none =>
    match (List.range 32).find? fun i => es.all fun e => e.1 != i with
    | some i => (es ++ [(i, row, 1)], 1)
    | none =>
      match leastBy (fun e => e.2.2 * 32 + e.1) es with
      | some e => (mapIf (fun x => x.1 = e.1) (fun x => (x.1, row, x.2.2 + 1)) es, e.2.2 + 1)
      | none => (es, 0)

/-- An activate of a row: its neighbours are to be refreshed where its count reaches the threshold. -/
def rowActivate (ch bank row : Nat) : Act :=
  .ask fun s =>
    let key := bankKey ch bank
    let r := rowAfter (s.rowTable key) row
    .eff (.memc fun m => { m with
      rows := mapPut (fun _ => []) key r.1 m.rows
      rhPend := if decide (s.rhThreshold ≤ r.2) && !m.rhPend.contains (ch, bank, row) then m.rhPend ++ [(ch, bank, row)] else m.rhPend })

/-- The rows within a radius of a row that exist. -/
def State.neighbours (s : State) (row : Nat) : List Nat :=
  ((List.range s.rhRadius).map fun d =>
    (if d + 1 ≤ row then [row - (d + 1)] else []) ++
      (if row + (d + 1) < 2 ^ (14 + nBits s.memc.cfg 0 2) then [row + (d + 1)] else [])).flatten

/-- Refresh the neighbours of a row that has reached the threshold, and free its entry. -/
def neighbourRefresh (ch bank row : Nat) : Act :=
  .ask fun s => actIf (s.memc.rhPend.contains (ch, bank, row)) (.eff (.memc fun m => { m with
    rows := mapPut (fun _ => []) (bankKey ch bank) ((s.rowTable (bankKey ch bank)).filter fun e => e.2.1 != row) m.rows
    rhPend := m.rhPend.filter fun x => x != (ch, bank, row)
    rhLog := ((s.neighbours row).map fun r => (ch, bank, r)) ++ m.rhLog }))

/-- The neighbour refreshes that a bank owes before it serves a further request. -/
def bankRefreshes (ch bank : Nat) : Act :=
  .ask fun s => each (s.memc.rhPend.filter fun x => x.1 = ch && x.2.1 = bank) fun x => neighbourRefresh x.1 x.2.1 x.2.2

/-- Channels 0 to 31, banks 0 to 15. -/
def bankOk (ch bank : Nat) : Bool := decide (ch < 32) && decide (bank < 16)

/-- ROW_HAMMER_REFRESH (R269). -/
def execRowHammerRefresh (channel bank row : Nat) (s : State) : Host.Outcome State Fault Refusal :=
  live (bankOk channel bank) (neighbourRefresh channel bank row) s

/-- DRAM_REFRESH (R268 to R270): a refresh of a bank; one that completes a pass over every row frees the bank's entries. -/
def execDramRefresh (channel bank : Nat) (allRows : Bool) (s : State) : Host.Outcome State Fault Refusal :=
  live (bankOk channel bank) (whenS (fun s => s.memc.up && !s.memc.selfRefresh && allRows)
    (.eff (.memc fun m => { m with rows := mapPut (fun _ => []) (bankKey channel bank) [] m.rows }))) s

/-! ### Memory transactions (R38, R39, R177, R194, R195, R238) -/

/-- The world of a transaction: that of its unit where its station is a unit's. -/
def State.txnSecure (s : State) (t : Txn) : Bool :=
  match unitOfStation t.station with
  | some u => s.unitSec u
  | none => t.secure

/-- The device address that a transaction reaches, with its request: none for host memory and for an access that fails R194. -/
def State.txnDevice (s : State) (t : Txn) (len : Nat) : Option (Req × Nat) :=
  match t.seat with
  | none => some ({ station := t.station, secure := s.txnSecure t, seat := none, window := 0, kind := t.kind }, t.addr)
  | some n =>
    match s.translate n t.addr len t.kind with
    | some pl =>
      if pl.target = 0 then none
      else some ({ station := t.station, secure := false, seat := some n, window := pl.win, kind := t.kind }, pl.addr)
    | none => none

/-- A read of a transaction. -/
def State.txnRead (s : State) (t : Txn) : MemOut :=
  match t.seat with
  | some n => seatReadE s t.station n t.addr t.len (if t.kind = .fetch then .fetch else .read) t.host t.linkErr
  | none =>
    devRead s { station := t.station, secure := s.txnSecure t, seat := none, window := 0, kind := if t.kind = .fetch then .fetch else .read }
      t.addr t.len t.linkErr

/-- A write of a transaction. -/
def State.txnWrite (s : State) (t : Txn) : MemOut :=
  match t.seat with
  | some n => seatWrite s t.station n t.addr t.data t.host
  | none => devWrite s { station := t.station, secure := s.txnSecure t, seat := none, window := 0, kind := .write } t.addr t.data

/-- Bytes that a transaction covers. -/
def txnSize (t : Txn) : Nat := if t.kind = .write then t.data.length else t.len

/-- The activates of a transaction that DRAM serves: one for each row that it touches. -/
def State.txnRows (s : State) (t : Txn) : List (Nat × Nat × Nat) :=
  match s.txnDevice t (txnSize t) with
  | some (q, a) =>
    if ((List.range (txnSize t)).all fun i => s.mapped (a + i)) && !s.inCarve a (txnSize t) && (s.refusedBy q a (txnSize t)).isNone then
      (((linesOf a (txnSize t)).filter fun x => !isStore x).map fun x => (s.dramChannel x, s.dramBank x, s.dramRow x)).eraseDups
    else []
  | none => []

/-- What an error response or a refused translation does beyond its station: the command ends with FAULT (R38, R195), a composer or
Prefect fetch raises FETCH_ERROR (R323, R352), a stream stops (R501). -/
def txnFailed (t : Txn) (o : MemOut) : Act :=
  acts [
    actIf (o.err && t.station = stCmp) (raiseSrc stCmp 5 0 t.seat),
    actIf (o.err && t.station = stPrf) (raiseSrc stPrf 8 0 t.seat),
    actOpt t.cmd fun id => acts [
      cmdUpd id fun c => { c with fault := true },
      .eff (.vid fun v => { v with runs := mapIf (fun r => r.cmd = some id) (fun r => { r with fault := true }) v.runs }),
      .eff (.med fun m => { m with aud := { m.aud with
        streams := mapIf (fun x => x.cmd = id && x.fade.isNone) (fun x => { x with err := true, fade := some 96 }) m.aud.streams } })]]

/-- One access of a transaction, with its activates and what its failure does. -/
def txnAccess (t : Txn) (o : State → MemOut) (rd : Bool) : Act :=
  .ask fun s => acts [
    each (s.txnRows t) fun x => acts [bankRefreshes x.1 x.2.1, rowActivate x.1 x.2.1 x.2.2],
    .ask fun s => acts [
      (o s).act,
      actIf rd (.eff (.rdata (bytesWord ((o s).bytes.take 8)))),
      actIf ((o s).err || (o s).miss) (txnFailed t (o s))]]

/-- An access of a transaction: an atomic operation is a read and a write of one location with nothing between them (R177). The write
response of a command's write is one that it waits for no more (R150). -/
def txnOp (t : Txn) : Act :=
  .ask fun s =>
    if t.atomic then
      let r := s.txnRead { t with kind := .read, len := t.data.length }
      acts [txnAccess { t with kind := .read, len := t.data.length } (fun s => s.txnRead { t with kind := .read, len := t.data.length }) true,
        actIf (!r.err && !r.miss) (txnAccess { t with kind := .write } (fun s => s.txnWrite t) false)]
    else if t.kind = .write then acts [
      txnAccess t (fun s => s.txnWrite t) false,
      actOpt t.cmd fun id => cmdUpd id fun c => { c with inflight := c.inflight - 1 }]
    else txnAccess t (fun s => s.txnRead t) true

/-- MEMORY_TRANSACTION_RESPONSE (R38). -/
def execMemoryTransactionResponse (t : Txn) (s : State) : Host.Outcome State Fault Refusal :=
  live (decide (t.station < 256) && (match t.seat with | some n => seatOk n | none => true)
    && (!t.atomic || t.data.length = 4 || t.data.length = 8)) (txnOp t) s

/-- PCIE_COMPLETION_TIMEOUT (R38): an error response and COMPLETION_ERROR, tied to the seat. -/
def execPcieCompletionTimeout (st : Nat) (seat : Option Nat) (cmd : Option Nat) (s : State) : Host.Outcome State Fault Refusal :=
  live (st < 256) (acts [
    raiseSrc stPci 4 0 seat,
    txnFailed { station := st, seat := seat, cmd := cmd, secure := false, kind := .read, atomic := false, addr := 0, len := 0, data := [],
                host := .error, linkErr := 0 }
      { bytes := [], err := true, miss := false, act := .skip }]) s

/-! ### Faults of stations and interconnect (R37, R41, R539, R550, R551) -/

/-- Whether a station page exists. -/
def stExists (st : Nat) : Bool := (stKind st).isSome

/-- STATION_PARITY_ERROR (R550): the safe state, whatever the reaction masks hold. -/
def execStationParityError (st : Nat) (s : State) : Host.Outcome State Fault Refusal :=
  live (stExists st) (.ask fun s => acts [.eff .tick, enterSafe st (Config.paritySource s.fv % 32) true]) s

/-- ARB_TIMEOUT (R544): at a region's or the fabric's station. -/
def execArbTimeout (st : Nat) (s : State) : Host.Outcome State Fault Refusal := live (stIsRegion st) (raise st 1) s

/-- PIN_READBACK (R544). -/
def execPinReadback (s : State) : Host.Outcome State Fault Refusal := live true (raise stFlt 4) s

/-- INTERNAL_PARITY_ERROR (R539, R551): source 0 at a region's or the fabric's station, source 3 at a block's; an armed injection of
that source is spent. -/
def execInternalParityError (st cell : Nat) (s : State) : Host.Outcome State Fault Refusal :=
  live (stExists st) (.ask fun s =>
    let src := if stIsRegion st then 0 else 3
    acts [actIf (s.armed st src) (clearBits (Reg.fsInject st) (2 ^ src)), raiseSrc st src (if stIsRegion st then 0 else cell) none]) s

/-! ### Error-control registers (R252, R255 to R257) -/

/-- The lines of a write of XXX_ECC_CTRL that clear. -/
def eccClears (dmc : Bool) (w : Word) : Act :=
  acts [
    actIf (wBit w 0) (acts [each (List.range 16) fun i => acts [setReg (ceAddr dmc i) 0, setReg (ceInfo dmc i) 0], setFld (eccCtrl dmc) 3 1 0]),
    actIf (wBit w 1) (acts [each (List.range 8) fun i => acts [setReg (ueAddr dmc i) 0, setReg (ueInfo dmc i) 0], setReg (ueHead dmc) 0]),
    actIf (wBit w 2) (acts [
      each (List.range (if dmc then 32 else 48)) fun u => setReg (ceCount dmc u) 0,
      .eff (.memc fun m => { m with threshed := m.threshed.filter fun u => if dmc then decide (u < 64) else decide (64 ≤ u) })])]

/-! ### Test interface (R259, R260, R277) -/

/-- Test registers of the Store or the DMC: address, data, check, command. -/
def testRegs (dmc : Bool) : Nat × Nat × Nat × Nat :=
  if dmc then (Reg.dmcTestAddr, Reg.dmcTestData, Reg.dmcTestCheck, Reg.dmcTestCmd)
  else (Reg.stoTestAddr, Reg.stoTestData, Reg.stoTestCheck, Reg.stoTestCmd)

/-- Set the result to come of the operation in progress. -/
def testPend (dmc : Bool) (r : Option Nat) : Act :=
  .eff (.memc fun m => if dmc then { m with dmcOp := r } else { m with stoOp := r })

/-- The word that a test operation names. -/
def State.testWord (s : State) (dmc : Bool) : Nat := s.fld (testRegs dmc).1 3 45 * 8

/-- The request of a test operation: of the writer's world, without a seat. -/
def testReq (dmc secure : Bool) (op : Nat) : Req :=
  { station := if dmc then stDmc else stSto, secure := secure, seat := none, window := 0, kind := if op = 1 then .read else .write }

/-- Result of a test operation that test_en lets act: 3, 4, 2 or 0. -/
def State.testResult (s : State) (dmc secure : Bool) (op : Nat) : Nat :=
  let w := s.testWord dmc
  if !(if dmc then decide (w < s.dramSize) else isStore w) then 3
  else if dmc && (s.ieccOf w).isNone then 4
  else if (s.refusedBy (testReq dmc secure op) w 8).isSome then 2
  else 0

/-- What a test operation does to the stored word. -/
def testEffect (dmc : Bool) (op : Nat) : Act :=
  .ask fun s =>
    let r := testRegs dmc
    let w := s.testWord dmc
    let chk : Byte := BitVec.ofNat 8 (s.fld r.2.2.1 0 8)
    if op = 1 then acts [setReg r.2.1 (s.wordAt w), setFld r.2.2.1 0 8 (s.checkAt w).toNat]
    else if op = 2 then acts [.eff (.mem w (wordBytes (s.rd r.2.1))), .eff (.ecc w (secdedCode (s.rd r.2.1) ^^^ chk))]
    else .eff (.ecc w (secdedCode (s.wordAt w) ^^^ chk))

/-- A write of XXX_TEST_CMD.op: 1 RAW_READ, 2 RAW_WRITE, 3 CHECK_WRITE. It acts at the write; busy clears and result is set when the
operation has ended. -/
def testOp (dmc secure : Bool) (op : Nat) : Act :=
  .ask fun s =>
    let cmd := (testRegs dmc).2.2.2
    if op = 0 then .skip
    else if s.bitAt cmd 2 then acts [setFld cmd 4 3 5, testPend dmc (some 5)]
    else if !s.bitAt (eccCtrl dmc) 4 then setFld cmd 4 3 1
    else
      let r := s.testResult dmc secure op
      acts [
        setFld cmd 2 1 1, testPend dmc (some r),
        if r = 0 then testEffect dmc op
        else if r = 2 then actOpt (s.refusedBy (testReq dmc secure op) (s.testWord dmc) 8) fun n =>
          guardViolation n (testReq dmc secure op) (s.testWord dmc)
        else .skip]

/-- TEST_CMD_DONE (R259). -/
def execTestCmdDone (dmc : Bool) (s : State) : Host.Outcome State Fault Refusal :=
  live true (.ask fun s => actOpt (if dmc then s.memc.dmcOp else s.memc.stoOp) fun r => acts [
    setFld (testRegs dmc).2.2.2 2 1 0, setFld (testRegs dmc).2.2.2 4 3 r, testPend dmc none]) s

end Sys2Proof.Machine
end

