-- ==== Sys2Proof/Machine/Dma.lean ====
section
/-!
DEFINITION. Machine/Dma.lean: the transfers of the DMA engine (R280 to R292).
-/

namespace Sys2Proof.Machine

/-! ### A channel's transfer, as its registers hold it (Table 8.12) -/

/-- Byte count. -/
def State.xN (s : State) (k : Nat) : Nat := s.fld (Reg.dmaCtrl k) 0 40
/-- Source address. -/
def State.xSrc (s : State) (k : Nat) : Nat := (s.rd (Reg.dmaSrc k)).toNat
/-- Destination address. -/
def State.xDst (s : State) (k : Nat) : Nat := (s.rd (Reg.dmaDst k)).toNat
/-- Source does not increment. -/
def State.xSrcFixed (s : State) (k : Nat) : Bool := s.bitAt (Reg.dmaCtrl k) 43 && !s.bitAt (Reg.dmaCtrl k) 45
/-- Destination does not increment. -/
def State.xDstFixed (s : State) (k : Nat) : Bool := s.bitAt (Reg.dmaCtrl k) 44
/-- Fill. -/
def State.xFill (s : State) (k : Nat) : Bool := s.bitAt (Reg.dmaCtrl k) 45
/-- Channel state: 0 IDLE, 1 RUNNING, 2 SETTLING, 3 SUSPENDED. -/
def State.xState (s : State) (k : Nat) : Nat := s.fld (Reg.dmaStatus k) 40 2

/-- Bytes of the burst at an offset (R285, R286): 8 where an end is fixed; else up to 256, across no 256-byte boundary of the destination
and no 4 KiB boundary of the source. -/
def State.burstLen (s : State) (k o : Nat) : Nat :=
  if s.xSrcFixed k || s.xDstFixed k then min 8 (s.xN k - o)
  else
    let d := min (s.xN k - o) (256 - (s.xDst k + o) % 256)
    if s.xFill k then d else min d (4096 - (s.xSrc k + o) % 4096)

/-- The offset after `m` bursts from an offset. -/
def State.burstsFrom (s : State) (k : Nat) : Nat → Nat → Nat
  | 0, o => o
  | m + 1, o => s.burstsFrom k m (o + s.burstLen k o)

/-- How many bursts lie between two offsets, at most `fuel`. -/
def State.burstCount (s : State) (k upTo : Nat) : Nat → Nat → Nat
  | 0, _ => 0
  | f + 1, o => if upTo ≤ o then 0 else 1 + s.burstCount k upTo f (o + s.burstLen k o)

/-! ### Issue and end (R286, R289) -/

/-- Issue bursts until 64 are in flight; the issue of the last ends the command. Nothing is issued once a stop is asked for. -/
def dmaIssue (k : Nat) : Act :=
  .ask fun s =>
    let ch := s.dmaCh k
    if s.xState k != 1 || ch.stop != 0 then .skip
    else
      let upTo := max ch.issued (s.burstsFrom k 64 ch.off)
      acts [
        .eff (.dma k { ch with issued := upTo }),
        actIf (upTo = s.xN k) (acts [
          setFld (Reg.dmaStatus k) 40 2 2,
          actOpt ch.cmd fun id => acts [
            cmdUpd id fun c => { c with inflight := s.burstCount k upTo 64 ch.off },
            cmdEnd id fun c => c]])]

/-- What a channel does when every issued write has responded: the transfer is done, or stopped as it was asked to (R282, R292). -/
def dmaFinish (k : Nat) : Act :=
  .ask fun s =>
    let ch := s.dmaCh k
    if s.xState k = 0 || ch.off != ch.issued then .skip
    else if ch.off = s.xN k then
      acts [dmaUnload k (match ch.cmd with | some id => (match s.cmd? id with | some c => if c.fault then 2 else 1 | none => 1) | none => 1)]
    else if ch.stop = 1 then
      acts [dmaUnload k 3, actOpt ch.cmd fun id => cmdEnd id fun c => { c with squashed := c.squashed || c.squashReq }]
    else if ch.stop = 2 then dmaSuspend k
    else .skip

/-- A burst that fails ends its command with FAULT (R290). -/
def dmaFail (k : Nat) : Act :=
  .ask fun s =>
    acts [
      actOpt (s.dmaCh k).cmd fun id => acts [
        cmdUpd id fun c => { c with fault := true, inflight := 0 },
        cmdEnd id fun c => c],
      dmaUnload k 2]

/-! ### One burst -/

/-- The requests of a channel: of the seat whose command it runs, at seat addresses, or secure, at device addresses (R292). -/
def State.xSeat (s : State) (k : Nat) : Option Nat :=
  match (s.dmaCh k).cmd with
  | some id => (s.cmd? id).map Cmd.seat
  | none => none

/-- Read for a channel. -/
def State.xRead (s : State) (k a len : Nat) (h : HostAns) : MemOut :=
  match s.xSeat k with
  | some n => seatRead s stDma n a len .read h
  | none => devRead s { station := stDma, secure := true, seat := none, window := 0, kind := .read } a len 0

/-- Write for a channel. -/
def State.xWrite (s : State) (k a : Nat) (bs : List Byte) (h : HostAns) : MemOut :=
  match s.xSeat k with
  | some n => seatWrite s stDma n a bs h
  | none => devWrite s { station := stDma, secure := true, seat := none, window := 0, kind := .write } a bs

/-- Byte `o` of an overlapping copy: the source byte from before the copy, or what the copy wrote to that source byte (R288). -/
def overlapByte (snap : List Byte) (delta : Int) (seed : Nat) : Nat → Nat → Byte
  | 0, o => snap.getD o 0
  | f + 1, o =>
    let w := (o : Int) - delta
    if Config.dmaOverlap seed o || decide (w < 0) || decide ((snap.length : Int) ≤ w) || delta = 0 then snap.getD o 0
    else overlapByte snap delta seed f w.toNat

/-- The data of a burst: the fill pattern by destination address (R287), or the source bytes as read. -/
def State.xData (s : State) (k o len : Nat) (got : List Byte) : List Byte :=
  let ch := s.dmaCh k
  if s.xFill k then
    (List.range len).map fun i => BitVec.ofNat 8 (s.fld (Reg.dmaPattern k) (8 * ((s.xDst k + (if s.xDstFixed k then i else o + i)) % 8)) 8)
  else if ch.snap.isEmpty then got
  else (List.range len).map fun i => overlapByte ch.snap ch.delta ch.seed ch.snap.length (o + i)

/-- The write responses of a channel's burst return: bytes_done and the command's progress advance (R141, R290, Table 8.12). -/
def dmaAdvance (k len : Nat) : Act :=
  .ask fun s =>
    let ch := s.dmaCh k
    let off := ch.off + len
    acts [
      .eff (.dma k { ch with off := off }),
      setFld (Reg.dmaStatus k) 0 40 off,
      actOpt ch.cmd fun id => cmdUpd id fun c =>
        { c with part := off, detail := off, unitsDone := if off = s.xN k then c.unitsTotal else off / 256,
                 inflight := if c.stage = .ended then c.inflight - 1 else c.inflight },
      dmaIssue k, dmaFinish k]

/-- The oldest burst in flight of a channel: its read, its write and their responses. -/
def dmaBurst (k : Nat) (h : HostAns) : Act :=
  .ask fun s =>
    let ch := s.dmaCh k
    let o := ch.off
    let len := s.burstLen k o
    let rd : MemOut := if s.xFill k then { bytes := [], err := false, miss := false, act := .skip }
      else s.xRead k (s.xSrc k + (if s.xSrcFixed k then 0 else o)) len h
    if s.xState k = 0 then .skip
    else if ch.cmd.isSome && (s.xSeat k).isNone then dmaUnload k 2
    else if ch.issued ≤ o then dmaFinish k
    else acts [rd.act,
      if rd.err || rd.miss then dmaFail k
      else .ask fun s =>
        let bs := s.xData k o len rd.bytes
        let wr := s.xWrite k (s.xDst k + (if s.xDstFixed k then 0 else o)) bs h
        acts [wr.act,
          if wr.err || wr.miss then dmaFail k else acts [chkFeed (40 + k) (s.unitSec (147 + k)) bs, dmaAdvance k len]]]

/-- Whether a channel can make progress: its engine is clocked, and a secure channel stands still in a trusted restart (R243). -/
def State.dmaRuns (s : State) (k : Nat) : Bool := s.engineUp 1 && !(s.unitSec (147 + k) && s.bitAt Reg.secState 0)

/-- DMA_BURST_RESPONSE (R289, R290). -/
def execDmaBurstResponse (ch : Nat) (host : HostAns) (s : State) : Host.Outcome State Fault Refusal :=
  live (ch < 64) (whenS (fun s => s.dmaRuns ch) (acts [dmaBurst ch host, settleAll, queueReg])) s

/-- The bursts of a started command are issued on its channel. -/
def dmaWork (op cmd : Nat) : Act :=
  onCmd cmd fun s c => actIf (c.op = op && c.stage = .started && s.engineUp 1) (.ask fun s =>
    actOpt (s.dmaOf cmd) fun k => acts [dmaIssue k, dmaFinish k])

/-- DMA_COPY (R284 to R286): the engine issues the bursts of a copy. -/
def execDmaCopy (cmd : Nat) (s : State) : Host.Outcome State Fault Refusal := live true (dmaWork 0x0200 cmd) s

/-- DMA_FILL (R287): the engine issues the bursts of a fill. -/
def execDmaFill (cmd : Nat) (s : State) : Host.Outcome State Fault Refusal := live true (dmaWork 0x0201 cmd) s

/-! ### Secure transfers (R291, R292) -/

/-- Where the ends of a secure copy meet, the source bytes from before it. -/
def State.secSnap (s : State) (k : Nat) : List Byte × Int :=
  if s.xFill k || s.xSrcFixed k || s.xDstFixed k || !overlaps (s.xSrc k) (s.xN k) (s.xDst k) (s.xN k) then ([], 0)
  else (s.bytesAt (s.xSrc k) (s.xN k), (s.xDst k : Int) - s.xSrc k)

/-- A write of DMAk_CTRL.go on a secure channel, after its fields have been taken: ignored unless the channel is IDLE; a breach of R285
sets outcome FAULT. -/
def dmaGoOp (k : Nat) : Act :=
  .ask fun s =>
    if s.xState k != 0 then .skip
    else if !dmaEndsOk (s.xN k) (s.xSrc k) (s.xDst k) (s.xSrcFixed k) (s.xDstFixed k) then setFld (Reg.dmaStatus k) 52 2 2
    else acts [
      .eff (.dma k { cmd := none, off := 0, issued := 0, snap := (s.secSnap k).1, delta := (s.secSnap k).2, seed := s.fv, stop := 0 }),
      .eff .tick,
      setFld (Reg.dmaStatus k) 0 54 (1 * 2 ^ 40 + s.fld (Reg.dmaStatus k) 52 2 * 2 ^ 52),
      dmaIssue k, dmaFinish k]

/-- A write of DMAk_CTRL.abort on a secure channel: SETTLING until the issued writes have responded, then ABORTED. -/
def dmaAbortOp (k : Nat) : Act :=
  .ask fun s =>
    if s.xState k = 1 then acts [
      .eff (.dma k { s.dmaCh k with stop := 1 }), setFld (Reg.dmaStatus k) 40 2 2, dmaFinish k]
    else .skip

end Sys2Proof.Machine
end

