-- ==== Sys2Proof/Machine/Clock.lean ====
section
/-!
DEFINITION. Machine/Clock.lean: clock sources, PLLs and their failover, the house oscillator and its trim (R564 to R575).
-/

namespace Sys2Proof.Machine

/-! ### Sources and PLLs -/

/-- Whether a clock source is ready: 0 REFCLK, 1 PCIE_REFCLK, 2 HOSC. -/
def State.srcReady (s : State) (src : Nat) : Bool := decide (src < 3) && s.bitAt Reg.clkSrcStatus src

/-- Set PLL status: locked, coasting, reference in use, held. -/
def pllPut (p locked coasting refNow held : Nat) : Act :=
  setFld (Reg.clkPllStatus p) 0 5 (locked + coasting * 2 + refNow * 4 + held * 16)

/-- A PLL locks to a reference at full frequency. -/
def pllLock (p src : Nat) : Act := pllPut p 1 0 src 0

/-- Whether a PLL is on. -/
def State.pllOn (s : State) (p : Nat) : Bool := !s.clk.off.contains p

/-- Reference in use of a PLL. -/
def State.pllRef (s : State) (p : Nat) : Nat := s.fld (Reg.clkPllStatus p) 2 2

/-- The fallback of a source (R571). -/
def fallbackOf (src : Nat) : Nat := if src = 2 then 0 else 2

/-- A source has become ready: PLLs that have not yet run lock to their reference, held failovers switch to their fallback (R565, R569,
R571). At start-up, REFCLK ends step 2: the domains leave HOSC, the bell runs. -/
def sourceReadyOp (src : Nat) : Act :=
  .ask fun s => acts [
    setFld Reg.clkSrcStatus src 1 1,
    each ((List.range 10).filter s.pllOn) fun p =>
      if s.bitAt (Reg.clkPllStatus p) 4 then actIf (fallbackOf (s.pllRef p) = src) (pllLock p src)
      else actIf (s.pwr.boot != 0 && !s.bitAt (Reg.clkPllStatus p) 0 && !s.bitAt (Reg.clkPllStatus p) 1 && s.fld (Reg.clkPllCtrl p) 0 2 = src) (pllLock p src),
    actIf (src = 0 && s.pwr.boot = 1) (acts [
      .eff (.clk fun c => { c with direct := [] }),
      .eff (.pwr fun p => { p with boot := 2 }),
      .eff (.tts fun t => { t with running := true })])]

/-- CLOCK_SOURCE_READY (R565): the stability count of a running source has elapsed. -/
def execClockSourceReady (src : Nat) (s : State) : Host.Outcome State Fault Refusal :=
  live (src < 3) (whenS (fun s => !(src = 2 && !s.bitAt Reg.clkHosc 18)) (sourceReadyOp src)) s

/-- What a trip of its reference does to a PLL that is locked to it (Table 17.4). -/
def pllTrip (src p : Nat) : Act :=
  .ask fun s =>
    let fb := fallbackOf src
    if !s.bitAt (Reg.clkPllCtrl p) 2 then pllPut p 0 1 src 0
    else if s.srcReady fb then pllLock p fb
    else acts [pllPut p 0 1 src 1, actIf (fb = 2 && !s.bitAt Reg.clkHosc 18) (acts [setFld Reg.clkHosc 18 1 1, setFld Reg.clkHosc 0 1 0])]

/-- CLOCK_MONITOR_TRIP (R565, R566, R571). -/
def execClockMonitorTrip (src : Nat) (s : State) : Host.Outcome State Fault Refusal :=
  live (src < 3) (.ask fun s =>
    let hit := (List.range 10).filter fun p => s.pllOn p && s.bitAt (Reg.clkPllStatus p) 0 && s.pllRef p = src
    acts [
      setFld Reg.clkSrcStatus src 1 0,
      setFld Reg.clkSrcStatus (4 + src) 1 1,
      each hit (pllTrip src),
      actIf (!hit.isEmpty) (raise stClk 4)]) s

/-- FALLBACK_TIMEOUT (R571, Table 17.4): a failover is still held. -/
def execFallbackTimeout (s : State) : Host.Outcome State Fault Refusal :=
  live true (whenS (fun s => (List.range 10).any fun p => s.bitAt (Reg.clkPllStatus p) 4) (raise stClk 6)) s

/-- What a write of CLK_PLLp_CTRL.ref does (R570). -/
def pllRefOp (p ref : Nat) : Act :=
  .ask fun s =>
    if s.srcReady ref then acts [
      setFld (Reg.clkPllCtrl p) 0 2 ref,
      actIf (s.pllOn p) (pllLock p ref)]
    else acts [setFld (Reg.clkPllStatus p) 5 1 1, raise stClk 5]

/-- The PLLs at a wake from DEEP_SLEEP: each locks to its reference, or where that is not ready to its fallback (Tables 17.9, 17.16). -/
def pllWake : Act :=
  .ask fun s => acts [
    .eff (.clk fun c => { c with off := [], direct := [] }),
    each s.clk.off fun p =>
      if s.srcReady (s.pllRef p) then pllLock p (s.pllRef p)
      else pllTrip (s.pllRef p) p]

/-! ### The house oscillator (R573 to R575) -/

/-- Whether a write of stop as 1 is refused (R573). -/
def State.stopRefused (s : State) : Bool :=
  !s.bitAt Reg.clkHosc 16 || !s.clk.direct.isEmpty
    || ((List.range 10).any fun p => s.pllOn p && (s.bitAt (Reg.clkPllStatus p) 0 || s.bitAt (Reg.clkPllStatus p) 1) && s.pllRef p = 2)
    || s.fld Reg.pwrStatus 0 3 = 3 || s.fld Reg.pwrStatus 0 3 = 4

/-- Start HOSC where it is stopped. -/
def hoscStart : Act := acts [setFld Reg.clkHosc 0 1 0, setFld Reg.clkHosc 18 1 1]

/-- What a write of CLK_HOSC_CTRL does beyond its fields: trim_ref 3 is refused, code is ignored while auto is 1, stop obeys R573.
`old` is the register before the write, `m` the bits covered. -/
def hoscWriteOp (old m : Word) : Act :=
  .ask fun s => acts [
    actIf (s.fld Reg.clkHosc 2 2 = 3) (setFld Reg.clkHosc 2 2 (wBits old 2 2)),
    actIf (wBit old 1) (setFld Reg.clkHosc 8 8 (wBits old 8 8)),
    actIf (wBit m 0) (
      if s.bitAt Reg.clkHosc 0 then
        (if s.stopRefused then acts [setFld Reg.clkHosc 0 1 (wBits old 0 1), setFld Reg.clkHosc 17 1 1]
         else acts [setFld Reg.clkHosc 18 1 0, setFld Reg.clkSrcStatus 2 1 0])
      else setFld Reg.clkHosc 18 1 1)]

/-- Expected HOSC cycles of a trim window as a fraction; none where its reference pauses trimming (R575). -/
def State.trimExpect (s : State) : Option (Nat × Nat) :=
  match s.fld Reg.clkHosc 2 2 with
  | 0 => if s.srcReady 0 then some (262144, 1) else none
  | 1 =>
    let b := s.tts.cur
    if b.mode = 1 && s.tts.lock != .holdover && s.tts.lock != .free then some (64 * 100000000 * b.mul * b.den, b.num * b.div) else none
  | 2 =>
    let port := s.fld Reg.clkHosc 4 3
    let set := (s.tdmSt port).set
    if fb set 0 0 && fb set 0 1 && s.fld (Reg.audTdmStatus port) 0 2 = 1 then some (4096 * 100000000, [48000, 96000, 192000].getD (fw set 0 2 2) 96000) else none
  | _ => none

/-- An 8-bit trim code moved by a number of steps, held in its range. -/
def codeMove (code : Nat) (steps : Int) : Nat := unsigned (max (-128) (min 127 (signed code 8 + steps))) 8

/-- HOSC_TRIM_WINDOW (R575): `counted` HOSC cycles passed in a window of the trim reference. -/
def trimOp (counted : Nat) : Act :=
  .ask fun s => actOpt s.trimExpect fun e =>
    let diff : Int := (counted : Int) * e.2 - e.1
    let mag := diff.natAbs
    let fine := decide (mag * 10000 ≤ 6 * e.1)
    let steps : Int := if s.bitAt Reg.clkHosc 16 then (if 2 * e.1 < mag * 10000 then (if 0 < diff then -1 else 1) else 0)
      else -((2 * diff * 2500 + e.1) / (2 * (e.1 : Int)))
    let good := if fine then s.clk.goodWindows + 1 else 0
    if !s.bitAt Reg.clkHosc 1 || !s.bitAt Reg.clkHosc 18 then .skip
    else acts [
      setFld Reg.clkHosc 8 8 (codeMove (s.fld Reg.clkHosc 8 8) steps),
      .eff (.clk fun c => { c with goodWindows := good }),
      actIf (decide (2 ≤ good)) (setFld Reg.clkHosc 16 1 1),
      actIf (decide (e.1 < mag * 1000)) (setFld Reg.clkHosc 16 1 0)]

/-- HOSC_TRIM_WINDOW. -/
def execHoscTrimWindow (counted : Nat) (s : State) : Host.Outcome State Fault Refusal := live true (trimOp counted) s

end Sys2Proof.Machine
end

