-- ==== Sys2Proof/Machine/Power.lean ====
section
/-!
DEFINITION. Machine/Power.lean: resets, the boot sequence, power states (R261, R262, R266, R271 to R273, R580 to R595).
-/

namespace Sys2Proof.Machine

/-! ### Resets of the chip (R587 to R591) -/

/-- Whether straps have values that the pins can give. -/
def strapsOk (st : Straps) : Bool := decide (st.link < 4) && decide (st.sup < 4)

/-- POWER_ON_RESET (R587, R592): boot runs from step 1. -/
def execPowerOnReset (st : Straps) (s : State) : Host.Outcome State Fault Refusal :=
  .next (if strapsOk st then applyEff (.powerOn st) s else s)

/-- A chip reset of a kind, recorded in RST_CAUSE: 1 pin, 3 software with who asked for it (Table 17.11). -/
def chipResetOp (st : Straps) (kind by_ : Nat) : Act :=
  .eff (.chipReset st (BitVec.ofNat 64 (kind + by_ * 4)))

/-- PIN_RESET (R587, R588): POR_N was low for `lowNs` nanoseconds with all rails up. It acts in the safe state too (R549). -/
def execPinReset (st : Straps) (lowNs : Nat) (s : State) : Host.Outcome State Fault Refusal :=
  .next (
    if !strapsOk st || !s.pwr.rails || decide (lowNs < 1000) then s
    else if 10000 ≤ lowNs then runAct (chipResetOp st 1 0) s
    else if Config.porPulse s.fv then runAct (acts [.eff .tick, chipResetOp st 1 0]) s
    else runAct (.eff .tick) s)

/-- RAILS_COME_DOWN (R590, Table 17.10): nothing is kept; nothing happens until power comes back. -/
def execRailsComeDown (s : State) : Host.Outcome State Fault Refusal :=
  .next (applyEff (.pwr fun p => { p with rails := false, boot := 0 }) (applyEff (.powerOn s.pwr.straps) s))

/-- A write of RST_CHIP (R589): go with key 0x5A. The path tells who asked: 0 supervisor seat, 1 management firmware, 2 I3C. -/
def rstChipOp (p : Path) (w : Word) : Act :=
  .ask fun s =>
    actIf (wBit w 0 && wBits w 8 8 = 0x5A)
      (chipResetOp s.pwr.straps 3 (match p with | .pf _ => 0 | .i3c => 2 | _ => 1))

/-- How many PCIe links the straps give (Table 6.1). -/
def State.linkCount (s : State) : Nat := [1, 2, 4].getD s.pwr.straps.link 0

/-- LINK_RESET (R587): PERST_N of a link falls; the seats of its functions are reset as by an FLR. -/
def execLinkReset (link : Nat) (s : State) : Host.Outcome State Fault Refusal :=
  live true (whenS (fun s => decide (link < s.linkCount)) (.ask fun s => acts [
    .eff (.pwr fun p => { p with perst := p.perst.filter (· != link), links := p.links.filter (· != link) }),
    each ((List.range 4).filter fun p => s.linkOfPf p = link) flrOp])) s

/-- PERST_RELEASE (R592): PERST_N of a link rises, and the link trains. -/
def execPerstRelease (link : Nat) (s : State) : Host.Outcome State Fault Refusal :=
  live true (whenS (fun s => decide (link < s.linkCount) && !s.pwr.perst.contains link)
    (.eff (.pwr fun p => { p with perst := p.perst ++ [link] }))) s

/-- PCIE_LINK_TRAINED (Table 17.14 step 6): a link whose PERST_N is high. -/
def execPcieLinkTrained (link : Nat) (s : State) : Host.Outcome State Fault Refusal :=
  live true (whenS (fun s => decide (5 ≤ s.pwr.boot) && s.pwr.perst.contains link && !s.pwr.links.contains link)
    (.eff (.pwr fun p => { p with links := p.links ++ [link], boot := max p.boot 6 }))) s

/-! ### Boot: firmware and DRAM (Table 17.14 steps 4 and 5) -/

/-- KARCEN_FIRMWARE_START. -/
def execKarcenFirmwareStart (s : State) : Host.Outcome State Fault Refusal :=
  live true (whenS (fun s => s.pwr.boot = 3 && s.worlds.beyloth)
    (acts [.eff (.pwr fun p => { p with boot := 4 }), .eff (.adm fun a => { a with mgtUp := true })])) s

/-- An inline-ECC range as its registers hold it: enabled, first and last page, first page of the carve-out. -/
structure IeccReg where
  idx : Nat
  base : Nat
  limit : Nat
  carve : Nat

/-- The enabled ranges. -/
def State.ieccRegs (s : State) : List IeccReg :=
  ((List.range 4).filter fun r => s.bitAt (Reg.dmcIeccBase r) 0).map fun r =>
    { idx := r, base := s.fld (Reg.dmcIeccBase r) 12 36, limit := s.fld (Reg.dmcIeccLimit r) 12 36, carve := s.fld (Reg.dmcIeccCarve r) 12 36 }

/-- Pages of a range. -/
def ieccPages (r : IeccReg) : Nat := r.limit + 1 - r.base

/-- Whether an enabled range can be protected (R273): its size, its place in `size` pages of DRAM, its overlaps. -/
def ieccOk (rs : List IeccReg) (size : Nat) (r : IeccReg) : Bool :=
  ieccPages r % 8 = 0 && ieccPages r != 0 && decide (r.limit < size) && decide (r.carve + ieccPages r / 8 ≤ size)
    && rs.all fun x =>
      (x.idx = r.idx || !overlaps r.base (ieccPages r) x.base (ieccPages x)) && !overlaps r.base (ieccPages r) x.carve (ieccPages x / 8)

/-- Initialise the DRAM controller: DMC_CFG and the ranges are taken (R262, R272, R273). -/
def dramInit : Act :=
  .ask fun s => acts [
    .eff (.memc fun m => { m with cfg := (s.rd Reg.dmcCfg).toNat, up := true }),
    .ask fun s =>
      let rs := s.ieccRegs
      let ok := rs.filter (ieccOk rs (s.dramSize / 4096))
      acts [
        .eff (.memc fun m => { m with iecc := ok.map fun r => (r.base * 4096, r.limit * 4096 + 4095, r.carve * 4096) }),
        each (rs.filter fun r => !ieccOk rs (s.dramSize / 4096) r) fun _ => raise stDmc 10,
        setFld Reg.mgtCap3 32 8 (16 * 2 ^ nBits s.memc.cfg 0 2)]]

/-- DRAM_TRAINING_DONE (R262, R266): density 3 is refused; each channel that failed raises TRAIN_FAIL, and boot goes no further (R593). -/
def execDramTrainingDone (trained : Nat) (s : State) : Host.Outcome State Fault Refusal :=
  live (trained < 2 ^ 32) (.ask fun s =>
    if s.pwr.boot != 4 || s.memc.up then .skip
    else if s.fld Reg.dmcCfg 0 2 = 3 then raise stDmc 7
    else
      let bad := (List.range 32).filter fun c => !nBit trained c
      acts [
        setReg Reg.dmcTrainStatus (BitVec.ofNat 64 trained),
        if bad.isEmpty then acts [dramInit, .eff (.pwr fun p => { p with boot := 5 })]
        else each bad fun c => whenS (fun s => !s.flt.safe) (raiseSrc stDmc 7 c none)]) s

/-! ### Power states (R580 to R586) -/

/-- Set PWR_STATUS.state. -/
def pwrState (v : Nat) : Act := setFld Reg.pwrStatus 0 3 v
/-- Set PWR_STATUS.result. -/
def pwrResult (v : Nat) : Act := setFld Reg.pwrStatus 3 3 v

/-- The power state. -/
def State.pst (s : State) : Nat := s.fld Reg.pwrStatus 0 3

/-- Port and stream that carry a head, if any. -/
def State.portOf (s : State) (h : Nat) : Option (Nat × Nat) :=
  ((List.range 16).map fun n => (portStreams (s.port n)).filterMap fun i => if fw (s.port n).set (1 + i) 1 5 = h then some (n, i) else none).flatten.head?

/-- Mode of a port's applied set: 0 OFF, 1 DP, 2 EDP. -/
def portMode (p : PortSt) : Nat := fw p.set 0 0 2

/-- Self-refresh mode of a port's applied set. -/
def portSr (p : PortSt) : Nat := fw p.set 0 12 2

/-- Whether a head is one of an eDP port whose sr_mode is not OFF. -/
def State.srHead (s : State) (h : Nat) : Bool :=
  match s.portOf h with
  | some (n, _) => portMode (s.port n) = 2 && portSr (s.port n) != 0
  | none => false

/-- The canvas of a head, and its entry. -/
def State.canvasOf (s : State) (h : Nat) : Option (Nat × Nat) :=
  (s.pic.canvases.map fun c => (cpEntries c.2.par).filterMap fun e => if e.2 = h then some (c.1, e.1) else none).flatten.head?

/-- The canvas rectangle that a head shows: its clip. -/
def clipRect (cp : List Word) (i : Nat) (h : HeadSt) : Rect :=
  let c := cpClip cp i
  { l := c.1, t := c.2, r := c.1 + h.w, b := c.2 + h.ht }

/-- The enabled layers that touch a head's clip. -/
def State.clipLayers (s : State) (h : Nat) : List Nat :=
  match s.canvasOf h with
  | some (c, i) =>
    (s.pic.layers.filter fun l => lpOn l.2.par && lpCanvas l.2.par = c && touches l.2.par (clipRect (s.canvas c).par i (s.head h))).map Prod.fst
  | none => []

/-- Whether a MOTION layer touches the clip of an eDP head whose sr_mode is not OFF (REFUSED_MOTION). -/
def State.motionHeld (s : State) : Bool :=
  (List.range 32).any fun h => s.srHead h && (s.clipLayers h).any fun l => lpMode (s.layer l).par = 3

/-- Entry into DEEP_SLEEP begins once the state is SLEEP and no hand-over runs (R584). -/
def deepBegin : Act :=
  whenS (fun s => s.pst = 2 && s.pwr.deep && s.fld Reg.secHoStatus 0 2 = 0) (acts [pwrState 3, whenS (fun s => !s.bitAt Reg.clkHosc 18) hoscStart])

/-- A wake event of DEEP_SLEEP (R585): one that meets the entry waits for its end (Table 17.16). Cause: 3 touch, 4 PCIe, 5 I3C. -/
def wakeOp (cause : Nat) : Act :=
  .ask fun s =>
    if s.pst = 4 then acts [pwrState 5, setFld Reg.pwrStatus 6 3 cause]
    else if s.pst = 3 && s.pwr.wakeReq = 0 then .eff (.pwr fun p => { p with wakeReq := cause })
    else .skip

/-- A write of PWR_CTRL.request (R580 to R585): 1 RUN, 2 SLEEP, 3 DEEP_SLEEP. -/
def pwrRequestOp (p : Path) (req : Nat) : Act :=
  .ask fun s =>
    let st := s.pst
    if req = 0 then .skip
    else if req = 1 then
      if st = 2 then acts [pwrResult 0, .eff (.pwr fun x => { x with runReq := true, deep := false })]
      else if p = .i3c && (st = 3 || st = 4) then acts [pwrResult 0, wakeOp 5]
      else pwrResult 2
    else if st = 0 then
      if s.motionHeld then pwrResult 3
      else acts [
        pwrResult 0, pwrState 1, setFld Reg.pwrStatus 9 1 0,
        .eff (.pwr fun x => { x with sleepReq := s.tts.bell, deep := req = 3, runReq := false })]
    else if st = 2 && req = 3 then acts [pwrResult 0, setFld Reg.pwrStatus 9 1 0, .eff (.pwr fun x => { x with deep := true, runReq := false }), deepBegin]
    else pwrResult 2

/-- DEEP_SLEEP_ENTRY (R584): heads off the link, audio faded, haptics finished, touch ports in doze, DRAM in self-refresh, the bell stopped,
every PLL but PLL 8 off. A wake that arrived meanwhile follows at once. -/
def execDeepSleepEntry (s : State) : Host.Outcome State Fault Refusal :=
  live true (acts [deepBegin, .ask fun s => actIf (s.pst = 3) (acts [
    each ((List.range 32).filter fun h => s.fld (Reg.hdStatus h) 0 3 = 3 || s.fld (Reg.hdStatus h) 0 3 = 4) fun h =>
      acts [setFld (Reg.hdStatus h) 0 3 0, headUpd h fun x => { x with frame := none, exit := none, capture := none }],
    each ((List.range 16).filter fun n => s.fld (Reg.dptStatus n) 0 3 != 0 && s.fld (Reg.dptStatus n) 0 3 != 3) fun n => setFld (Reg.dptStatus n) 0 3 0,
    .eff (.med fun m => { m with aud := { m.aud with fadeUp := false, fade := 0, nodes := m.aud.nodes.map fun n =>
      (n.1, match n.2.ramp with | some r => { n.2 with level := if r.2.2.2.2 then none else some r.2.1, ramp := none } | none => n.2) } }),
    each (List.range 8) fun n => actIf (decide (2 ≤ s.fld (Reg.tchStatus n) 0 3) && decide (s.fld (Reg.tchStatus n) 0 3 ≤ 4)) (acts [
      setFld (Reg.tchStatus n) 0 3 3,
      .eff (.med fun m => { m with tch := m.tch.map fun t => if t.1 = n then (n, { t.2 with scan := false, testScan := false }) else t })]),
    .eff (.vid fun v => { v with caps := v.caps.map fun c => (c.1, { c.2 with slot := none }) }),
    .eff (.memc fun m => { m with selfRefresh := true }),
    .eff (.tts fun t => { t with running := false }),
    .eff (.clk fun c => { c with off := [0, 1, 2, 3, 4, 5, 6, 7, 9] }),
    each [0, 1, 2, 3, 4, 5, 6, 7, 9] fun p => setFld (Reg.clkPllStatus p) 0 1 0,
    pwrState 4, pwrResult 1, gateAll,
    .ask fun s => actIf (s.pwr.wakeReq != 0) (acts [wakeOp s.pwr.wakeReq, .eff (.pwr fun x => { x with wakeReq := 0 })])])]) s

/-- PCIE_WAKE_REQUEST (R585). -/
def execPcieWakeRequest (s : State) : Host.Outcome State Fault Refusal := live true (wakeOp 4) s

end Sys2Proof.Machine
end

