-- ==== Sys2Proof/Machine/Ports.lean ====
section
/-!
DEFINITION. Machine/Ports.lean: transmit ports and their links, committed head timing (R361 to R367, R373 to R383).
-/

namespace Sys2Proof.Machine

/-! ### Committed sets -/

/-- Whether the commit of this edge brought a register: its offset is among those whose committed value has changed. -/
abbrev Changed := List Nat

/-! ### Ports (R373 to R376, R382) -/

/-- The registers of a port's set. -/
def portRegs (n : Nat) : List Nat := Reg.dptCfg n :: (List.range 4).map (Reg.dptStream n)

/-- The committed set of a port. -/
def State.portCom (s : State) (n : Nat) : List Word := (portRegs n).map s.cm

/-- Link rates in Mb/s by code (Table 11.10); code 7 is taken at its bound. -/
def linkRate (c : Nat) : Nat := [1620, 2700, 5400, 8100, 10000, 13500, 20000, 8100].getD c 0

/-- The enabled streams of a set, whatever its mode. -/
def setStreams (set : List Word) : List Nat := (List.range 4).filter fun i => fb set (1 + i) 0

/-- ENCODING of Table 11.11. -/
def portEncodingBad (set : List Word) : Bool :=
  let mode := fw set 0 0 2
  let rate := fw set 0 2 3
  let on := setStreams set
  mode = 3 || fw set 0 8 2 = 3 || fw set 0 12 2 = 3 || ((List.range 4).any fun i => decide (4 < fw set (1 + i) 26 3))
    || (mode = 1 && (!(decide (3 ≤ rate) && decide (rate ≤ 6)) || fw set 0 12 2 != 0))
    || (mode = 2 && (!(decide (rate ≤ 3) || rate = 7) || fb set 0 10 || (on.any fun i => i != 0) || on.any fun i => fb set (1 + i) 7))

/-- DSC of Table 11.11 for stream `i`. -/
def dscBad (set : List Word) (i : Nat) (h : HeadSt) : Bool :=
  fb set (1 + i) 6 && (h.w % 2 ^ fw set (1 + i) 26 3 != 0 || decide (fw set (1 + i) 32 16 < 8) || h.ht % fw set (1 + i) 32 16 != 0
    || decide (fw set (1 + i) 16 10 < 128) || decide (320 < fw set (1 + i) 16 10))

/-- By how much f_pix counts, in thousandths: 0.3% more in GENLOCK and CAPTURE (R631). -/
def pixMargin (b : BellSet) : Nat := if b.mode = 0 then 1000 else 1003

/-- Time slots of stream `i` (R374). -/
def streamSlots (b : BellSet) (set : List Word) (i : Nat) (h : HeadSt) : Nat :=
  let bpp16 := if fb set (1 + i) 6 then fw set (1 + i) 16 10 else if wBit h.timF 11 then 384 else 480
  let wide := decide (4 ≤ fw set 0 2 3) && decide (fw set 0 2 3 ≤ 6)
  let fec := !wide && (setStreams set).any fun j => fb set (1 + j) 6
  let e : Nat × Nat := if wide then (128, 132) else (4, 5)
  let f : Nat × Nat := if fec then (976, 1000) else (1, 1)
  ceilDiv (64 * h.htot * h.vt * b.num * bpp16 * e.2 * f.2 * pixMargin b)
    (16 * b.den * h.k * 2 ^ fw set 0 8 2 * linkRate (fw set 0 2 3) * 1000000 * e.1 * f.1 * 1000)

/-- Bits of DPTn_CFG that bring the link up again: mode, rate, edp_rate_idx, lanes, mst, lane_swap (R376). -/
def linkBits (w : Word) : Nat := wBits w 0 12

/-- config_result of a committed set, and the slots that it takes (Table 11.11). -/
def State.portCheck (s : State) (n : Nat) (set : List Word) : Nat × Nat :=
  let b := s.tts.cur
  let on := setStreams set
  let hs := on.map fun i => fw set (1 + i) 1 5
  let others := (((List.range 16).filter (· != n)).map fun m => (setStreams (s.port m).set).map fun i => fw (s.port m).set (1 + i) 1 5).flatten
  let slots := if fw set 0 0 2 = 0 then 0 else sumOn on fun i => streamSlots b set i (s.head (fw set (1 + i) 1 5))
  if portEncodingBad set then (1, 0)
  else if hs.eraseDups.length != hs.length || hs.any others.contains then (2, 0)
  else if on.any fun i => dscBad set i (s.head (fw set (1 + i) 1 5)) then (3, 0)
  else if decide ((if fb set 0 10 then 63 else 64) < slots)
      || on.any (fun i => fb set (1 + i) 7 && decide ((s.head (fw set (1 + i) 1 5)).htot < (s.head (fw set (1 + i) 1 5)).w + 128)) then (4, 0)
  else if !rateWithin b (hs.map s.head) 2000000000 then (5, 0)
  else if linkBits (set.getD 0 0) != linkBits ((s.port n).set.getD 0 0) && (!on.isEmpty || !(setStreams (s.port n).set).isEmpty) then (6, 0)
  else (0, slots)

/-- Start link bring-up (R380). -/
def bringUp (n : Nat) : Act :=
  .ask fun s =>
    if portMode (s.port n) = 0 then acts [setFld (Reg.dptStatus n) 0 3 0, portUpd n fun p => { p with bringup := false }]
    else acts [setFld (Reg.dptStatus n) 0 3 1, portUpd n fun p => { p with bringup := true }]

/-- PORT_SET_APPLY: judge the set of a port that the commit has brought; apply it whole, or keep the set before (R375). -/
def portApply (chg : Changed) (n : Nat) : Act :=
  .ask fun s =>
    if !(portRegs n).any chg.contains then .skip
    else
      let set := s.portCom n
      let old := (s.port n).set
      let r := s.portCheck n set
      acts [
        setFld (Reg.dptStatus n) 14 3 r.1,
        actIf (r.1 = 0) (acts [
          setFld (Reg.dptStatus n) 32 6 r.2,
          portUpd n fun p => { p with
            set := set
            since := (List.range 4).map fun i =>
              if fb set (1 + i) 0 && !(fb old (1 + i) 0 && fw old (1 + i) 1 5 = fw set (1 + i) 1 5) then
                s.tts.bell + (if fb set 0 10 then 2 else 0)
              else p.since.getD i 0 },
          actIf (linkBits (set.getD 0 0) != linkBits (old.getD 0 0)) (bringUp n),
          each (((setStreams old).map fun i => fw old (1 + i) 1 5) ++ (setStreams set).map fun i => fw set (1 + i) 1 5) fun h =>
            headUpd h fun x => { x with changed := true }])]

/-! ### Link events (R380, R381, R389, R391) -/

/-- HPD_RISE. -/
def execHpdRise (port : Nat) (s : State) : Host.Outcome State Fault Refusal :=
  live (port < 16) (acts [setFld (Reg.dptStatus port) 3 1 1, raise (stDpt port) 5, bringUp port]) s

/-- HPD_FALL: HPD has been low for 2 ms. Heads in self-refresh enter ACTIVE at once (Table 11.14). -/
def execHpdFall (port : Nat) (s : State) : Host.Outcome State Fault Refusal :=
  live (port < 16) (.ask fun s => acts [
    setFld (Reg.dptStatus port) 3 1 0, setFld (Reg.dptStatus port) 0 3 0,
    portUpd port fun p => { p with bringup := false },
    each ((List.range 4).map fun i => (List.range 64).map fun j => (i, j)).flatten fun x => setReg (Reg.dptEdid port x.1 x.2) 0,
    each ((portHeads (s.port port)).filter fun h => s.fld (Reg.hdStatus h) 0 3 = 3) fun h =>
      acts [setFld (Reg.hdStatus h) 0 3 2, headUpd h fun x => { x with idle := 0, capture := none }],
    raise (stDpt port) 5]) s

/-- IRQ_HPD: serviced by the firmware without a change of link. -/
def execIrqHpd (port : Nat) (s : State) : Host.Outcome State Fault Refusal := live (port < 16) .skip s

/-- SINK_LOCK_LOSS: bring-up without a change of HPD. -/
def execSinkLockLoss (port : Nat) (s : State) : Host.Outcome State Fault Refusal := live (port < 16) (bringUp port) s

/-- What a sink lacks of a port's applied set (R380). -/
def sinkLacks (set : List Word) (k : SinkIn) : Bool :=
  (if fw set 0 2 3 = 7 then decide (k.entries ≤ fw set 0 5 3) else decide (k.rate < fw set 0 2 3))
    || decide (k.lanes < fw set 0 8 2)
    || (!k.dsc && (setStreams set).any fun i => fb set (1 + i) 6)
    || (!k.mst && fb set 0 10)
    || decide (k.sr < fw set 0 12 2)

/-- LINK_BRINGUP_DONE: UP, or FAILED with SINK or LINK_FAIL. -/
def execLinkBringupDone (port : Nat) (sink : SinkIn) (s : State) : Host.Outcome State Fault Refusal :=
  live (decide (port < 16) && decide (sink.rate < 8) && decide (sink.lanes < 3) && decide (sink.sr < 3)) (.ask fun s =>
    actIf (s.port port).bringup (acts [
      portUpd port fun p => { p with bringup := false },
      setFld (Reg.dptStatus port) 4 10 (sink.rate + sink.lanes * 2 ^ 4 + sink.sr * 2 ^ 6 + b2n sink.dsc * 2 ^ 8 + b2n sink.mst * 2 ^ 9),
      each ((List.range 4).map fun i => (List.range 64).map fun j => (i, j)).flatten fun x =>
        setReg (Reg.dptEdid port x.1 x.2) ((sink.edids.getD x.1 []).getD x.2 0),
      if sinkLacks (s.port port).set sink then acts [setFld (Reg.dptStatus port) 0 3 3, setFld (Reg.dptStatus port) 14 3 7]
      else acts [
        actIf (s.fld (Reg.dptStatus port) 14 3 = 7) (setFld (Reg.dptStatus port) 14 3 0),
        if sink.trained then setFld (Reg.dptStatus port) 0 3 2
        else acts [setFld (Reg.dptStatus port) 0 3 3, raise (stDpt port) 4]]])) s

/-- LINK_WAKE_DONE: a link that was waking is UP. -/
def execLinkWakeDone (port : Nat) (s : State) : Host.Outcome State Fault Refusal :=
  live (port < 16) (whenS (fun s => s.fld (Reg.dptStatus port) 0 3 = 5) (setFld (Reg.dptStatus port) 0 3 2)) s

/-! ### Head timing (R364, R366) -/

/-- The timing registers of a head. -/
def headRegs (h : Nat) : List Nat := [Reg.hdTimingH h, Reg.hdTimingV h, Reg.hdFrame h]

/-- HDh_FRAME without enable. -/
def frameWord (w : Word) : Word := wSet w 12 1 0

/-- Whether a timing is valid under a bell setting (R363, R364). -/
def timingOk (b : BellSet) (h : HeadSt) : Bool :=
  let fh := wBits h.timH 32 16
  let sh := wBits h.timH 48 16
  let fv := wBits h.timV 32 16
  let sv := wBits h.timV 48 16
  decide (64 ≤ h.w) && decide (h.w ≤ 7680) && h.w % 2 = 0 && decide (64 ≤ h.ht) && decide (h.ht ≤ 4320) && h.ht % 2 = 0
    && decide (1 ≤ fh) && decide (1 ≤ sh) && decide (1 ≤ fv) && decide (1 ≤ sv)
    && decide (h.w + 64 ≤ h.htot) && decide (h.ht + 8 ≤ h.vt)
    && decide (fh + sh + h.w ≤ h.htot) && decide (fv + sv + h.ht ≤ h.vt)
    && decide (h.slot < h.k)
    && decide (h.htot * h.vt * b.num * pixMargin b ≤ 2200000000 * b.den * h.k * 1000)
    && decide (h.w * h.ht * b.num ≤ 2000000000 * b.den * h.k)

/-- Whether a head belongs to a committed canvas. -/
def State.inCanvas (s : State) (h : Nat) : Bool := (s.canvasOf h).isSome

/-- HEAD_TIMING_APPLY at a commit: a committed timing is applied, held or refused. -/
def headApply (chg : Changed) (h : Nat) : Act :=
  .ask fun s =>
    let old := s.head h
    let new : HeadSt := { old with timH := s.cm (Reg.hdTimingH h), timV := s.cm (Reg.hdTimingV h), timF := frameWord (s.cm (Reg.hdFrame h)) }
    acts [
      actIf ((headRegs h ++ [Reg.hdColors h, Reg.hdTally h]).any chg.contains) (headUpd h fun x => { x with changed := true }),
      if new.timH = old.timH && new.timV = old.timV && new.timF = old.timF then setFld (Reg.hdStatus h) 3 3 0
      else if !timingOk s.tts.cur new then setFld (Reg.hdStatus h) 3 3 1
      else if s.inCanvas h then setFld (Reg.hdStatus h) 3 3 6
      else acts [
        headUpd h fun x => { x with timH := new.timH, timV := new.timV, timF := new.timF },
        setFld (Reg.hdStatus h) 3 3 0]]

/-- Whether a head is enabled and in an enabled stream (Table 11.4). -/
def State.headOn (s : State) (h : Nat) : Bool := s.cfld (Reg.hdFrame h) 12 1 = 1 && s.streaming h

/-- The state that a head's configuration gives it: OFF, BLACK or ACTIVE. States of self-refresh stay until their own events. -/
def headStatePut (h : Nat) : Act :=
  .ask fun s =>
    let st := s.fld (Reg.hdStatus h) 0 3
    let quiesced := s.fld Reg.secHoStatus 0 2 = 2 && s.worlds.moving.contains h
    if !s.headOn h || quiesced then setFld (Reg.hdStatus h) 0 3 0
    else if (s.head h).asleep then .skip
    else if !s.inCanvas h then (if st = 3 || st = 4 then .skip else setFld (Reg.hdStatus h) 0 3 1)
    else if st = 3 || st = 4 then .skip
    else setFld (Reg.hdStatus h) 0 3 2

end Sys2Proof.Machine
end

