-- ==== Sys2Proof/Machine/RollCall.lean ====
section
/-!
DEFINITION. Machine/RollCall.lean: the commit of composer sets, recipe changes and the tiles they mark, flip latches, stamp blocks,
roll call, self-refresh decisions (R302, R321, R327, R332 to R348, R352, R385 to R388, R436, R636).
-/

namespace Sys2Proof.Machine

/-! ### Marked tiles (R321, Table 9.10) -/

/-- Whether recipe changes mark tiles: not in SLEEP (R582). -/
def State.marking (s : State) : Bool := s.pst != 2 && s.pst != 3

/-- Mark tiles of a head. -/
def markTiles (h : Nat) (ts : List Nat) : Act :=
  whenS State.marking (headUpd h fun x => { x with marked := x.marked ++ ts.filter fun t => !x.marked.contains t })

/-- Mark every tile of a head. -/
def markHead (h : Nat) : Act := .ask fun s => markTiles h (List.range ((s.head h).tw * (s.head h).th))

/-- The footprint of a layer with parameters `p`: per head of its canvas, the tiles that its destination rectangle touches. -/
def State.footprint (s : State) (p : List Word) : List (Nat × List Nat) :=
  if p.isEmpty then []
  else
    let cp := (s.canvas (lpCanvas p)).par
    (cpEntries cp).map fun e =>
      (e.2, (List.range ((s.head e.2).tw * (s.head e.2).th)).filter fun t => touches p (tileRect cp e.1 (s.head e.2) t))

/-- Mark a footprint. -/
def markFoot (p : List Word) : Act := .ask fun s => each (s.footprint p) fun x => markTiles x.1 x.2

/-- Verdict of a layer at the last edge: 0 PRESENT, 1 LATE, 2 ABSENT, 3 NOT_JUDGED. -/
def State.verdict (s : State) (l : Nat) : Nat := s.fld (Reg.rlcLayer l) 0 2
/-- Whether a layer's ALTERNATE is drawn as FLAT. -/
def State.altFallback (s : State) (l : Nat) : Bool := s.bitAt (Reg.rlcLayer l) 12

/-- Substitute of a layer: 0 HATCH, 1 DIM_BORDER, 2 FLAT, 3 ALTERNATE. -/
def lpSubst (p : List Word) : Nat := fw p 11 16 2
/-- alt_layer. -/
def lpAlt (p : List Word) : Nat := fw p 11 32 9
/-- max_age. -/
def lpMaxAge (p : List Word) : Nat := fw p 11 8 8
/-- DEGRADED policy: 0 SHOW, 1 MARK, 2 ABSENT. -/
def lpDpolicy (p : List Word) : Nat := fw p 11 18 2

/-- Whether a layer shows the surface of layer `l` as its ALTERNATE. -/
def State.showsAlt (s : State) (m l : Nat) : Bool :=
  let p := (s.layer m).par
  lpOn p && s.verdict m = 2 && lpSubst p = 3 && lpAlt p = l && !s.altFallback m

/-- A recipe change of a layer marks its footprint, and that of every layer showing it. -/
def layerChanged (l : Nat) : Act :=
  .ask fun s => acts [
    markFoot (s.layer l).par,
    each ((s.pic.layers.map Prod.fst).filter fun m => s.showsAlt m l) fun m => markFoot (s.layer m).par]

/-! ### Commits (R302, R304, R297, R299) -/

/-- The commit of a layer's set. -/
def layerCommit (x : PendSet) : Act :=
  let new := fw x.words 16 0 64
  acts [
    layerChanged x.idx,
    layerUpd x.idx fun l =>
      { l with par := x.words
               seat := x.seat
               surf := if new = 0 then l.surf else new
               seq := if new = 0 then l.seq else fw x.words 17 0 32
               fresh := l.fresh || new != 0
               enabling := l.enabling || (lpOn x.words && (!lpOn l.par || lpMode l.par != lpMode x.words || lpStamp l.par != lpStamp x.words)) },
    layerChanged x.idx]

/-- The words of a canvas's entry. -/
def cpEntryWords (p : List Word) (i : Nat) : List Nat := [fw p (4 + 2 * i) 0 64, fw p (5 + 2 * i) 0 64]

/-- The part of a canvas's parameters that every tile depends on: size, background, mode. -/
def cpBase (p : List Word) : List Nat := [fw p 1 5 2, fw p 2 0 32, fw p 3 0 48]

/-- The buffers of a head that leaves its canvas wait for the end of the last frame from them; where no such frame runs, they return to the
pool at once (R299). -/
def buffersLeave (h : Nat) : Act :=
  headUpd h fun x => { x with bufs := [], old := if x.frame.isSome && x.shows then x.bufs else [], comps := [], changed := true }

/-- A head joins a canvas: buffers that had not yet returned to the pool stay with it. -/
def buffersJoin (h : Nat) : Act :=
  acts [headUpd h fun x => { x with bufs := if x.bufs.isEmpty then x.old else x.bufs, old := if x.bufs.isEmpty then [] else x.old, changed := true },
    markHead h]

/-- The commit of a canvas's set. -/
def canvasCommit (x : PendSet) : Act :=
  .ask fun s =>
    let old := s.canvas x.idx
    let oldE := cpEntries old.par
    let newE := cpEntries x.words
    let same (e : Nat × Nat) : Bool := oldE.any fun o =>
      o.2 = e.2 && cpEntryWords old.par o.1 = cpEntryWords x.words e.1 && old.curves.getD o.1 [] = x.curves.getD e.1 []
    acts [
      canvasUpd x.idx fun _ => { par := x.words, seat := x.seat, curves := x.curves },
      each (oldE.filter fun o => !newE.any fun e => e.2 = o.2) fun o => buffersLeave o.2,
      each (newE.filter fun e => !oldE.any fun o => o.2 = e.2) fun e => buffersJoin e.2,
      each (newE.filter fun e => (oldE.any fun o => o.2 = e.2) && (cpBase old.par != cpBase x.words || !same e)) fun e =>
        acts [headUpd e.2 fun h => { h with changed := true }, markHead e.2],
      poolFree]

/-- COMMIT_POINT: commit the shadows of composer commands that no chain and no fence holds back, and end their commands. -/
def commitSets : Act :=
  .ask fun s =>
    let ready := s.pic.sets.filter fun x => !x.held && (match s.cmd? x.cmd with | some c => s.free c | none => true)
    acts [
      .eff (.pic fun p => { p with sets := p.sets.filter fun x => !ready.any fun r => r.cmd = x.cmd && r.seat = x.seat }),
      each ready fun x => acts [
        if x.canvas then canvasCommit x else layerCommit x,
        cmdEnd x.cmd fun c => { c with detail := s.tts.bell % 2 ^ 32 }]]

/-! ### Flips (R327, R436) -/

/-- Latch a surface for a layer. -/
def surfaceLatch (l seat surf seq : Nat) : Act :=
  acts [layerUpd l fun x => { x with surf := surf, seq := seq, seat := seat, fresh := true }, layerChanged l]

/-- FLIP_LATCH: the pending flips whose sampled counter has reached its value. -/
def flipLatch : Act :=
  .ask fun s =>
    let met (f : PendFlip) : Bool :=
      (match f.fence with | some (n, v) => decide (v ≤ (mapGet (fun _ => 0) n s.tts.sampled).toNat) | none => true)
        && (match s.cmd? f.cmd with | some c => s.free c | none => true)
    let hit := s.pic.flips.filter met
    acts [
      .eff (.pic fun p => { p with flips := p.flips.filter fun f => !hit.any fun x => x.cmd = f.cmd }),
      each hit fun f => acts [
        each f.items fun i => surfaceLatch i.1 f.seat i.2.1 i.2.2,
        cmdEnd f.cmd fun c => { c with detail := s.tts.bell % 2 ^ 32 }]]

/-- RING_BOUND_LATCH: a bound ring latches its latest publication. -/
def ringLatch : Act :=
  .ask fun s => each (s.rings.filter fun r => r.bind) fun r =>
    match r.owner, r.pubs with
    | some seat, (slot, seq) :: _ => whenS (fun s => (s.layer r.layer).seq != seq) (surfaceLatch r.layer seat (r.base + slot * r.stride) seq)
    | _, _ => .skip

/-! ### Stamp blocks (R332, R334) -/

/-- The bell of a stamp block. -/
def stampBell (w : Word) : Nat := wBits w 0 48

/-- The bytes that a read gives, or free bytes where it received an error response. -/
def State.readOr (s : State) (o : MemOut) (n : Nat) : List Byte :=
  if o.err then (List.range n).map (Config.errData s.fv) else o.bytes

/-- Sample the stamp block of an enabled layer; a block that differs in what roll call reads marks the footprint. -/
def stampSample (l : Nat) : Act :=
  .ask fun s =>
    let x := s.layer l
    let o := seatRead s stRlc x.seat (lpStamp x.par) 16 .read .ok
    let bs := s.readOr o 16
    let new := (bytesWord (bs.take 8), bytesWord (bs.drop 8))
    let degr (w : Word × Word) : Nat := if wBit w.1 48 then w.2.toNat + 1 else 0
    let same := match x.stamp with
      | some old => stampBell old.1 = stampBell new.1 && degr old = degr new
      | none => false
    acts [o.act, actIf o.err (.eff .tick), layerUpd l fun x => { x with stamp := some new }, actIf (!same) (layerChanged l)]

/-- A read by the Prefect: through the windows of the safety seat in the normal world, at device addresses in the secure world (R350). -/
def State.prfRead (s : State) (st a n : Nat) : MemOut :=
  if s.unitSec 72 then devRead s { station := st, secure := true, seat := none, window := 0, kind := .read } a n 0
  else if s.cfld Reg.prfCtrl 9 1 = 1 then seatRead s st (s.cfld Reg.prfCtrl 0 9) a n .read .ok
  else { bytes := zeros n, err := false, miss := false, act := .skip }

/-- Whether the Prefect serves a head: not from the edge E of a hand-over that moves it (R635). -/
def State.prfOn (s : State) (h : Nat) : Bool :=
  s.cfld (Reg.prfCfg h) 0 1 = 1 && (s.unitSec 72 || s.cfld Reg.prfCtrl 9 1 = 1)
    && !(s.fld Reg.secHoStatus 0 2 = 2 && s.worlds.moving.contains 72)

/-- Word `w` at byte `o` of a descriptor table. -/
def tblWord (t : List Byte) (o : Nat) : Word := bytesWord ((t.drop o).take 8)

/-- Word `w` of critical layer `i` of a descriptor table. -/
def critW (t : List Byte) (i w : Nat) : Word := tblWord t (64 * i + 8 * w)

/-- Whether every byte of an area resolves to the Store for the Prefect. -/
def State.prfStore (s : State) (a n : Nat) : Bool := (List.range (ceilDiv (a % 4096 + n) 4096)).all fun i => (s.prfPlace ((a / 4096 + i) * 4096)).isSome

/-- Whether a rectangle lies within a head's active area. -/
def rectInside (h : HeadSt) (x y w ht : Nat) : Bool := decide (1 ≤ w) && decide (1 ≤ ht) && decide (x + w ≤ h.w) && decide (y + ht ≤ h.ht)

/-- Whether a valid critical layer can be used (R350, R351): mode, rectangle, pitch, addresses. -/
def State.critOk (s : State) (h : Nat) (t : List Byte) (i : Nat) : Bool :=
  let w0 := critW t i 0
  let w1 := critW t i 1
  decide (wBits w0 1 2 ≤ 1) && rectInside (s.head h) (wBits w0 16 16) (wBits w0 32 16) (wBits w1 0 16) (wBits w1 16 16)
    && decide (wBits w1 0 16 ≤ wBits w1 32 16)
    && s.prfStore (critW t i 2).toNat (wBits w1 32 16 * wBits w1 16 16)
    && (wBits w0 1 2 = 0 || s.prfStore (critW t i 3).toNat 16)

/-- The critical layers of a descriptor table that are valid and can be used. -/
def State.crits (s : State) (h : Nat) (t : List Byte) : List Nat := (List.range 8).filter fun i => wBit (critW t i 0) 0 && s.critOk h t i

/-- Key of a critical layer: 8 × head + layer. -/
def critKey (h i : Nat) : Nat := 8 * h + i

/-- Sample a head's descriptor table, and the stamp blocks of its critical layers. -/
def critSample (h : Nat) : Act :=
  .ask fun s =>
    if !s.prfOn h then headUpd h fun x => { x with descNext := [] }
    else
      let o := s.prfRead stPrf (s.cfld (Reg.prfCfg h) 12 52 * 4096) 1024
      let t := s.readOr o 1024
      acts [
        o.act, actIf o.err (.eff .tick),
        headUpd h fun x => { x with descNext := t },
        each ((s.crits h t).filter fun i => wBits (critW t i 0) 1 2 = 1) fun i => .ask fun s =>
          let r := s.prfRead stRlc (critW t i 3).toNat 16
          acts [r.act, .eff (.pic fun p => { p with critStamp := mapPut (fun _ => 0) (critKey h i) (bytesWord ((s.readOr r 16).take 8)) p.critStamp }),
            actIf r.err (.eff .tick)]]

/-- Sampling at the commit point, in the same cycle as the sync counters. -/
def stampsSample : Act :=
  .ask fun s => acts [
    each (s.pic.layers.filter fun x => lpOn x.2.par && lpStamp x.2.par != 0) fun x => stampSample x.1,
    each (List.range 32) critSample]

/-! ### Ages and verdicts (R337 to R345) -/

/-- The age that a stamp's bell gives at edge `n`, and whether it lies in the future. -/
def stampAge (n bell : Nat) : Nat × Bool := if n ≤ bell then (511, true) else (min 511 (n - 1 - bell), false)

/-- Whether a sequence number advances on a reference. -/
def seqAdvances (seq ref : Nat) : Bool :=
  let d := subMod seq ref (2 ^ 32)
  decide (1 ≤ d) && decide (d < 2 ^ 31)

/-- The sampled stamp block of a layer; none where it has no stamp address. -/
def layerStamp (x : Layer) : Option (Word × Word) := if lpStamp x.par = 0 then none else x.stamp

/-- Age of a layer at edge `n`, the reference from then on, and whether its stamp lies in the future. -/
def layerAge (n prev : Nat) (x : Layer) : Nat × Option Nat × Bool :=
  match lpMode x.par with
  | 0 => (0, x.ref, false)
  | 1 =>
    let a := stampAge n (match layerStamp x with | some w => stampBell w.1 | none => 0)
    (a.1, x.ref, a.2)
  | 2 =>
    if x.enabling then (if x.fresh then 0 else lpMaxAge x.par + 1, some x.seq, false)
    else if seqAdvances x.seq (x.ref.getD x.seq) then (0, some x.seq, false)
    else (min 511 (prev + 1), x.ref, false)
  | _ =>
    if x.enabling then (0, none, false)
    else if x.sigLast.isSome && x.sigLast != x.ref then (0, x.sigLast, false)
    else (min 511 (prev + 1), x.ref, false)

/-- Verdict by age. -/
def verdictOf (age maxAge : Nat) : Nat := if age = 0 then 0 else if age ≤ maxAge then 1 else 2

/-- Whether a layer's stamp reads degraded. -/
def layerDegraded (x : Layer) : Bool := match layerStamp x with | some w => wBit w.1 48 | none => false

/-- Judge one enabled layer at edge `n`. -/
def layerJudge (n l : Nat) : Act :=
  .ask fun s =>
    let x := s.layer l
    let a := layerAge n (s.fld (Reg.rlcLayer l) 2 9) x
    let d := layerDegraded x
    let v := if d && lpDpolicy x.par = 2 then 2 else verdictOf a.1 (lpMaxAge x.par)
    let old := s.verdict l
    acts [
      actIf a.2.2 (raiseSrc stRlc 4 0 (s.layerOwner l)),
      setReg (Reg.rlcLayer l) (BitVec.ofNat 64 (v + a.1 * 4 + b2n d * 2 ^ 11 + b2n (s.altFallback l) * 2 ^ 12)),
      layerUpd l fun y => { y with ref := a.2.1 },
      actIf (v != old || (lpMode x.par = 3 && x.sigLast.isSome && x.sigLast != x.ref)) (layerChanged l),
      actIf (v = 2 && old != 2) (raiseSrc stRlc 5 0 (s.layerOwner l))]

/-- Whether ALTERNATE is drawn as FLAT (R345). No verdict depends on another layer (R340), so the first two conditions decide. -/
def State.altFalls (s : State) (p : List Word) : Bool :=
  let q := (s.layer (lpAlt p)).par
  !lpOn q || s.verdict (lpAlt p) = 2 || !stepsOk (lpW q) (lpH q) (fw p 6 32 16) (fw p 6 48 16)

/-- Fix whether a layer's ALTERNATE falls back, once every verdict of the edge is known. -/
def altJudge (l : Nat) : Act :=
  .ask fun s =>
    let p := (s.layer l).par
    let f := s.verdict l = 2 && lpSubst p = 3 && s.altFalls p
    actIf (f != s.altFallback l) (acts [setFld (Reg.rlcLayer l) 12 1 (b2n f), layerChanged l])

/-- Judge a critical layer (R352, R636): by its age alone; one that is not used is not judged. -/
def critJudge (n h i : Nat) : Act :=
  .ask fun s =>
    let t := (s.head h).descNext
    let reg := Reg.rlcCrit (critKey h i)
    if !s.prfOn h || !(s.crits h t).contains i then setReg reg 3
    else
      let w0 := critW t i 0
      let st := mapGet (fun _ => 0) (critKey h i) s.pic.critStamp
      let a := if wBits w0 1 2 = 0 then (0, false) else stampAge n (stampBell st)
      let v := verdictOf a.1 (wBits w0 3 8)
      acts [
        actIf a.2 (raise stRlc 4),
        setReg reg (BitVec.ofNat 64 (v + a.1 * 4 + b2n (wBits w0 1 2 = 1 && wBit st 48) * 2 ^ 11)),
        actIf (v = 2 && s.fld reg 0 2 != 2) (raise stRlc 5)]

/-- ROLL_CALL at edge `n` (R340). -/
def rollCall (n : Nat) : Act :=
  .ask fun s =>
    let on := (s.pic.layers.filter fun x => lpOn x.2.par).map Prod.fst
    acts [
      each ((s.pic.layers.filter fun x => !lpOn x.2.par).map Prod.fst) fun l => setReg (Reg.rlcLayer l) 3,
      each on (layerJudge n),
      each on altJudge,
      each ((List.range 32).map fun h => (List.range 8).map fun i => (h, i)).flatten fun x => critJudge n x.1 x.2]

/-! ### Composing edges (R78, R79) and the marks that they themselves make -/

/-- Whether the edge of bell `n` is a composing edge of a head of a canvas. -/
def State.composingEdge (s : State) (cp : List Word) (h n : Nat) : Bool := (s.head h).starts (if cpSlice cp then n else n + 1)

/-- The enabled layers of a canvas, bottom first. -/
def State.stack (s : State) (c : Nat) : List (Nat × Layer) :=
  (stackOf (s.pic.layers.map fun x => (x.1, x.2.par)) c).map fun x => (x.1, s.layer x.1)

/-- At a composing edge, MOTION layers and animated substitutes mark their footprints (R338, Table 9.10). -/
def edgeMarks (c h : Nat) : Act :=
  .ask fun s => each ((s.stack c).filter fun x =>
      lpMode x.2.par = 3 || (s.verdict x.1 = 2 && lpSubst x.2.par = 1)) fun x =>
    each ((s.footprint x.2.par).filter fun f => f.1 = h) fun f => markTiles f.1 f.2

/-! ### Self-refresh (R385 to R388, R582, R632) -/

/-- Whether every enabled layer whose footprint touches a head's clip is PRESENT. -/
def State.allPresent (s : State) (h : Nat) : Bool := (s.clipLayers h).all fun l => s.verdict l = 0

/-- Whether a MOTION layer touches a head's clip (R339). -/
def State.motionTouches (s : State) (h : Nat) : Bool := (s.clipLayers h).any fun l => lpMode (s.layer l).par = 3

/-- sr_idle in force. -/
def srIdle (p : PortSt) : Nat := max 2 (fw p.set 0 14 8)

/-- Whether an edge is idle for a head (R385). -/
def State.idleEdge (s : State) (h : Nat) : Bool :=
  (match s.portOf h with
    | some (n, _) => portMode (s.port n) = 2 && portSr (s.port n) != 0 && s.fld (Reg.dptStatus n) 0 3 = 2
    | none => false)
    && s.fld (Reg.hdStatus h) 0 3 = 2
    && s.cfld (Reg.prfCfg h) 0 1 = 0 && s.cfld (Reg.hdTally h) 0 1 = 0
    && !s.motionTouches h && s.allPresent h && (s.head h).marked.isEmpty && !(s.head h).changed

/-- Count idle composing edges, name the capture frame, or start the count again. `n`: the edge. -/
def idleCount (n h : Nat) : Act :=
  .ask fun s =>
    match s.canvasOf h, s.portOf h with
    | some (c, _), some (p, _) =>
      let cp := (s.canvas c).par
      let x := s.head h
      if !s.idleEdge h then headUpd h fun y => { y with idle := 0, capture := none }
      else if !s.composingEdge cp h n then .skip
      else
        headUpd h fun y => { y with idle := min 256 (x.idle + 1), capture :=
          if x.capture.isNone && srIdle (s.port p) = x.idle + 1 then some (if cpSlice cp then n else n + 1) else x.capture }
    | _, _ => headUpd h fun y => { y with idle := 0, capture := none }

/-- Why a head leaves self-refresh at an edge: not at all, a change of marked tiles only, anything else. `jolt`: a change edge or a stretched
bell falls on this edge. -/
inductive SrCause
  | stay | marks | leave
deriving DecidableEq, Repr

/-- What R388 gives for a head at an edge; where its canvas is lost it leaves. -/
def State.srCause (s : State) (h : Nat) (jolt : Bool) : SrCause :=
  let x := s.head h
  if jolt || !s.allPresent h || x.changed || !s.inCanvas h then .leave
  else if !x.marked.isEmpty then .marks
  else .stay

/-- SELF_REFRESH_EXIT_DECISION: the head wakes, and its port's link; `sel` for a selective update (R388 to R390). -/
def srExit (n h : Nat) (sel : Bool) : Act :=
  .ask fun s => acts [
    setFld (Reg.hdStatus h) 0 3 4,
    headUpd h fun x => { x with exit := some n, select := sel, rows := [], idle := 0, capture := none },
    actOpt (s.portOf h) fun p => actIf (s.fld (Reg.dptStatus p.1) 0 3 = 4) (setFld (Reg.dptStatus p.1) 0 3 5)]

/-- Decisions at edge `n` for a head in SELF_REFRESH, or for one whose selective update has not been sent yet. -/
def srDecide (n : Nat) (jolt : Bool) (h : Nat) : Act :=
  .ask fun s =>
    let st := s.fld (Reg.hdStatus h) 0 3
    let su := match s.portOf h with | some (p, _) => portSr (s.port p) = 2 | none => false
    if st = 3 then
      match s.srCause h jolt with
      | .stay => .skip
      | .marks => srExit n h su
      | .leave => srExit n h false
    else if (st = 4 || st = 2) && (s.head h).select && s.srCause h jolt = .leave then headUpd h fun x => { x with select := false }
    else .skip

/-- Whether a critical layer of a head is judged and not PRESENT. -/
def State.critAbsent (s : State) (h : Nat) : Bool :=
  (List.range 8).any fun i => decide (s.fld (Reg.rlcCrit (critKey h i)) 0 2 = 1) || decide (s.fld (Reg.rlcCrit (critKey h i)) 0 2 = 2)

/-- Forget what lasts for one edge only, as the next edge begins. -/
def edgeForget : Act :=
  .ask fun s => acts [
    each (s.pic.layers.map Prod.fst) fun l => layerUpd l fun x =>
      { x with fresh := false, enabling := false, surfLast := x.surf, sigLast := x.sig, sig := none },
    each (s.pic.heads.map Prod.fst) fun h => headUpd h fun x => { x with changed := false }]

end Sys2Proof.Machine
end

