-- ==== Sys2Proof/Machine/Colour.lean ====
section
/-!
DEFINITION. Machine/Colour.lean: the colour path of the composer: pixel formats, YUV, orientation, transfer functions, primaries,
scaling, blending, tone mapping, output encoding (R306 to R318).
-/

namespace Sys2Proof.Machine

/-- A pixel: red, green, blue, alpha. -/
structure Px where
  r : Rat
  g : Rat
  b : Rat
  a : Rat
deriving DecidableEq, Repr

/-- The three colour channels changed by a function. -/
def Px.colour (p : Px) (f : Rat → Rat) : Px := { p with r := f p.r, g := f p.g, b := f p.b }

/-- What a clamp gives for a datum that is not a number. -/
def nanRat (top : Nat) : Rat := ((Config.nanPixel % (top + 1) : Nat) : Rat)

/-- A number rounded to binary16, overflow held at the greatest number. -/
def h16 (r : Rat) : Rat := (f16.roundR r).clamp (-65504) 65504 0

/-- The number that binary16 bits of a source pixel stand for: NaN reads as 0, infinities as ±65,504 (R306). -/
def half16 (v : Nat) : Rat := (f16.ofBits v).clamp (-65504) 65504 0

/-! ### Unpacking (R306, R307) -/

/-- What a layer's fetch reads: parameters, seat, surface. -/
structure Src where
  p : List Word
  seat : Nat
  surf : Nat

/-- `n` bytes at a seat address as the composer reads them. -/
def State.srcNat (s : State) (x : Src) (a n : Nat) : Nat := leNat (seatRead s stCmp x.seat a n .read .ok).bytes

/-- Address of the unit of plane 0 that holds surface pixel (X, Y) (R308). -/
def unitAddr (x : Src) (X Y : Nat) : Nat :=
  let u := fmtUnit (lpFmt x.p)
  x.surf + Y * fw x.p 4 32 24 + X / u.2 * u.1

/-- Address of the chroma unit at column `cx`, row `cy` of plane 1. -/
def chromaAddr (x : Src) (cx cy : Nat) : Nat := x.surf + fw x.p 5 0 40 + cy * fw x.p 5 40 24 + cx * (if lpFmt x.p = 7 then 2 else 4)

/-- Y′ of an `n`-bit sample (R307 step 2). -/
def yVal (full : Bool) (n v : Nat) : Rat :=
  if full then (v : Rat) / ((2 ^ n - 1 : Nat) : Rat) else ((v : Rat) - (16 * 2 ^ (n - 8) : Nat)) / ((219 * 2 ^ (n - 8) : Nat) : Rat)

/-- Chroma of an `n`-bit sample. -/
def cVal (full : Bool) (n v : Nat) : Rat :=
  if full then ((v : Rat) - (2 ^ (n - 1) : Nat)) / ((2 ^ n - 1 : Nat) : Rat)
  else ((v : Rat) - (128 * 2 ^ (n - 8) : Nat)) / ((224 * 2 ^ (n - 8) : Nat) : Rat)

/-- Kr and Kb (Table 9.5). -/
def kCoef : Nat → Rat × Rat
  | 0 => (299 / 1000, 114 / 1000)
  | 1 => (2126 / 10000, 722 / 10000)
  | _ => (2627 / 10000, 593 / 10000)

/-- R′G′B′ of Y′CbCr (R307 step 3). -/
def yuvRgb (m : Nat) (y cb cr : Rat) : Px :=
  let k := kCoef m
  let r := y + 2 * (1 - k.1) * cr
  let b := y + 2 * (1 - k.2) * cb
  { r := r, g := (y - k.1 * r - k.2 * b) / (1 - k.1 - k.2), b := b, a := 1 }

/-- Whether samples are full range. -/
def lpFull (p : List Word) : Bool := fb p 2 18
/-- yuv_matrix. -/
def lpMatrix (p : List Word) : Nat := fw p 2 16 2

/-- Cb and Cr of a chroma unit: two-plane formats. -/
def State.chroma2 (s : State) (x : Src) (cx cy : Nat) : Rat × Rat :=
  let f := lpFull x.p
  if lpFmt x.p = 7 then
    let v := s.srcNat x (chromaAddr x cx cy) 2
    (cVal f 8 (nBits v 0 8), cVal f 8 (nBits v 8 8))
  else
    let v := s.srcNat x (chromaAddr x cx cy) 4
    (cVal f 10 (nBits v 6 10), cVal f 10 (nBits v 22 10))

/-- Cb and Cr of a chroma unit: packed formats, unit `cx` of row `y`. -/
def State.chromaP (s : State) (x : Src) (cx y : Nat) : Rat × Rat :=
  let f := lpFull x.p
  if lpFmt x.p = 9 then
    let v := s.srcNat x (unitAddr x (2 * cx) y) 4
    (cVal f 8 (nBits v 8 8), cVal f 8 (nBits v 24 8))
  else
    let v := s.srcNat x (unitAddr x (2 * cx) y) 8
    (cVal f 10 (nBits v 22 10), cVal f 10 (nBits v 54 10))

/-- Mean of weighted chroma samples. -/
def mixC (a b : Rat × Rat) (wa wb : Rat) : Rat × Rat := (a.1 * wa + b.1 * wb, a.2 * wa + b.2 * wb)

/-- Chroma at a luma column, interpolated between samples at the even columns; the last sample repeats (R307 step 1). -/
def chromaAt (at_ : Nat → Rat × Rat) (cols X : Nat) : Rat × Rat :=
  if X % 2 = 0 then at_ (X / 2) else mixC (at_ (X / 2)) (at_ (min (cols - 1) (X / 2 + 1))) (1 / 2) (1 / 2)

/-- Chroma of a 4:2:0 picture at (X, Y): a sample row lies midway between luma rows 2j and 2j + 1. -/
def State.chroma420 (s : State) (x : Src) (X Y : Nat) : Rat × Rat :=
  let cols := ceilDiv (fw x.p 4 0 16) 2
  let rows := ceilDiv (fw x.p 4 16 16) 2
  let near := Y / 2
  let far := if Y % 2 = 0 then near - 1 else min (rows - 1) (near + 1)
  mixC (chromaAt (fun c => s.chroma2 x c near) cols X) (chromaAt (fun c => s.chroma2 x c far) cols X) (3 / 4) (1 / 4)

/-- Stage 1: the pixel at (X, Y) of a surface. -/
def State.rawPixel (s : State) (x : Src) (X Y : Nat) : Px :=
  let f := lpFmt x.p
  let v := s.srcNat x (unitAddr x X Y) (fmtUnit f).1
  let u (lo n : Nat) : Rat := unormVal n (nBits v lo n)
  let mono (y : Rat) : Px := { r := y, g := y, b := y, a := 1 }
  match f with
  | 0 => { r := u 0 8, g := u 8 8, b := u 16 8, a := u 24 8 }
  | 1 => { r := u 16 8, g := u 8 8, b := u 0 8, a := u 24 8 }
  | 2 => { r := u 0 10, g := u 10 10, b := u 20 10, a := u 30 2 }
  | 3 => { r := half16 (nBits v 0 16), g := half16 (nBits v 16 16), b := half16 (nBits v 32 16), a := half16 (nBits v 48 16) }
  | 4 => { r := u 11 5, g := u 5 6, b := u 0 5, a := 1 }
  | 5 => mono (u 0 8)
  | 6 => mono (u 0 16)
  | 7 =>
    let c := s.chroma420 x X Y
    yuvRgb (lpMatrix x.p) (yVal (lpFull x.p) 8 v) c.1 c.2
  | 8 =>
    let c := s.chroma420 x X Y
    yuvRgb (lpMatrix x.p) (yVal (lpFull x.p) 10 (nBits v 6 10)) c.1 c.2
  | 9 =>
    let c := chromaAt (fun k => s.chromaP x k Y) (ceilDiv (fw x.p 4 0 16) 2) X
    yuvRgb (lpMatrix x.p) (yVal (lpFull x.p) 8 (nBits v (16 * (X % 2)) 8)) c.1 c.2
  | 10 =>
    let c := chromaAt (fun k => s.chromaP x k Y) (ceilDiv (fw x.p 4 0 16) 2) X
    yuvRgb (lpMatrix x.p) (yVal (lpFull x.p) 10 (nBits v (32 * (X % 2) + 6) 10)) c.1 c.2
  | _ => { r := 0, g := 0, b := 0, a := 1 }

/-! ### Orientation (R308) -/

/-- Source position of an oriented position (Table 9.6a). -/
def orient (p : List Word) (u v : Nat) : Nat × Nat :=
  let u := if fb p 2 6 then lpW p - 1 - u else u
  let v := if fb p 2 7 then lpH p - 1 - v else v
  let sw := fw p 3 32 16
  let sh := fw p 3 48 16
  match lpRot p with
  | 0 => (u, v)
  | 1 => (v, sh - 1 - u)
  | 2 => (sw - 1 - u, sh - 1 - v)
  | _ => (sw - 1 - v, u)

/-- Surface pixel of an oriented position. -/
def surfacePos (p : List Word) (u v : Nat) : Nat × Nat :=
  let o := orient p u v
  (fw p 3 0 16 + o.1, fw p 3 16 16 + o.2)

/-! ### Transfer functions (R312, R313) -/

/-- Operands as a key. -/
def ratKey (r : Rat) : List Nat := [r.num.natAbs, r.den, b2n (r < 0)]

/-- A rational function through fixed point. -/
def fixFn (f : Fix → Fix) (r : Rat) : Rat := fixRat (f (fixOf r))

/-- x^y. -/
def powR (x y : Rat) : Rat := fixRat (fixPow (fixOf x) (fixOf y))

/-- Constants of PQ. -/
def pqM1 : Rat := 1593017578125 / 10000000000000
/-- m2. -/
def pqM2 : Rat := 7884375 / 100000
/-- c1. -/
def pqC1 : Rat := 8359375 / 10000000
/-- c2. -/
def pqC2 : Rat := 188515625 / 10000000
/-- c3. -/
def pqC3 : Rat := 186875 / 10000

/-- Linear value of a PQ level. -/
def pqLinear (v : Rat) : Rat :=
  let p := powR v (1 / pqM2)
  10000 / 203 * powR (max (p - pqC1) 0 / (pqC2 - pqC3 * p)) (1 / pqM1)

/-- PQ level of a linear value. -/
def pqLevel (l : Rat) : Rat :=
  let y := powR (l * 203 / 10000) pqM1
  powR ((pqC1 + pqC2 * y) / (1 + pqC3 * y)) pqM2

/-- Scene value E of an HLG level. -/
def hlgScene (v : Rat) : Rat :=
  if v ≤ 1 / 2 then v * v / 3 else (fixFn fixExp ((v - 55991073 / 100000000) / (17883277 / 100000000)) + 28466892 / 100000000) / 12

/-- HLG level of a scene value. -/
def hlgLevel (e : Rat) : Rat :=
  if e ≤ 1 / 12 then powR (3 * e) (1 / 2)
  else 17883277 / 100000000 * fixFn fixLn (12 * e - 28466892 / 100000000) + 55991073 / 100000000

/-- BT.2020 luma. -/
def luma (r g b : Rat) : Rat := 2627 / 10000 * r + 6780 / 10000 * g + 593 / 10000 * b

/-- Linear value of one channel (Table 9.8, all but HLG). -/
def tfLinear (code : Nat) (v : Rat) : Rat :=
  match code with
  | 0 => v
  | 1 => if v ≤ 4045 / 100000 then v / (1292 / 100) else powR ((v + 55 / 1000) / (1055 / 1000)) (24 / 10)
  | 2 => powR v (24 / 10)
  | _ => pqLinear v

/-- Whether an encoded value lies in the range of Table 9.8. -/
def inUnit (v : Rat) : Bool := decide (0 ≤ v) && decide (v ≤ 1)

/-- The linear value that an encoded value outside the table's range gets. -/
def tfBeyond (code : Nat) (v : Rat) : Rat := (f16.ofBits (Config.tfOutside code v.num v.den)).clamp (-65504) 65504 (nanRat 65504)

/-- Stage 3: linear values of the three channels. -/
def tfIn (code : Nat) (p : Px) : Px :=
  if code = 0 then p.colour h16
  else if code = 4 then
    let ok := inUnit p.r && inUnit p.g && inUnit p.b
    let ys := powR (luma (hlgScene p.r) (hlgScene p.g) (hlgScene p.b)) (2 / 10)
    p.colour fun v => if ok then near16 14 (ratKey p.r ++ ratKey p.g ++ ratKey p.b ++ ratKey v) (1000 / 203 * ys * hlgScene v) else tfBeyond 4 v
  else p.colour fun v => if inUnit v then near16 (10 + code) (ratKey v) (tfLinear code v) else tfBeyond code v

/-- Encoded value of one channel (inverse rows of Table 9.8, all but HLG), held at 1. -/
def tfEncode (code : Nat) (l : Rat) : Rat :=
  match code with
  | 1 => if 1 < l then 1 else if l ≤ 4045 / 1292000 then 1292 / 100 * l else 1055 / 1000 * powR l (10 / 24) - 55 / 1000
  | 2 => if 1 < l then 1 else powR l (10 / 24)
  | _ => if 10000 / 203 < l then 1 else pqLevel l

/-- Encoding of the three channels (R318). -/
def tfOut (code : Nat) (p : Px) : Px :=
  let top (v : Rat) : Rat := max 0 (min 1 v)
  if code = 4 then
    let yd := luma p.r p.g p.b * 203 / 1000
    let scale := if yd = 0 then 0 else powR yd (-(1 / 6))
    p.colour fun l => if 1000 / 203 < l then 1
      else top (near16 24 (ratKey p.r ++ ratKey p.g ++ ratKey p.b ++ ratKey l) (min 1 (hlgLevel (l * 203 / 1000 * scale))))
  else p.colour fun l => top (near16 (20 + code) (ratKey l) (tfEncode code l))

/-! ### Primaries (R314) -/

/-- The built-in matrices in 1/10,000, rows in order: to BT.2020 from BT.709 (0) and P3-D65 (2), from BT.2020 to BT.709 (10) and P3-D65
(12), else the identity. -/
def primaries : Nat → List Int
  | 0 => [6274, 3293, 433, 691, 9195, 114, 164, 880, 8956]
  | 2 => [7539, 1986, 476, 457, 9418, 125, -12, 176, 9836]
  | 10 => [16605, -5876, -728, -1246, 11329, -83, -182, -1006, 11187]
  | 12 => [13436, -2822, -614, -653, 10758, -105, 28, -196, 10168]
  | _ => [10000, 0, 0, 0, 10000, 0, 0, 0, 10000]

/-- A built-in matrix with 13 fractional bits. -/
def builtIn (m : Nat) : List Rat := (primaries m).map fun (c : Int) => (roundEven ((c : Rat) * 8192 / 10000) : Rat) / 8192

/-- The coefficients of a layer's custom matrix (Table 9.3). -/
def customMatrix (p : List Word) : List Rat :=
  ([8, 9].map fun w => (List.range 4).map fun i => fw p w (16 * i) 16).flatten ++ [fw p 10 0 16] |>.map fun v => (signed v 16 : Rat) / 8192

/-- A matrix times a colour, each result within the bound of R312. -/
def matMul (m : List Rat) (p : Px) : Px :=
  let row (i : Nat) : Rat := near16 (1 + i) (ratKey p.r ++ ratKey p.g ++ ratKey p.b ++ (m.map ratKey).flatten)
    (m.getD (3 * i) 0 * p.r + m.getD (3 * i + 1) 0 * p.g + m.getD (3 * i + 2) 0 * p.b)
  { r := row 0, g := row 1, b := row 2, a := p.a }

/-- Stages 2 to 4: a source pixel as linear BT.2020 light. -/
def linearPixel (p : List Word) (x : Px) : Px :=
  let tf := fw p 2 8 3
  let y := if fb p 2 14 && tf != 0 then x.colour fun c => if x.a = 0 then 0 else c / x.a else x
  let z := tfIn tf y
  let m := matMul (if fb p 2 13 then customMatrix p else builtIn (if fw p 2 11 2 = 1 then 1 else fw p 2 11 2)) z
  { m with a := h16 m.a }

/-! ### Scaling (R309 to R311) -/

/-- The scale step of an axis. -/
def scaleStep (src dst : Nat) : Nat := src * 65536 / dst

/-- Source position of destination position `u`, with 16 fractional bits. -/
def scalePos (step : Nat) (u : Int) : Int := ((2 * u + 1) * step - 65536) / 2

/-- sinc(t) = sin(πt) / (πt). -/
def sincR (t : Rat) : Rat := if t = 0 then 1 else fixRat (fixDiv (fixSin (fixMul fixPi (fixOf t))) (fixMul fixPi (fixOf t)))

/-- K(t) with `a` taps each side. -/
def kernelR (a : Nat) (t : Rat) : Rat := if absR t < a then sincR t * sincR (t / a) else 0

/-- Index of the greatest value of a list, the lowest on ties. -/
def maxIndex : List Int → Nat × Int → Nat → Nat
  | [], best, _ => best.1
  | x :: xs, best, i => maxIndex xs (if best.2 < x then (i, x) else best) (i + 1)

/-- The weights of a phase, in units of 2^-14, for the taps at offsets 1 − a to a. -/
def scaleWeights (a step phase : Nat) : List Int :=
  let c : Rat := max 1 ((step : Rat) / 65536)
  let ks := (List.range (2 * a)).map fun (i : Nat) => kernelR a (((i : Rat) - ((a : Rat) - 1) - (2 * phase + 1 : Nat) / 128) / c)
  let sum := ks.foldl (· + ·) 0
  let ws := ks.map fun k => roundEven (k / sum * 16384)
  let d := 16384 - ws.foldl (· + ·) 0
  let m := maxIndex ws (0, ws.headD 0) 0
  (List.range (2 * a)).map fun i => ws.getD i 0 + (if i = m then d else 0)

/-- One product added to a sum in binary16. -/
def tapAdd (acc : Fp) (w : Rat) (v : Fp) : Fp :=
  if Config.tapFused then f16.round (acc.add ((Fp.num w).mul v)) else f16.add acc (f16.mul (.num w) v)

/-- The sum of weighted taps, in the order that the scaler takes. -/
def tapSum (xs : List (Rat × Fp)) : Fp :=
  (sortBy (fun i => Config.tapKey i) (List.range xs.length)).foldl
    (fun acc i => match xs[i]? with | some x => tapAdd acc x.1 x.2 | none => acc) (.num 0)

/-- The filtered value of a block of taps: rows of values with their weights. A flat block gives its value (R311). -/
def filterBlock (wx wy : List Int) (rows : List (List Rat)) : Fp :=
  let all := rows.flatten
  let q (w : Int) : Rat := (w : Rat) / 16384
  if all.all fun v => v = all.headD 0 then .num (all.headD 0)
  else
    let shape := Config.tapShape % 3
    if shape = 0 then
      tapSum ((wy.zip rows).map fun y => (wx.zip y.2).map fun x => (q y.1 * q x.1, Fp.num x.2)).flatten
    else if shape = 1 then tapSum ((wy.zip rows).map fun y => (q y.1, tapSum ((wx.zip y.2).map fun x => (q x.1, Fp.num x.2))))
    else tapSum ((wx.zip (List.range wx.length)).map fun x =>
      (q x.1, tapSum ((wy.zip rows).map fun y => (q y.1, Fp.num (y.2.getD x.2 0)))))

/-- A position held to a source of `n` positions. -/
def edgeClamp (n : Nat) (i : Int) : Nat := (max 0 (min ((n : Int) - 1) i)).toNat

/-- Position of the nearest tap. -/
def nearestPos (n step : Nat) (u : Int) : Nat := edgeClamp n ((scalePos step u + 32768) / 65536)

/-- The oriented source positions that a destination position reads on one axis. -/
def tapPos (near : Bool) (a n step : Nat) (u : Int) : List Nat :=
  if near then [nearestPos n step u]
  else (List.range (2 * a)).map fun (i : Nat) => edgeClamp n (scalePos step u / 65536 + i - (a - 1))

/-- The weights of a destination position on one axis. -/
def tapWeights (near : Bool) (a step : Nat) (u : Int) : List Int :=
  if near then [16384] else scaleWeights a step ((scalePos step u % 65536) / 1024).toNat

/-- Stage 5: a source scaled to a destination of `dw` × `dh`, at (u, v). -/
def State.scaledPixel (s : State) (x : Src) (near : Bool) (dw dh : Nat) (u v : Int) : Px :=
  let sx := scaleStep (lpW x.p) dw
  let sy := scaleStep (lpH x.p) dh
  let block := (tapPos near 3 (lpH x.p) sy v).map fun b => (tapPos near 4 (lpW x.p) sx u).map fun a =>
    linearPixel x.p (s.rawPixel x (surfacePos x.p a b).1 (surfacePos x.p a b).2)
  let wx := tapWeights near 4 sx u
  let wy := tapWeights near 3 sy v
  let ch (f : Px → Rat) (hi : Nat) : Rat := (filterBlock wx wy (block.map fun r => r.map f)).clamp 0 hi (nanRat hi)
  { r := ch Px.r 65504, g := ch Px.g 65504, b := ch Px.b 65504, a := ch Px.a 1 }

/-! ### Blending (R312 stages 6 and 7, R315) -/

/-- What lies beneath, as blending leaves it. -/
structure Under where
  r : Fp
  g : Fp
  b : Fp
  a : Fp

/-- A of stage 6. -/
def layerAlpha (par : List Word) (a : Rat) : Rat := if lpOpaque par then 1 else h16 (a * (lpAlpha par : Rat) / 65535)

/-- Blend a layer's colour and alpha over what lies beneath. -/
def blendOver (mode : Nat) (c : Px) (A : Rat) (d : Under) : Under :=
  let C (v : Rat) : Fp := f16.mul (.num v) (.num A)
  let one := f16.sub (.num 1) (.num A)
  match mode with
  | 0 =>
    let o (v : Rat) (x : Fp) : Fp := f16.add (C v) (f16.mul one x)
    { r := o c.r d.r, g := o c.g d.g, b := o c.b d.b, a := f16.add (.num A) (f16.mul one d.a) }
  | 1 => { r := C c.r, g := C c.g, b := C c.b, a := .num A }
  | _ =>
    let sum := f16.add (.num A) d.a
    { r := f16.add (C c.r) d.r, g := f16.add (C c.g) d.g, b := f16.add (C c.b) d.b, a := if (Fp.num 1).lt sum then .num 1 else sum }

/-- The blended pixel after the top layer. -/
def Under.top (d : Under) : Px :=
  let f (x : Fp) : Rat := x.clamp 0 65504 (nanRat 65504)
  { r := f d.r, g := f d.g, b := f d.b, a := 1 }

/-! ### Tone mapping and output (R316 to R318) -/

/-- A tone curve applied to a linear value: interpolation in PQ level, the level within its bound of R312. -/
def curveAt (curve : List Nat) (x : Rat) : Rat :=
  let v := near16 30 (ratKey x) (pqLevel x)
  if 1 < v then (f16.ofBits (Config.curveBeyond (f16.toBits (.num x)))).clamp 0 65504 (nanRat 65504)
  else
    let t := v * 1023
    let j := min 1022 t.floor.toNat
    let e (i : Nat) : Rat := half16 (curve.getD i 0)
    h16 (e j + (e (j + 1) - e j) * (t - j))

/-- Stage 8. -/
def toneMap (mode : Nat) (curve : List Nat) (p : Px) : Px :=
  match mode with
  | 1 => p.colour (curveAt curve)
  | 2 =>
    let m (k : Rat) (v : Rat) : Fp := f16.mul (.num (h16 k)) (.num v)
    let y := (f16.add (f16.add (m (2627 / 10000) p.r) (m (6780 / 10000) p.g)) (m (593 / 10000) p.b)).clamp 0 65504 (nanRat 65504)
    if y = 0 then p.colour fun _ => 0
    else
      let q := h16 (curveAt curve y / y)
      p.colour fun v => h16 (v * q)
  | _ => p

/-- Stage 9: the 10-bit codes of a pixel under a canvas entry's word. -/
def outCodes (w : Word) (p : Px) : Nat :=
  let prim := wBits w 51 2
  let m := (matMul (builtIn (if prim = 1 then 1 else 10 + prim)) p).colour fun v => max 0 v
  let v := tfOut (wBits w 48 3) m
  let q (x : Rat) : Nat := if wBit w 53 then 64 + (roundNear (x * 876)).toNat else (roundNear (x * 1023)).toNat
  q v.r + q v.g * 2 ^ 10 + q v.b * 2 ^ 20

end Sys2Proof.Machine
end

