-- ==== Sys2Proof/Machine/Compose.lean ====
section
/-!
DEFINITION. Machine/Compose.lean: composition of tiles: what each layer draws, substitutes, recipes, cut-off (R67, R68, R79, R81, R295
to R298, R319 to R324, R330, R331, R338, R343 to R348).
-/

namespace Sys2Proof.Machine

/-! ### What a frame draws (R340, R343 to R347) -/

/-- A layer as the verdicts of the edge draw it. -/
def State.itemOf (s : State) (l : Nat) (x : Layer) : Item :=
  let p := x.par
  let mark := if layerDegraded x && lpDpolicy p = 1 then (match layerStamp x with | some w => w.2.toNat | none => 0) else 0
  let alt := s.layer (lpAlt p)
  let plain : Item := { layer := l, src := p, seat := x.seat, surf := x.surf, par := p, draw := 0, mark := mark }
  if s.verdict l != 2 then plain
  else match lpSubst p with
    | 0 => { plain with draw := 1, mark := 0 }
    | 1 => { plain with draw := 2, mark := 0 }
    | 2 => { plain with draw := 3, mark := 0 }
    | _ =>
      if s.altFallback l then { plain with draw := 3, mark := 0 }
      else { plain with draw := 4, mark := 0, src := alt.par, seat := alt.seat, surf := alt.surf }

/-- What an item fetches. -/
def Item.fetch (i : Item) : Src := { p := i.src, seat := i.seat, surf := i.surf }

/-- Whether an item fetches anything. -/
def Item.fetches (i : Item) : Bool := i.draw != 3

/-- A colour of words 13 or 14 of a layer's parameters. -/
def lpColour (p : List Word) (w : Nat) : Px := { r := half16 (fw p w 0 16), g := half16 (fw p w 16 16), b := half16 (fw p w 32 16), a := 1 }
/-- subst_color. -/
def substColour (p : List Word) : Px := lpColour p 13
/-- mark_color. -/
def markColour (p : List Word) : Px := lpColour p 14

/-- Whether a pixel lies in a border of width `b`. -/
def inBorder (p : List Word) (b : Nat) (u v : Int) : Bool :=
  decide (u < b) || decide (v < b) || decide ((fw p 6 32 16 : Int) - b ≤ u) || decide ((fw p 6 48 16 : Int) - b ≤ v)

/-- Whether a pixel's centre lies closer than 2 pixels to a diagonal of the rectangle. Coordinates are doubled, so that the centre is
whole. -/
def onDiagonal (p : List Word) (u v : Int) : Bool :=
  let w : Int := fw p 6 32 16
  let h : Int := fw p 6 48 16
  let x := 2 * u + 1
  let y := 2 * v + 1
  let near (d : Int) : Bool := decide (d * d < 16 * (w * w + h * h))
  near (h * x - w * y) || near (h * x + w * y - 2 * w * h)

/-- Whether canvas pixel (X, Y) carries the hatch. -/
def inHatch (X Y : Nat) : Bool := decide ((X + Y) % 32 < 8)

/-- Cell of Table 10.1 that a surface column or row lies in. -/
def cellOf (size pos : Nat) : Nat := ((List.range 8).filter fun i => decide (i * size / 8 ≤ pos)).length - 1

/-- Whether the nearest source pixel of a destination position lies in a concealed cell (R347). -/
def concealedAt (i : Item) (u v : Int) : Bool :=
  let p := i.src
  let a := nearestPos (lpW p) (scaleStep (lpW p) (fw i.par 6 32 16)) u
  let b := nearestPos (lpH p) (scaleStep (lpH p) (fw i.par 6 48 16)) v
  let o := surfacePos p a b
  nBit i.mark (8 * cellOf (fw p 4 16 16) o.2 + cellOf (fw p 4 0 16) o.1)

/-- The pixel that an item contributes at canvas pixel (X, Y), before stage 6. `bell`: the composing edge. -/
def State.itemPixel (s : State) (i : Item) (bell X Y : Nat) : Px :=
  let p := i.par
  let u : Int := (X : Int) - (lpRect p).l
  let v : Int := (Y : Int) - (lpRect p).t
  let content := s.scaledPixel i.fetch (fb p 2 21) (fw p 6 32 16) (fw p 6 48 16) u v
  match i.draw with
  | 1 => if inHatch X Y || inBorder p 4 u v then markColour p else content
  | 2 =>
    if inBorder p 8 u v then
      let k : Rat := 1 / 4 + 3 / 4 * (((16 : Int) - (bell % 32 : Nat)).natAbs : Rat) / 16
      (markColour p).colour fun c => h16 (c * k)
    else content.colour fun c => h16 (c / 4)
  | 3 => if inBorder p 4 u v || onDiagonal p u v then markColour p else substColour p
  | 4 => if inBorder p 4 u v then markColour p else content
  | _ => if i.mark != 0 && inHatch X Y && concealedAt i u v then markColour p else content

/-- The background of a canvas. -/
def cpBackground (p : List Word) : Under :=
  { r := .num (half16 (fw p 3 0 16)), g := .num (half16 (fw p 3 16 16)), b := .num (half16 (fw p 3 32 16)), a := .num 1 }

/-- Whether canvas pixel (X, Y) lies in a rectangle. -/
def Rect.has (r : Rect) (X Y : Nat) : Bool := decide (r.l ≤ X) && decide ((X : Int) < r.r) && decide (r.t ≤ Y) && decide ((Y : Int) < r.b)

/-- The 10-bit codes of a pixel of a clip: its canvas pixel is (X, Y), `items` are what its tile fetches, bottom first. -/
def State.composePixel (s : State) (c : Comp) (items : List Item) (X Y : Nat) : Nat :=
  let inside := decide (X < (cpSize c.canvas).1) && decide (Y < (cpSize c.canvas).2)
  let under := (if inside then items else []).foldl (fun d i =>
    if (lpRect i.par).has X Y then
      let x := s.itemPixel i c.edge X Y
      blendOver (lpBlend i.par) x (layerAlpha i.par x.a) d
    else d) (cpBackground c.canvas)
  let w := c.canvas.getD (4 + 2 * c.entry) 0
  outCodes w (toneMap (wBits w 54 2) c.curve under.top)

/-! ### Fetching (R308, R323, R338) -/

/-- The least and the greatest of a list. -/
def spanOf (xs : List Nat) : Nat × Nat := (xs.foldl min (xs.headD 0), xs.foldl max 0)

/-- Aligned words of a row of bytes. -/
def rowWords (a b : Nat) : List Nat := (List.range (b / 8 + 1 - a / 8)).map fun i => (a / 8 + i) * 8

/-- The aligned words at seat addresses that a tile's part of an item is fetched from: the rectangle of source pixels that its taps span. -/
def itemWords (i : Item) (part : Rect) : List Nat :=
  let p := i.src
  let sx := scaleStep (lpW p) (fw i.par 6 32 16)
  let sy := scaleStep (lpH p) (fw i.par 6 48 16)
  let near := fb i.par 2 21
  let d := lpRect i.par
  let us := tapPos near 4 (lpW p) sx (part.l - d.l) ++ tapPos near 4 (lpW p) sx (part.r - 1 - d.l)
  let vs := tapPos near 3 (lpH p) sy (part.t - d.t) ++ tapPos near 3 (lpH p) sy (part.b - 1 - d.t)
  let corners := [(spanOf us).1, (spanOf us).2].map fun u => [(spanOf vs).1, (spanOf vs).2].map fun v => surfacePos p u v
  let xs := spanOf (corners.flatten.map Prod.fst)
  let ys := spanOf (corners.flatten.map Prod.snd)
  let n := (fmtUnit (lpFmt p)).1
  let plane0 := (rangeFrom ys.1 (ys.2 + 1 - ys.1)).map fun y => rowWords (unitAddr i.fetch xs.1 y) (unitAddr i.fetch xs.2 y + n - 1)
  let plane1 := if !fmtTwo (lpFmt p) then [] else
    (rangeFrom (ys.1 / 2) (ys.2 / 2 + 1 - ys.1 / 2)).map fun y =>
      rowWords (chromaAddr i.fetch (xs.1 / 2) y) (chromaAddr i.fetch (xs.2 / 2) y + (if lpFmt p = 7 then 1 else 3))
  (plane0 ++ plane1).flatten

/-- The items that a tile fetches and shows. -/
def Comp.itemsFor (c : Comp) (tile : Rect) : List Item :=
  let keep := fetchedIn (c.plan.map fun i => (i.layer, i.par)) tile
  c.plan.filter fun i => keep.any fun k => k.1 = i.layer

/-- The part of a tile that an item covers. -/
def Item.part (i : Item) (tile : Rect) : Rect := Rect.inter (lpRect i.par) tile

/-- The reads of an item for a tile. -/
def State.itemReads (s : State) (i : Item) (tile : Rect) : List (Nat × MemOut) :=
  if !i.fetches || (i.part tile).empty then []
  else (itemWords i (i.part tile)).map fun a => (a, seatRead s stCmp i.seat a 8 .read .ok)

/-- CRC-64-ECMA of what is fetched of an item for a tile, in fetch order (R338). -/
def fetchCrc (reads : List (Nat × MemOut)) : Nat :=
  crcFeed 3 0 ((sortBy (fun x => Config.fetchKey x.1) reads).map fun x => x.2.bytes).flatten

/-- Add a CRC to a layer's running signature. -/
def sigAdd (l crc : Nat) (sigs : List (Nat × Nat)) : List (Nat × Nat) :=
  match sigs.find? fun x => x.1 = l with
  | some x => (sigs.filter fun y => y.1 != l) ++ [(l, x.2 ^^^ crc)]
  | none => sigs ++ [(l, crc)]

/-! ### One tile -/

/-- Change one composition of a head. -/
def compUpd (h edge : Nat) (f : Comp → Comp) : Act := headUpd h fun x => { x with comps := mapIf (fun c => c.edge = edge) f x.comps }

/-- Cut lists and dirty bits of a buffer. -/
def HeadSt.cutOf (h : HeadSt) (b : Nat) : List Nat := if b = 0 then h.cut0 else h.cut1
/-- Dirty bits of a buffer. -/
def HeadSt.dirtyOf (h : HeadSt) (b : Nat) : List Nat := if b = 0 then h.dirty0 else h.dirty1
/-- Change the dirty bits of a buffer. -/
def HeadSt.dirtySet (h : HeadSt) (b : Nat) (v : List Nat) : HeadSt := if b = 0 then { h with dirty0 := v } else { h with dirty1 := v }
/-- Change the cut list of a buffer. -/
def HeadSt.cutSet (h : HeadSt) (b : Nat) (v : List Nat) : HeadSt := if b = 0 then { h with cut0 := v } else { h with cut1 := v }

/-- Leave a tile unwritten: its dirty bit stays (R322). -/
def tileCut (h : Nat) (c : Comp) (t : Nat) : Act :=
  acts [compUpd h c.edge fun c => { c with todo := c.todo.filter (· != t) },
    headUpd h fun x => x.cutSet c.buf (x.cutOf c.buf ++ [t])]

/-- Address of a line of a tile in a composed-frame buffer, and of a pixel of it (R298). -/
def HeadSt.pixelAddr (h : HeadSt) (b x y : Nat) : Nat := ((h.bufs ++ h.old).getD b (0, 0)).1 + y * (h.tw * 256) + 4 * x

/-- The pixel word of a composed-frame buffer. -/
def pixelWord (code : Nat) : List Byte := leBytes 4 (code % 2 ^ 30 + 3 * 2 ^ 30)

/-- The bell in which the first frame after an exit decision starts (R389, R628). -/
def HeadSt.wakeBell (h : HeadSt) : Nat :=
  let n := h.exit.getD 0 + 2
  ((List.range 4).map (n + ·)).find? h.starts |>.getD n

/-- Whether a composition shows in a frame up to the first after an exit decision, and is made at or after that decision's edge (R390). -/
def HeadSt.forWake (h : HeadSt) (c : Comp) : Bool :=
  match h.exit with
  | some n => decide (n ≤ c.edge) && (if cpSlice c.canvas then decide (c.edge ≤ h.wakeBell) else decide (c.edge < h.wakeBell))
  | none => false

/-- A tile is written: its rows go to the buffer, its dirty bit is cleared unless a later edge has marked it again. -/
def tileWrite (h : Nat) (c : Comp) (t : Nat) (rows : List (Nat × List Byte)) : Act :=
  .ask fun s =>
    let q : Req := { station := stCmp, secure := s.unitSec h, seat := none, window := 0, kind := .write }
    acts [
      each rows fun r => .ask fun s => (devWrite s q r.1 r.2).act,
      compUpd h c.edge fun c => { c with todo := c.todo.filter (· != t), wrote := c.wrote + 1 },
      headUpd h fun x =>
        { x.dirtySet c.buf (if c.again.contains t then x.dirtyOf c.buf else (x.dirtyOf c.buf).filter (· != t)) with
          rows := if x.forWake c && !x.rows.contains (t / x.tw) then x.rows ++ [t / x.tw] else x.rows }]

/-- The rows of a composed tile: address and pixels of each. -/
def State.tileRows (s : State) (h : Nat) (c : Comp) (items : List Item) (t : Nat) : List (Nat × List Byte) :=
  let x := s.head h
  let clip := cpClip c.canvas c.entry
  let x0 := 64 * (t % x.tw)
  let y0 := 64 * (t / x.tw)
  (List.range (min 64 (x.ht - y0))).map fun r =>
    (x.pixelAddr c.buf x0 (y0 + r),
     ((List.range (min 64 (x.w - x0))).map fun k =>
       pixelWord (s.composePixel c items (clip.1 + x0 + k) (clip.2 + y0 + r))).flatten)

/-- Compose a tile: fetch, blend, encode, write. A fetch that receives an error response leaves it unwritten, with FETCH_ERROR (R323). -/
def tileCompose (h : Nat) (c : Comp) (t : Nat) : Act :=
  .ask fun s =>
    let tile := tileRect c.canvas c.entry (s.head h) t
    let items := c.itemsFor tile
    let reads := items.map fun i => (i, s.itemReads i tile)
    let bad := (reads.filter fun r => r.2.any fun o => o.2.err).head?
    acts [
      each (reads.map fun r => r.2).flatten fun o => o.2.act,
      match bad with
      | some r => acts [tileCut h c t, raiseSrc stCmp 5 0 (some r.1.seat)]
      | none => acts [
          tileWrite h c t (s.tileRows h c items t),
          compUpd h c.edge fun c => { c with sigs := (reads.filter fun r =>
            lpMode r.1.par = 3 && r.1.draw != 4 && !r.2.isEmpty).foldl (fun a r => sigAdd r.1.layer (fetchCrc r.2) a) c.sigs }]]

/-! ### A composition from plan to end -/

/-- Begin a composition of a head at a composing edge: the marks of R321 go to both buffers, the set and the verdicts of the edge are
taken, and the next buffer is filled. -/
def planBegin (n h : Nat) : Act :=
  .ask fun s => match s.canvasOf h with
    | none => .skip
    | some (cn, i) =>
      let x := s.head h
      let cp := (s.canvas cn).par
      if !s.composingEdge cp h n || x.bufs.length != 2 then .skip
      else
        let b := 1 - x.fill
        let join (d : List Nat) : List Nat := d ++ x.marked.filter fun t => !d.contains t
        let y : HeadSt := { x with dirty0 := join x.dirty0, dirty1 := join x.dirty1, marked := [], fill := b, edge := n }
        let c : Comp :=
          { edge := n, buf := b, todo := y.dirtyOf b, again := [], plan := (s.stack cn).map fun l => s.itemOf l.1 l.2, canvas := cp,
            entry := i, curve := (s.canvas cn).curves.getD i [], wrote := 0, sigs := [], dead := false }
        headUpd h fun _ =>
          { y.cutSet b [] with comps := (x.comps.map fun k => { k with again := k.again ++ x.marked }) ++ [c] }

/-- A composition with no tile left ends: its counters and its content signatures are given (R300, R331, R338). -/
def compEnd (h : Nat) (c : Comp) : Act :=
  .ask fun s =>
    let x := s.head h
    let cut := (x.cutOf c.buf).length
    acts [
      setReg (Reg.cmpTiles h) (BitVec.ofNat 64 (c.wrote + (x.tw * x.th - c.wrote - cut) * 2 ^ 16)),
      setReg (Reg.cmpCut h) (BitVec.ofNat 64 cut),
      each c.sigs fun g => layerUpd g.1 fun l => { l with sig := some ((l.sig.getD 0) ^^^ g.2) },
      headUpd h fun x => { x with comps := x.comps.filter fun k => k.edge != c.edge }]

/-- End the compositions that have no tile left. -/
def compsEnd : Act :=
  .ask fun s => each s.pic.heads fun x => each (x.2.comps.filter fun c => c.todo.isEmpty) fun c => compEnd x.1 c

/-- Whether the composer is clocked and works. -/
def State.composerUp (s : State) : Bool := s.engineUp 3

/-- Run a program for the tiles of compositions that a test picks. -/
def eachTile (pick : HeadSt → Comp → Nat → Bool) (f : Nat → Comp → Nat → Act) : Act :=
  .ask fun s => each s.pic.heads fun x => each x.2.comps fun c => each (c.todo.filter (pick x.2 c)) fun t => f x.1 c t

/-- Compose every tile of normal canvases but the late ones. -/
def composeNormal (late : List (Nat × Nat)) : Act :=
  .ask fun s => actIf s.composerUp (.ask fun s => each s.pic.heads fun x =>
    each (x.2.comps.filter fun c => !cpSlice c.canvas && !c.dead) fun c =>
      each (c.todo.filter fun t => !late.contains (x.1, t)) fun t => tileCompose x.1 c t)

/-- COMPOSE_CUTOFF: at the end of period 30 the tiles of normal canvases that are not complete are cut off (R68). -/
def composeCutoff : Act :=
  eachTile (fun _ c _ => !cpSlice c.canvas) fun h c t => acts [tileCut h c t, raise stCmp 4]

/-- Slice rows whose composition is complete by the start of this period (R79). -/
def composeSlices (late : List (Nat × Nat)) : Act :=
  .ask fun s => actIf s.composerUp (each s.pic.heads fun x =>
    each (x.2.comps.filter fun c => cpSlice c.canvas && !c.dead) fun c =>
      each (c.todo.filter fun t => !late.contains (x.1, t) && decide (32 * c.edge + x.2.rowStart (t / x.2.tw) + 1 ≤ s.now)) fun t =>
        tileCompose x.1 c t)

/-- SLICE_ROW_CUTOFF: the tiles of a slice row that are not complete when its first line is fetched (R81). -/
def sliceCutoff (h edge row : Nat) : Act :=
  .ask fun s => each ((s.head h).comps.filter fun c => cpSlice c.canvas && c.edge = edge) fun c =>
    each (c.todo.filter fun t => t / (s.head h).tw = row) fun t => acts [tileCut h c t, raise stCmp 4]

/-- The work of the composer at the start of a period: normal canvases are composed by the end of period 27, what is late is cut off at
the end of period 30; slice rows follow the beam. -/
def composePeriod (p : Nat) (late : List (Nat × Nat)) : Act :=
  acts [
    actIf (p = 28) (composeNormal late),
    actIf (p = 31) (acts [composeNormal late, composeCutoff]),
    composeSlices late,
    compsEnd]

end Sys2Proof.Machine
end

