-- ==== Sys2Proof/Machine/Heads.lean ====
section
/-!
DEFINITION. Machine/Heads.lean: what a head sends: frames, line pairs, underruns, cut-off tiles, the Prefect's overlay and region checks,
the tally patch, events, the ends of capture frames and selective updates (R297, R298, R352 to R358, R365 to R372, R386 to R391).
-/

namespace Sys2Proof.Machine

/-! ### Frames -/

/-- State code of a head (Table 11.4). -/
def State.hdState (s : State) (h : Nat) : Nat := s.fld (Reg.hdStatus h) 0 3

/-- Set a head's state. -/
def hdStatePut (h v : Nat) : Act := setFld (Reg.hdStatus h) 0 3 v

/-- Whether a head's canvas is in slice mode. -/
def State.headSlice (s : State) (h : Nat) : Bool :=
  match s.canvasOf h with
  | some (c, _) => cpSlice (s.canvas c).par
  | none => false

/-- The buffer that a frame starting in bell `b` shows: in normal mode the one composed before the edge of `b`. -/
def State.frameBuf (s : State) (h b : Nat) : Nat :=
  let x := s.head h
  if !s.headSlice h && decide (b ≤ x.edge) then 1 - x.fill else x.fill

/-- The regions of a descriptor table that are valid and lie within the active area. -/
def regionWord (t : List Byte) (r w : Nat) : Word := tblWord t (512 + 32 * r + 8 * w)

/-- Whether a region's rectangle lies within a head's active area. -/
def regionOk (x : HeadSt) (t : List Byte) (r : Nat) : Bool :=
  rectInside x (wBits (regionWord t r 0) 16 16) (wBits (regionWord t r 0) 32 16) (wBits (regionWord t r 1) 0 16) (wBits (regionWord t r 1) 16 16)

/-- The regions that are used. -/
def regionsOf (x : HeadSt) (t : List Byte) : List Nat := (List.range 16).filter fun r => wBit (regionWord t r 0) 0 && regionOk x t r

/-- The Prefect's work at a frame start (R350, R352): the table and the verdicts of the starting edge are taken; what cannot be used is
reported. -/
def prefectStart (h : Nat) : Act :=
  .ask fun s =>
    let x := s.head h
    let t := x.descNext
    let bad := ((List.range 8).filter fun i => wBit (critW t i 0) 0 && !s.critOk h t i)
      ++ (List.range 16).filter fun r => wBit (regionWord t r 0) 0 && !regionOk x t r
    acts [
      headUpd h fun y => { y with
        desc := t
        crits := (List.range 8).map fun i => if (s.crits h t).contains i then s.fld (Reg.rlcCrit (critKey h i)) 0 2 else 3
        runs := (List.range 16).map fun _ => { run := 0, pred := 0, count := 0 } },
      each bad fun _ => raise stPrf 6]

/-- The units attached to a head's output begin a frame (R555). -/
def chkFrameStart (src : Nat) : Act :=
  .ask fun s => each (s.chk.filter fun u => u.2.on && u.2.att != 3 && u.2.src = src) fun u =>
    .eff (.chk u.1 { u.2 with run := crcInit u.2.poly, whole := true })

/-- A frame of a source ends: a unit that was attached at its first byte takes its CRC (R555). -/
def chkFrameEnd (src : Nat) : Act :=
  .ask fun s => each (s.chk.filter fun u => u.2.on && u.2.att != 3 && u.2.src = src && u.2.whole) fun u =>
    .eff (.chk u.1 { u.2 with done := some (crcFinal u.2.poly u.2.run), frames := u.2.frames + 1, whole := false })

/-- The buffers that waited for the end of their last frame return to the pool (R299). -/
def oldFree (h : Nat) : Act := acts [headUpd h fun x => { x with old := [] }, poolFree]

/-- A frame of a head begins in bell `b`. -/
def frameBegin (h b : Nat) : Act :=
  .ask fun s =>
    let x := s.head h
    let st := s.hdState h
    let buf := s.frameBuf h b
    acts [
      actIf (st = 4) (hdStatePut h 2),
      setFld (Reg.hdStatus h) 32 32 ((s.fld (Reg.hdStatus h) 32 32 + 1) % 2 ^ 32),
      headUpd h fun x => { x with
        frame := some b, line := 0, blank := false, scan := buf, old := []
        shows := st != 1 && decide (s.tts.blankTo ≤ b) && x.bufs.length = 2
        view := [(x.bufs.getD buf (0, 0)).1, (x.bufs.getD (1 - buf) (0, 0)).1]
        cuts := x.cutOf buf
        tally := s.cm (Reg.hdTally h), colors := s.cm (Reg.hdColors h)
        pair := [], und := [], raised := 0, sent := []
        exit := none },
      actIf (!x.old.isEmpty) poolFree,
      prefectStart h,
      chkFrameStart h]

/-- Whether the frame start of the current bell is due for a head (R78, R365): at period φ of its starting bell, once. -/
def State.frameDue (s : State) (h : Nat) : Bool :=
  let x := s.head h
  s.tts.running && x.starts s.tts.bell && s.tts.period = x.phi && x.frame != some s.tts.bell

/-- HEAD_FRAME_START. In SLEEP a head outside self-refresh reads OFF from here (R581); on the return to RUN it resumes here (R583). -/
def frameStartOp (h : Nat) : Act :=
  whenS (fun s => s.frameDue h) (.ask fun s =>
    let x := s.head h
    let st := s.hdState h
    let b := s.tts.bell
    if s.pst = 2 && (st = 1 || st = 2) && !s.srHead h then
      acts [hdStatePut h 0, headUpd h fun x => { x with asleep := true, frame := none, shows := false }, oldFree h]
    else if x.asleep then
      if s.pst != 2 && s.pst != 3 && decide (s.pwr.resume ≤ b) then
        acts [headUpd h fun x => { x with asleep := false }, headStatePut h, .ask fun s => actIf (s.hdState h = 1 || s.hdState h = 2) (frameBegin h b)]
      else .skip
    else if st = 1 || st = 2 || (st = 4 && decide (x.wakeBell ≤ b)) then frameBegin h b
    else .skip)

/-- HEAD_FRAME_START. -/
def execHeadFrameStart (h : Nat) (s : State) : Host.Outcome State Fault Refusal := live (h < 32) (frameStartOp h) s

/-! ### Fetching a line pair (R298, R370, R372) -/

/-- Reads of line `y`: one for each tile column, from the buffer shown or for a cut-off tile from the other. -/
def State.lineReads (s : State) (h y : Nat) : List (Nat × MemOut) :=
  let x := s.head h
  let q : Req := { station := stHd h, secure := s.unitSec h, seat := none, window := 0, kind := .read }
  (List.range x.tw).map fun c =>
    let t := y / 64 * x.tw + c
    (t, devRead s q (x.view.getD (b2n (x.cuts.contains t)) 0 + y * (x.tw * 256) + 256 * c) (4 * min 64 (x.w - 64 * c)) 0)

/-- The codes that pixel words hold. -/
def codesOf (bs : List Byte) : List Nat := (List.range (bs.length / 4)).map fun i => leNat ((bs.drop (4 * i)).take 4) % 2 ^ 30

/-- The codes of a line from its reads: a cut-off tile is hatched with the mark colour. -/
def lineCodes (x : HeadSt) (y : Nat) (rs : List (Nat × MemOut)) : List Nat :=
  (rs.map fun r =>
    let cs := codesOf r.2.bytes
    if x.cuts.contains r.1 then
      (List.range cs.length).map fun i =>
        if decide ((64 * (r.1 % x.tw) + i + y) % 32 < 8) then wBits x.colors 32 30 else cs.getD i 0
    else cs).flatten

/-- `n` codes of black. -/
def blackLine (n : Nat) : List Nat := List.replicate n 0

/-- Raise an event of a head, at most once in a frame (R369). -/
def headEvent (h bit : Nat) : Act :=
  .ask fun s =>
    if nBit (s.head h).raised bit then .skip
    else acts [
      headUpd h fun x => { x with raised := x.raised + 2 ^ bit },
      setBits (Reg.hdEvent h) (2 ^ bit),
      actIf (s.bitAt (Reg.hdEventEn h) bit)
        (if s.unitSec h then secIrq (stHd h) (32 + bit) else actOpt (s.stOwner (stHd h)) fun n => irqSet n 8)]

/-- Record an underrun pair (R371). -/
def underrunRecord (h line : Nat) : Act :=
  .ask fun s =>
    let first := (s.head h).und.isEmpty
    acts [
      headUpd h fun x => { x with und := x.und ++ [line] },
      .ask fun s =>
        let u := (s.head h).und
        let frames := if first then satAdd (s.fld (Reg.hdUnderrun h) 48 16) 1 0xFFFF else s.fld (Reg.hdUnderrun h) 48 16
        setReg (Reg.hdUnderrun h) (BitVec.ofNat 64 (u.headD 0 + (line + 1) * 2 ^ 16 + u.length * 2 ^ 32 + frames * 2 ^ 48)),
      actIf first (acts [headEvent h 3, raise (stHd h) 4])]

/-- Fetch the pair that begins with line `y`: the pair is kept where it is good, else it is an underrun pair. -/
def pairFetch (h y : Nat) (late : Bool) : Act :=
  .ask fun s =>
    let x := s.head h
    let r0 := s.lineReads h y
    let r1 := s.lineReads h (y + 1)
    let bad := late || (r0 ++ r1).any fun r => r.2.err
    acts [
      each (r0 ++ r1) fun r => r.2.act,
      if bad then underrunRecord h y else headUpd h fun z => { z with pair := [lineCodes x y r0, lineCodes x (y + 1) r1] }]

/-! ### The Prefect's overlay (R354) -/

/-- A channel blended over another by a mask byte. -/
def maskBlend (c p a : Nat) : Nat := (c * a + p * (255 - a) + 127) / 255

/-- The three channels of a code, changed together with those of another. -/
def codeMap2 (f : Nat → Nat → Nat) (c p : Nat) : Nat :=
  f (nBits c 0 10) (nBits p 0 10) + f (nBits c 10 10) (nBits p 10 10) * 2 ^ 10 + f (nBits c 20 10) (nBits p 20 10) * 2 ^ 20

/-- Whether a column and a line lie in a rectangle given by a descriptor's words 0 and 1. -/
def descHas (w0 w1 : Word) (x y : Nat) : Bool :=
  decide (wBits w0 16 16 ≤ x) && decide (x < wBits w0 16 16 + wBits w1 0 16) && decide (wBits w0 32 16 ≤ y)
    && decide (y < wBits w0 32 16 + wBits w1 16 16)

/-- Step 1: backing colours, the region with the highest number deciding. -/
def backed (x : HeadSt) (y i p : Nat) : Nat :=
  match (regionsOf x x.desc).reverse.find? fun r => wBit (regionWord x.desc r 0) 2 && descHas (regionWord x.desc r 0) (regionWord x.desc r 1) i y with
  | some r => wBits (regionWord x.desc r 1) 32 30
  | none => p

/-- A line with a critical layer's substitute over its rectangle. -/
def substLine (t : List Byte) (i y : Nat) (line : List Nat) : List Nat :=
  (List.range line.length).map fun c =>
    let p := line.getD c 0
    if descHas (critW t i 0) (critW t i 1) c y && (wBit (critW t i 0) 11 || decide ((c + y) % 16 < 8)) then wBits (critW t i 5) 0 30 else p

/-- A line with a critical layer blended by its mask's row. -/
def maskLine (t : List Byte) (i y : Nat) (mask : List Byte) (line : List Nat) : List Nat :=
  (List.range line.length).map fun c =>
    let p := line.getD c 0
    if descHas (critW t i 0) (critW t i 1) c y then
      codeMap2 (fun k q => maskBlend k q (mask.getD (c - wBits (critW t i 0) 16 16) 0).toNat) (wBits (critW t i 4) 0 30) p
    else p

/-- Replace the line being sent. -/
def sentMap (h : Nat) (f : List Nat → List Nat) : Act := headUpd h fun x => { x with sent := f x.sent }

/-- Step 2 and 3 for one critical layer. -/
def critLine (h y i : Nat) : Act :=
  .ask fun s =>
    let x := s.head h
    let w0 := critW x.desc i 0
    let w1 := critW x.desc i 1
    let v := x.crits.getD i 3
    if v = 3 || !(decide (wBits w0 32 16 ≤ y) && decide (y < wBits w0 32 16 + wBits w1 16 16)) then .skip
    else if v = 2 then sentMap h (substLine x.desc i y)
    else
      let o := s.prfRead stPrf ((critW x.desc i 2).toNat + (y - wBits w0 32 16) * wBits w1 32 16) (wBits w1 0 16)
      acts [o.act,
        if o.err then acts [
          raiseSrc stPrf 8 0 none,
          headUpd h fun z => { z with crits := listSet z.crits i 2 },
          sentMap h (substLine x.desc i y)]
        else sentMap h (maskLine x.desc i y o.bytes)]

/-- Colours of the tally sequence as channel masks (Table 10.11): bit 0 red, bit 1 green, bit 2 blue. -/
def tallyIndex (b k : Nat) : Nat := b / k % 8

/-- The code of a tally colour, full or limited range. -/
def tallyCode (idx : Nat) (limited : Bool) : Nat :=
  let ch (i : Nat) : Nat := if nBit idx i then (if limited then 940 else 1023) else (if limited then 64 else 0)
  ch 0 + ch 1 * 2 ^ 10 + ch 2 * 2 ^ 20

/-- Whether a head's canvas entry selects limited range. -/
def State.headLimited (s : State) (h : Nat) : Bool :=
  match s.canvasOf h with
  | some (c, i) => wBit ((s.canvas c).par.getD (4 + 2 * i) 0) 53
  | none => false

/-- The tally patch on a line (R358). -/
def tallyLine (x : HeadSt) (limited : Bool) (y : Nat) (line : List Nat) : List Nat :=
  let px := wBits x.tally 16 16
  let py := wBits x.tally 32 16
  if !wBit x.tally 0 || !(decide (py ≤ y) && decide (y < py + 4)) then line
  else (List.range line.length).map fun c =>
    if decide (px ≤ c) && decide (c < px + 4) then tallyCode (tallyIndex (x.frame.getD 0) x.k) limited else line.getD c 0

/-- The overlay and the tally patch of a line. -/
def overlayLine (h y : Nat) : Act :=
  .ask fun s =>
    let x := s.head h
    acts [
      sentMap h fun l => if x.desc.isEmpty then l else (List.range l.length).map fun c => backed x y c (l.getD c 0),
      each (if x.desc.isEmpty then [] else List.range 8) (critLine h y),
      .ask fun s => sentMap h (tallyLine (s.head h) (s.headLimited h) y)]

/-! ### What leaves the head -/

/-- The bytes of a line as a check-value unit sees it (R355). -/
def lineBytes (l : List Nat) : List Byte := (l.map fun c => leBytes 4 (c % 2 ^ 30)).flatten

/-- The unit that serves a head's regions. In SLEEP the Prefect's checks do not run (R582). -/
def State.prfUnit (s : State) (h : Nat) : Option ChkUnit :=
  let u := s.chkU (s.cfld (Reg.prfCfg h) 1 5)
  if s.cfld (Reg.prfCfg h) 6 1 = 1 && u.on && u.att = 3 && s.marking then some u else none

/-- Width of a CRC in bits. -/
def crcWidth (p : Nat) : Nat := [32, 32, 16, 64].getD p 32

/-- Region checks of a line: each region takes its pixels; one that is complete is compared (R355 to R357), with its comparand inverted by
an armed injection (R551). `odd`: the cores disagree. -/
def regionLine (h y : Nat) (odd : Bool) : Act :=
  .ask fun s => actOpt (s.prfUnit h) fun u => each (regionsOf (s.head h) (s.head h).desc) fun r => .ask fun s =>
    let x := s.head h
    let w0 := regionWord x.desc r 0
    let w1 := regionWord x.desc r 1
    let y0 := wBits w0 32 16
    let n := wBits w1 16 16
    if !(decide (y0 ≤ y) && decide (y < y0 + n)) then .skip
    else
      let bs := lineBytes ((x.sent.drop (wBits w0 16 16)).take (wBits w1 0 16))
      let old := x.runs.getD r { run := 0, pred := 0, count := 0 }
      let from_ (c : Nat) : Nat := if y = y0 then crcInit u.poly else c
      let new : RegionRun :=
        { run := crcFeed u.poly (from_ old.run) bs
          pred := if odd then Config.coreOne s.fv r else crcFeed u.poly (from_ old.pred) bs
          count := (if y = y0 then 0 else old.count) + wBits w1 0 16 }
      let expect := if wBit w0 1 then crcFinal u.poly new.pred else (regionWord x.desc r 2).toNat % 2 ^ crcWidth u.poly
      let complete := decide (y + 1 = y0 + n) && decide (new.count = n * wBits w1 0 16)
      let shown := x.shows && decide (s.tts.blankTo ≤ s.tts.bell)
      let inj := s.armed stPrf 4
      let comparand := if inj then 2 ^ crcWidth u.poly - 1 - expect else expect
      acts [
        headUpd h fun z => { z with runs := listSet z.runs r new },
        actIf (complete && shown && inj) (clearBits (Reg.fsInject stPrf) (2 ^ 4)),
        actIf (complete && shown && comparand != crcFinal u.poly new.run)
          (.eff (.pic fun p => { p with mism := if p.mism.contains (h, r) then p.mism else p.mism ++ [(h, r)] }))]

/-- Disagreement of the Prefect's cores (R354); an armed injection makes the next comparison one (R551). -/
def lockstepRaise (h : Nat) : Act := acts [.eff .tick, setBits (Reg.prfStatus h) (2 ^ 16), raise stPrf 5]

/-- Send the active line in hand: what checks the port's input sees it. -/
def lineSend (h y : Nat) (odd : Bool) : Act :=
  .ask fun s => acts [regionLine h y odd, chkFeed h (s.unitSec h) (lineBytes (s.head h).sent)]

/-- Whether a selective update carries a line (R390, R629): those of its tile rows; with DSC, whole slice rows from the first to the
last. -/
def State.lineCarried (s : State) (h y : Nat) : Bool :=
  let x := s.head h
  if !x.select then true
  else match s.portOf h with
    | some (n, i) =>
      let set := (s.port n).set
      let v := fw set (1 + i) 32 16
      if fb set (1 + i) 6 && v != 0 && !x.rows.isEmpty then
        let lo := 64 * (x.rows.foldl min (x.rows.headD 0)) / v
        let hi := (min x.ht (64 * (x.rows.foldl max 0) + 64) - 1) / v
        decide (lo ≤ y / v) && decide (y / v ≤ hi)
      else x.rows.contains (y / 64)
    | none => true

/-- An active line of a frame. -/
def activeLine (h y : Nat) (late odd : Bool) : Act :=
  .ask fun s =>
    let x := s.head h
    let content := x.shows && decide (s.tts.blankTo ≤ s.tts.bell)
    if !s.lineCarried h y then .skip
    else acts [
      actIf (s.headSlice h && y % 64 = 0) (acts [sliceCutoff h (x.frame.getD 0) (y / 64),
        headUpd h fun z => { z with cuts := z.cutOf z.scan }]),
      actIf (content && !x.blank && y % 2 = 0) (pairFetch h y late),
      headUpd h fun z => { z with sent := if content && !x.blank then z.pair.getD (y % 2) (blackLine x.w) else blackLine x.w },
      actIf (content && !x.blank) (overlayLine h y),
      actIf ((odd || s.armed stPrf 5) && content && !x.desc.isEmpty) (acts [lockstepRaise h,
        actIf (s.armed stPrf 5) (clearBits (Reg.fsInject stPrf) (2 ^ 5))]),
      lineSend h y (odd && content && !x.desc.isEmpty)]

/-! ### The end of a frame's active lines -/

/-- The head enters SELF_REFRESH, and its link with it (R386). -/
def srEnter (h : Nat) : Act :=
  .ask fun s => acts [
    hdStatePut h 3,
    headUpd h fun x => { x with frame := none, shows := false, capture := none, select := false, rows := [], exit := none },
    actOpt (s.portOf h) fun p => actIf (s.fld (Reg.dptStatus p.1) 0 3 = 2) (setFld (Reg.dptStatus p.1) 0 3 4)]

/-- Line V active begins: the last active pixel has entered the port. -/
def activeEnd (h : Nat) : Act :=
  .ask fun s =>
    let x := s.head h
    acts [
      headEvent h 0, headEvent h 2,
      chkFrameEnd h,
      actIf (!x.old.isEmpty) (oldFree h),
      headUpd h fun z => { z with shows := false, sent := [] },
      actIf ((x.select || (x.capture = x.frame && x.frame.isSome)) && s.srHead h && s.hdState h = 2) (srEnter h)]

/-- A line of a frame begins. -/
def lineStartOp (h line : Nat) (late odd : Bool) : Act :=
  .ask fun s =>
    let x := s.head h
    if x.frame.isNone || line != x.line || !decide (line < x.vt) || !(s.hdState h = 1 || s.hdState h = 2) then .skip
    else acts [
      headUpd h fun z => { z with line := line + 1 },
      actIf (s.fld (Reg.hdLineMatch h) 0 16 = line) (headEvent h 1),
      if line < x.ht then activeLine h line late odd else actIf (line = x.ht) (activeEnd h)]

/-- In the safe state a head sends the safe colour on its active lines (Table 11.4). -/
def safeLine (h line : Nat) : Act :=
  .ask fun s => actIf (s.hdState h = 5 && decide (line < (s.head h).ht))
    (headUpd h fun x => { x with sent := List.replicate x.w (s.cfld (Reg.hdColors h) 0 30) })

/-- HEAD_LINE_START. -/
def execHeadLineStart (h line : Nat) (late lockstep : Bool) (s : State) : Host.Outcome State Fault Refusal :=
  if s.flt.safe && s.pwr.rails && decide (h < 32) then .next (runAct (safeLine h line) s)
  else live (h < 32) (lineStartOp h line late lockstep) s

end Sys2Proof.Machine
end

