-- ==== Sys2Proof/Machine/Check.lean ====
section
/-!
DEFINITION. Machine/Check.lean: the check-value units at a bell edge: latches, attachments by register, by command and by the Prefect
(R353, R356, R555 to R563).
-/

namespace Sys2Proof.Machine

/-- Whether a source is one of frames: a head or a capture port. -/
def frameSource (src : Nat) : Bool := src < 40

/-- Whether the source of a unit has stopped (R558). -/
def State.srcStopped (s : State) (u src : Nat) : Bool :=
  if src < 32 then s.unitSec src != s.unitSec (40 + u) || !(s.hdState src = 1 || s.hdState src = 2)
  else if src < 40 then s.unitSec src != s.unitSec (40 + u) || !fb (s.capSt (src - 32)).set 0 0
  else if src < 104 then s.unitSec (147 + (src - 40)) != s.unitSec (40 + u)
  else false

/-- Result of a latch: CRC where there is one, and amount (R555, R556). -/
def ChkUnit.result (u : ChkUnit) : Option Nat × Nat :=
  if frameSource u.src then (u.done, u.frames)
  else (if u.fed = 0 then none else some (crcFinal u.poly u.run), min (u.fed / 64) 0xFFFFFF)

/-- A unit that begins to count anew: at each edge for the bytes of DMA and Store sources. -/
def ChkUnit.next (u : ChkUnit) : ChkUnit :=
  let v := { u with fed := 0, done := none, frames := 0, latches := u.latches + 1 }
  if frameSource u.src then v else { v with run := crcInit u.poly }

/-- Word 0 of a result entry, laid out as CHKu_RINFO. -/
def rinfoWord (bell amount : Nat) (valid : Bool) : Word := BitVec.ofNat 64 (bell % 2 ^ 32 + amount % 2 ^ 24 * 2 ^ 32 + b2n valid * 2 ^ 56)

/-- Write 8 bytes of an entry of a result area. -/
def entryPut (u seat a : Nat) (w : Word) : Act := .ask fun s => (seatWrite s (stChk u) seat a (wordBytes w) .ok).act

/-- The latch of unit `u` at step 4 of edge `n`. -/
def chkLatch (n u : Nat) : Act :=
  .ask fun s =>
    let x := s.chkU u
    let bell := n - 1
    let r := x.result
    let crc : Word := BitVec.ofNat 64 (r.1.getD (Config.noResult s.fv))
    let info := rinfoWord bell (if r.1.isSome then r.2 else 0) r.1.isSome
    let stopped := s.srcStopped u x.src
    acts [
      actIf r.1.isNone (.eff .tick),
      setReg (Reg.chkResult u) crc,
      setReg (Reg.chkRinfo u) info,
      .eff (.chk u { x.next with lost := stopped }),
      actIf (x.att = 2 && x.area != 0) (acts [
        entryPut u x.seat (x.area + 16 * (bell % 16) + 8) crc,
        entryPut u x.seat (x.area + 16 * (bell % 16)) info]),
      actIf (stopped && !x.lost) (raise (stChk u) 4)]

/-- The latches of an edge, of every unit that is attached by a register or a command. -/
def chkLatchAll (n : Nat) : Act :=
  .ask fun s => each ((List.range 32).filter fun u => (s.chkU u).on && (s.chkU u).att != 3) (chkLatch n)

/-- A unit that has been attached begins to snoop; what has stopped already does not stop again. -/
def ChkUnit.begin (x : ChkUnit) (stopped : Bool) : ChkUnit := { x with on := true, run := crcInit x.poly, fed := 0, whole := false, lost := stopped }

/-- Attach commands at edge `n` (R561): one whose edge X was before ends; one whose edge X this is takes effect. -/
def chkCommands (n : Nat) : Act :=
  .ask fun s => each (List.range 32) fun u => .ask fun s =>
    let x := s.chkU u
    match x.cmd, x.det with
    | some id, _ =>
      if x.on then acts [.eff (.chk u { x with cmd := none }), cmdEnd id fun c => { c with detail := n % 2 ^ 32, unitsDone := 1 }]
      else if (match s.cmd? id with | some c => s.free c | none => true) then acts [
        .eff (.chk u (x.begin (s.srcStopped u x.src))),
        cmdStart id]
      else .skip
    | none, some id =>
      if (match s.cmd? id with | some c => s.free c | none => true) then acts [
        .eff (.chk u (chkIdle u)),
        setFld (Reg.chkCfg u) 11 10 0,
        cmdEnd id fun c => { c with detail := n % 2 ^ 32, unitsDone := x.latches }]
      else .skip
    | none, none => .skip

/-- Attachments by register (R556, R557): the committed enable, poly and source. -/
def chkRegisters : Act :=
  .ask fun s => each (List.range 32) fun u =>
    let x := s.chkU u
    let on := s.cfld (Reg.chkCfg u) 0 1 = 1
    let src := s.cfld (Reg.chkCfg u) 3 8
    if on && x.att = 0 && decide (src < 116) then
      .eff (.chk u (ChkUnit.begin { chkIdle u with att := 1, src := src, poly := s.cfld (Reg.chkCfg u) 1 2 } (s.srcStopped u src)))
    else if !on && x.att = 1 then .eff (.chk u (chkIdle u))
    else .skip

/-- Whether a unit can serve the Prefect (R353). -/
def State.chkServes (s : State) (u : Nat) : Bool :=
  s.unitSec (40 + u) = s.unitSec 72 && s.cfld (Reg.chkCfg u) 0 1 = 0 && ((s.chkU u).att = 0 || (s.chkU u).att = 3)

/-- The units that the Prefect uses, and the heads that it cannot check (R353). -/
def prefectUnits : Act :=
  .ask fun s =>
    let want (u : Nat) : Bool := (List.range 32).any fun h => s.cfld (Reg.prfCfg h) 0 1 = 1 && s.cfld (Reg.prfCfg h) 6 1 = 1 && s.cfld (Reg.prfCfg h) 1 5 = u
    acts [
      each (List.range 32) fun u =>
        let x := s.chkU u
        if want u && s.chkServes u && x.att = 0 then
          acts [.eff (.chk u { chkIdle u with att := 3, on := true, poly := s.cfld (Reg.chkCfg u) 1 2 }), setFld (Reg.chkCfg u) 21 1 1]
        else if x.att = 3 && !(want u && s.chkServes u) then acts [.eff (.chk u (chkIdle u)), setFld (Reg.chkCfg u) 21 1 0]
        else .skip,
      each (List.range 32) fun h =>
        let lost := s.cfld (Reg.prfCfg h) 6 1 = 1 && !s.chkServes (s.cfld (Reg.prfCfg h) 1 5)
        acts [
          setFld (Reg.prfStatus h) 17 1 (b2n lost),
          actIf (lost && !s.pic.chkLost.contains h) (raise stPrf 7),
          .eff (.pic fun p => { p with chkLost := if lost then (if p.chkLost.contains h then p.chkLost else p.chkLost ++ [h]) else p.chkLost.filter (· != h) })]]

/-- Report the region mismatches found since the last edge (R356). -/
def mismReport : Act :=
  .ask fun s => acts [
    each s.pic.mism fun x => acts [setBits (Reg.prfStatus x.1) (2 ^ x.2), raise stPrf 4],
    .eff (.pic fun p => { p with mism := [] })]

/-- CHECK_LATCH: step 4 of the edge of bell `n`, and the attachments that the edge brings. -/
def checkEdge (n : Nat) : Act := acts [chkLatchAll n, mismReport, chkCommands n, chkRegisters, prefectUnits]

end Sys2Proof.Machine
end

