-- ==== Sys2Proof/Machine/BellGen.lean ====
section
/-!
DEFINITION. Machine/BellGen.lean: the bell generator: lengths, reference pulses, lock states, alignment, changes of the bell (R43 to R61,
R627, R631, R633).
-/

namespace Sys2Proof.Machine

/-! ### Lengths (R44, R45, R50, R51) -/

/-- Fabric cycles per second (R45). -/
def fabricHz : Nat := 1200000000

/-- The length that R45 gives the next bell, and the accumulator after it; in HOLDOVER at the last measured rate. -/
def Tts.lenNext (t : Tts) : Nat × Nat :=
  match t.lock, t.meas with
  | .holdover, some m => ((m * t.cur.div + t.acc) / max 1 t.cur.mul, (m * t.cur.div + t.acc) % max 1 t.cur.mul)
  | _, _ => ((fabricHz * t.cur.den + t.acc) / max 1 t.cur.num, (fabricHz * t.cur.den + t.acc) % max 1 t.cur.num)

/-- The nominal bell length in whole cycles. -/
def Tts.nominal (t : Tts) : Nat := fabricHz * t.cur.den / max 1 t.cur.num

/-- How far a bell is slewed: at most 0.1% of its nominal length. -/
def Tts.slewStep (t : Tts) : Int := max (-(t.nominal / 1000 : Nat)) (min (t.nominal / 1000 : Nat) t.slew)

/-- The generator at the edge that begins bell `n`: the bell's length with slew and stretch. -/
def Tts.beginBell (n : Nat) (t : Tts) : Tts :=
  let l := t.lenNext
  { t with
    bell := n, period := 0, edgeAt := t.edgeAt + t.len
    len := ((l.1 : Int) + t.slewStep).toNat + t.jump, acc := l.2, slew := t.slew - t.slewStep, jump := 0
    blankTo := if t.jump = 0 then t.blankTo else max t.blankTo (n + 2) }

/-- Show the generator's state in TTS_BELL_STATUS and TTS_BELL_LENGTH (Table 2.7). -/
def bellRegs : Act :=
  .ask fun s =>
    let lock := match s.tts.lock with | .free => 0 | .acquiring => 1 | .locked => 2 | .holdover => 3
    acts [
      setFld Reg.ttsStatus 0 8 (s.tts.period + lock * 2 ^ 5 + b2n (decide (s.tts.bell < s.tts.blankTo)) * 2 ^ 7),
      setFld Reg.ttsLength 0 32 (s.tts.len % 2 ^ 32)]

/-! ### Reference pulses (R46 to R51) -/

/-- Expected interval of pulses in fabric cycles, as a fraction: numerator and denominator. -/
def BellSet.interval (b : BellSet) : Nat × Nat := (fabricHz * b.den * b.mul, b.num * b.div)

/-- Whether an interval differs from the expected one by no more than 0.2% (R49). -/
def BellSet.intervalOk (b : BellSet) (d : Nat) : Bool :=
  decide (((d * b.interval.2 : Nat) - (b.interval.1 : Nat) : Int).natAbs * 1000 ≤ 2 * b.interval.1)

/-- Whether more than 1.5 expected intervals have passed (R50). -/
def BellSet.overdue (b : BellSet) (d : Nat) : Bool := decide (3 * b.interval.1 < 2 * d * b.interval.2)

/-- The phase error at a pulse: what every edge from the next on must be delayed by, modulo the bell length (R46, R51). -/
def Tts.phaseError (t : Tts) (at_ : Nat) : Nat :=
  let L := max 1 t.nominal
  ((((at_ + t.cur.phase : Nat) : Int) - (t.edgeAt + t.len + t.jump : Nat)) % (L : Int)).toNat

/-- Align to a pulse: by a jump at the first alignment, and at a return to LOCKED where relock_mode is JUMP; otherwise by slewing in the
direction that is shorter (R51). -/
def Tts.align (t : Tts) (at_ : Nat) (relock jumpMode : Bool) : Tts :=
  let e := t.phaseError at_
  if !t.aligned || (relock && jumpMode) then { t with divCount := 0, aligned := true, jump := t.jump + e, slew := 0 }
  else { t with divCount := 0, slew := if 2 * e ≤ t.nominal then (e : Int) else (e : Int) - t.nominal }

/-- The generator after a valid pulse that closes an interval `d`. -/
def Tts.validPulse (t : Tts) (at_ d : Nat) (jumpMode : Bool) : Tts :=
  let t1 := { t with lastPulse := some at_, meas := some d, pulses := t.pulses + 1, divCount := t.divCount + 1 }
  if t.lock = .locked then
    if t.cur.div ≤ t1.divCount then t1.align at_ false jumpMode else t1
  else if 8 ≤ t1.pulses then
    let t2 : Tts := { t1 with lock := .locked, acc := if t.lock = .holdover then 0 else t1.acc }
    t2.align at_ true jumpMode
  else t1

/-- A reference pulse at an instant. A pulse that no valid pulse precedes within 1.5 expected intervals starts the count anew. -/
def pulseOp (at_ : Nat) : Act :=
  .ask fun s =>
    let t := s.tts
    match t.lastPulse with
    | none => .eff (.tts fun t => { t with lastPulse := some at_, pulses := 0 })
    | some l =>
      let d := at_ - l
      if t.cur.intervalOk d then acts [
        .eff (.tts fun t => t.validPulse at_ d (s.cfld Reg.ttsCtrl 0 1 = 1)),
        actIf (t.lock = .holdover && decide (8 ≤ t.pulses + 1)) (raise stTts 5),
        bellRegs]
      else if t.cur.overdue d then .eff (.tts fun t => { t with lastPulse := some at_, pulses := 0 })
      else .skip

/-- GENLOCK_PULSE: a rising edge of GENLOCK_IN at an instant in fabric cycles, high for `high` nanoseconds (R46). -/
def execGenlockPulse (at_ high : Nat) (s : State) : Host.Outcome State Fault Refusal :=
  live true (whenS (fun s => s.tts.running && s.tts.cur.mode = 1 && decide (100 ≤ high)) (pulseOp at_)) s

/-- BELL_REF_LOST (R50): the generator enters HOLDOVER. -/
def execBellRefLost (at_ : Nat) (s : State) : Host.Outcome State Fault Refusal :=
  live true (.ask fun s =>
    let lost := match s.tts.lastPulse with | some l => s.tts.cur.overdue (at_ - l) | none => false
    actIf (s.tts.running && s.tts.lock = .locked && lost) (acts [
      .eff (.tts fun t => { t with lock := .holdover, pulses := 0, acc := 0 }), bellRegs, raise stTts 4])) s

/-! ### Changes of the bell (R56, R59, R627) -/

/-- The setting that the committed registers ask for. -/
def State.bellWanted (s : State) : BellSet :=
  { mode := s.cfld Reg.ttsBellNext 0 2, capPort := s.cfld Reg.ttsBellNext 2 3, mul := s.cfld Reg.ttsBellNext 8 4 + 1
    div := s.cfld Reg.ttsBellNext 12 4 + 1, num := s.cfld Reg.ttsRateNext 0 16, den := s.cfld Reg.ttsRateNext 16 16
    phase := s.cfld Reg.ttsPhaseNext 0 28 }

/-- Whether a setting keeps R44 and the pulse rates of R46. -/
def BellSet.rateOk (b : BellSet) : Bool :=
  decide (24000 * b.den ≤ b.num * 1001) && decide (b.num ≤ 480 * b.den)
    && (b.mode = 0 || (decide (10 * b.den * b.mul ≤ b.num * b.div) && decide (b.num * b.div ≤ 1000 * b.den * b.mul)))

/-- The state with a bell setting in force and none held, for the checks of R627. -/
def State.underBell (s : State) (b : BellSet) : State := { s with tts := { s.tts with cur := b, held := none } }

/-- Whether a setting keeps R22, R364, R374 and R91 for the committed configuration (R627). -/
def State.bellFits (s : State) (b : BellSet) : Bool :=
  let t := s.underBell b
  t.rateOk t.picNow
    && ((List.range 32).all fun h => s.cfld (Reg.hdFrame h) 12 1 = 0 || timingOk b (s.head h))
    && ((List.range 16).all fun n =>
      let set := (s.port n).set
      fw set 0 0 2 = 0
        || decide ((sumOn (setStreams set) fun i => streamSlots b set i (s.head (fw set (1 + i) 1 5))) ≤ (if fb set 0 10 then 63 else 64)))
    && (List.range 9).all fun k => (unitsOf k).all fun u => (rangeFrom (s.tts.bell + 1) 256).all fun bell =>
      decide (t.standing k u bell ≤ t.cap k u bell)

/-- A write of TTS_BELL_CHANGE.request as 1. -/
def bellChangeOp : Act :=
  .ask fun s =>
    let b := s.bellWanted
    if s.bitAt Reg.ttsChange 1 then .skip
    else if b.mode = 3 || b.den = 0 then setFld Reg.ttsChange 4 4 3
    else if !b.rateOk || !s.bellFits b then setFld Reg.ttsChange 4 4 2
    else acts [
      setFld Reg.ttsChange 1 1 1, setFld Reg.ttsChange 4 4 0,
      .eff (.tts fun t => { t with held := some b, reqBell := t.bell }), capRegs]

/-- Whether an accepted deadline command has not completed. -/
def State.deadlineOpen (s : State) : Bool :=
  s.cfe.cmds.any fun c => c.taken && !opUntimed c.op && !c.background && !c.completed

/-- Whether the edge of bell `n` is the change edge of a pending change. -/
def State.changeDue (s : State) (n : Nat) : Bool :=
  s.tts.held.isSome && decide (s.tts.reqBell + 1 ≤ n) && (!s.deadlineOpen || decide (s.tts.reqBell + 257 ≤ n))

/-- The generator under a setting that comes into force at the edge of bell `n`: accumulators restart, two bells are blanked. -/
def Tts.change (n : Nat) (t : Tts) : Tts :=
  let b := t.held.getD t.cur
  { t with cur := b, held := none, acc := 0, lock := if b.mode = 0 then .free else .acquiring, pulses := 0, lastPulse := none, meas := none,
           aligned := false, divCount := 0, slew := 0, jump := 0, blankTo := max t.blankTo (n + 2) }

/-- The time slots of every port at the rate in force. -/
def portSlots : Act :=
  .ask fun s => each ((List.range 16).filter fun n => fw (s.port n).set 0 0 2 != 0) fun n =>
    let set := (s.port n).set
    setFld (Reg.dptStatus n) 32 6 (sumOn (setStreams set) fun i => streamSlots s.tts.cur set i (s.head (fw set (1 + i) 1 5)))

/-- What the change edge does beside the generator's own change. -/
def changeDone : Act := acts [setFld Reg.ttsChange 1 1 0, setFld Reg.ttsChange 4 4 1, portSlots]

end Sys2Proof.Machine
end

