-- ==== Sys2Proof/Machine/Capture.lean ====
section
/-!
DEFINITION. Machine/Capture.lean: capture ports: their sets, links, received frames, storing, publication (R433 to R446, R473).
-/

namespace Sys2Proof.Machine

/-- Change a capture port. -/
def capUpd (n : Nat) (f : CapSt → CapSt) : Act :=
  .ask fun s => .eff (.vid fun v => { v with caps := mapPut capNone n (f (s.capSt n)) v.caps })

/-- Whether a port is owned by a seat, or secure. -/
def State.capHeld (s : State) (n : Nat) : Bool := s.unitSec (32 + n) || (s.ownerBit 1 (32 + n)).isSome

/-- State code of a port (Table 13.3). -/
def State.capState (s : State) (n : Nat) : Nat := s.fld (Reg.capStatus n) 0 3

/-- Set a port's state. -/
def capStatePut (n v : Nat) : Act := setFld (Reg.capStatus n) 0 3 v

/-- Add to a counter of CAPn_FRAMES: 32 dropped, 48 degraded. -/
def capCount (n lo : Nat) : Act := .ask fun s => setFld (Reg.capFrames n) lo 16 (satAdd (s.fld (Reg.capFrames n) lo 16) 1 0xFFFF)

/-! ### Sets (R439, R440, R446) -/

/-- The registers of a port's set: CFG, GEOM, RING; the EDID follows. -/
def capRegsOf (n : Nat) : List Nat := [Reg.capCfg n, Reg.capGeom n, Reg.capRing n]
/-- The EDID registers of a port. -/
def capEdidRegs (n : Nat) : List Nat := (List.range 64).map (Reg.capEdid n)

/-- ENCODING. -/
def capEncodingBad (set : List Word) : Bool :=
  !(decide (3 ≤ fw set 0 1 3) && decide (fw set 0 1 3 ≤ 6)) || fw set 0 4 2 = 3 || !([0, 2, 7, 8, 9, 10].contains (fw set 0 7 4))

/-- RANGE. -/
def capRangeBad (set : List Word) : Bool :=
  let w := fw set 1 0 16
  let h := fw set 1 16 16
  let f := fw set 1 32 8
  !(decide (64 ≤ w) && decide (w ≤ 4096) && w % 2 = 0 && decide (64 ≤ h) && decide (h ≤ 2304) && h % 2 = 0 && decide (1 ≤ f) && decide (f ≤ 240)
    && decide (w * h * f ≤ 1000000000))

/-- The descriptor words of a port's ring, where they can be read. -/
def State.capDesc (s : State) (n : Nat) (set : List Word) : Option (List Word) :=
  let o := ownerRead s (stCap n) (s.unitOwner (32 + n) 1 (32 + n)) ((set.getD 2 0).toNat / 64 * 64) 64 .ok
  if o.err || o.miss || !s.capHeld n then none else some (bytesWords o.bytes)

/-- Whether a set names another ring than the one in use. -/
def capNewRing (x : CapSt) (set : List Word) : Bool := x.ring.isNone || x.set.getD 2 0 != set.getD 2 0

/-- Whether the ring that a set names can be used: a new one is read and checked, the one in use must hold the pictures (R434, R437). -/
def State.capRingOk (s : State) (n : Nat) (set : List Word) : Bool :=
  let x := s.capSt n
  let fmt := fw set 0 7 4
  if capNewRing x set then
    match s.capDesc n set with
    | some d => s.ringValid (s.unitOwner (32 + n) 1 (32 + n)) d x.ring fmt (fw set 1 0 16) (fw set 1 16 16)
    | none => false
  else match x.ring with
    | some r => slotFits r fmt (fw set 1 0 16) (fw set 1 16 16)
    | none => false

/-- cfg_result of a committed set. -/
def State.capCheck (s : State) (n : Nat) (set : List Word) : Nat :=
  let o := s.unitOwner (32 + n) 1 (32 + n)
  let charges (w : List Word) : Nat → List Charge := fun _ => capCharge s.tts.cur w o ++ capAudio w o
  if capEncodingBad set then 1
  else if capRangeBad set then 2
  else if (s.standingRefused (charges (s.capSt n).set) (charges set)).isSome then 3
  else if fb set 0 0 && !s.capRingOk n set then 4
  else 0

/-- The bits of CAPn_CFG that a source sees: rate, lanes, lane_swap. -/
def capLinkBits (w : Word) : Nat := wBits w 1 6

/-- CAPTURE_SET_APPLY: a committed set is applied whole or not at all; a frame in progress is not published; a change that the source must
read drives HPD low for 10 ms (R446). -/
def capApply (chg : Changed) (n : Nat) : Act :=
  .ask fun s =>
    if !(capRegsOf n ++ capEdidRegs n).any chg.contains then .skip
    else
      let set := (capRegsOf n).map s.cm
      let edid := (capEdidRegs n).map s.cm
      let x := s.capSt n
      let r := s.capCheck n set
      let on := fb set 0 0
      let replug := on && x.hpd && (capLinkBits (set.getD 0 0) != capLinkBits (x.set.getD 0 0) || edid != x.edid)
      let ring := if !on then none else if capNewRing x set then (s.capDesc n set).map (ringOf (s.unitOwner (32 + n) 1 (32 + n))) else x.ring
      acts [
        setFld (Reg.capStatus n) 3 3 r,
        actIf (r = 3 && s.unitSec (32 + n)) (raise stSec 4),
        actIf (r = 0) (acts [
          capUpd n fun y => { y with set := set, edid := edid, ring := ring, slot := none, hpd := y.hpd && !replug, pulse := y.pulse || replug },
          actIf replug (capStatePut n 1),
          capRegs])]

/-- What follows from a port's set and its owner at an edge: its HPD, and the states OFF, NO_OWNER and NO_SIGNAL (R439, R441). -/
def capEdge (n : Nat) : Act :=
  .ask fun s =>
    let x := s.capSt n
    let st := s.capState n
    if !fb x.set 0 0 then acts [actIf (st != 0) (capStatePut n 0), actIf x.hpd (capUpd n fun y => { y with hpd := false, slot := none })]
    else if !s.capHeld n then acts [capStatePut n 5, actIf x.hpd (capUpd n fun y => { y with hpd := false, slot := none })]
    else acts [
      actIf (st = 0 || st = 5) (capStatePut n 1),
      actIf (!x.hpd && !x.pulse) (capUpd n fun y => { y with hpd := true })]

/-- CAPTURE_HPD_PULSE_END (R446). -/
def execCaptureHpdPulseEnd (port : Nat) (s : State) : Host.Outcome State Fault Refusal :=
  live (port < 8) (.ask fun s => actIf (s.capSt port).pulse (capUpd port fun x =>
    { x with pulse := false, hpd := fb x.set 0 0 && s.capHeld port })) s

/-! ### Links (R441, R444) -/

/-- CAPTURE_LINK_TRAINING: the source trains the link, at a rate and on lanes that the port presents; `done`: the training has succeeded. -/
def execCaptureLinkTraining (port rate lanes : Nat) (done : Bool) (s : State) : Host.Outcome State Fault Refusal :=
  live (port < 8) (.ask fun s =>
    let x := s.capSt port
    actIf (x.hpd && decide (3 ≤ rate) && decide (rate ≤ fw x.set 0 1 3) && decide (lanes ≤ fw x.set 0 4 2)) (acts [
      capUpd port fun y => { y with slot := none },
      if done then acts [setFld (Reg.capStatus port) 6 6 (rate + lanes * 2 ^ 4), capStatePut port 3]
      else capStatePut port 2])) s

/-- CAPTURE_LINK_LOST: a frame in progress is not published. -/
def execCaptureLinkLost (port : Nat) (s : State) : Host.Outcome State Fault Refusal :=
  live (port < 8) (.ask fun s => actIf (decide (2 ≤ s.capState port) && decide (s.capState port ≤ 4)) (acts [
    capUpd port fun x => { x with slot := none }, capStatePut port 1])) s

/-- What the port's firmware presents in the DPCD (R441): rate in [3:0], lanes in [5:4], FEC for 128b/132b in [6]; no MST, DSC, HDCP or PSR
above. The packing is the model's. -/
def dpcdWord (x : CapSt) : Word := BitVec.ofNat 64 (fw x.set 0 1 3 + fw x.set 0 4 2 * 2 ^ 4 + 2 ^ 6)

/-- CAPTURE_AUX_TRANSACTION: the firmware of the port's world answers a read of the EDID, or of the DPCD. -/
def execCaptureAuxTransaction (port : Nat) (edid : Bool) (addr : Nat) (s : State) : Host.Outcome State Fault Refusal :=
  live (port < 8) (.ask fun s =>
    let x := s.capSt port
    actIf x.hpd (.eff (.rdata (if edid then x.edid.getD (addr / 8) 0 else dpcdWord x)))) s

/-! ### Slots (R438) -/

/-- Whether an encode pipe is reading a slot. -/
def State.slotRead (s : State) (a : Nat) : Bool :=
  s.vid.codec.any fun e => e.active && match e.src with
    | some (port, k, _) => (match (s.capSt port).ring with | some r => r.base + k * r.stride = a | none => false)
    | none => false

/-- Whether a slot is protected: the latest publication, a surface that an enabled layer has latched at this edge or the last, or one that
an encode pipe is reading. -/
def State.slotProtected (s : State) (r : SurfRing) (slot : Nat) : Bool :=
  (match r.pubs with | (k, _) :: _ => k = slot | [] => false)
    || s.slotRead (r.base + slot * r.stride)
    || s.pic.layers.any fun x =>
      lpOn x.2.par && some x.2.seat = r.owner && (x.2.surf = r.base + slot * r.stride || x.2.surfLast = r.base + slot * r.stride)

/-- The place of a slot in the order in which slots are taken: never published first, then the oldest publication. -/
def SurfRing.slotAge (r : SurfRing) (slot : Nat) : Nat :=
  match r.pubs.find? fun p => p.1 = slot with
  | some p => p.2
  | none => 0

/-- The slot that a writer takes, if an unprotected one exists. -/
def State.slotFor (s : State) (r : SurfRing) (extra : Nat → Bool) : Option Nat :=
  leastBy (fun k => r.slotAge k * 32 + k) ((List.range r.slots).filter fun k => !s.slotProtected r k && !extra k)

/-! ### Received frames (R443) -/

/-- Whether an encoding is stored in a format (Table 13.4). -/
def capPair (enc fmt : Nat) : Bool :=
  match enc with
  | 0 => fmt = 0 || fmt = 2
  | 1 | 2 => fmt = 9 || fmt = 10
  | _ => fmt = 7 || fmt = 8

/-- Whether a start follows the start of the last frame written by at least 0.995 / exp_fps seconds. -/
def capSpaced (set : List Word) (last : Option Nat) (at_ : Nat) : Bool :=
  match last with
  | some l => decide (995 * fabricHz ≤ (at_ - l) * fw set 1 32 8 * 1000)
  | none => true

/-- The ring of a port with the owner of now. -/
def State.capRing (s : State) (n : Nat) : Option SurfRing := (s.capSt n).ring.map fun r => { r with owner := s.unitOwner (32 + n) 1 (32 + n) }

/-- A frame whose shape fits: it is dropped, or a slot is taken. -/
def capWrite (n : Nat) (f : CapIn) : Act :=
  .ask fun s =>
    let x := s.capSt n
    match (if capSpaced x.set x.wroteAt f.at_ then (s.capRing n).bind fun r => s.slotFor r fun _ => false else none) with
    | none => acts [capUpd n fun y => { y with slot := none }, capCount n 32]
    | some k => acts [capUpd n fun y => { y with slot := some k, wroteAt := some f.at_ }, chkFrameStart (32 + n)]

/-- A received frame starts. -/
def capFrameStart (n : Nat) (f : CapIn) : Act :=
  .ask fun s =>
    let x := s.capSt n
    let fits := capPair f.enc (fw x.set 0 7 4) && f.w = fw x.set 1 0 16 && f.h = fw x.set 1 16 16
    let st := s.capState n
    if !(st = 3 || st = 4) then .skip
    else acts [
      setFld (Reg.capStatus n) 12 10 (f.enc + f.bpc * 2 ^ 2 + f.colorimetry * 2 ^ 5 + b2n f.limited * 2 ^ 7 + f.eotf * 2 ^ 8),
      setFld (Reg.capStatus n) 32 32 (f.w + f.h * 2 ^ 16),
      actOpt x.rxAt fun l => setFld (Reg.capPeriod n) 0 32 (min (f.at_ - l) 0xFFFFFFFF),
      capUpd n fun y => { y with rxAt := some f.at_, mism := !fits },
      if fits then acts [capStatePut n 3, capWrite n f]
      else acts [capStatePut n 4, capUpd n fun y => { y with slot := none }, actIf (st != 4) (raise (stCap n) 4)],
      .ask fun s => actIf (s.tts.running && s.tts.cur.mode = 2 && s.tts.cur.capPort = n) (pulseOp f.at_)]

/-- CAPTURE_FRAME_START: the start of a received frame; in CAPTURE mode it is a reference pulse too (R48). -/
def execCaptureFrameStart (port : Nat) (f : CapIn) (s : State) : Host.Outcome State Fault Refusal :=
  live (decide (port < 8) && decide (f.enc < 4) && decide (f.bpc < 5) && decide (f.colorimetry < 4) && decide (f.eotf < 4)
    && decide (f.w < 2 ^ 16) && decide (f.h < 2 ^ 16)) (capFrameStart port f) s

/-! ### Storing (R442, R444) -/

/-- Bits per component of a received code. -/
def capBits (bpc : Nat) : Nat := [6, 8, 10, 12, 16].getD bpc 8

/-- A component of `m` bits as a field of `n` bits: rounded to the nearest, halves upward, or widened by repeating its high bits. -/
def fitBits (m n v : Nat) : Nat :=
  if n ≤ m then min (2 ^ n - 1) ((v + 2 ^ (m - n) / 2) / 2 ^ (m - n)) else v * 2 ^ (n - m) + v / 2 ^ (m - (n - m))

/-- A received frame: rows of pixels, each with its three components in 16-bit fields (R or Y lowest), and its damaged pixels. Where chroma
is shared, every pixel of a share carries it. -/
structure CapFrame where
  rows : List (List Nat)
  damaged : List (Nat × Nat)

/-- Component `c` of a pixel after concealment: that of the nearest earlier undamaged line, or none (R444). -/
def CapFrame.comp (f : CapFrame) (c x : Nat) : Nat → Option Nat
  | 0 => if f.damaged.contains (x, 0) then none else some (nBits ((f.rows.getD 0 []).getD x 0) (16 * c) 16)
  | y + 1 => if f.damaged.contains (x, y + 1) then f.comp c x y else some (nBits ((f.rows.getD (y + 1) []).getD x 0) (16 * c) 16)

/-- A stored field of `n` bits for a component of `m` bits; mid-scale where there is none. -/
def capField (m n : Nat) : Option Nat → Nat
  | some v => fitBits m n v
  | none => 2 ^ (n - 1)

/-- Chroma component `c` of an even and odd pixel pair: the average for 4:4:4, that of the even pixel otherwise. -/
def capChroma (f : CapFrame) (enc m c x y : Nat) : Option Nat :=
  if enc = 1 then
    match f.comp c x y, f.comp c (x + 1) y with
    | none, none => none
    | a, b => some ((a.getD (2 ^ (m - 1)) + b.getD (2 ^ (m - 1)) + 1) / 2)
  else f.comp c x y

/-- Bytes of row `y` of plane 0 in a format, for pictures `w` wide; `pad` fills what Table 9.4 leaves unused. -/
def capRow (f : CapFrame) (fmt enc m w pad y : Nat) : List Byte :=
  let n := if fmt = 2 || fmt = 8 || fmt = 10 then 10 else 8
  let a (c x : Nat) : Nat := capField m n (f.comp c x y)
  let k (c x : Nat) : Nat := capField m n (capChroma f enc m c x y)
  let wide (v : Nat) : Nat := v * 64 + pad % 64
  match fmt with
  | 0 => ((List.range w).map fun x => leBytes 4 (a 0 x + a 1 x * 2 ^ 8 + a 2 x * 2 ^ 16 + 0xFF * 2 ^ 24)).flatten
  | 2 => ((List.range w).map fun x => leBytes 4 (a 0 x + a 1 x * 2 ^ 10 + a 2 x * 2 ^ 20 + 3 * 2 ^ 30)).flatten
  | 7 => ((List.range w).map fun x => leBytes 1 (a 0 x)).flatten
  | 8 => ((List.range w).map fun x => leBytes 2 (wide (a 0 x))).flatten
  | 9 => ((List.range (w / 2)).map fun i => leBytes 4 (a 0 (2 * i) + k 1 (2 * i) * 2 ^ 8 + a 0 (2 * i + 1) * 2 ^ 16 + k 2 (2 * i) * 2 ^ 24)).flatten
  | _ => ((List.range (w / 2)).map fun i =>
      leBytes 8 (wide (a 0 (2 * i)) + wide (k 1 (2 * i)) * 2 ^ 16 + wide (a 0 (2 * i + 1)) * 2 ^ 32 + wide (k 2 (2 * i)) * 2 ^ 48)).flatten

/-- Bytes of row `j` of plane 1: the chroma of the pixel rows 2j and 2j + 1. -/
def capRow1 (f : CapFrame) (fmt m w pad j : Nat) : List Byte :=
  let n := if fmt = 8 then 10 else 8
  let k (c x : Nat) : Nat := capField m n (f.comp c x (2 * j))
  ((List.range (w / 2)).map fun i =>
    if fmt = 8 then leBytes 4 ((k 1 (2 * i) * 64 + pad % 64) + (k 2 (2 * i) * 64 + pad % 64) * 2 ^ 16)
    else leBytes 2 (k 1 (2 * i) + k 2 (2 * i) * 2 ^ 8)).flatten

/-- The parts of a byte string that lie in one 4 KiB page each: address and bytes. -/
def pageParts : Nat → Nat → List Byte → List (Nat × List Byte)
  | 0, _, _ => []
  | fuel + 1, a, bs =>
    if bs.isEmpty then []
    else
      let n := 4096 - a % 4096
      (a, bs.take n) :: pageParts fuel (a + n) (bs.drop n)

/-- Write a row for an owner, page by page. -/
def rowStore (st : Nat) (owner : Option Nat) (a : Nat) (bs : List Byte) : Act :=
  each (pageParts (bs.length / 4096 + 2) a bs) fun p => ownerStore st owner p.1 p.2

/-- The bits of `concealed` for pixels of a picture (Table 10.1). -/
def concealedBits (w h : Nat) (px : List (Nat × Nat)) : Nat :=
  (List.range 64).foldl (fun m i =>
    if px.any fun p => cellOf w p.1 = i % 8 && cellOf h p.2 = i / 8 then m + 2 ^ i else m) 0

/-- The rows of planes 0 and 1 of a frame. -/
def capPlanes (f : CapFrame) (fmt enc m w h pad : Nat) : List (List Byte) × List (List Byte) :=
  ((List.range h).map (capRow f fmt enc m w pad), if fmtTwo fmt then (List.range (h / 2)).map (capRow1 f fmt m w pad) else [])

/-- A frame is complete: it is stored and published (R435, R442, R444, R445). -/
def capFrameComplete (n : Nat) (f : CapFrame) : Act :=
  .ask fun s => match (s.capSt n).slot, s.capRing n with
    | some k, some r =>
      let x := s.capSt n
      let fmt := fw x.set 0 7 4
      let w := fw x.set 1 0 16
      let h := fw x.set 1 16 16
      let planes := capPlanes f fmt (s.fld (Reg.capStatus n) 12 2) (capBits (s.fld (Reg.capStatus n) 14 3)) w h (Config.padBits s.fv)
      let damaged := f.damaged.filter fun p => decide (p.1 < w) && decide (p.2 < h)
      let st := stCap n
      let base := r.base + k * r.stride
      acts [
        .eff .tick,
        each (planes.1.zip (List.range h)) fun y => rowStore st r.owner (base + r.pitch * y.2) y.1,
        each (planes.2.zip (List.range h)) fun y => rowStore st r.owner (base + r.uv + r.pitch * y.2) y.1,
        publishWrites st r k (r.seq + 1) 0 s.tts.bell (!damaged.isEmpty) (concealedBits w h damaged),
        capUpd n fun y => { y with slot := none, ring := y.ring.map fun r => r.publish k },
        setFld (Reg.capFrames n) 0 32 ((r.seq + 1) % 2 ^ 32),
        actIf (!damaged.isEmpty) (capCount n 48),
        chkFeed (32 + n) (s.unitSec (32 + n)) (planes.1 ++ planes.2).flatten,
        chkFrameEnd (32 + n)]
    | _, _ => .skip

/-- CAPTURE_FRAME_COMPLETE: the last write response of the frame has returned. -/
def execCaptureFrameComplete (port : Nat) (rows : List (List Nat)) (damaged : List (Nat × Nat)) (s : State) :
    Host.Outcome State Fault Refusal :=
  live (port < 8) (capFrameComplete port { rows := rows, damaged := damaged }) s

end Sys2Proof.Machine
end

