-- ==== Sys2Proof/Machine/Pixels.lean ====
section
/-!
DEFINITION. Machine/Pixels.lean: what the render engine computes of primitives and fragments: which tiles a primitive touches
(R419, R421), binning (R422), tests, blending and conversion of a fragment (R420), resolve and clear (R409, R414).
-/

namespace Sys2Proof.Machine

/-! ### Which tiles a primitive touches (R421) -/

/-- A closed rectangle in 1/256 pixel: left, top, right, bottom. -/
structure Box where
  l : Int
  t : Int
  r : Int
  b : Int
deriving DecidableEq, Repr

/-- The part of a tile that lies in the render area and the enabled scissor, as a closed rectangle. Tile `id` is 512 × row + column. -/
def tileBox (ws st : List Word) (id : Nat) : Box :=
  let a := passArea ws
  let i := id % 512
  let j := id / 512
  let sc := fb st 0 5
  let px (v : Nat) : Int := 256 * (v : Int)
  { l := max (px (max (32 * i) a.1)) (if sc then px (fw st 4 0 16) else 0)
    t := max (px (max (32 * j) a.2.1)) (if sc then px (fw st 4 16 16) else 0)
    r := if sc then min (px (min (32 * i + 32) (a.1 + a.2.2.1))) (px (fw st 4 32 16)) else px (min (32 * i + 32) (a.1 + a.2.2.1))
    b := if sc then min (px (min (32 * j + 32) (a.2.1 + a.2.2.2))) (px (fw st 4 48 16)) else px (min (32 * j + 32) (a.2.1 + a.2.2.2)) }

/-- The corners of a rectangle. -/
def Box.corners (q : Box) : List (Int × Int) := [(q.l, q.t), (q.r, q.t), (q.l, q.b), (q.r, q.b)]

/-- Least and greatest value of a linear form over points. -/
def extent (n : Int × Int) (ps : List (Int × Int)) : Int × Int :=
  let vs := ps.map fun p => n.1 * p.1 + n.2 * p.2
  (vs.foldl min (vs.headD 0), vs.foldl max (vs.headD 0))

/-- Whether two closed intervals meet. -/
def meet (a b : Int × Int) : Bool := decide (a.1 ≤ b.2) && decide (b.1 ≤ a.2)

/-- The normal of an edge. -/
def edgeNormal (p q : Int × Int) : Int × Int := (q.2 - p.2, p.1 - q.1)

/-- Whether a triangle and a rectangle meet: no axis of either separates them. -/
def triangleMeets (q : Box) (a b c : Int × Int) : Bool :=
  [(1, 0), (0, 1), edgeNormal a b, edgeNormal b c, edgeNormal c a].all fun n => meet (extent n [a, b, c]) (extent n q.corners)

/-- Whether `t` is at most `k` times the length of a vector of squared length `l2`, over `d`: t × √l2 ≤ 128 × d (all integers, d ≥ 0). -/
def withinHalf (t d l2 : Int) : Bool := decide (t ≤ 0) || (decide (0 < l2) && decide (t * t * l2 ≤ 128 * 128 * d * d))

/-- Whether the 1-pixel-wide rectangle along a segment and a rectangle meet. -/
def lineMeets (q : Box) (a b : Int × Int) : Bool :=
  let dx := b.1 - a.1
  let dy := b.2 - a.2
  let l2 := dx * dx + dy * dy
  let ex := extent (1, 0) [a, b]
  let ey := extent (0, 1) [a, b]
  let along := extent (dx, dy) [a, b]
  let box := extent (dx, dy) q.corners
  let across := extent (dy, -dx) q.corners
  let c := dy * a.1 - dx * a.2
  withinHalf (ex.1 - q.r) (dy.natAbs : Int) l2 && withinHalf (q.l - ex.2) (dy.natAbs : Int) l2
    && withinHalf (ey.1 - q.b) (dx.natAbs : Int) l2 && withinHalf (q.t - ey.2) (dx.natAbs : Int) l2
    && meet along box
    && withinHalf (across.1 - c) l2 l2 && withinHalf (c - across.2) l2 l2

/-- The side of a point's square in pixels: PointSize clamped to 1 to 256, 1 when it is not written (R419). -/
def pointSide (p : Prim) : Rat :=
  match p.size with
  | some v => (f32.ofBits v).clamp 1 256 (1 + (Config.rndNan 17 % 256 : Nat))
  | none => 1

/-- Whether a point's square and a rectangle meet. -/
def pointMeets (q : Box) (side : Rat) (p : Int × Int) : Bool :=
  let h : Rat := side * 128
  decide ((p.1 : Rat) - h ≤ (q.r : Rat)) && decide ((q.l : Rat) ≤ (p.1 : Rat) + h)
    && decide ((p.2 : Rat) - h ≤ (q.b : Rat)) && decide ((q.t : Rat) ≤ (p.2 : Rat) + h)

/-- Whether a primitive touches a tile. -/
def primMeets (q : Box) (p : Prim) : Bool :=
  decide (q.l < q.r) && decide (q.t < q.b)
    && match p.verts with
      | [a] => pointMeets q (pointSide p) a
      | [a, b] => lineMeets q a b
      | [a, b, c] => triangleMeets q a b c
      | _ => false

/-- The tiles of a render area in raster order of the grid. -/
def areaTiles (ws : List Word) : List Nat :=
  let g := passGrid ws
  ((rangeFrom g.2.2.1 (g.2.2.2 + 1 - g.2.2.1)).map fun j => (rangeFrom g.1 (g.2.1 + 1 - g.1)).map fun i => 512 * j + i).flatten

/-- The tiles that a primitive of a draw touches. -/
def primTiles (ws st : List Word) (p : Prim) : List Nat := (areaTiles ws).filter fun id => primMeets (tileBox ws st id) p

/-! ### Binning (R421, R422) -/

/-- Binning so far: primitives assembled, tile-list bytes used, whether it has stopped, tiles binned to. -/
structure BinRun where
  prims : Nat
  used : Nat
  stopped : Bool
  hit : List Nat
deriving DecidableEq, Repr

/-- Bin one output primitive of a draw. -/
def binOut (ws st : List Word) (outWords : Nat) (b : BinRun) (p : Prim) : BinRun :=
  if b.stopped then b
  else
    let ts := primTiles ws st p
    let need := 16 + 4 * outWords * p.verts.length + 8 * ts.length
    if fw ws 4 32 32 < b.used + need then { b with stopped := true }
    else { b with used := b.used + need, hit := b.hit ++ ts.filter fun t => !b.hit.contains t }

/-- Assemble one primitive of a draw and bin its output primitives. -/
def binPrim (ws st : List Word) (outWords : Nat) (b : BinRun) (outs : List Prim) : BinRun :=
  if b.stopped then b
  else if fw ws 3 0 32 < b.prims + 1 then { b with stopped := true }
  else outs.foldl (binOut ws st outWords) { b with prims := b.prims + 1 }

/-- Bin the draws of a pass, in their order. -/
def RndRun.bin (r : RndRun) : BinRun :=
  (List.range r.draws.length).foldl (fun b d =>
    match r.drawn.find? fun x => x.1 = d with
    | some x => x.2.2.foldl (binPrim r.words (r.states.getD d []) x.2.1) b
    | none => b) { prims := 0, used := 16 * passTiles r.words, stopped := false, hit := [] }

/-- The tiles that need processing, in raster order (R413): those binned to, or all where an attachment in use clears. -/
def RndRun.needTiles (r : RndRun) (b : BinRun) : List Nat :=
  let clears := (targetRecs r.target).any fun x => fw r.target (x.1 + 1) 28 2 = 1
  (areaTiles r.words).filter fun t => clears || b.hit.contains t

/-! ### Formats (Table 9.4, R409) -/

/-- Place of a channel (0 R, 1 G, 2 B, 3 A) in a colour format's code: low bit and width; none for a channel that it lacks. -/
def fmtChan (fmt ch : Nat) : Option (Nat × Nat) :=
  match fmt, ch with
  | 0, _ => some (8 * ch, 8)
  | 1, 0 => some (16, 8)
  | 1, 2 => some (0, 8)
  | 1, _ => some (8 * ch, 8)
  | 2, 3 => some (30, 2)
  | 2, _ => some (10 * ch, 10)
  | 3, _ => some (16 * ch, 16)
  | 4, 0 => some (11, 5)
  | 4, 1 => some (5, 6)
  | 4, 2 => some (0, 5)
  | 5, 0 => some (0, 8)
  | 6, 0 => some (0, 16)
  | _, _ => none

/-- What a code's channel reads as: an alpha that the format lacks is 1, a colour that it lacks 0. RGBA16F reads as Table 9.4 says. -/
def chanRead (fmt code ch : Nat) : Rat :=
  match fmtChan fmt ch with
  | some (lo, w) => if fmt = 3 then (f16.ofBits (nBits code lo w)).clamp (-65504) 65504 0 else unormVal w (nBits code lo w)
  | none => if ch = 3 then 1 else 0

/-- The code of a channel of a result (R420): nearest, halves upward; binary16 to nearest even, beyond its range ±65,504. -/
def chanCode (fmt w : Nat) (v : Fp) : Nat :=
  if fmt = 3 then
    match v with
    | .nan => 0x7C01 + Config.rndNan 3 % 0x3FF
    | v =>
      match f16.round v with
      | .num r => f16.toBits (.num r)
      | .inf neg => f16.toBits (.num (if neg then -65504 else 65504))
      | .nan => 0
  else unormUp w (v.clamp 0 1 (unormVal w (Config.rndNan fmt % 2 ^ w)))

/-- A code with channels replaced under a write mask. -/
def chansPut (fmt mask old : Nat) (v : Nat → Fp) : Nat :=
  (List.range 4).foldl (fun c ch =>
    match fmtChan fmt ch with
    | some (lo, w) => if nBit mask ch then nSet c lo w (chanCode fmt w (v ch)) else c
    | none => c) old

/-! ### Blending (Table 12.12) -/

/-- A blend factor for a channel: source, destination and constant as functions of the channel. Results are rounded to binary32. -/
def blendFactor (code : Nat) (S D K : Nat → Fp) (ch : Nat) : Fp :=
  let one : Fp := .num 1
  match code with
  | 0 => .num 0
  | 1 => one
  | 2 => S ch
  | 3 => f32.sub one (S ch)
  | 4 => D ch
  | 5 => f32.sub one (D ch)
  | 6 => S 3
  | 7 => f32.sub one (S 3)
  | 8 => D 3
  | 9 => f32.sub one (D 3)
  | 10 => K ch
  | 11 => f32.sub one (K ch)
  | 12 => K 3
  | 13 => f32.sub one (K 3)
  | _ => if ch = 3 then one else (let d := f32.sub one (D 3); if (S 3).lt d then S 3 else d)

/-- The lesser of two data, and the greater; not a number where either is not. -/
def fpMin (a b : Fp) : Fp := if a = .nan || b = .nan then .nan else if a.lt b then a else b
/-- The greater of two data. -/
def fpMax (a b : Fp) : Fp := if a = .nan || b = .nan then .nan else if a.lt b then b else a

/-- A blend operation on a channel. -/
def blendOp (op : Nat) (s fs d fd : Fp) : Fp :=
  match op with
  | 0 => f32.add (f32.mul s fs) (f32.mul d fd)
  | 1 => f32.sub (f32.mul s fs) (f32.mul d fd)
  | 2 => f32.sub (f32.mul d fd) (f32.mul s fs)
  | 3 => fpMin s d
  | _ => fpMax s d

/-- The code that a fragment leaves in a colour attachment: `b` the blend fields of the state block, `src` the program's four binary32
channels. -/
def colourPut (fmt : Nat) (b : Nat) (const : Word) (src : List Nat) (old : Nat) : Nat :=
  let raw (ch : Nat) : Fp := f32.ofBits (src.getD ch 0)
  let S (ch : Nat) : Fp := if fmt = 3 then raw ch else .num ((raw ch).clamp 0 1 (unormVal 8 (Config.rndNan fmt % 256)))
  let D (ch : Nat) : Fp := f32.round (.num (chanRead fmt old ch))
  let K (ch : Nat) : Fp := f16.ofBits (wBits const (16 * ch) 16)
  let out (ch : Nat) : Fp :=
    if !nBit b 0 then S ch
    else if ch = 3 then
      blendOp (nBits b 24 3) (S ch) (blendFactor (nBits b 14 5) S D K ch) (D ch) (blendFactor (nBits b 19 5) S D K ch)
    else blendOp (nBits b 11 3) (S ch) (blendFactor (nBits b 1 5) S D K ch) (D ch) (blendFactor (nBits b 6 5) S D K ch)
  chansPut fmt (nBits b 27 4) old out

/-! ### Depth and stencil (Tables 12.10, 12.11) -/

/-- A compare function on codes or numbers that are ordered. -/
def compareFn {α : Type} (f : Nat) (lt : α → α → Bool) (eq : α → α → Bool) (a b : α) : Bool :=
  match f with
  | 0 => false
  | 1 => lt a b
  | 2 => eq a b
  | 3 => lt a b || eq a b
  | 4 => lt b a
  | 5 => !eq a b
  | 6 => lt b a || eq a b
  | _ => true

/-- The code of a depth in a depth format: 1 D16, 2 D24S8, 3 D32F; the number lies in 0 to 1. -/
def depthCode (fmt : Nat) (d : Rat) : Nat :=
  match fmt with
  | 1 => unormUp 16 d
  | 2 => unormUp 24 d
  | _ => f32.toBits (f32.roundR d)

/-- A fragment's depth, clamped to the depth range of its state block. -/
def fragDepth (st : List Word) (v : Nat) : Rat :=
  let num (x : Nat) : Rat := (f32.ofBits x).clamp 0 1 0
  let a := num (fw st 3 0 32)
  let b := num (fw st 3 32 32)
  let lo := if a < b then a else b
  let hi := if a < b then b else a
  (f32.ofBits v).clamp lo hi (lo + (hi - lo) * unormVal 24 (Config.rndNan 16 % 2 ^ 24))

/-- Whether a fragment's depth passes against a stored code. -/
def depthPass (fmt f : Nat) (d : Rat) (old : Nat) : Bool :=
  if fmt = 3 then
    compareFn f Fp.lt (fun a b => a != .nan && b != .nan && !a.lt b && !b.lt a) (f32.round (.num d)) (f32.ofBits old)
  else compareFn f (fun a b => decide (a < b)) (fun a b => decide (a = b)) (depthCode fmt d) (if fmt = 2 then nBits old 0 24 else old)

/-- A stencil operation on a stored value. -/
def stencilOp (op ref wm old : Nat) : Nat :=
  let x := old &&& wm
  match op with
  | 0 => old
  | 1 => 0
  | 2 => ref
  | 3 => min 255 (x + 1)
  | 4 => x - 1
  | 5 => 255 - old
  | 6 => (x + 1) % 256
  | _ => (x + 255) % 256

/-- A stored stencil after an operation, under the write mask. -/
def stencilPut (op ref wm old : Nat) : Nat := (old &&& (255 - wm)) ||| (stencilOp op ref wm old &&& wm)

/-- The stored depth of a sample, with its stencil, after the tests of a fragment, and whether the fragment passes. `fmt` 0: no depth
attachment. -/
def depthTests (fmt : Nat) (st : List Word) (front : Bool) (d : Rat) (old : Nat) : Bool × Nat :=
  let w5 := fw st 5 0 64
  let base := if front then 6 else 18
  let sten := fmt = 2 && nBit w5 5
  let s0 := nBits old 24 8
  let rm := nBits w5 32 8
  let wm := nBits w5 40 8
  let ref := nBits w5 48 8
  let sOk := !sten || compareFn (nBits w5 base 3) (fun a b => decide (a < b)) (fun a b => decide (a = b)) (ref &&& rm) (s0 &&& rm)
  let dOk := fmt = 0 || !nBit w5 0 || depthPass fmt (nBits w5 2 3) d old
  let op := if !sOk then nBits w5 (base + 3) 3 else if !dOk then nBits w5 (base + 6) 3 else nBits w5 (base + 9) 3
  let s1 := if sten then nSet old 24 8 (stencilPut op ref wm s0) else old
  let d1 := if sOk && dOk && fmt != 0 && nBit w5 0 && nBit w5 1 then
      (if fmt = 2 then nSet s1 0 24 (depthCode 2 d) else depthCode fmt d) else s1
  (sOk && dOk, d1)

/-! ### Fragments (R420) -/

/-- A sample as the tile memory holds it: the code of each colour attachment, and of the depth attachment. -/
structure Sample where
  cols : List Nat
  ds : Nat
deriving DecidableEq, Repr

/-- The depth format of a target, its colour formats. -/
def targetDepth (t : List Word) : Nat := fw t 0 4 3
/-- Format of colour attachment `i`. -/
def targetFmt (t : List Word) (i : Nat) : Nat := fw t (5 + 4 * i) 24 4

/-- Blend fields of attachment `i` in a state block. -/
def blendWord (st : List Word) (i : Nat) : Nat := fw st (8 + i / 2) (32 * (i % 2)) 32

/-- Sample `k` of a pixel after a fragment. -/
def fragSample (t st : List Word) (f : Fragment) (k : Nat) (x : Sample) : Sample :=
  if !nBit f.cover k || (f.discarded && !f.early) then x
  else
    let r := depthTests (targetDepth t) st f.front (fragDepth st (f.depth.getD k 0)) x.ds
    let y := { x with ds := r.2 }
    if !r.1 || f.discarded then y
    else { y with cols := (List.range y.cols.length).map fun i =>
            let src := f.color.getD i []
            let old := y.cols.getD i 0
            if src.isEmpty then old else colourPut (targetFmt t i) (blendWord st i) (BitVec.ofNat 64 (fw st 7 0 64)) src old }

/-- Whether a fragment lies in the render area and the enabled scissor of its draw. -/
def fragInside (ws st : List Word) (f : Fragment) : Bool :=
  let a := passArea ws
  decide (a.1 ≤ f.x) && decide (f.x < a.1 + a.2.2.1) && decide (a.2.1 ≤ f.y) && decide (f.y < a.2.1 + a.2.2.2)
    && (!fb st 0 5 || (decide (fw st 4 0 16 ≤ f.x) && decide (f.x < fw st 4 32 16) && decide (fw st 4 16 16 ≤ f.y) && decide (f.y < fw st 4 48 16)))

/-- The samples of a pixel after the fragments of a tile, in their order. -/
def RndRun.pixel (r : RndRun) (frags : List Fragment) (x y : Nat) (init : List Sample) : List Sample :=
  (frags.filter fun f => f.x = x && f.y = y).foldl (fun (ss : List Sample) f =>
    let st := r.states.getD f.draw []
    if fragInside r.words st f then (List.range ss.length).map fun k => fragSample r.target st f k (ss.getD k ⟨[], 0⟩) else ss) init

/-! ### Load and store ops (R409, R414) -/

/-- The code of the clear value of a record. -/
def clearCode (t : List Word) (x : Nat × Bool) : Nat :=
  let w := fw t (x.1 + 2) 0 64
  if x.2 then
    let d := nBits w 0 32
    match targetDepth t with
    | 1 => depthCode 1 ((f32.ofBits d).clamp 0 1 (unormVal 24 (Config.rndNan 16 % 2 ^ 24)))
    | 2 => depthCode 2 ((f32.ofBits d).clamp 0 1 (unormVal 24 (Config.rndNan 16 % 2 ^ 24))) + nBits w 32 8 * 2 ^ 24
    | _ => d
  else
    let fmt := fw t (x.1 + 1) 24 4
    if fmt = 3 then w else chansPut fmt 15 0 fun ch => f16.ofBits (nBits w (16 * ch) 16)

/-- The mean of four data in binary32. -/
def mean4 (v : Nat → Fp) : Fp := f32.mul (f32.add (f32.add (f32.add (v 0) (v 1)) (v 2)) (v 3)) (.num (1 / 4))

/-- The code of a resolved pixel of a record. -/
def resolveCode (t : List Word) (x : Nat × Bool) (codes : List Nat) : Nat :=
  let c (k : Nat) : Nat := codes.getD k 0
  if x.2 then
    match targetDepth t with
    | 1 => chanCode 6 16 (mean4 fun k => f32.round (.num (unormVal 16 (c k))))
    | 2 => chanCode 6 24 (mean4 fun k => f32.round (.num (unormVal 24 (nBits (c k) 0 24))))
        + (Config.stencilMean (codes.map fun v => nBits v 24 8) % 256) * 2 ^ 24
    | _ => f32.toBits (f32.round (mean4 fun k => f32.ofBits (c k)))
  else
    let fmt := fw t (x.1 + 1) 24 4
    chansPut fmt 15 0 fun ch => mean4 fun k => f32.round (.num (chanRead fmt (c k) ch))

/-- The code of record `i` (its place among the records in use) of a sample. -/
def Sample.code (x : Sample) (isDepth : Bool) (i : Nat) : Nat := if isDepth then x.ds else x.cols.getD i 0

/-- The bytes of a pixel that a record's store op writes. -/
def storeBytes (t : List Word) (x : Nat × Bool) (i : Nat) (ss : List Sample) : List Byte :=
  let n := recBytes t x
  let codes := ss.map fun s => s.code x.2 i
  match fw t (x.1 + 1) 30 2 with
  | 0 => (codes.map (leBytes n)).flatten
  | 2 => leBytes n (resolveCode t x codes)
  | _ => []

end Sys2Proof.Machine
end

