-- ==== Sys2Proof/Machine/Render.lean ====
section
/-!
DEFINITION. Machine/Render.lean: the render engine at work (R393 to R432): turns and the cores that run them, passes, dispatches, the
end of a compilation, the secure submission.
-/

namespace Sys2Proof.Machine

/-! ### Runs -/

/-- Whether a run is a pass. -/
def RndRun.isPass (r : RndRun) : Bool := hdrOp (r.words.headD 0) = 0x0301

/-- The queue of a run. -/
def RndRun.queue (r : RndRun) : Nat := if r.isPass then fw r.words 2 0 4 else fw r.words 1 0 4

/-- Workgroups of a dispatch that run, and its slices (R427). -/
def RndRun.groupCount (r : RndRun) : Nat := min (countsProd r.counts) (fw r.words 3 0 32)
/-- Slices of a dispatch. -/
def RndRun.slices (r : RndRun) : Nat := ceilDiv r.groupCount 64
/-- Workgroups of a slice. -/
def RndRun.sliceSize (r : RndRun) (n : Nat) : Nat := min 64 (r.groupCount - 64 * n)

/-- The limit on metered bytes. -/
def RndRun.memLimit (r : RndRun) : Nat := if r.isPass then fw r.words 6 0 40 else fw r.words 5 0 40

/-- A run by its command. -/
def State.run? (s : State) (k : Option Nat) : Option RndRun := s.vid.runs.find? fun r => r.cmd = k

/-- Change a run. -/
def runUpd (k : Option Nat) (f : RndRun → RndRun) : Act := .eff (.vid fun v => { v with runs := mapIf (fun r => r.cmd = k) f v.runs })

/-- Run a program on a run, if there is one. -/
def onRun (k : Option Nat) (g : State → RndRun → Act) : Act :=
  .ask fun s => match s.run? k with
    | some r => g s r
    | none => .skip

/-- The units of a run whose turns are running. -/
def State.unitsRunning (s : State) (k : Option Nat) : List Nat := (s.vid.turns.filter fun t => t.2.1 = k).map fun t => t.2.2

/-- Whether a run's command has started and not ended; a secure submission is at work while it stands. -/
def State.runLive (s : State) (r : RndRun) : Bool :=
  match r.cmd with
  | some id => (match s.cmd? id with | some c => c.stage = .started | none => false)
  | none => true

/-- The unit of a run's next ready turn, if any: draws, then tiles in raster order; slices (R413, R427). -/
def State.nextUnit (s : State) (r : RndRun) : Option Nat :=
  if !s.runLive r || !r.begun || r.stop || r.fault then none
  else
    let busy := s.unitsRunning r.cmd
    if !r.isPass then (List.range r.slices).find? fun n => !r.done.contains n && !busy.contains n
    else match r.tiles with
      | none => (List.range r.draws.length).find? fun d => !(r.drawn.any fun x => x.1 = d) && !busy.contains d
      | some ts => ts.find? fun t => !r.done.contains t && !busy.contains t

/-- Mark a run as failed (R38, R195, R394). -/
def runFault (k : Option Nat) : Act := runUpd k fun r => { r with fault := true }

/-- Count metered bytes (R431); reaching the limit cuts all further turns (Table 3.9). -/
def runMeter (k : Option Nat) (n : Nat) : Act :=
  runUpd k fun r =>
    let m := r.mem + n
    if decide (n ≠ 0) && decide (r.memLimit ≤ m) then { r with mem := m, past := true, stop := true } else { r with mem := m }

/-! ### Accesses of a run -/

/-- Write for a run. -/
def State.runWrite (s : State) (owner : Option Nat) (a : Nat) (bs : List Byte) (h : HostAns) : MemOut :=
  match owner with
  | some n => seatWrite s stRnd n a bs h
  | none => devWrite s { station := stRnd, secure := true, seat := none, window := 0, kind := .write } a bs

/-- Store bytes for a run, page by page; a failure fails its command. -/
def runStore (r : RndRun) (a : Nat) (bs : List Byte) (h : HostAns) : Act :=
  each (pageParts (bs.length / 4096 + 2) a bs) fun p =>
    .ask fun s =>
      let o := s.runWrite r.seat p.1 p.2 h
      acts [o.act, actIf (o.err || o.miss) (runFault r.cmd)]

/-- The parts of an area that lie in one 4 KiB page each. -/
def areaParts (a n : Nat) : List (Nat × Nat) := (pageParts (n / 4096 + 2) a (zeros n)).map fun p => (p.1, p.2.length)

/-- Reads for a run, page by page. -/
def State.runReads (s : State) (r : RndRun) (a n : Nat) (h : HostAns) : List MemOut :=
  (areaParts a n).map fun p => ownerRead s stRnd r.seat p.1 p.2 h

/-- The bytes of reads. -/
def readBytes (os : List MemOut) : List Byte := (os.map MemOut.bytes).flatten
/-- Whether a read among some failed. -/
def readsFailed (os : List MemOut) : Bool := os.any fun o => o.err || o.miss
/-- What reads record. -/
def readsAct (os : List MemOut) : Act := each os fun o => o.act

/-- A read of a run: what it records, its failure, its metering. -/
def runReadAct (k : Option Nat) (n : Nat) (os : List MemOut) : Act :=
  acts [readsAct os, actIf (readsFailed os) (runFault k), runMeter k n]

/-! ### Bindings (R429, R430) -/

/-- The set tables that a run names: draw, set, address. A dispatch's table address 0 means none (Table 12.14). -/
def RndRun.tables (r : RndRun) (params : List Word) : List (Nat × Nat × Nat) :=
  if r.isPass then
    ((List.range r.draws.length).map fun d =>
      let w := r.draws.getD d []
      let first := 5 + b2n (drawIndexed w)
      (List.range (w.length - first)).map fun i => (d, i, fw w (first + i) 0 64)).flatten
  else ((List.range 8).filter fun i => fw params i 0 64 != 0).map fun i => (0, i, fw params i 0 64)

/-- Read one set table. -/
def readTable (k : Option Nat) (x : Nat × Nat × Nat) (h : HostAns) : Act :=
  onRun k fun s r =>
    let os := s.runReads r x.2.2 2048 h
    acts [runReadAct k 2048 os, runUpd k fun r => { r with sets := r.sets ++ [(x.1, x.2.1, bytesWords (readBytes os))] }]

/-- Begin the work of a run whose command has started: its set tables are read. -/
def runBegin (r : RndRun) (params : List Word) (h : HostAns) : Act :=
  acts [each (r.tables params) fun x => readTable r.cmd x h, runUpd r.cmd fun r => { r with begun := true }]

/-- Where an access of a program leads: an address, or nowhere where it lies beyond its entry or goes through none. -/
def RndRun.accPlace (r : RndRun) (x : ProgAcc) : Option Nat :=
  match r.sets.find? fun e => e.1 = x.draw && e.2.1 = x.set with
  | none => none
  | some e =>
    let w := 4 * x.binding
    let d := e.2.2
    let kind := fw d w 0 3
    match x.texel with
    | none =>
      if (kind = 1 || kind = 2) && decide (x.off + x.len ≤ fw d (w + 2) 0 40) then some (fw d (w + 1) 0 64 + x.off) else none
    | some p =>
      let fmt := fw d (w + 2) 56 4
      if (kind = 3 || kind = 4) && decide (fmt ≤ 6) && decide (p.1 < fw d (w + 2) 0 16) && decide (p.2 < fw d (w + 2) 16 16)
          && x.len = fmtB2 fmt / 2 then
        some (fw d (w + 1) 0 64 + p.2 * fw d (w + 2) 32 24 + p.1 * (fmtB2 fmt / 2))
      else none

/-- Make an access of a program: dropped, and reading 0, beyond its entry; metered, an atomic as read and write (R430, R431). -/
def accAct (k : Option Nat) (h : HostAns) (x : ProgAcc) : Act :=
  onRun k fun s r =>
    match r.accPlace x with
    | none => .skip
    | some a => acts [
        actIf (x.data.isEmpty || x.atomic) (runReadAct k x.len (s.runReads r a x.len h)),
        actIf (!x.data.isEmpty) (acts [runStore r a (x.data.take x.len) h, runMeter k x.len])]

/-! ### Vertex turns (R399, R413, R422) -/

/-- A vertex turn ends, or is cut with what it has binned. -/
def drawTurn (r : RndRun) (d : Nat) (t : TurnIn) : Act :=
  runUpd r.cmd fun r => { r with drawn := r.drawn ++ [(d, t.outWords, t.prims)] }

/-- Binning ends when every vertex turn has: the first max_tiles tiles that need processing follow (R413, R422). -/
def runBin (r : RndRun) : Act :=
  let b := r.bin
  let need := r.needTiles b
  let n := fw r.words 3 32 32
  runUpd r.cmd fun r => { r with tiles := some (need.take n), past := r.past || b.stopped || decide (n < need.length) }

/-! ### Tile turns (R414, R424) -/

/-- Pixel bounds of a tile within the render area: left, right, top, bottom, right and bottom exclusive. -/
def tileSpan (ws : List Word) (id : Nat) : Nat × Nat × Nat × Nat :=
  let a := passArea ws
  (max (32 * (id % 512)) a.1, min (32 * (id % 512) + 32) (a.1 + a.2.2.1),
   max (32 * (id / 512)) a.2.1, min (32 * (id / 512) + 32) (a.2.1 + a.2.2.2))

/-- Bytes from one pixel of a record's surface to the next: a surface that RESOLVE writes holds one value per pixel (R410). -/
def recStride (t : List Word) (x : Nat × Bool) : Nat := recBytes t x * (if fw t (x.1 + 1) 30 2 = 2 then 1 else targetSamples t)

/-- Address of a pixel of a record's surface. -/
def recAddr (t : List Word) (x : Nat × Bool) (px py : Nat) : Nat :=
  fw t x.1 0 64 + py * fw t (x.1 + 1) 0 24 + px * recStride t x

/-- The reads of a record's LOAD for a tile, one list per row. -/
def State.loadReads (s : State) (r : RndRun) (x : Nat × Bool) (id : Nat) (h : HostAns) : List (List MemOut) :=
  let p := tileSpan r.words id
  if fw r.target (x.1 + 1) 28 2 != 0 then []
  else (rangeFrom p.2.2.1 (p.2.2.2 - p.2.2.1)).map fun y =>
    s.runReads r (recAddr r.target x p.1 y) ((p.2.1 - p.1) * recStride r.target x) h

/-- The code of sample `k` of a pixel as a record's load op leaves it: `rows` the rows read, `place` the record's number, `fv` the free
counter. Where the surface holds one value per pixel, every sample takes it. -/
def loadCode (t : List Word) (x : Nat × Bool) (place fv : Nat) (rows : List (List Byte)) (dx dy k : Nat) : Nat :=
  let n := recBytes t x
  match fw t (x.1 + 1) 28 2 with
  | 0 =>
    let o := dx * recStride t x + (if recStride t x = n then 0 else k * n)
    leNat (((rows.getD dy []).drop o).take n)
  | 1 => clearCode t x
  | _ => leNat ((List.range n).map fun i => Config.tileByte fv ((((place * 32 + dy) * 32 + dx) * 4 + k) * 4 + i))

/-- The rows of pixels of a tile turn: the samples of each pixel after load and fragments. -/
def RndRun.tilePixels (r : RndRun) (id fv : Nat) (frags : List Fragment) (rows : List (List (List Byte))) : List (List (List Sample)) :=
  let p := tileSpan r.words id
  let recs := targetRecs r.target
  let cols := (List.range recs.length).filter fun i => !(recs.getD i (0, false)).2
  let deps := (List.range recs.length).filter fun i => (recs.getD i (0, false)).2
  (List.range (p.2.2.2 - p.2.2.1)).map fun dy => (List.range (p.2.1 - p.1)).map fun dx =>
    r.pixel frags (p.1 + dx) (p.2.2.1 + dy) ((List.range (targetSamples r.target)).map fun k =>
      { cols := cols.map fun i => loadCode r.target (recs.getD i (0, false)) i fv (rows.getD i []) dx dy k
        ds := match deps with
          | i :: _ => loadCode r.target (recs.getD i (0, false)) i fv (rows.getD i []) dx dy k
          | [] => 0 })

/-- Store a record's part of a tile under its signature rule: whether it is written, and the program (R424). -/
def State.recStore (s : State) (r : RndRun) (id : Nat) (h : HostAns) (px : List (List (List Sample))) (i : Nat) (x : Nat × Bool) : Bool × Act :=
  let t := r.target
  let p := tileSpan r.words id
  let rows := px.map fun row => (row.map fun ss => storeBytes t x i ss).flatten
  let write := each (List.range rows.length) fun dy =>
    runStore r (recAddr t x p.1 (p.2.2.1 + dy)) (rows.getD dy []) h
  let stores := fw t (x.1 + 1) 30 2 != 1
  let sig := fw t (x.1 + 1) 32 2
  if sig = 0 then (stores, write)
  else
    let a := fw t (x.1 + 3) 0 64 + 8 * id
    let crc := crcOf 3 rows.flatten
    let put := acts [write, runStore r a (leBytes 8 crc) h, runMeter r.cmd 8]
    if sig = 2 then (stores, put)
    else
      let os := s.runReads r a 8 h
      let same := leNat (readBytes os) = crc
      (stores && !same, acts [runReadAct r.cmd 8 os, actIf (!same && !readsFailed os) put])

/-- A tile turn that ends. A tile whose loads fail, or whose tile memory has an uncorrectable error, is not written (R38, R394). -/
def tileTurn (r : RndRun) (id : Nat) (t : TurnIn) : Act :=
  .ask fun s =>
    let recs := targetRecs r.target
    let loads := recs.map fun x => s.loadReads r x id t.host
    let failed := loads.any fun rows => rows.any readsFailed
    let n := sumOn loads fun rows => sumOn rows fun os => (readBytes os).length
    acts [
      each loads fun rows => each rows readsAct,
      runMeter r.cmd n,
      .eff .tick,
      if failed || t.tileErr = 2 then acts [runFault r.cmd, runUpd r.cmd fun r => { r with done := r.done ++ [id] }]
      else
        let px := r.tilePixels id s.fv t.frags (loads.map fun rows => rows.map readBytes)
        let outs := (List.range recs.length).map fun i => s.recStore r id t.host px i (recs.getD i (0, false))
        acts [each outs fun o => o.2,
          runUpd r.cmd fun r =>
            if outs.any fun o => o.1 then { r with done := r.done ++ [id], written := r.written + 1 }
            else { r with done := r.done ++ [id], skipped := r.skipped + 1 }]]

/-! ### The end of a run -/

/-- Progress of a run's command (Table 4.13), and of the secure submission (Table 12.16). -/
def runProgress (r : RndRun) : Act :=
  match r.cmd with
  | some id => cmdUpd id fun c =>
      if r.isPass then { c with unitsDone := r.written + r.skipped, part := r.written, detail := r.written + r.skipped * 2 ^ 32 }
      else { c with unitsDone := r.written, part := r.groups, detail := r.groups }
  | none => setFld Reg.rndSecqStatus 10 32 (if r.isPass then r.written + r.skipped else r.groups)

/-- The secure submission ends with an outcome. -/
def secqEnd (r : RndRun) : Act :=
  .ask fun s =>
    let aborted := s.fld Reg.rndSecqStatus 0 2 = 2
    let out := if r.fault then 0x22 else if aborted then 0x21 else if r.past then 0x20 else 0
    acts [
      actIf (r.isPass && out = 0) (stampPut stRnd none (fw r.target 1 0 64) s.tts.bell false 0),
      setFld Reg.rndSecqStatus 0 10 (out * 4),
      .eff (.vid fun v => { v with runs := v.runs.filter fun x => x.cmd.isSome })]

/-- Whether no turn of a run is left to run. -/
def State.runFinished (s : State) (r : RndRun) : Bool :=
  (s.unitsRunning r.cmd).isEmpty && (r.stop || r.fault || (r.begun && (!r.isPass || r.tiles.isSome) && (s.nextUnit r).isNone))

/-- A run moves on: binning ends when every vertex turn has, the command ends when no turn is left (R105 to R107, R210). -/
def runSettle (k : Option Nat) : Act :=
  onRun k fun s r =>
    if !s.runLive r then .skip
    else acts [
      actIf (r.isPass && r.begun && r.tiles.isNone && !r.stop && !r.fault && decide (r.drawn.length = r.draws.length)) (runBin r),
      onRun k fun s r => acts [
        runProgress r,
        actIf (s.runFinished r) (match r.cmd with
          | some id => cmdEnd id fun c =>
              { c with fault := c.fault || r.fault, overrun := c.overrun || r.past, squashed := c.squashed || c.squashReq }
          | none => secqEnd r)]]

/-! ### Cores (R396 to R400, R432) -/

/-- Cores of a queue's mask in force (R398). -/
def State.queueMask (s : State) (q : Nat) : Nat := (mapGet (fun _ => (0xFFFFFF, [])) q s.vid.masks).1

/-- Whether a core takes work: the engine is clocked, and the core does not wait to be moved (R226). -/
def State.coreUp (s : State) (c : Nat) : Bool :=
  s.engineUp 2 && !(s.worlds.moving.contains (123 + c) && decide (2 ≤ s.fld Reg.secHoStatus 0 2))

/-- Whether a core may run a turn of a run. Secure cores take no more work during a trusted restart (R244). -/
def State.coreMay (s : State) (c : Nat) (r : RndRun) : Bool :=
  match r.cmd with
  | some _ => !s.unitSec (123 + c) && nBit (s.queueMask r.queue) c
  | none => s.unitSec (123 + c) && s.bitAt Reg.rndSecqCtrl (18 + c) && !s.bitAt Reg.secState 0

/-- The runs that have a ready turn which a core may take. -/
def State.coreRuns (s : State) (c : Nat) : List RndRun := s.vid.runs.filter fun r => s.coreMay c r && (s.nextUnit r).isSome

/-- Whether a run's command is of the background class. -/
def State.runBack (s : State) (r : RndRun) : Bool :=
  match r.cmd with
  | some id => (match s.cmd? id with | some c => c.background | none => true)
  | none => false

/-- The key of a deadline run: least latest start first, ties as R76 breaks them. -/
def State.runKey (s : State) (r : RndRun) : Nat :=
  match r.cmd with
  | some id => (match s.cmd? id with | some c => s.dispatchKey c | none => 0)
  | none => 0

/-- Priority of a queue. -/
def State.queuePrio (s : State) (q : Nat) : Nat := s.cfld (Reg.rndQueueCfg q) 0 3

/-- The run whose turn a core takes (R400). -/
def State.corePick (s : State) (c : Nat) : Option RndRun :=
  let rs := s.coreRuns c
  match leastBy s.runKey (rs.filter fun r => !s.runBack r) with
  | some r => some r
  | none =>
    let bs := rs.filter s.runBack
    let top := bs.foldl (fun m r => max m (s.queuePrio r.queue)) 0
    let qs := ((bs.map RndRun.queue).filter fun q => s.queuePrio q = top).eraseDups
    match leastBy (fun q => (q + 15 - s.vid.lastQueue) % 16) qs with
    | some q => bs.find? fun r => r.queue = q
    | none => none

/-- An idle core takes its next turn. -/
def coreTake (c : Nat) : Act :=
  .ask fun s =>
    if !s.coreUp c || s.vid.turns.any fun t => t.1 = c then .skip
    else match s.corePick c with
      | some r => actOpt (s.nextUnit r) fun u => .eff (.vid fun v =>
          { v with turns := v.turns ++ [(c, r.cmd, u)], lastQueue := if s.runBack r then r.queue else v.lastQueue })
      | none => .skip

/-- Passes whose commands have started begin, runs that have nothing left end, idle cores take turns. -/
def coresTake : Act :=
  acts [
    .ask fun s => each (s.vid.runs.filter fun r => s.runLive r && r.isPass && !r.begun && !r.stop) fun r => runBegin r [] .ok,
    .ask fun s => each s.vid.runs fun r => runSettle r.cmd,
    each (List.range 24) coreTake]

/-! ### The end of a turn -/

/-- The turn that a core runs. -/
def State.turn? (s : State) (c : Nat) : Option (Option Nat × Nat) := (s.vid.turns.find? fun t => t.1 = c).map Prod.snd

/-- What the check of the tile memory finds in a turn: in a tile's turn an armed injection makes it uncorrectable (R551). -/
def State.tileChecked (s : State) (k : Option Nat) (t : TurnIn) : TurnIn :=
  if s.armed stRnd 5 && s.vid.runs.any (fun r => r.cmd = k && r.isPass && r.tiles.isSome) then { t with tileErr := 2 } else t

/-- What the turn of a core did to memory besides its attachments, and errors of its tile memory (R394). -/
def turnTraffic (k : Option Nat) (t : TurnIn) : Act :=
  acts [
    each t.accs (accAct k t.host),
    runMeter k t.memBytes,
    actOpt k fun id => cmdUpd id fun c => { c with inflight := c.inflight + t.owed },
    actIf (t.tileErr = 1) (raise stRnd 4),
    actIf (t.tileErr = 2) (acts [
      .ask fun s => actIf (s.armed stRnd 5) (clearBits (Reg.fsInject stRnd) (2 ^ 5)),
      raise stRnd 5, runFault k])]

/-- A turn leaves its core. -/
def turnLeave (c : Nat) (k : Option Nat) : Act :=
  acts [.eff (.vid fun v => { v with turns := v.turns.filter fun t => t.1 != c }), runSettle k, coresTake]

/-- TURN_END (R400): what the turn yields, then the core's next turn. -/
def turnEndOp (t : TurnIn) : Act :=
  .ask fun s => match s.turn? t.core with
    | none => .skip
    | some (k, u) => let t := s.tileChecked k t; acts [
        turnTraffic k t,
        onRun k fun _ r =>
          if !r.isPass then runUpd k fun r =>
            { r with done := r.done ++ [u], written := r.written + 1, groups := r.groups + r.sliceSize u }
          else if r.tiles.isNone then drawTurn r u t
          else tileTurn r u t,
        turnLeave t.core k]

/-- TURN_END. -/
def execTurnEnd (t : TurnIn) (s : State) : Host.Outcome State Fault Refusal := live (t.core < 24) (turnEndOp t) s

/-- A turn reaches its cycle limit (Table 3.9, R422, R428): a draw keeps what it has binned, a tile is not written, a slice counts the
workgroups that finished and no further slice starts. -/
def turnCutOp (t : TurnIn) : Act :=
  .ask fun s => match s.turn? t.core with
    | none => .skip
    | some (k, u) => let t := s.tileChecked k t; acts [
        turnTraffic k t,
        onRun k fun _ r =>
          if !r.isPass then runUpd k fun r =>
            { r with done := r.done ++ [u], groups := r.groups + min t.groups (r.sliceSize u), past := true, stop := true }
          else if r.tiles.isNone then acts [drawTurn r u t, runUpd k fun r => { r with past := true }]
          else runUpd k fun r => { r with done := r.done ++ [u], past := true },
        turnLeave t.core k]

/-- TURN_CYCLE_LIMIT (R105). -/
def execTurnCycleLimit (t : TurnIn) (s : State) : Host.Outcome State Fault Refusal := live (t.core < 24) (turnCutOp t) s

/-- A render command reaches a limit in its course (Table 3.9): max_prims or the tile-list allowance, where the turns that have ended show
it; max_mem_bytes, while a turn runs. -/
def rndLimit (id : Nat) (memory : Bool) : Act :=
  onRun (some id) fun s r =>
    if memory then actIf (!(s.unitsRunning (some id)).isEmpty) (runUpd (some id) fun r => { r with past := true, stop := true })
    else actIf (r.isPass && r.bin.stopped) (runUpd (some id) fun r => { r with past := true })

/-! ### Dispatches (R426, R427) -/

/-- RND_DISPATCH: a dispatch starts: its parameters are read, its counts and its set tables. -/
def dispatchOp (id : Nat) (h : HostAns) : Act :=
  onRun (some id) fun s r =>
    if r.isPass || r.begun || !s.runLive r then .skip
    else
      let indirect := dispIndirect r.words
      let n := if indirect then 76 else 64
      let os := s.runReads r (fw r.words 6 0 64) n h
      let bs := readBytes os
      let g (i : Nat) : Nat := leNat ((bs.drop (64 + 4 * i)).take 4)
      let counts := if indirect then (g 0, g 1, g 2) else dispCounts r.words
      acts [
        runReadAct (some id) n os,
        runUpd (some id) fun r => { r with counts := counts, past := r.past || decide (fw r.words 3 0 32 < countsProd counts) },
        runBegin r (bytesWords (bs.take 64)) h,
        coresTake]

/-- RND_DISPATCH (R426, R427). -/
def execRndDispatch (cmd : Nat) (host : HostAns) (s : State) : Host.Outcome State Fault Refusal := live true (dispatchOp cmd host) s

/-! ### Compilation (R404) -/

/-- The end of a compilation: cause 0 DONE with the module's entry points and KiB of compiled code; else the cause of its OVERRUN. More
than 64 entry points are beyond Table 12.4; code beyond the pages reserved is SIZE. -/
def compileOp (id : Nat) (models : List Nat) (kib cause : Nat) : Act :=
  .ask fun s => actOpt (s.vid.progs.find? fun p => p.load = some id) fun p =>
    onCmd id fun _ c =>
      let why := if cause != 0 then cause else if 64 < models.length then 3 else if 4 * p.pages.length < kib then 4 else 0
      if c.stage != .started then .skip
      else if why = 0 then acts [
        .eff (.vid fun v => { v with progs := mapIf (fun x => x.load = some id) (fun x =>
          { x with load := none, models := models, pages := x.pages.take (ceilDiv kib 4), kib := 4 * ceilDiv kib 4, ready := true }) v.progs }),
        cmdEnd id fun c => { c with unitsDone := 1000, part := models.length, detail := p.id + models.length * 2 ^ 16 },
        rndPools, .ask fun s => overUpdate (s.cmd? id |>.map Cmd.seat |>.getD 0)]
      else acts [
        .eff (.vid fun v => { v with progs := v.progs.filter fun x => x.load != some id }),
        cmdEnd id fun c => { c with overrun := true, detail := p.id + why * 2 ^ 32 },
        rndPools, .ask fun s => overUpdate (s.cmd? id |>.map Cmd.seat |>.getD 0)]

/-- PROGRAM_COMPILE_DONE (R404). -/
def execProgramCompileDone (cmd : Nat) (models : List Nat) (kib cause : Nat) (s : State) : Host.Outcome State Fault Refusal :=
  live (cause ≤ 4) (compileOp cmd models kib cause) s

/-! ### Masks and clock at an edge (R20, R398) -/

/-- Whether a command is render work: a pass or a dispatch that has been accepted and has not completed. -/
def Cmd.rndWork (c : Cmd) : Bool := (c.op = 0x0301 || c.op = 0x0303) && c.taken && !c.completed

/-- The queue that a render command names. -/
def Cmd.rndQueue (c : Cmd) : Nat := if c.op = 0x0301 then c.f 2 0 4 else c.f 1 0 4

/-- The mask of a queue at an edge: cores that a commit adds join at once; those that it removes leave at the first edge after every deadline
command of the queue accepted before the commit has completed. `chg`: a commit has changed the queue's register. -/
def maskEdge (chg : Bool) (q : Nat) : Act :=
  .ask fun s =>
    let now := mapGet (fun _ => (0xFFFFFF, [])) q s.vid.masks
    let want := s.cfld (Reg.rndQueueCfg q) 8 24
    let work := (s.cfe.cmds.filter fun c => c.rndWork && !c.background && c.rndQueue = q).map Cmd.id
    let leaving := decide (now.1 &&& want ≠ now.1)
    let wait := if chg then (if leaving then work else []) else now.2.filter work.contains
    let next := if wait.isEmpty then (want, []) else (now.1 ||| want, wait)
    .eff (.vid fun v => { v with masks := mapPut (fun _ => (0xFFFFFF, [])) q next v.masks })

/-- The render clock at an edge (R20): a raise acts at the commit, a reduction waits for the work accepted before it. -/
def clkEdge : Act :=
  .ask fun s =>
    let want := s.rndFreq
    let now := s.fld Reg.rndClk 8 5
    let work := (s.cfe.cmds.filter Cmd.rndWork).map Cmd.id
    let wait := if s.bitAt Reg.rndClk 13 then s.vid.clkWait.filter work.contains else work
    if now ≤ want || wait.isEmpty then
      acts [setFld Reg.rndClk 8 6 want, .eff (.vid fun v => { v with clkWait := [] })]
    else acts [setFld Reg.rndClk 13 1 1, .eff (.vid fun v => { v with clkWait := wait })]

/-- Queues and clock of the engine at an edge; `chg` says of a register whether a commit has changed it. -/
def rndEdge (chg : Nat → Bool) : Act := acts [clkEdge, each (List.range 16) fun q => maskEdge (chg (Reg.rndQueueCfg q)) q]

/-! ### Secure submission (R432) -/

/-- The member draws of a pass in the secure world, up to the end of the submission. -/
def secDraws : Nat → List Word → Option (List (List Word))
  | 0, _ => none
  | n + 1, ws =>
    let h := ws.headD 0
    if ws.isEmpty || hdrReserved h then none
    else if hdrOp h = 0x0304 then (if hdrLen h = 1 && ws.length = 1 then some [] else none)
    else if hdrOp h = 0x0302 && decide (0 < hdrLen h) && decide (hdrLen h ≤ ws.length) && lengthOk (hdrOp h) (hdrLen h) then
      (secDraws n (ws.drop (hdrLen h))).map fun ds => ws.take (hdrLen h) :: ds
    else none

/-- The submission that words hold: one pass or one dispatch. -/
def secParse (ws : List Word) : Option (List Word × List (List Word)) :=
  let h := ws.headD 0
  if decide (ws.length < 8) || hdrReserved h || hdrLen h != 8 then none
  else if hdrOp h = 0x0303 then (if ws.length = 8 then some (ws, []) else none)
  else if hdrOp h = 0x0301 then (secDraws (ws.length + 1) (ws.drop 8)).map fun ds => (ws.take 8, ds)
  else none

/-- Whether the extents of a secure pass are memory. -/
def State.secExtentsOk (s : State) (ws t : List Word) (draws : List (List Word)) : Bool :=
  let a := passArea ws
  let g := passGrid ws
  ((targetRecs t).all fun r =>
    s.memExtent (fw t r.1 0 64) (fw t (r.1 + 1) 0 24 * (a.2.1 + a.2.2.2))
      && (fw t (r.1 + 1) 32 2 = 0 || s.memExtent (fw t (r.1 + 3) 0 64) (8 * (512 * g.2.2.2 + g.2.1 + 1))))
    && draws.all fun d =>
      let n := if fb d 1 33 then 4 else 2
      !drawIndexed d || fw d 2 0 32 = 0 || fw d 2 32 32 = 0 || s.memExtent (fw d 5 0 64 + fw d 3 0 32 * n) (fw d 2 0 32 * n)

/-- A read of the secure submission's decision. -/
def State.secqRead (s : State) (a n : Nat) : MemOut := ownerRead s stRnd none a n .ok

/-- A go on the secure submission: the sequence is read and judged as a decision would; one that would be rejected runs nothing. -/
def secqGoOp : Act :=
  .ask fun s =>
    if s.fld Reg.rndSecqStatus 0 2 != 0 || s.bitAt Reg.secState 0 then .skip
    else
      let o := s.secqRead (s.rd Reg.rndSecqBase).toNat (8 * s.fld Reg.rndSecqCtrl 0 16)
      let refuse := setFld Reg.rndSecqStatus 2 8 0x14
      let start (r : RndRun) : Act := acts [setFld Reg.rndSecqStatus 0 2 1, setFld Reg.rndSecqStatus 10 32 0,
        .eff (.vid fun v => { v with runs := v.runs ++ [r] })]
      acts [o.act,
        match (if o.err then none else secParse (bytesWords o.bytes)) with
        | none => refuse
        | some (ws, draws) =>
          if hdrOp (ws.headD 0) = 0x0303 then
            let n := if dispIndirect ws then 76 else 64
            let p := s.secqRead (fw ws 6 0 64) n
            let bs := p.bytes
            let g (i : Nat) : Nat := leNat ((bs.drop (64 + 4 * i)).take 4)
            let counts := if dispIndirect ws then (g 0, g 1, g 2) else dispCounts ws
            if !dispWordsOk ws || !dispEnvelopeOk s.rndPeriod ws || !s.memExtent (fw ws 6 0 64) n then refuse
            else
              let r : RndRun := { rndRunNew none none ws [] [] [] with
                counts := counts, past := decide (fw ws 3 0 32 < countsProd counts), fault := p.err }
              acts [p.act, start r, runBegin r (bytesWords (bs.take 64)) .ok, runMeter none n, coresTake]
          else
            let t := s.secqRead (fw ws 1 0 64) 320
            let sts := draws.map fun d => s.secqRead (fw d 4 0 64) 96
            let tw := bytesWords t.bytes
            let states := sts.map fun x => bytesWords x.bytes
            acts [t.act, readsAct sts,
              if t.err || readsFailed sts || decide (fw ws 2 16 16 < draws.length) || !(draws.all drawLenOk) || !passWordsOk ws
                  || !(draws.all drawWordsOk) || !passEnvelopeOk s.rndPeriod ws || !(states.all stateOk) || !targetOk ws tw states
                  || !s.secExtentsOk ws tw draws || !(fw tw 1 0 64 = 0 || isStore (fw tw 1 0 64)) then refuse
              else acts [start (rndRunNew none none ws draws tw states), coresTake]]]

/-- An abort of the secure submission: it stops at the next turn boundary. -/
def secqAbortOp : Act :=
  .ask fun s => actIf (s.fld Reg.rndSecqStatus 0 2 = 1) (acts [
    setFld Reg.rndSecqStatus 0 2 2, runUpd none fun r => { r with stop := true }, runSettle none])

end Sys2Proof.Machine
end

