-- ==== Sys2Proof/Machine/Codec.lean ====
section
/-!
DEFINITION. Machine/Codec.lean: the codec at work (R452 to R472): pictures on pipes, taint and concealment, output, the encoder's sources,
its gradual refresh and its byte allowance, secure pipes.
-/

namespace Sys2Proof.Machine

/-! ### Runs and sessions -/

/-- Whether a run is an encode. -/
def CodecRun.isEnc (r : CodecRun) : Bool := hdrOp (r.words.headD 0) = 0x0502

/-- Pictures that a run is to finish. -/
def CodecRun.pictures (r : CodecRun) : Nat := fw r.words 1 16 16

/-- Change a run. -/
def codecUpd (k : Option Nat) (p : Nat) (f : CodecRun → CodecRun) : Act :=
  .eff (.vid fun v => { v with codec := mapIf (fun r => r.cmd = k && r.pipe = p) f v.codec })

/-- A run by its command and pipe. -/
def State.codecRun? (s : State) (k : Option Nat) (p : Nat) : Option CodecRun := s.vid.codec.find? fun r => r.cmd = k && r.pipe = p

/-- Run a program on a run with its session. -/
def onCodec (k : Option Nat) (p : Nat) (g : State → CodecRun → Session → Act) : Act :=
  .ask fun s => match s.codecRun? k p with
    | some r => (match s.vid.sess.find? fun x => x.id = r.sess with
        | some x => g s r x
        | none => .skip)
    | none => .skip

/-- The run whose picture is in progress on a pipe. -/
def State.pipeRun (s : State) (p : Nat) : Option CodecRun := s.vid.codec.find? fun r => r.pipe = p && r.active

/-- A run of a command or of a secure submission. -/
def codecNew (cmd : Option Nat) (pipe sess : Nat) (ws : List Word) : CodecRun :=
  { cmd := cmd, pipe := pipe, sess := sess, words := ws, active := false, slot := none, src := none, key := false, reqs := [], bell := none,
    finished := 0, output := 0, degraded := 0, bytes := 0, ended := false, past := false, stop := false, fault := false }

/-- Whether a run's command has failed or is to be squashed (R38, R210). -/
def State.codecBroken (s : State) (r : CodecRun) : Bool :=
  r.fault || match r.cmd with
    | some id => (match s.cmd? id with | some c => c.fault || c.squashReq || c.stage != .started | none => true)
    | none => false

/-- Picture width and height of a session. -/
def Session.w (x : Session) : Nat := fw x.words 2 0 16
/-- Picture height of a session. -/
def Session.h (x : Session) : Nat := fw x.words 2 16 16
/-- Columns of 64-sample blocks. -/
def Session.cols (x : Session) : Nat := ceilDiv x.w 64
/-- Rows of 64-sample blocks. -/
def Session.blockRows (x : Session) : Nat := ceilDiv x.h 64
/-- Whether pictures have 10 bits. -/
def Session.ten (x : Session) : Bool := fb x.words 1 6

/-! ### Which picture a pipe takes (R452, R465) -/

/-- Whether a run's next picture is ready: a CAPTURE or HEAD encode codes each picture in the bell booked for it, without a booking one in
each bell, for a HEAD in a bell in which the head starts a frame. -/
def State.codecReady (s : State) (r : CodecRun) : Bool :=
  decide (r.finished < r.pictures) && !r.stop && !r.ended && !(r.past && !r.isEnc) && !s.codecBroken r
    && (!r.isEnc || encSrc r.words = 0 || (r.bell != some s.tts.bell
      && (encSrc r.words != 2 || (s.head (encIndex r.words)).starts s.tts.bell)
      && (match r.cmd with
          | some id => (match s.cmd? id with
              | some c => c.background || s.adm.shares.any fun x => x.cmd = id && x.cls = 3 && x.bell = s.tts.bell
              | none => false)
          | none => true)))

/-- The order of pictures on a pipe: a NORMAL deadline picture at its latest start, LIVE pictures, the rest; within each, as R76 orders. -/
def State.codecKey (s : State) (r : CodecRun) : Nat :=
  let live := match s.vid.sess.find? fun x => x.id = r.sess with | some x => x.live | none => false
  let top := 2 ^ 200
  match r.cmd with
  | some id => (match s.cmd? id with
      | some c =>
        let due := !live && !c.background && decide (c.latest ≤ s.now)
        s.dispatchKey c + (if due then 0 else if live then top else 2 * top)
      | none => 3 * top)
  | none => 0

/-- The run whose picture a pipe takes next. -/
def State.codecPick (s : State) (p : Nat) : Option CodecRun := leastBy s.codecKey (s.vid.codec.filter fun r => r.pipe = p && s.codecReady r)

/-- Slots that a decode session's pictures hold: references, and pictures that await output (R438). -/
def Session.holds (x : Session) (slot : Nat) : Bool := x.held.any fun p => p.slot = slot

/-- A picture starts on its pipe: a decode takes a slot, or RING_FULL (R459); an encode takes its source, and the key requests decided before
(R464, R470). -/
def picStart (r : CodecRun) : Act :=
  onCodec r.cmd r.pipe fun s r x =>
    if r.isEnc then
      let src := if encSrc r.words != 1 then none else (s.capSt (encIndex r.words)).edgePub.map fun e => (encIndex r.words, e.1, e.2)
      acts [
        codecUpd r.cmd r.pipe fun r => { r with
          active := true, bell := some s.tts.bell, src := src, key := x.number = 0 || !x.keys.isEmpty, reqs := x.keys },
        sessUpd x.id fun x => { x with keys := [] }]
    else
      let slot := x.ring.bind fun q => s.slotFor q x.holds
      acts [
        codecUpd r.cmd r.pipe fun r => { r with active := true, bell := some s.tts.bell, slot := slot },
        actIf slot.isNone (raiseSrc stVdc 4 0 x.seat)]

/-- An idle pipe takes its next picture. Secure pipes take no more during a trusted restart (R244). -/
def codecTake (p : Nat) : Act :=
  .ask fun s =>
    if !s.engineUp 4 || (s.pipeRun p).isSome || (s.unitSec (113 + p) && s.bitAt Reg.secState 0) then .skip
    else actOpt (s.codecPick p) picStart

/-! ### Reading and writing pictures -/

/-- Bytes per stored sample. -/
def sampleBytes (ten : Bool) : Nat := if ten then 2 else 1

/-- The bytes of a row of samples; `pad` fills the bits that Table 9.4 ignores. -/
def sampleRow (ten : Bool) (pad : Nat) (row : List Nat) : List Byte :=
  (row.map fun v => if ten then leBytes 2 ((v % 1024) * 64 + pad % 64) else leBytes 1 v).flatten

/-- The samples that bytes of a row hold. -/
def samplesOf (ten : Bool) (bs : List Byte) : List Nat :=
  (List.range (bs.length / sampleBytes ten)).map fun i =>
    let v := leNat ((bs.drop (sampleBytes ten * i)).take (sampleBytes ten))
    if ten then v / 64 else v

/-- Mid-scale. -/
def midScale (ten : Bool) : Nat := if ten then 512 else 128

/-- Read `n` bytes for a session's owner, page by page. -/
def State.vdcReads (s : State) (owner : Option Nat) (a n : Nat) : List MemOut :=
  (areaParts a n).map fun p => ownerRead s stVdc owner p.1 p.2 .ok

/-- Address of a row of a slot: plane 0, or plane 1. -/
def slotRow (q : SurfRing) (slot : Nat) (chroma : Bool) (y : Nat) : Nat :=
  q.base + slot * q.stride + (if chroma then q.uv else 0) + y * q.pitch

/-! ### Taint and concealment (R455, R457, R458) -/

/-- Whether a block unit of a picture is concealed: made undecodable by a syntax error, or its coded data lies beyond a limit. -/
def concealedUnit (pic : PicIn) (cut : Option Nat) (b : Nat) : Bool :=
  pic.broken.contains b || match cut with
    | some n => decide (n ≤ b)
    | none => false

/-- The tainted block units of a picture, in raster order. A sample of a picture that is not held comes from a substitute. -/
def taintOf (x : Session) (pic : PicIn) (cut : Option Nat) : List Nat :=
  (List.range x.units).foldl (fun ts b =>
    let bad := concealedUnit pic cut b || (pic.preds.getD b []).any fun p =>
      if p.1 = x.number then ts.contains p.2
      else match x.held.find? fun h => h.number = p.1 && h.isRef with
        | some h => h.taint.contains p.2
        | none => true
    if bad then ts ++ [b] else ts) []

/-- The held reference whose output order is nearest to a picture's, the earlier one on a tie. -/
def nearestRef (x : Session) (order : Int) : Option HeldPic :=
  leastBy (fun h => 2 * (h.order - order).natAbs + (if order < h.order then 1 else 0)) (x.held.filter fun h => h.isRef)

/-- A row of samples with concealed block units replaced by co-located samples: `y` a row of plane 0, or of plane 1 (`chroma`). -/
def concealRow (x : Session) (pic : PicIn) (cut : Option Nat) (chroma : Bool) (y : Nat) (row ref : List Nat) : List Nat :=
  let by_ := y / (if chroma then 32 else 64)
  (List.range row.length).map fun i =>
    if concealedUnit pic cut (by_ * x.cols + i / 64) then ref.getD i (midScale x.ten) else row.getD i 0

/-- The cells of Table 10.1 that tainted block units overlap. -/
def taintCells (x : Session) (taint : List Nat) : Nat :=
  concealedBits x.w x.h ((taint.map fun b =>
    let bx := b % x.cols
    let by_ := b / x.cols
    ((rangeFrom (64 * by_) 64).filter fun y => y < x.h).map fun y => ((rangeFrom (64 * bx) 64).filter fun c => c < x.w).map fun c => (c, y)).flatten).flatten

/-! ### The end of a decoded picture (R456 to R460) -/

/-- Publish one held picture: its slot's record and stamp, the ring's next seq, the run's counts. -/
def picOutput (k : Option Nat) (p number : Nat) : Act :=
  onCodec k p fun s _ x =>
    match x.held.find? fun h => h.number = number, x.ring with
    | some h, some q =>
      let bad := !h.taint.isEmpty
      acts [
        publishWrites stVdc q h.slot (q.seq + 1) (number % 2 ^ 32) s.tts.bell bad (taintCells x h.taint),
        sessUpd x.id fun x => { x with
          ring := x.ring.map fun q => q.publish h.slot
          held := mapIf (fun y => y.number = number) (fun y => { y with wait := false }) x.held },
        codecUpd k p fun r => { r with output := r.output + 1, degraded := r.degraded + b2n bad }]
    | _, _ => .skip

/-- Pictures that are neither references nor await output leave the session. -/
def heldTrim (id : Nat) : Act := sessUpd id fun x => { x with held := x.held.filter fun h => h.isRef || h.wait }

/-- Output every picture that awaits it, in output order. -/
def picFlush (k : Option Nat) (p : Nat) : Act :=
  onCodec k p fun _ _ x =>
    let low := x.held.foldl (fun (m : Int) h => min m h.order) 0
    acts [each (sortBy (fun h => (h.order - low).toNat) (x.held.filter fun h => h.wait)) fun h => picOutput k p h.number, heldTrim x.id]

/-- Store the samples of a decoded picture in its slot; concealed block units take co-located samples of the substitute. -/
def picStore (x : Session) (q : SurfRing) (slot : Nat) (pic : PicIn) (cut : Option Nat) : Act :=
    let w := roundUp x.w 64
    let rows (chroma : Bool) (n : Nat) (src : List (List Nat)) : Act := each (List.range n) fun y =>
      .ask fun s =>
        let sub := (nearestRef x pic.order).map fun h => s.vdcReads x.seat (slotRow q h.slot chroma y) (w * sampleBytes x.ten)
        let need := (List.range x.cols).any fun c => concealedUnit pic cut (y / (if chroma then 32 else 64) * x.cols + c)
        let ref := match sub with
          | some os => samplesOf x.ten (readBytes os)
          | none => []
        let row := (src.getD y []).take w
        let row := if need then row ++ List.replicate (w - row.length) (midScale x.ten) else row
        acts [
          actIf need (actOpt sub readsAct),
          rowStore stVdc x.seat (slotRow q slot chroma y) (sampleRow x.ten (Config.padBits s.fv) (concealRow x pic cut chroma y row ref))]
    let mono := pic.chroma.isEmpty
    let h2 := roundUp x.h 64 / 2
    acts [
      rows false (roundUp x.h 64) pic.luma,
      rows true h2 (if mono then List.replicate h2 (List.replicate w (midScale x.ten)) else pic.chroma),
      .eff .tick]

/-- A coded picture is decoded: stored in its slot if it has one, held, and what the standard's output process gives is output. -/
def picDecoded (r : CodecRun) (x : Session) (pic : PicIn) : Act :=
  let limit := decide (fw r.words 4 0 40 < r.bytes + pic.bytes)
  let cut := if limit then some (pic.cutFrom.getD 0) else pic.cutFrom
  let taint := taintOf x pic cut
  acts [
    actIf pic.coded (acts [
      match x.ring, r.slot with
      | some q, some slot => acts [
          picStore x q slot pic cut,
          sessUpd x.id fun y => { y with held := y.held ++
            [{ slot := slot, order := pic.order, number := x.number, taint := taint, isRef := pic.isRef, wait := pic.shown }] }]
      | _, _ => .skip,
      sessUpd x.id fun y => { y with number := y.number + 1 }]),
    sessUpd x.id fun y => { y with held := y.held.map fun h => { h with isRef := h.isRef && !pic.unref.contains h.number } },
    each pic.outs (picOutput r.cmd r.pipe),
    heldTrim x.id,
    codecUpd r.cmd r.pipe fun r => { r with
      finished := r.finished + b2n pic.coded, bytes := r.bytes + pic.bytes, ended := r.ended || pic.ended, past := r.past || limit }]

/-! ### The encoder's sources (R464, R466) -/

/-- A component converted to `n` bits: a wider one to the nearest, halves upward. -/
def encDepth (m n v : Nat) : Nat :=
  if m = n then v else if n < m then min (2 ^ n - 1) ((v + 2 ^ (m - n) / 2) / 2 ^ (m - n)) else Config.encWiden v % 2 ^ n

/-- Luma and chroma codes of `n` bits for R′G′B′ in 0 to 1 (Table 9.5). -/
def encRgb (matrix n : Nat) (full : Bool) (c : Rat × Rat × Rat) : Nat × Nat × Nat :=
  let k := kCoef matrix
  let y := k.1 * c.1 + (1 - k.1 - k.2) * c.2.1 + k.2 * c.2.2
  let cb := (c.2.2 - y) / (2 * (1 - k.2))
  let cr := (c.1 - y) / (2 * (1 - k.1))
  let u : Rat := ((2 ^ (n - 8) : Nat) : Rat)
  let top : Rat := ((2 ^ n - 1 : Nat) : Rat)
  let mid : Rat := ((2 ^ (n - 1) : Nat) : Rat)
  let q (v : Rat) : Nat := min (2 ^ n - 1) (roundNear v).toNat
  if full then (q (y * top), q (cb * top + mid), q (cr * top + mid))
  else (q ((16 + 219 * y) * u), q ((128 + 224 * cb) * u), q ((128 + 224 * cr) * u))

/-- The codes of a pixel of a stored picture: `v` its unit of plane 0, `c` its unit of plane 1. -/
def encPixel (fmt matrix n : Nat) (full : Bool) (v c X : Nat) : Nat × Nat × Nat :=
  let u (lo w : Nat) : Rat := unormVal w (nBits v lo w)
  match fmt with
  | 0 => encRgb matrix n full (u 0 8, u 8 8, u 16 8)
  | 1 => encRgb matrix n full (u 16 8, u 8 8, u 0 8)
  | 2 => encRgb matrix n full (u 0 10, u 10 10, u 20 10)
  | 7 => (encDepth 8 n v, encDepth 8 n (nBits c 0 8), encDepth 8 n (nBits c 8 8))
  | 8 => (encDepth 10 n (nBits v 6 10), encDepth 10 n (nBits c 6 10), encDepth 10 n (nBits c 22 10))
  | 9 => (encDepth 8 n (nBits v (16 * (X % 2)) 8), encDepth 8 n (nBits v 8 8), encDepth 8 n (nBits v 24 8))
  | _ => (encDepth 10 n (nBits v (32 * (X % 2) + 6) 10), encDepth 10 n (nBits v 22 10), encDepth 10 n (nBits v 54 10))

/-- A plane of units as rows of bytes, and how a pixel's unit is found in it. -/
def rowUnit (rows : List (List Byte)) (y i n : Nat) : Nat := leNat (((rows.getD y []).drop (i * n)).take n)

/-- The rows that an encoder codes, of the pixels that `px` gives: luma, then interleaved chroma; `kind`: 0 chroma of every pixel (2 × 2 groups
are averaged), 1 of every row (vertical pairs are), 2 shared. -/
def encRows (w h kind : Nat) (px : Nat → Nat → Nat × Nat × Nat) : List (List Nat) :=
  let chroma (f : Nat × Nat × Nat → Nat) (i j : Nat) : Nat :=
    let p (a b : Nat) : Nat := f (px (2 * i + a) (2 * j + b))
    match kind with
    | 0 => (p 0 0 + p 1 0 + p 0 1 + p 1 1 + 2) / 4
    | 1 => (p 0 0 + p 0 1 + 1) / 2
    | _ => p 0 0
  ((List.range h).map fun y => (List.range w).map fun x => (px x y).1)
    ++ (List.range (h / 2)).map fun j => ((List.range (w / 2)).map fun i => [chroma (fun c => c.2.1) i j, chroma (fun c => c.2.2) i j]).flatten

/-- The source of an encoded picture that lies in memory: owner, address, pitch, offset of plane 1, format. -/
def State.encSurface (s : State) (r : CodecRun) (x : Session) : Option (Option Nat × Nat × Nat × Nat × Nat) :=
  let ws := r.words
  if encSrc ws = 0 then some (x.seat, fw ws 2 0 64 + r.finished * fw ws 3 0 40, fw ws 1 40 24, fw ws 3 40 24 * 256, fw ws 1 32 4)
  else match r.src with
    | some (port, slot, _) => (s.capRing port).map fun q => (q.owner, q.base + slot * q.stride, q.pitch, q.uv, fw (s.capSt port).set 0 7 4)
    | none => none

/-- The reads of a surface's rows: planes 0 and 1. -/
def State.surfReads (s : State) (owner : Option Nat) (a pitch uv fmt w h : Nat) : List (List MemOut) × List (List MemOut) :=
  ((List.range h).map fun y => s.vdcReads owner (a + y * pitch) (rowBytes fmt w),
   if fmtTwo fmt then (List.range (h / 2)).map fun y => s.vdcReads owner (a + uv + y * pitch) (rowBytes fmt w) else [])

/-- The range and the codes of a head's buffer: the 10-bit codes of a pixel as R′G′B′ under the head's out_range. -/
def headRgb (limited : Bool) (code : Nat) : Rat × Rat × Rat :=
  let v (lo : Nat) : Rat := if limited then ((nBits code lo 10 : Nat) - 64 : Int) / 876 else unormVal 10 (nBits code lo 10)
  (v 0, v 10, v 20)

/-- Read and convert the source of an encoded picture: what the reads record, whether one failed, the samples. -/
def State.encSource (s : State) (r : CodecRun) (x : Session) : List MemOut × List (List Nat) :=
  let n := if x.ten then 10 else 8
  let b0 := x.block.headD 0
  let matrix := wBits b0 24 2
  let full := wBit b0 26
  if encSrc r.words = 2 then
    let h := encIndex r.words
    let hd := s.head h
    if hd.bufs.length != 2 || s.headSlice h then
      ([], encRows x.w x.h 0 fun _ _ => encRgb matrix n full (headRgb (s.headLimited h) 0))
    else
      let rows := (List.range (min x.h hd.ht)).map fun y => (s.lineReads h y).map Prod.snd
      let codes := rows.map fun os => codesOf (readBytes os)
      (rows.flatten, encRows x.w x.h 0 fun X Y => encRgb matrix n full (headRgb (s.headLimited h) ((codes.getD Y []).getD X 0)))
  else match s.encSurface r x with
    | none => ([], [])
    | some (owner, a, pitch, uv, fmt) =>
      let os := s.surfReads owner a pitch uv fmt x.w x.h
      let p0 := os.1.map readBytes
      let p1 := os.2.map readBytes
      let kind := if fmt ≤ 2 then 0 else if fmt = 9 || fmt = 10 then 1 else 2
      ((os.1 ++ os.2).flatten, encRows x.w x.h kind fun X Y =>
        encPixel fmt matrix n full (rowUnit p0 Y (X / (fmtUnit fmt).2) (fmtUnit fmt).1) (rowUnit p1 (Y / 2) (X / 2) (if fmt = 8 then 4 else 2)) X)

/-! ### Gradual refresh and the byte allowance (R467 to R469) -/

/-- Columns that an inter picture refreshes by its sweep index. -/
def Session.sweepCols (x : Session) : List Nat :=
  let c := ceilDiv x.cols (wBits (x.block.headD 0) 16 7)
  (List.range x.cols).filter fun i => decide (x.sweep * c ≤ i) && decide (i < (x.sweep + 1) * c)

/-- Columns whose blocks are intra in a row of the next picture. -/
def Session.intraCols (x : Session) (key : Bool) (row : Nat) : List Nat :=
  if key then List.range x.cols
  else (List.range x.cols).filter fun i => x.sweepCols.contains i || x.owed.any fun o => o.1 = row && o.2.contains i

/-- Bytes kept back for `n` block rows. -/
def encReserve (n : Nat) : Nat := 256 + 128 * n

/-- The allowance of a picture: its terms of the session, and what the command leaves. -/
def encAllow (r : CodecRun) (x : Session) : Nat × Nat :=
  let b1 := x.block.getD 1 0
  let b2 := x.block.getD 2 0
  (min (wBits b1 0 32) (wBits b2 0 32 + wBits b1 32 32 - x.fill),
   fw r.words 5 0 40 - r.bytes - (r.pictures - r.finished - 1) * encReserve x.blockRows)

/-- Coding so far: the bytes of the stream, the quantiser, whether blocks are cut, the rows that hold cut blocks. -/
structure EncState where
  out : List Byte
  q : Nat
  cut : Bool
  rows : List Nat
deriving DecidableEq, Repr

/-- Code one block of row `row`; `skip`: a block of a repeat, coded as a skip block. -/
def encBlock (allow rows row : Nat) (skip : Bool) (e : EncState) (b : CodedBlock) : EncState :=
  let at_ := if skip then b.cut else match b.coded.find? fun x => x.1 = e.q with
    | some x => x.2
    | none => []
  if !e.cut && decide ((e.out ++ at_).length ≤ allow - encReserve (rows - row)) then { e with out := e.out ++ at_ }
  else { e with out := e.out ++ b.cut, cut := true, rows := if e.rows.contains row then e.rows else e.rows ++ [row] }

/-- The quantiser after a row. -/
def encQuant (allow rows row qTarget qMax step bytes q : Nat) : Nat :=
  let proj := bytes * rows / (row + 1)
  if decide (allow < proj) && decide (q < qMax) then min qMax (q + step)
  else if decide (2 * proj < allow) && decide (qTarget < q) then max qTarget (q - step)
  else q

/-- Code a picture (the pseudocode of R468). -/
def encPicture (x : Session) (allow : Nat) (key repeat_ : Bool) (head : List Byte) (blocks : List CodedBlock) : EncState :=
  let b0 := x.block.headD 0
  let step := if fw x.words 1 2 2 = 2 then 4 else 1
  (List.range x.blockRows).foldl (fun e row =>
    let intra := x.intraCols key row
    let e := (List.range x.cols).foldl (fun e c =>
      encBlock allow x.blockRows row (repeat_ && !key && !intra.contains c) e (blocks.getD (row * x.cols + c) ⟨[], []⟩)) e
    { e with q := encQuant allow x.blockRows row (wBits b0 0 8) (wBits b0 8 8) step e.out.length e.q })
    { out := head, q := wBits b0 0 8, cut := false, rows := [] }

/-- The session after a coded picture: buffer, sweep, the columns that cut rows owe. -/
def Session.after (x : Session) (key : Bool) (e : EncState) : Session :=
  let refresh := wBits (x.block.headD 0) 16 7
  { x with
    fill := x.fill + e.out.length - wBits (x.block.getD 1 0) 32 32
    number := x.number + 1
    sweep := if key then 0 else (x.sweep + 1) % max 1 refresh
    owed := e.rows.map fun row => (row, x.intraCols key row) }

/-- What a source is known by, so that a repeat can be told: port and seq of a capture. -/
def srcTag : Option (Nat × Nat × Nat) → Nat
  | some (port, _, seq) => (port + 1) * 2 ^ 40 + seq
  | none => 0

/-- A picture is coded: its stream, its record, its buffer, the key requests that it answers (R468 to R471). -/
def picCoded (r : CodecRun) (x : Session) (pic : PicIn) : Act :=
  .ask fun s =>
    let src := s.encSource r x
    let repeat_ := srcTag r.src != 0 && srcTag r.src = x.lastSeq
    let a := encAllow r x
    let e := encPicture x (min a.1 a.2) r.key repeat_ pic.head pic.blocks
    let n := e.out.length
    let recs := fw x.block 3 0 64
    let m := x.number
    acts [
      readsAct src.1,
      rowStore stVdc x.seat (fw r.words 4 0 64 + r.bytes) e.out,
      actIf (recs != 0) (ownerStore stVdc x.seat (recs + 16 * (m % 256))
        (leBytes 8 (m % 2 ^ 32 + b2n r.key * 2 ^ 32 + b2n repeat_ * 2 ^ 33 + (e.rows.length % 128) * 2 ^ 34) ++ leBytes 8 n)),
      sessUpd x.id fun y => { y.after r.key e with keys := y.keys, lastSeq := srcTag r.src, input := src.2 },
      each (r.reqs.filterMap fun q => q) fun id => onCmd id fun _ c => cmdSingle c (m % 2 ^ 32),
      codecUpd r.cmd r.pipe fun r => { r with
        finished := r.finished + 1, output := r.output + 1, degraded := r.degraded + b2n (!e.rows.isEmpty), bytes := r.bytes + n,
        past := r.past || (!e.rows.isEmpty && decide (a.2 < a.1)), fault := r.fault || readsFailed src.1 }]

/-! ### The end of a run -/

/-- Progress of a run's command (Table 4.13), and of a secure pipe (Table 13.10). -/
def codecProgress (r : CodecRun) (x : Session) : Act :=
  match r.cmd with
  | some id => cmdUpd id fun c =>
      if r.isEnc then { c with unitsDone := r.finished * x.blockRows, part := r.bytes
                               detail := r.bytes % 2 ^ 32 + (r.output % 2 ^ 16) * 2 ^ 32 + (r.degraded % 2 ^ 16) * 2 ^ 48 }
      else { c with unitsDone := r.finished, part := r.output, detail := r.output % 2 ^ 16 + (r.degraded % 2 ^ 16) * 2 ^ 16 }
  | none => setFld (Reg.vdcStatus r.pipe) 32 32 ((if r.isEnc then r.bytes else r.output) % 2 ^ 32)

/-- The outcome of a secure run (R472). -/
def State.secpOutcome (s : State) (r : CodecRun) : Nat :=
  if r.fault then 0x22 else if s.fld (Reg.vdcStatus r.pipe) 0 2 = 2 then 0x21 else if r.past then 0x20
  else if !r.isEnc && decide (r.degraded ≠ 0) then 0x24 else 0

/-- Whether a run has no picture left. -/
def State.codecDone (s : State) (r : CodecRun) : Bool :=
  !r.active && (decide (r.pictures ≤ r.finished) || r.ended || (r.past && !r.isEnc) || r.stop || s.codecBroken r)

/-- A run moves on: its command ends when no picture is left (R460); with flush, what awaits output is output first. -/
def codecSettle (k : Option Nat) (p : Nat) : Act :=
  acts [
    onCodec k p fun s r x => acts [
      actIf (s.codecDone r && !r.isEnc && fb r.words 1 8 && !r.stop && !s.codecBroken r) (picFlush k p),
      onCodec k p fun _ r _ => codecProgress r x],
    .ask fun s => actOpt (s.codecRun? k p) fun r =>
      if !s.codecDone r then .skip
      else acts [
        .eff (.vid fun v => { v with codec := v.codec.filter fun y => !(y.cmd = k && y.pipe = p) }),
        match k with
        | some id => cmdEnd id fun c =>
            { c with fault := c.fault || r.fault, squashed := c.squashed || c.squashReq, overrun := c.overrun || r.past,
                     degraded := !r.isEnc && decide (r.degraded ≠ 0) }
        | none => setFld (Reg.vdcStatus p) 0 10 (s.secpOutcome r * 4)]]

/-- Every pipe: runs that have nothing left end, idle pipes take pictures; a decode or encode that a seat reset squashes before its work has
begun ends (R209). -/
def codecAll : Act :=
  acts [
    .ask fun s => each (s.cfe.cmds.filter fun c => (c.op = 0x0501 || c.op = 0x0502) && c.stage = .started && c.squashReq
        && !(s.vid.codec.any fun r => r.cmd = some c.id)) fun c => cmdEnd c.id fun c => { c with squashed := true },
    .ask fun s => each s.vid.codec fun r => codecSettle r.cmd r.pipe,
    each (List.range 10) codecTake]

/-! ### VDC_DECODE, VDC_ENCODE, picture boundaries -/

/-- The work of a decode or encode begins: a decode's replacement ring takes the place of the session's (R454). -/
def codecBegin (id op : Nat) : Act :=
  onCmd id fun s c =>
    if c.op != op || c.stage != .started || s.vid.codec.any fun r => r.cmd = some id then .skip
    else actOpt (s.vid.sess.find? fun x => x.id = c.f 1 0 8 && x.seat = some c.seat) fun x => acts [
      actIf (op = 0x0501 && !c.res.isEmpty) (sessUpd x.id fun x => { x with ring := some (ringOf x.seat (c.res.map (BitVec.ofNat 64))) }),
      .eff (.vid fun v => { v with codec := v.codec ++ [codecNew (some id) x.pipe x.id c.words] }),
      codecTake x.pipe]

/-- VDC_DECODE (R454). -/
def execVdcDecode (cmd : Nat) (s : State) : Host.Outcome State Fault Refusal := live true (codecBegin cmd 0x0501) s
/-- VDC_ENCODE (R463). -/
def execVdcEncode (cmd : Nat) (s : State) : Host.Outcome State Fault Refusal := live true (codecBegin cmd 0x0502) s

/-- A pipe finishes its picture, then takes the next. A picture whose command has failed or is squashed is not published (R210). -/
def boundaryOp (pic : PicIn) : Act :=
  .ask fun s => actOpt (s.pipeRun pic.pipe) fun r => acts [
    onCodec r.cmd r.pipe fun s r x =>
      if s.codecBroken r then .skip
      else if r.isEnc then picCoded r x pic
      else picDecoded r x pic,
    codecUpd r.cmd r.pipe fun r => { r with active := false, slot := none, src := none, reqs := [] },
    codecSettle r.cmd r.pipe,
    codecTake pic.pipe]

/-- CODEC_PICTURE_BOUNDARY (R452). -/
def execCodecPictureBoundary (pic : PicIn) (s : State) : Host.Outcome State Fault Refusal := live (pic.pipe < 10) (boundaryOp pic) s

/-! ### ENVELOPE_LIMIT_REACHED (R105) -/

/-- A command reaches an envelope limit in its course (Table 3.9): `which` 0 max_prims or the tile-list allowance, 1 max_mem_bytes, 2 the
max_bytes of a decode or encode whose picture is in progress. The cut itself is made where the turn or the picture ends. -/
def limitOp (id which : Nat) : Act :=
  match which with
  | 0 => rndLimit id false
  | 1 => rndLimit id true
  | _ => .ask fun s => actOpt (s.vid.codec.find? fun r => r.cmd = some id && r.active) fun r =>
      codecUpd r.cmd r.pipe fun r => { r with past := true }

/-- ENVELOPE_LIMIT_REACHED. -/
def execEnvelopeLimitReached (cmd which : Nat) (s : State) : Host.Outcome State Fault Refusal := live (which < 3) (limitOp cmd which) s

/-! ### Secure pipes (R472) -/

/-- A packet that a secure pipe runs is refused with a code. -/
def secpRefuse (p code : Nat) : Act := setFld (Reg.vdcStatus p) 2 8 code

/-- An open on a secure pipe. -/
def secpOpen (p : Nat) (ws : List Word) : Act :=
  .ask fun s =>
    let enc := fb ws 1 1
    let o := ownerRead s stVdc none (fw ws 4 0 64) 64 .ok
    let d := bytesWords o.bytes
    if !openWordsOk ws || !levelOk ws then secpRefuse p rjMalformed
    else if !s.memExtent (fw ws 4 0 64) 64 then secpRefuse p rjPermission
    else acts [o.act,
      if o.err then secpRefuse p rjMalformed
      else if !(if enc then encBlockOk ws d
          else s.ringValid none d none (sessFmt ws) (roundUp (fw ws 2 0 16) 64) (roundUp (fw ws 2 16 16) 64)
            && decide (fw ws 1 8 5 + 4 ≤ fw d 0 0 6)) then secpRefuse p rjMalformed
      else if enc && fw d 3 0 64 != 0 && !s.memExtent (fw d 3 0 64) 4096 then secpRefuse p rjPermission
      else if enc != decide (8 ≤ p) || decide ((if enc then 4 else 16) ≤ s.pipeSess p) then secpRefuse p rjBudget
      else acts [
        .eff (.vid fun v => { v with sess := v.sess ++
          [sessNew s.sessId none p ws none (if enc then none else some (ringOf none d)) (if enc then d else [])] }),
        .eff .tick, secpRefuse p stDone]]

/-- The session of a secure pipe that a packet names. -/
def State.secSess (s : State) (p id : Nat) : Option Session := s.vid.sess.find? fun x => x.id = id && x.seat.isNone && x.pipe = p

/-- Start a run on a secure pipe. -/
def secpStart (p : Nat) (x : Session) (ws : List Word) : Act :=
  acts [setFld (Reg.vdcStatus p) 0 2 1, setFld (Reg.vdcStatus p) 32 32 0,
    .eff (.vid fun v => { v with codec := v.codec ++ [codecNew none p x.id ws] }), codecTake p]

/-- A decode on a secure pipe. -/
def secpDecode (p : Nat) (ws : List Word) : Act :=
  .ask fun s => match s.secSess p (fw ws 1 0 8) with
    | none => secpRefuse p rjMalformed
    | some x =>
      let ring := fw ws 5 0 64
      let o := ownerRead s stVdc none ring 64 .ok
      let d := bytesWords o.bytes
      if !decodeWordsOk ws || fb x.words 1 1 || (ring != 0 && !x.held.isEmpty) then secpRefuse p rjMalformed
      else if !s.memExtent (fw ws 2 0 64) (fw ws 3 0 40) || (ring != 0 && !s.memExtent ring 64) then secpRefuse p rjPermission
      else if ring = 0 then secpStart p x ws
      else acts [o.act,
        if o.err || !(s.ringValid none d x.ring (sessFmt x.words) (roundUp x.w 64) (roundUp x.h 64) && decide (fw x.words 1 8 5 + 4 ≤ fw d 0 0 6)) then
          secpRefuse p rjMalformed
        else acts [sessUpd x.id fun x => { x with ring := some (ringOf none d) }, secpStart p x ws]]

/-- An encode on a secure pipe: its port or head is a secure one. -/
def secpEncode (p : Nat) (ws : List Word) : Act :=
  .ask fun s => match s.secSess p (fw ws 1 0 8) with
    | none => secpRefuse p rjMalformed
    | some x =>
      let ok := encSrc ws = 0 || s.unitSec (if encSrc ws = 1 then 32 + encIndex ws else encIndex ws)
      let span := fw ws 3 0 40 * (fw ws 1 16 16 - 1) + encSpan x ws
      if !encodeWordsOk ws || !fb x.words 1 1 || decide (fw ws 5 0 40 < fw ws 1 16 16 * (256 + 128 * x.blockRows)) || !ok then secpRefuse p rjMalformed
      else if !s.memExtent (fw ws 4 0 64) (fw ws 5 0 40) || (encSrc ws = 0 && !s.memExtent (fw ws 2 0 64) span) then secpRefuse p rjPermission
      else secpStart p x ws

/-- A close on a secure pipe: no command of the session is at work, since the pipe runs one packet at a time. -/
def secpClose (p : Nat) (ws : List Word) : Act :=
  .ask fun s => match s.secSess p (fw ws 1 24 8) with
    | none => secpRefuse p rjMalformed
    | some x => if (rangeFrom 2 6).all fun i => fw ws i 0 64 = 0 then acts [sessDrop x.id, secpRefuse p stDone] else secpRefuse p rjMalformed

/-- A key request on a secure pipe: it is held for the session's next picture. -/
def secpKey (p : Nat) (ws : List Word) : Act :=
  .ask fun s => match s.secSess p (fw ws 1 0 8) with
    | none => secpRefuse p rjMalformed
    | some x =>
      if fw ws 1 8 56 != 0 || !fb x.words 1 1 then secpRefuse p rjMalformed
      else acts [sessUpd x.id fun x => { x with keys := x.keys ++ [none] }, secpRefuse p stDone]

/-- A go on a secure pipe: the packet at BASE. -/
def secpGoOp (p : Nat) : Act :=
  .ask fun s =>
    let base := (s.rd (Reg.vdcBase p)).toNat
    let h := ownerRead s stVdc none base 8 .ok
    let hdr := bytesWord h.bytes
    let o := ownerRead s stVdc none base (8 * hdrLen hdr) .ok
    let ws := bytesWords o.bytes
    if s.fld (Reg.vdcStatus p) 0 2 != 0 || s.bitAt Reg.secState 0 then .skip
    else acts [h.act, actIf (!h.err && hdrLen hdr != 0) o.act,
      if h.err || o.err || hdrLen hdr = 0 || hdrReserved hdr || !lengthOk (hdrOp hdr) (hdrLen hdr) then secpRefuse p rjMalformed
      else match hdrOp hdr with
        | 0x0500 => if fb ws 1 0 then secpClose p ws else secpOpen p ws
        | 0x0501 => secpDecode p ws
        | 0x0502 => secpEncode p ws
        | 0x0503 => secpKey p ws
        | _ => secpRefuse p rjMalformed]

/-- An abort on a secure pipe: it stops at the next picture boundary. -/
def secpAbortOp (p : Nat) : Act :=
  .ask fun s => actIf (s.fld (Reg.vdcStatus p) 0 2 = 1) (acts [
    setFld (Reg.vdcStatus p) 0 2 2, codecUpd none p fun r => { r with stop := true }, codecSettle none p])

end Sys2Proof.Machine
end

