-- ==== Sys2Proof/Machine/Signal.lean ====
section
/-!
DEFINITION. Machine/Signal.lean: the signal path of the audio crosspoint (chapter 14): nodes and their ramps (R484, R485), converters (R487),
the sum and the three stages of a bus (R478, R489 to R493), alignment and fades (R475, R477).
-/

namespace Sys2Proof.Machine

/-! ### Samples -/

/-- The datum of a binary32 sample. -/
def smp (b : Nat) : Fp := f32.ofBits (b % 2 ^ 32)

/-- A datum rounded to a binary32 sample. -/
def smpBits (x : Fp) : Nat := f32.toBits (f32.round x)

/-- An integer sample of `n` bits as binary32 (R478). -/
def intSmp (n v : Nat) : Nat := smpBits (.num ((signed v n : Rat) / ((2 ^ (n - 1) : Nat) : Rat)))

/-- A binary32 host sample: clamped to ±16, a NaN enters as 0 (R478). -/
def hostSmp (b : Nat) : Nat := smpBits (.num ((smp b).clamp (-16) 16 0))

/-- A sample leaves at a sink of `n` bits (R478). -/
def sinkCode (n : Nat) (x : Fp) : Nat :=
  match x with
  | .nan => Config.nanSample n % 2 ^ n
  | .inf neg => if neg then 2 ^ (n - 1) else 2 ^ (n - 1) - 1
  | .num r =>
    let top : Int := 2 ^ (n - 1)
    unsigned (max (-top) (min (top - 1) (roundNear (r * (top : Rat))))) n

/-- A crossfade: `k` of 96 samples into it, rounded to binary32. -/
def xfade (k : Nat) (old new : Fp) : Fp :=
  if 96 ≤ k then new
  else f32.round ((old.mul (.num (((96 - k : Nat) : Rat) / 96))).add (new.mul (.num ((k : Rat) / 96))))

/-- A sample at a place of a fade, 0 silent and 96 full. -/
def faded (place : Nat) (x : Fp) : Fp := if 96 ≤ place then x else f32.round (x.mul (.num ((place : Rat) / 96)))

/-! ### Nodes (R482 to R485) -/

/-- A node that has not been written: OFF. -/
def nodeNone (_ : Nat) : Node := { level := none, ramp := none, bad := false }

/-- Node of an input and a bus. -/
def nodeKey (bus input : Nat) : Nat := 256 * bus + input

/-- A level as a number. -/
def levelRat (l : Int × Nat) : Rat := (l.1 : Rat) / ((l.2 : Nat) : Rat)
/-- A number as a level. -/
def levelOf (r : Rat) : Int × Nat := (r.num, r.den)

/-- Start a ramp of `ms` milliseconds to a gain in 1/64 dB, none for OFF (R484, R485). -/
def Node.start (x : Node) (ms : Nat) (gain : Option Int) : Node :=
  let fall : Rat := 48 * 64
  match x.level, gain with
  | none, none => { level := none, ramp := none, bad := false }
  | some d, some g => { level := some d, ramp := some (d, (g, 1), 96 * ms, 0, false), bad := false }
  | none, some g =>
    let d := levelOf ((g : Rat) - fall)
    { level := some d, ramp := some (d, (g, 1), 96 * ms, 0, false), bad := false }
  | some d, none => { level := some d, ramp := some (d, levelOf (levelRat d - fall), 96 * ms, 0, true), bad := false }

/-- One sample of a node: the level of this sample, the node after it. -/
def Node.sample (x : Node) : Option (Int × Nat) × Node :=
  match x.ramp with
  | none => (x.level, x)
  | some (d0, d1, n, k, off) =>
    let l := levelOf (levelRat d0 + (levelRat d1 - levelRat d0) * ((k + 1 : Nat) : Rat) / ((n : Nat) : Rat))
    if n ≤ k + 1 then (some d1, { x with level := if off then none else some d1, ramp := none })
    else (some l, { x with level := some l, ramp := some (d0, d1, n, k + 1, off) })

/-- The factor 10^(level / 20) of a level in 1/64 dB, rounded to binary64. -/
def levelFactor (l : Int × Nat) : Fp :=
  if l.1 = 0 then .num 1 else f64.roundR (fixRat (fixPow (10 * fixOne) (fixOf (levelRat l / 1280))))

/-! ### Equaliser, delay, limiter (R489 to R492) -/

/-- Number of bands of an equaliser. -/
def eqBands (ws : List Word) : Nat := fw ws 2 0 4

/-- One band: coefficients b0, b1, b2, a1, a2, history x1, x2, y1, y2 as binary64, input; output and history after. Direct form I. -/
def bandStep (co : List Nat) (h : List Nat) (x : Fp) : Fp × List Nat :=
  let c (i : Nat) : Fp := f32.ofBits (co.getD i 0)
  let g (i : Nat) : Fp := f64.ofBits (h.getD i 0)
  let y := f64.sub (f64.sub (f64.add (f64.add (f64.mul (c 0) x) (f64.mul (c 1) (g 0))) (f64.mul (c 2) (g 1))) (f64.mul (c 3) (g 2)))
    (f64.mul (c 4) (g 3))
  (y, [f64.toBits x, h.getD 0 0, f64.toBits y, h.getD 2 0])

/-- Bands in ascending order. -/
def bandsStep (ws : List Word) (hist : List Nat) : List Nat → Fp → Fp × List Nat
  | [], x => (x, [])
  | j :: js, x =>
    let a := bandStep (bandCoefs ws j) ((hist.drop (4 * j)).take 4) x
    let b := bandsStep ws hist js a.1
    (b.1, a.2 ++ b.2)

/-- The equaliser stage on a binary32 sample; without bands it passes its input. -/
def eqStep (ws : List Word) (hist : List Nat) (x : Fp) : Fp × List Nat :=
  if ws.isEmpty then (x, [])
  else
    let r := bandsStep ws hist (List.range (eqBands ws)) x
    (f32.round r.1, r.2)

/-- req of a sample (R492). -/
def limReq (t x : Fp) : Fp :=
  match x, t with
  | .num v, .num r => if r < absR v then f32.roundR (r / absR v) else .num 1
  | .inf _, _ => .num 0
  | _, _ => .num 1

/-- The lesser of two numbers. -/
def lessOf (a b : Fp) : Fp := if b.lt a then b else a

/-- The limiter stage on the lookahead window, newest first: output and gain after. It never exceeds T. Disabled, it passes the sample of 96
samples ago. -/
def limStep (p : Option (Nat × Nat)) (gain : Nat) (look : List Nat) : Fp × Nat :=
  let x := smp (look.getD 96 0)
  match p with
  | none => (x, gain)
  | some (thresh, release) =>
    let t := f32.ofBits thresh
    let least := (look.map fun v => limReq t (smp v)).foldl lessOf (.num 1)
    let rise := f32.roundR (fixRat (fixPow (10 * fixOne) (fixOf (1 / ((release * 96 : Nat) : Rat)))))
    let g := lessOf least (f32.mul (f32.ofBits gain) rise)
    let y := f32.mul g x
    let y := match y, t with
      | .num v, .num r => if r < v then .num r else if v < -r then .num (-r) else .num v
      | _, _ => y
    (y, f32.toBits g)

/-- One sample through a bus (R489): the sum enters, an output is queued. A changed stage crossfades from its old output (R493). -/
def Bus.sample (b : Bus) (x : Fp) : Bus :=
  let k : Nat := match b.old with | some o => 97 - o.left | none => 96
  let chg (i : Nat) : Bool := match b.old with | some o => nBit o.which i | none => false
  let old : OldStages := b.old.getD { st := b.st, hist := b.run.hist, gain := b.run.gain, which := 0, left := 0 }
  let e := eqStep b.st.eq b.run.hist x
  let e0 := eqStep old.st.eq old.hist x
  let y := if chg 0 then xfade k e0.1 e.1 else e.1
  let line := (smpBits y :: b.run.line).take 9601
  let d := smp (line.getD (b.st.delay.getD 0) 0)
  let d0 := smp (line.getD (old.st.delay.getD 0) 0)
  let z := if chg 1 then xfade k d0 d else d
  let look := (smpBits z :: b.run.look).take 97
  let l := limStep b.st.limit b.run.gain look
  let l0 := limStep old.st.limit old.gain look
  let out := if chg 2 then xfade k l0.1 l.1 else l.1
  { st := b.st
    run := { hist := e.2, line := line, look := look, gain := l.2 }
    old := match b.old with
      | some o => if o.left ≤ 1 then none else some { o with hist := e0.2, gain := l0.2, left := o.left - 1 }
      | none => none
    outq := (smpBits out :: b.outq).take 512 }

/-- A bus after an AUD_EFFECT takes effect: the stage starts anew, the old one runs on for the crossfade. -/
def Bus.after (b : Bus) (ws : List Word) (seed : Nat → Nat) : Bus :=
  let stage := fw ws 1 17 2
  let keep : OldStages := b.old.getD { st := b.st, hist := b.run.hist, gain := b.run.gain, which := 0, left := 0 }
  { b with st := b.st.after ws
           run := { b.run with hist := if stage = 0 then (List.range (4 * eqBands ws)).map seed else b.run.hist
                               gain := if stage = 2 then 0x3F800000 else b.run.gain }
           old := some { keep with which := keep.which ||| 2 ^ stage, left := 96 } }

/-! ### Converters (R487) -/

/-- A converter channel that has not locked to a source. -/
def audInNone (_ : Nat) : AudIn := { hist := [], fade := 0, up := false, seen := false }

/-- Source samples enter a converter, oldest first. -/
def AudIn.feed (x : AudIn) (vs : List Nat) : AudIn := { x with hist := (vs.reverse ++ x.hist).take 256 }

/-- One sample of a fade. -/
def fadeStep (up : Bool) (place : Nat) : Nat := if up then min 96 (place + 1) else place - 1

/-- The converter has locked: after a stop or a relock its output fades in. -/
def AudIn.lock (x : AudIn) : AudIn := if x.up then x else { x with up := true, seen := true, fade := if x.seen then x.fade else 96 }

/-! ### A block (R476 to R479) -/

/-- A playback stream in a block: its first input, its frames as host samples per channel, its fade before the block (96 where it plays). -/
structure Play where
  port : Nat
  frames : List (List Nat)
  fade : Nat
  down : Bool

/-- The converter output of an input at sample `j` of a block. -/
def inputAt (ins : List (Nat × AudIn)) (plays : List Play) (j i : Nat) : Fp :=
  if i < 192 then
    let x := mapGet audInNone i ins
    faded x.fade (smp (Config.convOut i j x.hist))
  else
    match plays.find? fun p => decide (p.port ≤ i) && decide (i < p.port + (p.frames.headD []).length) with
    | none => .num 0
    | some p =>
      let heard := (p.frames.take (j + 1)).reverse.map fun f => hostSmp (f.getD (i - p.port) 0)
      faded (if p.down then p.fade - (j + 1) else 96) (smp (Config.convOut i j (heard ++ (mapGet audInNone i ins).hist)))

/-- The sum of a bus: ascending inputs, in binary64, rounded once to binary32 (R478). -/
def busSum (terms : List (Fp × Fp)) : Fp :=
  f32.round (terms.foldl (fun a t => f64.add a (f64.mul t.1 t.2)) (.num 0))

/-- The state of a block while its samples are processed: nodes, buses, converters. -/
structure Mix where
  nodes : List (Nat × Node)
  buses : List (Nat × Bus)
  ins : List (Nat × AudIn)

/-- The buses that may carry a signal. -/
def Mix.busList (m : Mix) : List Nat := sortBy (fun (n : Nat) => n) ((m.nodes.map fun (x : Nat × Node) => x.1 / 256) ++ m.buses.map Prod.fst).eraseDups

/-- One sample of the crosspoint. A node whose word is uncorrectable contributes 0 (R485). -/
def mixSample (plays : List Play) (m : Mix) (j : Nat) : Mix :=
  let ins := m.ins.map fun x => (x.1, { x.2 with fade := fadeStep x.2.up x.2.fade })
  let steps : List (Nat × (Option (Int × Nat) × Node) × Bool) := m.nodes.map fun x => (x.1, x.2.sample, x.2.bad)
  let terms (b : Nat) : List (Fp × Fp) := (steps.filter fun x => x.1 / 256 = b && !x.2.2).filterMap fun x =>
    x.2.1.1.map fun l => (levelFactor l, inputAt ins plays j (x.1 % 256))
  { nodes := m.nodes.foldl (fun ns x => mapPut nodeNone x.1 x.2.sample.2 ns) m.nodes
    buses := m.busList.foldl (fun bs b => mapPut busNone b ((mapGet busNone b bs).sample (busSum (terms b))) bs) m.buses
    ins := ins }

/-- The samples of a block. -/
def mixBlock (plays : List Play) (n : Nat) (m : Mix) : Mix := (List.range n).foldl (mixSample plays) m

/-! ### Sinks (R475, R477, R495, R497) -/

/-- The sample of a bus that the outputs carry after a block, `delay` samples later than the alignment: the crossfade of R477, the fade of
R475. At a sink that is not at 96 kHz (`conv` names it) a rate converter of 32 samples stands before it. -/
def Aud.outAt (a : Aud) (conv : Option Nat) (bus : Nat) : Fp :=
  let q := (mapGet busNone bus a.buses).outq
  let at_ (l : Nat) : Fp := match conv with
    | none => smp (q.getD l 0)
    | some key => smp (Config.sinkConv key ((q.drop l).take 64))
  let x := match a.latOld with
    | some (l0, left) => xfade (96 - left) (at_ l0) (at_ a.lat)
    | none => at_ a.lat
  faded a.fade x

/-- The fades of the outputs over `n` samples: after a fade to 0 for a change of source the clock switches and the outputs fade in (R475). -/
def Aud.fadeBlock (a : Aud) (n : Nat) : Aud :=
  let a := { a with latOld := match a.latOld with | some (l, left) => if left ≤ n then none else some (l, left - n) | none => none }
  if a.fadeUp then { a with fade := min 96 (a.fade + n) }
  else if a.fade ≤ n then
    match a.clkNext with
    | some c => { a with clkNow := c, clkNext := none, fadeUp := true, fade := min 96 (n - a.fade) }
    | none => { a with fade := 0 }
  else { a with fade := a.fade - n }

end Sys2Proof.Machine
end

