-- ==== Sys2Proof/Machine/Audio.lean ====
section
/-!
DEFINITION. Machine/Audio.lean: AUD_ROUTE, blocks of samples, TDM ports, the sample clock, input converters, host streams and the secure route
write (R474 to R502).
-/

namespace Sys2Proof.Machine

/-- Change the audio state. -/
def audUpd (f : Aud → Aud) : Act := .eff (.med fun m => { m with aud := f m.aud })

/-- Change a converter. -/
def audInUpd (i : Nat) (f : AudIn → AudIn) : Act :=
  audUpd fun a => { a with inputs := mapPut audInNone i (f (mapGet audInNone i a.inputs)) a.inputs }

/-! ### TDM ports (R494 to R496) -/

/-- Registers of a TDM port's set. -/
def tdmRegs (p : Nat) : List Nat := [Reg.audTdmCfg p, Reg.audTdmOut0 p, Reg.audTdmOut1 p]

/-- Frame rate of a master port. -/
def tdmRate (set : List Word) : Nat := [48000, 96000, 192000].getD (fw set 0 2 2) 0
/-- Slots of a frame. -/
def tdmSlots (set : List Word) : Nat := fw set 0 4 4 + 1
/-- Bits of a slot. -/
def tdmWidth (set : List Word) : Nat := [16, 24, 32].getD (fw set 0 8 2) 32
/-- Bus of an output slot. -/
def tdmBus (set : List Word) (i : Nat) : Nat := fw set (1 + i / 8) (8 * (i % 8)) 8

/-- The source of the sample clock that AUD_CLK selects: 0 FABRIC, 1 + port. -/
def State.clkSelect (s : State) : Nat := if s.cfld Reg.audClk 0 1 = 0 then 0 else 1 + s.cfld Reg.audClk 1 3

/-- cfg_result of a set (R494, R496): the first failure of ENCODING, RANGE, STANDING, SYNC. -/
def State.tdmCheck (s : State) (p : Nat) (set : List Word) : Nat :=
  let o := s.unitOwner (105 + p) 1 (56 + p)
  let slave := fb set 0 1
  if fw set 0 2 2 = 3 || fw set 0 8 2 = 3 then 1
  else if !slave && decide (49152000 < tdmRate set * tdmSlots set * tdmWidth set) then 2
  else if (s.settings.findSome? fun _ => s.standingRefused (fun _ => tdmCharge (s.tdmSt p).set o) (fun _ => tdmCharge set o)).isSome then 3
  else if slave && fw set 0 32 16 % 2 ^ tdmSlots set != 0 && s.med.aud.clkNow != 1 + p then 4
  else 0

/-- TDM_SET_APPLY: a committed set is applied whole or not at all. -/
def tdmApply (chg : Changed) (p : Nat) : Act :=
  .ask fun s =>
    if !(tdmRegs p).any chg.contains then .skip
    else
      let set := (tdmRegs p).map s.cm
      let r := s.tdmCheck p set
      acts [
        setFld (Reg.audTdmStatus p) 2 3 r,
        actIf (r = 3 && s.unitSec (105 + p)) (raise stSec 4),
        actIf (r = 0) (acts [
          audUpd fun a => { a with tdm := mapPut tdmNone p { set := set, out := if fb set 0 0 then List.replicate 16 0 else [] } a.tdm },
          setFld (Reg.audTdmStatus p) 0 2 (if fb set 0 0 then 1 else 0),
          actIf (!fb set 0 0) (setFld (Reg.audTdmStatus p) 5 18 0),
          capRegs])]

/-- The sample clock at an edge whose commit brings AUD_CLK (R475): every output fades out, then the clock switches. A TDM source that is no
running slave port at 96 kHz ±0.2% is not applied, and locked reads 0. -/
def clkApply (chg : Changed) : Act :=
  .ask fun s =>
    if !chg.contains Reg.audClk then .skip
    else
      let want := s.clkSelect
      let p := want - 1
      let rate := s.fld (Reg.audTdmStatus p) 5 18
      if want = 0 || (fb (s.tdmSt p).set 0 0 && fb (s.tdmSt p).set 0 1 && s.fld (Reg.audTdmStatus p) 0 2 = 1
          && decide (95808 ≤ rate) && decide (rate ≤ 96192)) then
        if want = s.med.aud.clkNow then acts [audUpd fun a => { a with clkNext := none, fadeUp := true }, setFld Reg.audClk 4 1 (1 - s.fld Reg.audClk 5 1)]
        else audUpd fun a => { a with clkNext := some want, fadeUp := false }
      else setFld Reg.audClk 4 1 0

/-- The latency L of R477 at a bell rate. -/
def audLatency (num den : Nat) : Nat := 2 * ceilDiv (3012 * den) num + 1

/-- AUD_EFFECT at the edge after its decision (R493). -/
def effectApply (id : Nat) (ws : List Word) : Act :=
  .ask fun s => acts [
    audUpd fun a => { a with
      buses := (effBuses ws).foldl (fun bs b => mapPut busNone b ((mapGet busNone b bs).after ws (Config.eqSeed s.fv)) bs) a.buses },
    .eff .tick,
    cmdEnd id fun c => { c with unitsDone := 1000, detail := s.tts.bell % 2 ^ 32 }]

/-- What a bell edge does to audio: port sets, the clock's source, effects, the alignment at a new bell rate. -/
def audEdge (chg : Changed) : Act :=
  acts [
    each (List.range 8) (tdmApply chg),
    clkApply chg,
    .ask fun s => each s.med.aud.effects fun e => effectApply e.1 e.2,
    audUpd fun a => { a with effects := [] },
    .ask fun s =>
      let l := audLatency s.tts.cur.num s.tts.cur.den
      actIf (l != s.med.aud.lat) (audUpd fun a => { a with lat := l, latOld := some (a.lat, 96) })]

/-- A frame begins at a TDM port: its input slots are samples; a source that was lost is followed again. -/
def tdmFrameOp (p rate : Nat) (slots : List Nat) : Act :=
  .ask fun s =>
    let set := (s.tdmSt p).set
    if !fb set 0 0 || !s.tts.running then .skip
    else acts [
      setFld (Reg.audTdmStatus p) 0 2 1,
      setFld (Reg.audTdmStatus p) 5 18 (rate % 2 ^ 18),
      actIf (s.med.aud.clkNow = 1 + p && s.bitAt Reg.audClk 5) (setFld Reg.audClk 4 2 1),
      each ((List.range (tdmSlots set)).filter fun i => fb set 0 (16 + i)) fun i =>
        audInUpd (16 * p + i) fun x => x.feed [intSmp (tdmWidth set) (slots.getD i 0 % 2 ^ tdmWidth set)]]

/-- TDM_FRAME_RECEIVED (R495). -/
def execTdmFrameReceived (port rate : Nat) (slots : List Nat) (s : State) : Host.Outcome State Fault Refusal :=
  live (port < 8) (tdmFrameOp port rate slots) s

/-- TDM_CLOCK_LOST (R475): the TDM source of the sample clock stops framing for 1 ms. -/
def execTdmClockLost (s : State) : Host.Outcome State Fault Refusal :=
  live true (.ask fun s =>
    let c := s.med.aud.clkNow
    actIf (decide (c ≠ 0) && !s.bitAt Reg.audClk 5) (acts [
      setFld Reg.audClk 4 2 2, setFld (Reg.audTdmStatus (c - 1)) 0 2 2, raise stAud 4])) s

/-! ### Inputs (R479, R487, R488) -/

/-- Whether an input has a configured source (Table 14.6). -/
def State.inputActive (s : State) (i : Nat) : Bool :=
  if i < 128 then
    let set := (s.tdmSt (i / 16)).set
    fb set 0 0 && decide (i % 16 < tdmSlots set) && fb set 0 (16 + i % 16)
  else if i < 192 then
    let set := (s.capSt ((i - 128) / 8)).set
    fb set 0 0 && fb set 0 11
  else (s.streamOfInput i).isSome

/-- AUD_INi_STATUS follows the configuration: an input without a source forgets its converter's lock. -/
def inputStatus (i : Nat) : Act :=
  .ask fun s =>
    let on := s.inputActive i
    let locked := on && (decide (192 ≤ i) || (mapGet audInNone i s.med.aud.inputs).up)
    acts [
      actIf (s.fld (Reg.audIn i) 0 2 != b2n on + 2 * b2n locked) (setFld (Reg.audIn i) 0 2 (b2n on + 2 * b2n locked)),
      actIf (!on && mapGet audInNone i s.med.aud.inputs != audInNone 0) (acts [audInUpd i fun _ => audInNone 0, setReg (Reg.audIn i) 0])]

/-- A source stops: its converter fades out, and a slave port without frames reads NO_CLOCK (R487, R495). -/
def inputLost (i : Nat) : Act :=
  .ask fun s =>
    actIf (s.inputActive i && decide (i < 192)) (acts [
      audInUpd i fun x => { x with up := false },
      setFld (Reg.audIn i) 1 1 0,
      actIf (decide (i < 128) && fb (s.tdmSt (i / 16)).set 0 1) (setFld (Reg.audTdmStatus (i / 16)) 0 2 2)])

/-- AUD_INPUT_LOST (R487). -/
def execAudInputLost (i : Nat) (s : State) : Host.Outcome State Fault Refusal := live (i < 256) (inputLost i) s

/-- What a block brings to the converters: DP samples, lock, relock, measured rates. -/
def inputBlock (b : AudIo) : Act :=
  acts [
    each (b.dp.filter fun d => decide (d.port < 8)) fun d => each (List.range 8) fun c =>
      let i := 128 + 8 * d.port + c
      .ask fun s => actIf (s.inputActive i) (acts [
        setFld (Reg.audIn i) 20 1 (b2n d.nonpcm),
        audInUpd i fun x => x.feed (d.frames.map fun f => if d.nonpcm then 0 else intSmp 24 (f.getD c 0 % 2 ^ 24))]),
    each (b.relocks.filter fun i => decide (i < 192)) fun i => audInUpd i fun x => { x with up := false },
    .ask fun s => each (b.locks.filter fun i => decide (i < 192) && s.inputActive i && !b.relocks.contains i) fun i => audInUpd i AudIn.lock,
    .ask fun s => each (b.rates.filter fun r => decide (r.1 < 256) && s.inputActive r.1) fun r => setFld (Reg.audIn r.1) 2 18 (r.2 % 2 ^ 18),
    each (List.range 256) inputStatus]

/-! ### Routes (R482 to R486) -/

/-- AUD_ROUTE: the last node write of a started route completes; its ramps start with the next block. -/
def routeOp (id : Nat) : Act :=
  onCmd id fun s c =>
    actIf (c.op = 0x0600 && c.stage = .started && !(s.med.aud.routes.any fun r => r.1 = some id))
      (audUpd fun a => { a with routes := a.routes ++ [(some id, c.words)] })

/-- AUD_ROUTE (R483). -/
def execAudRoute (cmd : Nat) (s : State) : Host.Outcome State Fault Refusal := live true (routeOp cmd) s

/-- A write of AUD_SEC_ROUTE (R486): from the secure world, the ramp starts with the next block; a refused value is ignored; from the normal
world it is ignored and logged. -/
def secRouteOp (p : Path) (v : Word) : Act :=
  .ask fun s =>
    if p = .sec then actIf (nodeOk v && !s.bitAt Reg.secState 0) (audUpd fun a => { a with routes := a.routes ++ [(none, [0, v])] })
    else secEvent p Reg.audSecRoute

/-- Ramps start with this block (R483): routes in the order in which their commands were decided, so the later sets a node that two name; the
secure world's writes in the order of their writes. Every command ends. -/
def routesStart : Act :=
  .ask fun s =>
    let gone (r : Option Nat × List Word) : Bool := match r.1 with
      | some id => (s.cmd? id).isNone || (s.cmd? id).any fun c => c.stage = .ended
      | none => false
    let rs := sortBy (fun r => r.1.getD 0) (s.med.aud.routes.filter fun r => !gone r)
    acts [
      audUpd fun a => { a with
        routes := []
        nodes := rs.foldl (fun ns r => (routeNodes r.2).foldl (fun ns w =>
          let k := nodeKey (nodeBus w) (nodeIn w)
          mapPut nodeNone k ((mapGet nodeNone k ns).start (wBits w 16 10) (nodeGain w)) ns) ns) a.nodes },
      each (rs.filterMap Prod.fst) fun id => cmdEnd id fun c => { c with unitsDone := 1000, detail := s.tts.bell % 2 ^ 32 }]

/-- Nodes whose words read as uncorrectable (R485). -/
def nodeErrors (ks : List Nat) : Act :=
  .ask fun s => each (ks.filter fun k => (mapGet nodeNone k s.med.aud.nodes).level.isSome) fun k => acts [
    audUpd fun a => { a with nodes := mapPut nodeNone k { mapGet nodeNone k a.nodes with bad := true } a.nodes },
    raise stAud 5]

/-! ### Host streams (R499 to R501) -/

/-- Whether a stream captures. -/
def AudStream.cap (x : AudStream) : Bool := fb x.words 1 1
/-- First input or bus. -/
def AudStream.port (x : AudStream) : Nat := fw x.words 1 16 8

/-- The address spans of `n` frames from the stream's position, in its ring buffer. -/
def AudStream.spans (x : AudStream) (n : Nat) : List (Nat × Nat) :=
  let size := fw x.words 3 0 32
  let bytes := 4 * streamCh x.words
  let at_ := x.moved % size
  let m := min n (size - at_)
  [(fw x.words 2 0 64 + at_ * bytes, m * bytes), (fw x.words 2 0 64, (n - m) * bytes)].filter fun p => p.2 != 0

/-- Frames of a playback stream in a block of `n`: while it fades, those of its fade. -/
def AudStream.count (x : AudStream) (n : Nat) : Nat := match x.fade with | some f => min n f | none => n

/-- A stream has moved `n` frames: progress counts those that succeeded. -/
def streamMoved (x : AudStream) (n : Nat) (good : Bool) : Act :=
  acts [
    streamUpd x.id fun y => { y with moved := y.moved + n, err := y.err || !good, fade := if good then y.fade else some (y.fade.getD 96) },
    onCmd x.cmd fun _ c => if c.stage = .ended then .skip else acts [
      actIf (c.stage = .accepted) (cmdStart c.id),
      actIf good (cmdUpd c.id fun c => { c with part := c.part + n })]]

/-- The reads of a playback stream. -/
def State.playReads (s : State) (x : AudStream) (n : Nat) (h : HostAns) : List MemOut :=
  (((x.spans n).map fun p => areaParts p.1 p.2).flatten).map fun p => seatRead s stAud x.seat p.1 p.2 .read h

/-- The frames that bytes hold. -/
def streamFrames (ch : Nat) (bs : List Byte) : List (List Nat) :=
  (List.range (bs.length / (4 * ch))).map fun k => (List.range ch).map fun c => leNat ((bs.drop (4 * (ch * k + c))).take 4)

/-- A playback stream's block. -/
def playOf (x : AudStream) (os : List MemOut) : Play :=
  { port := x.port, frames := streamFrames (streamCh x.words) (readBytes os), fade := x.fade.getD 96, down := x.fade.isSome }

/-- A capture stream writes the frames of the block before (R500). -/
def captureMove (x : AudStream) (h : HostAns) : Act :=
  .ask fun s =>
    let n := x.queued
    let sample (k c : Nat) : Nat := (mapGet busNone (x.port + c) s.med.aud.buses).outq.getD (n - 1 - k) 0
    let bs := ((List.range n).map fun k => ((List.range (streamCh x.words)).map fun c => leBytes 4 (sample k c)).flatten).flatten
    let sp := x.spans n
    let first := (sp.headD (0, 0)).2
    let parts := pageParts (first / 4096 + 2) (sp.headD (0, 0)).1 (bs.take first)
    let more := ((sp.drop 1).map fun p => pageParts (p.2 / 4096 + 2) p.1 (bs.drop first)).flatten
    let os := (parts ++ more).map fun p => seatWrite s stAud x.seat p.1 p.2 h
    actIf (n != 0) (acts [each os fun o => o.act, streamMoved x n !(readsFailed os)])

/-- A stream that has stopped ends: its open with DONE, SQUASHED or FAULT, and its close with it (R501). -/
def streamEnd (x : AudStream) : Act :=
  acts [
    audUpd fun a => { a with streams := a.streams.filter fun y => y.id != x.id },
    cmdEnd x.cmd fun c => { c with fault := c.fault || x.err, detail := x.id },
    actOpt x.close fun id => cmdEnd id fun c => { c with unitsDone := 1000, detail := x.id },
    .ask fun _ => overUpdate x.seat,
    capRegs]

/-- A close stops its stream; a stopped capture stream ends. -/
def streamsStop : Act :=
  acts [
    audUpd fun a => { a with streams := mapIf (fun x => x.close.isSome && x.fade.isNone) (fun x => { x with fade := some 96 }) a.streams },
    .ask fun s => each (s.med.aud.streams.filter fun x => x.cap && x.fade.isSome) streamEnd]

/-- After a block of `n` samples: capture streams hold its frames; the fades of streams that have faded (`ids`) go on, and a stream ends with its
fade. -/
def streamsDone (ids : List Nat) (n : Nat) : Act :=
  acts [
    audUpd fun a => { a with streams := a.streams.map fun x =>
      if x.cap then { x with queued := n } else if ids.contains x.id then { x with fade := x.fade.map fun f => f - n } else x },
    .ask fun s => each (s.med.aud.streams.filter fun x => !x.cap && x.fade = some 0) streamEnd]

/-! ### AUDIO_BLOCK (R476) -/

/-- The slots that a running TDM port drives after a block. -/
def State.tdmOut (s : State) (p : Nat) : List Nat :=
  let set := (s.tdmSt p).set
  let conv := if !fb set 0 1 && fw set 0 2 2 != 1 then some p else none
  (List.range 16).map fun i =>
    if decide (i < tdmSlots set) && fb set 0 (32 + i) then sinkCode (tdmWidth set) (s.med.aud.outAt (conv.map fun p => 16 * p + i) (tdmBus set i)) else 0

/-- The samples of the DP transmit channels after a block (R384, R497). -/
def State.dpOut (s : State) : List (Nat × Nat) :=
  ((List.range 16).map fun n =>
    let set := (s.port n).set
    if s.fld (Reg.dptStatus n) 0 3 != 2 then []
    else (((setStreams set).filter fun i => fb set (1 + i) 7).map fun i => (List.range 8).map fun c =>
      let key := 32 * n + 8 * i + c
      let conv := if s.cfld Reg.audDpRate96 (4 * n + i) 1 = 1 then none else some (128 + key)
      (key, sinkCode 24 (s.med.aud.outAt conv (s.cfld (Reg.audDptMap n i) (8 * c) 8)))).flatten).flatten

/-- The sinks after a block. -/
def sinksPut : Act :=
  .ask fun s =>
    let out (p : Nat) : TdmSt :=
      let t := s.tdmSt p
      if fb t.set 0 0 && s.fld (Reg.audTdmStatus p) 0 2 = 1 then { t with out := s.tdmOut p } else t
    audUpd fun a => { a with tdm := (List.range 8).foldl (fun m p => mapPut tdmNone p (out p) m) a.tdm, dp := s.dpOut }

/-- The fades of a block; after a switch the sample clock follows its new source. -/
def clockBlock (n : Nat) : Act :=
  .ask fun s => acts [audUpd fun a => a.fadeBlock n,
    .ask fun s' => actIf (s'.med.aud.clkNow != s.med.aud.clkNow) (setFld Reg.audClk 4 2 1)]

/-- One block of samples. -/
def audioBlockOp (b : AudIo) : Act :=
  whenS (fun s => s.tts.running && s.engineUp 5) (acts [
    nodeErrors b.nodeErrs,
    routesStart,
    streamsStop,
    inputBlock b,
    .ask fun s => each (s.med.aud.streams.filter AudStream.cap) fun x => captureMove x b.host,
    .ask fun s =>
      let fading := (s.med.aud.streams.filter fun x => x.fade.isSome).map AudStream.id
      let reads := (s.med.aud.streams.filter fun x => !x.cap).map fun x => (x, s.playReads x (x.count b.n) b.host)
      let plays := reads.map fun r => playOf r.1 r.2
      acts [
        each reads fun r => acts [readsAct r.2, streamMoved r.1 (r.1.count b.n) !(readsFailed r.2)],
        audUpd fun a =>
          let m := mixBlock plays b.n { nodes := a.nodes, buses := a.buses, ins := a.inputs }
          let ins := plays.foldl (fun ins p => (List.range (p.frames.headD []).length).foldl (fun ins c =>
            mapPut audInNone (p.port + c) ((mapGet audInNone (p.port + c) ins).feed (p.frames.map fun f => hostSmp (f.getD c 0))) ins) ins) m.ins
          { a with nodes := m.nodes, buses := m.buses, inputs := ins, n := a.n + b.n },
        clockBlock b.n,
        sinksPut,
        streamsDone fading b.n]])

/-- AUDIO_BLOCK (R476). -/
def execAudioBlock (b : AudIo) (s : State) : Host.Outcome State Fault Refusal := live (b.n ≤ 512) (audioBlockOp b) s

end Sys2Proof.Machine
end

