-- ==== Sys2Proof/Machine/Haptic.lean ====
section
/-!
DEFINITION. Machine/Haptic.lean: haptic channels (R524 to R536): effect slots, start requests, drive, tracking, braking, settle, the duty window,
secure submission.
-/

namespace Sys2Proof.Machine

/-- Change a haptic channel. -/
def hapUpd (ch : Nat) (f : Hap → Hap) : Act :=
  .ask fun s => .eff (.med fun m => { m with hap := mapPut hapNone ch (f (s.hap ch)) m.hap })

/-- A count of HAPn_COUNT advances, saturating: 0 dropped, 16 refused, 32 cut. -/
def hapCountUp (ch lo : Nat) : Act := .ask fun s => setFld (Reg.hapCount ch) lo 16 (satAdd (s.fld (Reg.hapCount ch) lo 16) 1 0xFFFF)

/-- Phase of a channel: 0 IDLE, 1 DRIVE, 2 BRAKE, 3 SETTLE. -/
def Hap.phase (h : Hap) : Nat := match h.play with | some p => p.phase | none => 0

/-- Frames of the window of R534 that counts `n` frames back from frame `now`. -/
def hapUsed (now : Nat) (runs : List (Nat × Nat)) : Nat :=
  sumOn runs fun r => r.1 + r.2 - max r.1 (now - 960000)

/-- HAPn_STATUS follows the channel. -/
def hapStatusPut (ch : Nat) : Act :=
  .ask fun s => acts [
    setFld (Reg.hapStatus ch) 0 3 ((s.hap ch).phase + 4 * b2n (s.hap ch).wait.isSome),
    setFld (Reg.hapStatus ch) 32 20 (hapUsed (s.hap ch).n (s.hap ch).runs)]

/-- A channel that finishes what it plays and starts nothing: a secure one during a trusted restart (R244). -/
def State.hapQuiet (s : State) (ch : Nat) : Bool := s.unitSec (97 + ch) && s.bitAt Reg.secState 0

/-- The end of a HAP_PLAY, of a seat or of the secure submission: what it met (`f`) and its bell of onset. -/
def playEnd (ch : Nat) (cmd : Option Nat) (sec : Bool) (onset : Nat) (f : Cmd → Cmd) : Act :=
  acts [
    actOpt cmd fun id => cmdEnd id fun c => { f c with unitsDone := 1000, detail := onset % 2 ^ 32 },
    actIf sec (.ask fun s => setFld (Reg.hapSecqStatus ch) 0 10 (4 * (f (cmdNew s 0 0 [])).finalStatus))]

/-- A waiting request is replaced: a HAP_PLAY ends with SQUASHED, a hit is dropped (Table 15.11). -/
def waitDrop (ch : Nat) : Act :=
  .ask fun s => actOpt (s.hap ch).wait fun w =>
    acts [
      if w.cmd.isSome || w.sec then playEnd ch w.cmd w.sec 0 fun c => { c with squashed := true } else hapCountUp ch 0,
      hapUpd ch fun h => { h with wait := none }]

/-- HAPTIC_START_REQUEST (R532): the request waits for the frame at which its effect can start; in drive it ends the drive. A hit on a disabled
channel is dropped, and so is a request to a channel that starts nothing. -/
def hapRequest (ch : Nat) (q : HapReq) : Act :=
  .ask fun s =>
    let hit := q.cmd.isNone && !q.sec
    if hit && (s.cfld (Reg.hapCfg ch) 0 1 = 0 || s.hapQuiet ch) then hapCountUp ch 0
    else acts [
      waitDrop ch,
      hapUpd ch fun h => { h with
        wait := some q
        play := h.play.map fun p => if p.phase = 1 then { p with cutShort := true } else p },
      hapStatusPut ch]

/-- The effect at play is over. -/
def hapFinish (ch : Nat) : Act :=
  .ask fun s => actOpt (s.hap ch).play fun p => acts [
    hapUpd ch fun h => { h with play := none },
    playEnd ch p.cmd p.sec p.onset fun c => { c with overrun := c.overrun || p.overrun }]

/-- At a frame of an idle or settling channel, a waiting request's effect starts: its descriptor is copied, the duty is checked
(R528, R532, R534). -/
def hapStart (ch : Nat) : Act :=
  .ask fun s => actOpt (s.hap ch).wait fun q =>
    actIf (((s.hap ch).play.isNone || (s.hap ch).phase = 3) && !s.hapQuiet ch) (acts [
      hapFinish ch,
      hapUpd ch fun h => { h with wait := none },
      .ask fun s =>
        let e := s.hapEffect ch q.slot
        let duty := max 1 (s.cfld (Reg.hapCfg ch) 24 10)
        let f := if fb e 1 27 then s.fld (Reg.hapStatus ch) 16 16 else fw e 0 0 16
        if e.isEmpty then acts [raise (stHap ch) 5, playEnd ch q.cmd q.sec 0 fun c => { c with fault := true }]
        else if duty * 960 < hapUsed (s.hap ch).n (s.hap ch).runs + fw e 1 0 16 * 96 + 768 then
          acts [raise (stHap ch) 4, hapCountUp ch 16, playEnd ch q.cmd q.sec 0 fun c => { c with fault := true }]
        else
          let p : HapPlay :=
            { cmd := q.cmd, sec := q.sec, eff := e, phase := 1, half := 0, frame := 0, len := halfCycle f, driven := 0, after := 0, pol := true,
              sense := [], cutShort := false, overrun := false, onset := s.tts.bell }
          hapUpd ch fun h => { h with play := some p }])

/-- An amplitude as a drive sample (R528, R533): 0xFFFF is full scale. -/
def hapLevel (amp : Nat) : Int := openInt 1 ((amp : Rat) / 65535 * 8388607)

/-- Whether a frame of a half-cycle is a gap. -/
def HapPlay.gap (p : HapPlay) : Bool := p.phase != 3 && (decide (p.frame < 8) || decide (p.len ≤ p.frame + 8))

/-- What a frame of an effect carries: drive sample, drive_en, hiz (R528, R530, R533). -/
def HapPlay.sent (p : HapPlay) (vmax : Nat) : Int × Bool × Bool :=
  if p.phase = 3 then (0, true, false)
  else if p.gap then (0, true, true)
  else
    let amp := if p.phase = 1 then fw p.eff 0 32 16 else fw p.eff 0 48 16
    let v := min (hapLevel amp) (hapLevel vmax)
    (if p.pol then v else -v, true, false)

/-- The zero crossings between adjoining samples, oldest first, as positions from the boundary in frames: sample `i` lies at `i - 8`. -/
def crossings (xs : List Int) : List Rat :=
  (List.range (xs.length - 1)).filterMap fun (i : Nat) =>
    let a := xs.getD i 0
    let b := xs.getD (i + 1) 0
    if (decide (a < 0) && decide (0 ≤ b)) || (decide (0 < a) && decide (b ≤ 0)) then
      some (((i : Nat) : Rat) - 8 + (a : Rat) / ((a - b : Int) : Rat))
    else none

/-- The offset t of a window (R529); `pos` is the polarity of the half-cycle that ends. -/
def trackOffset (xs : List Int) (pos : Bool) : Rat :=
  let cs := crossings xs
  if cs.isEmpty then (if decide (0 ≤ xs.getD 0 0) = pos then 8 else -8)
  else cs.getD (Config.crossing cs.length % cs.length) 0

/-- The length of the next half-cycle (R529). -/
def trackLen (len : Nat) (t : Rat) : Nat := (max 120 (min 480 ((len : Int) + roundNear (t / 2)))).toNat

/-- The end of drive: the tracked frequency is kept; braking begins with the next frame (R529, R530). -/
def driveEnd (ch : Nat) (p : HapPlay) : Act :=
  acts [
    actIf (fb p.eff 1 26) (setFld (Reg.hapStatus ch) 16 16 (openInt 2 (768000 / ((p.len : Nat) : Rat))).toNat),
    hapUpd ch fun h => { h with play := some { p with phase := 2, half := 0, frame := 0, after := 0 } }]

/-- The end of braking: a waiting request's effect starts with the next frame; a HAP_PLAY that was cut ends; else settle follows (R530, R532). -/
def brakeEnd (ch : Nat) (p : HapPlay) : Act :=
  .ask fun s =>
    let p := { p with phase := 3, half := 0, frame := 0, after := 0 }
    let cut := p.cutShort || p.overrun
    acts [
      actIf cut (playEnd ch p.cmd p.sec p.onset fun c => { c with squashed := c.squashed || p.cutShort, overrun := c.overrun || p.overrun }),
      hapUpd ch fun h => { h with play := some (if cut then { p with cmd := none, sec := false } else p) },
      actIf ((s.hap ch).wait.isSome || fw p.eff 1 16 10 = 0) (hapFinish ch)]

/-- After a frame of an effect, with its sensed voltage: tracking, then the ends of half-cycle, drive, braking and settle. -/
def hapAdvance (ch : Nat) (p : HapPlay) (volt : Int) : Act :=
  let p := { p with sense := (volt :: p.sense).take 16 }
  let boundary := p.phase = 2 || decide (0 < p.half)
  let endPol := if p.phase = 2 then p.pol else !p.pol
  let p := if boundary && p.frame = 7 && fb p.eff 1 26 && p.phase != 3 then { p with len := trackLen p.len (trackOffset p.sense.reverse endPol) } else p
  let whole := decide (p.len ≤ p.frame + 1)
  match p.phase with
  | 1 =>
    let q := { p with driven := p.driven + 1, frame := p.frame + 1 }
    if whole && decide (fw p.eff 0 16 8 ≤ p.half + 1) then driveEnd ch q
    else if fw p.eff 1 0 16 * 96 ≤ p.driven + 1 then
      acts [hapCountUp ch 32, actOpt p.cmd sharesFree, driveEnd ch { q with overrun := true }]
    else hapUpd ch fun h => { h with play := some (if whole then { q with half := p.half + 1, frame := 0, pol := !p.pol } else q) }
  | 2 =>
    let q := { p with after := p.after + 1, frame := p.frame + 1 }
    let stop := decide (p.frame = 0) && fw p.eff 2 0 16 != 0 && decide (volt.natAbs < fw p.eff 2 0 16 * 256)
    if stop || (whole && decide (fw p.eff 0 24 8 ≤ p.half + 1)) || decide (768 ≤ p.after + 1) then brakeEnd ch q
    else hapUpd ch fun h => { h with play := some (if whole then { q with half := p.half + 1, frame := 0 } else q) }
  | _ =>
    if fw p.eff 1 16 10 * 96 ≤ p.after + 1 then hapFinish ch
    else hapUpd ch fun h => { h with play := some { p with after := p.after + 1 } }

/-- A drive that a request or a squash has cut short goes over to braking at the next frame; an effect without braking half-cycles passes over
it. -/
def hapPhases (ch : Nat) : Act :=
  acts [
    .ask fun s => actOpt (s.hap ch).play fun p => actIf (p.phase = 1 && p.cutShort) (driveEnd ch p),
    .ask fun s => actOpt (s.hap ch).play fun p => actIf (p.phase = 2 && p.frame = 0 && p.half = 0 && fw p.eff 0 24 8 = 0) (brakeEnd ch p)]

/-- The frames counted by R534 after a frame, with those that have left the window dropped. -/
def runsAdd (n : Nat) (counted : Bool) (runs : List (Nat × Nat)) : List (Nat × Nat) :=
  let kept := runs.filter fun r => decide (n + 1 < r.1 + r.2 + 960000)
  if !counted then kept
  else match kept with
    | (a, l) :: rest => if a + l = n then (a, l + 1) :: rest else (n, 1) :: kept
    | [] => [(n, 1)]

/-- One frame of a channel. A disabled channel sends drive_en 0 (Table 15.12). -/
def hapticFrameOp (ch volt : Nat) : Act :=
  whenS (fun s => s.tts.running || (s.hap ch).play.isSome) (acts [
    hapPhases ch,
    hapStart ch,
    .ask fun s =>
      let h := s.hap ch
      let out := match h.play with
        | some p => if s.cfld (Reg.hapCfg ch) 0 1 = 1 then p.sent (s.cfld (Reg.hapCfg ch) 8 16) else (0, false, false)
        | none => (0, false, false)
      acts [
        hapUpd ch fun h => { h with n := h.n + 1, sent := out, runs := runsAdd h.n (out.2.1 && !out.2.2) h.runs },
        actOpt h.play fun p => hapAdvance ch p (signed volt 24)],
    hapStatusPut ch])

/-- HAPTIC_FRAME (R528). -/
def execHapticFrame (ch volt : Nat) (s : State) : Host.Outcome State Fault Refusal := live (ch < 8) (hapticFrameOp ch volt) s

/-! ### Commands (R526, R527) -/

/-- A slot takes a descriptor or is cleared. -/
def slotPut (ch slot : Nat) (e : List Word) : Act := hapUpd ch fun h => { h with effects := mapPut (fun _ => []) slot e h.effects }

/-- A started HAP_EFFECT_LOAD runs: `n` is its byte count. -/
def effectRun (id n : Nat) : Act :=
  onCmd id fun _ c =>
    actIf (c.op = 0x0710 && c.stage = .started && c.f 3 0 32 = n) (acts [
      slotPut (c.f 1 0 3) (c.f 1 8 6) (if n = 0 then [] else c.res.map (BitVec.ofNat 64)),
      cmdEnd id fun c => { c with unitsDone := 1000, detail := n },
      overUpdate c.seat])

/-- HAP_EFFECT_LOAD (R526). -/
def execHapEffectLoad (cmd : Nat) (s : State) : Host.Outcome State Fault Refusal := live true (effectRun cmd 32) s
/-- HAP_EFFECT_CLEAR (R526). -/
def execHapEffectClear (cmd : Nat) (s : State) : Host.Outcome State Fault Refusal := live true (effectRun cmd 0) s

/-- HAP_PLAY (R527): a started command makes its start request, once. -/
def execHapPlay (cmd : Nat) (s : State) : Host.Outcome State Fault Refusal :=
  live true (onCmd cmd fun _ c =>
    actIf (c.op = 0x0711 && c.stage = .started && c.res.isEmpty) (acts [
      cmdUpd cmd fun c => { c with res := [1] },
      hapRequest (hpCh c.words) { cmd := some cmd, sec := false, slot := hpSlot c.words }])) s

/-! ### Secure submission (R535) -/

/-- A packet read for a secure unit: its words, as many as its header says, none where it cannot be read or its header is malformed. -/
def secPacket (s : State) (st a : Nat) : List MemOut × Option (List Word) :=
  let h := ownerRead s st none a 8 .ok
  let w := bytesWord h.bytes
  if h.err || hdrReserved w || !lengthOk (hdrOp w) (hdrLen w) then ([h], none)
  else
    let b := ownerRead s st none a (8 * hdrLen w) .ok
    ([h, b], if b.err then none else some (bytesWords b.bytes))

/-- A go on a secure channel: one HAP_EFFECT_LOAD, which takes effect at once, or one HAP_PLAY, which makes its start request. -/
def hapSecqOp (ch : Nat) : Act :=
  .ask fun s =>
    if s.fld (Reg.hapSecqStatus ch) 0 2 != 0 || s.hapQuiet ch then .skip
    else
      let r := secPacket s (stHap ch) (s.rd (Reg.hapSecqBase ch)).toNat
      let done (code : Nat) : Act := setFld (Reg.hapSecqStatus ch) 0 10 (4 * code)
      acts [readsAct r.1,
        match r.2 with
        | none => done 0x14
        | some ws =>
          let n := fw ws 3 0 32
          if fw ws 1 3 5 != 0 || fw ws 1 14 50 != 0 || hpCh ws != ch then done 0x14
          else if hdrOp (ws.headD 0) = 0x0710 then
            if !(n = 0 || n = 32) || fw ws 3 32 32 != 0 || fw ws 2 0 3 != 0 then done 0x14
            else if n = 0 then acts [slotPut ch (hpSlot ws) [], done 0]
            else
              let e := ownerRead s (stHap ch) none (fw ws 2 0 64) 32 .ok
              acts [e.act, if e.err || !descOk (bytesWords e.bytes) then done 0x14 else acts [slotPut ch (hpSlot ws) (bytesWords e.bytes), done 0]]
          else if hdrOp (ws.headD 0) = 0x0711 && s.cfld (Reg.hapCfg ch) 0 1 = 1 then
            acts [setFld (Reg.hapSecqStatus ch) 0 10 1, hapRequest ch { cmd := none, sec := true, slot := hpSlot ws }]
          else done 0x14]

end Sys2Proof.Machine
end

