-- ==== Sys2Proof/Machine/Touch.lean ====
section
/-!
DEFINITION. Machine/Touch.lean: touch ports (R504 to R523, R531, R535): link bring-up, scans and their schedule, contacts, keys and sliders,
baselines, reports, zones, self-test, doze, secure submission.
-/

namespace Sys2Proof.Machine

/-! ### Geometry -/

/-- Sum of integers. -/
def sumInt (xs : List Int) : Int := xs.foldl (· + ·) 0

/-- Nodes of a panel. -/
def pnNodes (p : List Word) : Nat := pnRows p * pnCols p
/-- Release threshold. -/
def pnRelease (p : List Word) : Int := fw p 1 16 16
/-- Touch threshold. -/
def pnTouch (p : List Word) : Int := fw p 1 0 16
/-- Threshold of the negative rule. -/
def pnNeg (p : List Word) : Int := fw p 1 32 16
/-- Key threshold. -/
def pnKey (p : List Word) : Int := fw p 1 48 16

/-- The nodes around a node, itself among them, that the panel has: raster order. -/
def window3 (p : List Word) (n : Nat) : List Nat :=
  let cols := pnCols p
  let r := n / cols
  let c := n % cols
  (List.range (pnNodes p)).filter fun m =>
    decide (r ≤ m / cols + 1) && decide (m / cols ≤ r + 1) && decide (c ≤ m % cols + 1) && decide (m % cols ≤ c + 1)

/-- Node that holds a position in 1/256 node. -/
def nodeOf (p : List Word) (x y : Nat) : Nat := (y / 256) * pnCols p + x / 256

/-- The signal of every node and self channel (R516). -/
def signals (p : List Word) (base raw : List Nat) : List Int :=
  (List.range (pnNodes p + pnSelf p)).map fun i =>
    let d : Int := (base.getD i 0 : Int) - (raw.getD i 0 : Int)
    if i < pnNodes p then d else -d

/-! ### Contacts (R516) -/

/-- The peaks: nodes at or above the release threshold and their neighbours, above those earlier in raster order. -/
def peaks (p : List Word) (sig : List Int) : List Nat :=
  (List.range (pnNodes p)).filter fun n =>
    let v := sig.getD n 0
    decide (pnRelease p ≤ v) && (window3 p n).all fun m => m = n || (if m < n then decide (sig.getD m 0 < v) else decide (sig.getD m 0 ≤ v))

/-- Position of a peak in 1/256 node. -/
def peakPos (p : List Word) (sig : List Int) (n : Nat) : Nat × Nat :=
  let cols := pnCols p
  let w := window3 p n
  let pos (m : Nat) : Int := max (sig.getD m 0) 0
  let total := sumInt (w.map pos)
  let off (d : Nat → Int) : Int := if total = 0 then 0 else openInt 3 (((256 * sumInt (w.map fun m => d m * pos m) : Int) : Rat) / (total : Rat))
  (((256 * (n % cols) + 128 : Nat) + off fun m => (m % cols : Int) - (n % cols : Int)).toNat,
   ((256 * (n / cols) + 128 : Nat) + off fun m => (m / cols : Int) - (n / cols : Int)).toNat)

/-- Square of the distance of two positions. -/
def distSq (a b : Nat × Nat) : Nat :=
  (((a.1 : Int) - b.1) * ((a.1 : Int) - b.1) + ((a.2 : Int) - b.2) * ((a.2 : Int) - b.2)).toNat

/-- What a scan makes of the contacts: entries (contact, state 1 DOWN, 2 MOVE, 3 UP, node of its peak), peaks not yet claimed, a contact
was dropped. -/
structure Tracked where
  entries : List (Contact × Nat × Nat)
  left : List Nat
  overflow : Bool
  moved : Bool

/-- A live contact takes the nearest unclaimed peak within 512 units, the earlier on a tie; else it goes UP. -/
def trackOne (p : List Word) (sig : List Int) (t : Tracked) (c : Contact) : Tracked :=
  let near := t.left.filter fun n => decide (distSq (c.x, c.y) (peakPos p sig n) ≤ 512 * 512)
  match leastBy (fun n => distSq (c.x, c.y) (peakPos p sig n)) near with
  | some n =>
    let q := peakPos p sig n
    { t with entries := t.entries ++ [({ c with x := q.1, y := q.2 }, 2, n)], left := t.left.filter fun m => m != n
             moved := t.moved || q.1 != c.x || q.2 != c.y }
  | none => { t with entries := t.entries ++ [(c, 3, nodeOf p c.x c.y)], moved := true }

/-- The lowest contact ID that no entry holds: an ID reported UP is free after the report only. -/
def freeId (es : List (Contact × Nat × Nat)) : Option Nat := (List.range 20).find? fun i => es.all fun e => e.1.id != i

/-- An unclaimed peak becomes a contact. -/
def trackNew (p : List Word) (sig : List Int) (t : Tracked) (n : Nat) : Tracked :=
  match freeId t.entries with
  | some i =>
    let q := peakPos p sig n
    { t with entries := t.entries ++ [({ id := i, x := q.1, y := q.2 }, 1, n)], moved := true }
  | none => { t with overflow := true }

/-- The contacts of a scan. -/
def track (p : List Word) (sig : List Int) (live : List Contact) : Tracked :=
  let t := (sortBy Contact.id live).foldl (trackOne p sig) { entries := [], left := peaks p sig, overflow := false, moved := false }
  let fresh := sortBy (fun n => (65536 - sig.getD n 0).toNat) (t.left.filter fun n => decide (pnTouch p ≤ sig.getD n 0))
  let u := fresh.foldl (trackNew p sig) t
  { u with entries := sortBy (fun (e : Contact × Nat × Nat) => e.1.id) u.entries }

/-! ### Keys and sliders (R521) -/

/-- The valid sliders: number, first channel, count. -/
def sliders (p : List Word) : List (Nat × Nat × Nat) :=
  ((List.range 4).filter fun k => fb p (4 + k) 9).map fun k => (k, fw p (4 + k) 0 5, fw p (4 + k) 5 4)

/-- Whether a self channel is a key channel. -/
def isKey (p : List Word) (c : Nat) : Bool := decide (c < pnSelf p) && (sliders p).all fun x => !(decide (x.2.1 ≤ c) && decide (c < x.2.1 + x.2.2))

/-- A mask of the self channels that satisfy a condition. -/
def selfMask (p : List Word) (f : Nat → Bool) : Nat := sumOn ((List.range (pnSelf p)).filter f) fun c => 2 ^ c

/-- The touched channels after a scan: touched from key_thresh on, until the signal falls below three quarters of it. -/
def touchedMask (p : List Word) (sig : List Int) (before : Nat) : Nat :=
  selfMask p fun c =>
    let v := sig.getD (pnNodes p + c) 0
    if nBit before c then decide (3 * pnKey p ≤ 4 * v) else decide (pnKey p ≤ v)

/-- The non-idle channels. -/
def busyMask (p : List Word) (sig : List Int) (touched : Nat) : Nat :=
  selfMask p fun c => nBit touched c || decide (sig.getD (pnNodes p + c) 0 ≤ -pnKey p)

/-- Word 22 of a report: position of each slider, touched bits. -/
def sliderWord (p : List Word) (sig : List Int) (touched fv : Nat) : Nat :=
  sumOn (sliders p) fun x =>
    let on := (List.range x.2.2).filter fun i => nBit touched (x.2.1 + i)
    let v (i : Nat) : Int := sig.getD (pnNodes p + x.2.1 + i) 0
    let total := sumInt (on.map v)
    let at_ := if total = 0 then Config.sliderPos fv x.1 % 256
      else (roundNear (((255 * sumInt (on.map fun (i : Nat) => (i : Int) * v i) : Int) : Rat) / (total : Rat) / ((x.2.2 - 1 : Nat) : Rat))).toNat % 256
    at_ * 2 ^ (8 * x.1) + b2n (!on.isEmpty) * 2 ^ (32 + x.1)

/-! ### Baselines (R519, R520) -/

/-- One node or idle channel under R519: its signal, baseline, raw count, neg and drift counts, whether it is touched; baseline, neg and
drift after, and whether it was recalibrated at once. -/
def baseStep (p : List Word) (sig : Int) (base raw neg drift : Nat) (touched : Bool) : Nat × Nat × Nat × Bool :=
  if sig < -pnNeg p then
    if neg + 1 = 3 then (raw, 0, drift, true) else (base, neg + 1, drift, false)
  else if touched then (base, 0, drift, false)
  else if fw p 2 0 16 ≤ drift + 1 then (if raw < base then base - 1 else if base < raw then base + 1 else base, 0, 0, false)
  else (base, 0, drift + 1, false)

/-- Every baseline after a scan; non-idle channels stand still. -/
def baseAll (p : List Word) (t : Tch) (sig : List Int) (raw : List Nat) (live : List Nat) (busy : Nat) : List (Nat × Nat × Nat × Bool) :=
  let near := (live.map (window3 p)).flatten
  (List.range (pnNodes p + pnSelf p)).map fun i =>
    let v := sig.getD i 0
    if pnNodes p ≤ i && nBit busy (i - pnNodes p) then (t.base.getD i 0, t.neg.getD i 0, t.drift.getD i 0, false)
    else baseStep p v (t.base.getD i 0) (raw.getD i 0) (t.neg.getD i 0) (t.drift.getD i 0)
      (decide (i < pnNodes p) && (near.contains i || decide (pnRelease p ≤ v)))

/-! ### Reports (R517, R518) -/

/-- An entry's word. -/
def contactWord (p : List Word) (sig : List Int) (e : Contact × Nat × Nat) : Nat :=
  let w := window3 p e.2.2
  let strength := (sumInt (w.map fun m => max (sig.getD m 0) 0)).toNat
  let area := (w.filter fun m => decide (pnRelease p ≤ sig.getD m 0)).length
  e.1.id + e.2.1 * 2 ^ 5 + (e.1.x % 2 ^ 16) * 2 ^ 8 + (e.1.y % 2 ^ 16) * 2 ^ 24 + min strength 0xFFFF * 2 ^ 40 + area * 2 ^ 56

/-- The 32 words of a report. -/
def reportWords (s : State) (t : Tch) (sig : List Int) (tr : Tracked) (seq keys slider : Nat) : List Nat :=
  let es := tr.entries.map (contactWord t.panel sig)
  let w0 := s.tts.bell % 2 ^ 48 + s.tts.period * 2 ^ 48 + es.length * 2 ^ 53 + b2n tr.overflow * 2 ^ 58 + b2n t.noisy * 2 ^ 59 + b2n t.woke * 2 ^ 60
  [w0, seq % 2 ^ 32 + keys * 2 ^ 32] ++ es ++ List.replicate (20 - es.length) 0 ++ [slider, t.forced] ++ List.replicate 8 0

/-- Bytes that a port writes: for its seat, through its windows (host memory not while an FLR of the seat runs, R213); for a secure port, at
device addresses. -/
def tchStore (n : Nat) (seat : Option Nat) (a : Nat) (bs : List Byte) : Act :=
  .ask fun s =>
    match seat with
    | none => ownerStore (stTch n) none a bs
    | some k =>
      let flr := match s.resetOf k with | some r => r.byFlr | none => false
      each (pageParts 3 a bs) fun p => .ask fun s =>
        match s.translate k p.1 p.2.length .write with
        | some pl => if flr && pl.target = 0 then .skip else (seatWrite s (stTch n) k p.1 p.2 .ok).act
        | none => (seatWrite s (stTch n) k p.1 p.2 .ok).act

/-- TOUCH_REPORT: the next report is written, then the touch bit of the seat is set; a secure port interrupts the secure core (R219). -/
def reportPut (n : Nat) (ws : List Nat) (seq : Nat) : Act :=
  .ask fun s =>
    let t := s.tch n
    let a := fw t.words 6 0 64 + 256 * ((seq - 1) % 2 ^ fw t.words 7 0 4)
    let bytes := (ws.map (leBytes 8)).flatten
    acts [
      tchStore n t.seat a bytes,
      if t.seat.isNone then secIrq (stTch n) 41 else actOpt (s.ownerBit 1 (40 + n)) fun k => irqSet k 9]

/-! ### Zones (R531) -/

/-- The zones that a scan triggers, in ascending order: zone, channel, effect slot. -/
def zoneHits (p : List Word) (downs : List Contact) (newKeys : Nat) : List (Nat × Nat × Nat) :=
  let inside (z : Nat) (c : Contact) : Bool :=
    let w := p.getD (16 + z) 0
    fw p (16 + z) 57 2 = 1 && decide (wBits w 0 12 ≤ c.x / 16) && decide (c.x / 16 < wBits w 24 12) && decide (wBits w 12 12 ≤ c.y / 16)
      && decide (c.y / 16 < wBits w 36 12)
  let names (z k : Nat) : Bool := fw p (16 + z) 57 2 = 2 && fw p (16 + z) 0 12 = k
  let zs := (downs.filterMap fun c => (List.range 64).find? fun z => inside z c)
    ++ ((List.range 32).filter fun k => nBit newKeys k && isKey p k).filterMap fun k => (List.range 64).find? fun z => names z k
  ((List.range 64).filter zs.contains).map fun z => (z, fw p (16 + z) 54 3, fw p (16 + z) 48 6)

/-- Per channel the hit of the lowest zone is passed on. -/
def passHits (hs : List (Nat × Nat × Nat)) : Act :=
  each (List.range 8) fun ch => actOpt (hs.find? fun h => h.2.1 = ch) fun h => hapRequest ch { cmd := none, sec := false, slot := h.2.2 }

/-! ### Link and state (R509) -/

/-- State of a port. -/
def State.tchState (s : State) (n : Nat) : Nat := s.fld (Reg.tchStatus n) 0 3
/-- Set the state of a port. -/
def tchStatePut (n v : Nat) : Act := setFld (Reg.tchStatus n) 0 3 v
/-- A count of TCHn_COUNT advances, saturating: 0 link_errors, 16 fast_recals, 32 forced, 48 skipped. -/
def tchCountUp (n lo k : Nat) : Act := .ask fun s => setFld (Reg.tchCount n) lo 16 (satAdd (s.fld (Reg.tchCount n) lo 16) k 0xFFFF)

/-- The result of a bring-up: an ID of 0x0000 or 0xFFFF or a response error leaves the port in LINK_FAIL. -/
def bringResult (n id : Nat) (ok : Bool) : Act :=
  acts [
    actIf ok (setFld (Reg.tchStatus n) 32 16 id),
    actIf (!ok) (raise (stTch n) 4),
    if ok && id != 0 && id != 0xFFFF then acts [tchStatePut n 2, tchUpd n fun t => { t with bad := 0, fresh := true, scan := false, testScan := false }]
    else .ask fun s => acts [tchStatePut n 5, tchUpd n fun t => { t with failBell := s.tts.bell }]]

/-- TOUCH_LINK_BRINGUP (R509). -/
def execTouchLinkBringup (port id : Nat) (ok : Bool) (s : State) : Host.Outcome State Fault Refusal :=
  live (port < 8 && id < 65536) (whenS (fun s => s.tchState port = 1) (bringResult port id ok)) s

/-- TOUCH_LINK_RETRY (R509): a port in LINK_FAIL repeats the bring-up every 100 bells. -/
def execTouchLinkRetry (port id : Nat) (ok : Bool) (s : State) : Host.Outcome State Fault Refusal :=
  live (port < 8 && id < 65536) (whenS (fun s => s.tchState port = 5 && decide ((s.tch port).failBell + 100 ≤ s.tts.bell)) (bringResult port id ok)) s

/-! ### Configuration at an edge (R512, R520) -/

/-- The end of a TCH_CONFIG: of a seat, or of the secure submission. -/
def tchEnd (n : Nat) (cmd : Option Nat) : Act :=
  .ask fun s => match cmd with
    | some id => cmdEnd id fun c => { c with unitsDone := 1000, detail := s.tts.bell % 2 ^ 32 }
    | none => setFld (Reg.tchSecqStatus n) 0 10 0

/-- An APPLY, RECALIBRATE or DISABLE takes effect. -/
def tchConfig (n : Nat) (x : Option Nat × List Word × List Word) : Act :=
  .ask fun s =>
    let t := s.tch n
    let ws := x.2.1
    let same := fw ws 3 32 11 = fw t.words 3 32 11 && pnRows x.2.2 = pnRows t.panel && pnCols x.2.2 = pnCols t.panel && pnSelf x.2.2 = pnSelf t.panel
    let seat := x.1.bind fun id => (s.cmd? id).map Cmd.seat
    acts [
      match tcOp ws with
      | 0 => acts [
        tchUpd n fun t => { t with
          words := ws, panel := x.2.2, seat := seat, seq := 0, fresh := t.fresh || !same
          neg := if same then t.neg else []
          drift := if same then t.drift else [] },
        actIf (s.tchState n = 0 || s.tchState n = 5) (tchStatePut n 1)]
      | 2 => tchUpd n fun t => { t with fresh := true }
      | _ => acts [tchStatePut n 0, tchUpd n fun t => { t with scan := false, testScan := false, approach := false }],
      tchEnd n x.1]

/-- What a bell edge does to a touch port. -/
def tchEdge (n : Nat) : Act :=
  .ask fun s => acts [
    each ((s.tch n).pend.filter fun x => tcOp x.2.1 != 1) (tchConfig n),
    actIf ((s.tch n).pend.any fun x => tcOp x.2.1 != 1) (tchUpd n fun t => { t with pend := t.pend.filter fun x => tcOp x.2.1 = 1 })]

/-! ### Scan schedule (R514, R515) -/

/-- Whether every display behind the panel is quiet in a period of the current bell. -/
def State.quietAt (s : State) (heads q : Nat) : Bool := (bitsOf 32 heads).all fun h => s.bitAt (Reg.hdQuiet h) q

/-- The period in which the acquisition of set bit `p` starts, and whether it is noisy. -/
def State.scanPeriod (s : State) (mask heads p : Nat) : Nat × Bool :=
  if heads = 0 then (p, false)
  else
    let next := ((bitsOf 32 mask).find? fun q => decide (p < q)).getD 32
    match (rangeFrom p (next - p)).find? (s.quietAt heads) with
    | some q => (q, false)
    | none => (p, true)

/-- Whether an acquisition of a port is scheduled to start now, and whether its scan is noisy. In HEAD mode the instant is that at which line
V active of the head begins, which the command itself marks. -/
def State.scanDue (s : State) (t : Tch) : Option Bool :=
  if fw t.words 2 0 1 = 0 then
    let mask := fw t.words 2 32 32
    if s.tts.bell % (fw t.words 2 6 2 + 1) != 0 then none
    else ((bitsOf 32 mask).map (s.scanPeriod mask (fw t.words 3 0 32))).findSome? fun x => if x.1 = s.tts.period then some x.2 else none
  else if s.fld (Reg.hdStatus (fw t.words 2 1 5)) 0 3 = 0 then (if s.tts.period = 0 then some true else none)
  else some false

/-- A scheduled acquisition start: a scan, or a self-test in its place; skipped while the scan before runs. -/
def scanStartOp (n : Nat) : Act :=
  .ask fun s =>
    let t := s.tch n
    let st := s.tchState n
    if !s.tts.running then .skip
    else match s.scanDue t with
      | none => .skip
      | some noisy =>
        if t.scan then tchCountUp n 48 1
        else if st = 2 || (st = 3 && t.approach) then
          match t.pend.find? fun x => tcOp x.2.1 = 1 with
          | some x => acts [
            tchStatePut n 4,
            tchUpd n fun t => { t with
              scan := true, noisy := noisy, testScan := true, test := some (x.1, x.2.1), pend := t.pend.erase x
              woke := t.woke || decide (st = 3), approach := false }]
          | none => acts [
            tchStatePut n 2,
            tchUpd n fun t => { t with scan := true, noisy := noisy, testScan := false, woke := t.woke || decide (st = 3), approach := false }]
        else .skip

/-- TOUCH_SCAN_START (R514, R515). -/
def execTouchScanStart (port : Nat) (s : State) : Host.Outcome State Fault Refusal := live (port < 8) (scanStartOp port) s

/-! ### The end of a scan (R509, R516 to R522) -/

/-- A response in error: the scan is discarded; the third in a row fails the link. -/
def scanDiscard (n : Nat) : Act :=
  .ask fun s =>
    let bad := (s.tch n).bad + 1
    acts [
      tchCountUp n 0 1,
      raise (stTch n) 4,
      tchUpd n fun t => { t with bad := if bad = 3 then 0 else bad },
      actIf (bad = 3) (acts [tchStatePut n 5, raise (stTch n) 5, tchUpd n fun t => { t with failBell := s.tts.bell }])]

/-- A self-test's counts: written, judged, reported (R522). -/
def scanTest (n : Nat) (cmd : Option Nat) (ws : List Word) (counts : List Nat) : Act :=
  .ask fun s =>
    let t := s.tch n
    let m := pnCols t.panel + pnSelf t.panel
    let cs := (List.range m).map fun i => counts.getD i 0 % 65536
    let bad := (List.range m).filter fun i => decide (cs.getD i 0 < fw ws 2 0 16) || decide (fw ws 2 16 16 < cs.getD i 0)
    let seat := cmd.bind fun id => (s.cmd? id).map Cmd.seat
    acts [
      tchStore n seat (fw ws 3 0 64) ((cs.map (leBytes 2)).flatten),
      setFld (Reg.tchTest n) 0 16 (bad.length % 256 + bad.headD 0xFF * 2 ^ 8),
      actIf (!bad.isEmpty) (raise (stTch n) 6)]

/-- A good normal scan. -/
def scanGood (n : Nat) (counts : List Nat) : Act :=
  .ask fun s =>
    let t := s.tch n
    let p := t.panel
    let m := pnNodes p + pnSelf p
    let raw := (List.range m).map fun i => counts.getD i 0 % 65536
    let base := if t.fresh then raw else t.base
    let sig := signals p base raw
    let tr : Tracked := if t.fresh then
        { entries := (sortBy Contact.id t.contacts).map fun c => (c, 3, nodeOf p c.x c.y), left := [], overflow := false, moved := !t.contacts.isEmpty }
      else track p sig t.contacts
    let keys := touchedMask p sig (if t.fresh then 0 else t.keys)
    let busy := busyMask p sig keys
    let live := tr.entries.filter fun e => e.2.1 != 3
    let downs := (tr.entries.filter fun e => e.2.1 = 1).map Prod.fst
    let steps := baseAll p { t with base := base } sig raw (live.map fun e => e.2.2) busy
    let recals := (steps.filter fun x => x.2.2.2).length
    let slider := sliderWord p sig keys s.fv
    let sliderOn (w : Nat) : Nat := w / 2 ^ 32
    let moved (k : Nat) : Bool := nBit slider (32 + k) && nBits slider (8 * k) 8 != nBits t.sliders (8 * k) 8
    let changed := tr.moved || keys != t.keys || sliderOn slider != sliderOn t.sliders || (List.range 4).any moved
    let report := changed || t.forced != 0 || t.woke || fb t.words 2 8
    let shown := selfMask p fun c => nBit keys c && isKey p c
    let newKeys := selfMask p fun c => nBit keys c && !nBit t.keys c
    acts [
      tchCountUp n 16 recals,
      actIf report (reportPut n (reportWords s t sig tr (t.seq + 1) shown slider) (t.seq + 1)),
      tchUpd n fun t => { t with
        raw := raw, keys := keys, busy := busy, sliders := slider, bad := 0, fresh := false
        contacts := live.map Prod.fst
        base := steps.map Prod.fst
        neg := steps.map fun x => x.2.1
        drift := steps.map fun x => x.2.2.1
        seq := if report then t.seq + 1 else t.seq
        forced := if report then 0 else t.forced
        woke := t.woke && !report },
      .eff .tick,
      passHits (zoneHits p downs newKeys)]

/-- The end of a scan: the response arrives, good or in error. -/
def scanEndOp (n : Nat) (ok : Bool) (counts : List Nat) : Act :=
  .ask fun s =>
    let t := s.tch n
    if !t.scan then .skip
    else acts [
      tchUpd n fun t => { t with scan := false, testScan := false, test := none },
      actIf (s.tchState n = 4) (tchStatePut n 2),
      actIf (!ok) (scanDiscard n),
      match t.test with
      | some x => acts [
        actIf ok (acts [tchUpd n fun t => { t with bad := 0 }, scanTest n x.1 x.2 counts]),
        tchEnd n x.1]
      | none => actIf ok (scanGood n counts)]

/-- TOUCH_SCAN_END (R516). -/
def execTouchScanEnd (port : Nat) (ok : Bool) (counts : List Nat) (s : State) : Host.Outcome State Fault Refusal :=
  live (port < 8) (scanEndOp port ok counts) s

/-- KEY_FORCED_RELEASE (R521): a channel has stayed non-idle longer than key_limit: its baseline takes the raw count, it is released, the count
advances; the next report carries its bit. -/
def execKeyForcedRelease (port key : Nat) (s : State) : Host.Outcome State Fault Refusal :=
  live (port < 8) (.ask fun s =>
    let t := s.tch port
    let i := pnNodes t.panel + key
    actIf (decide (key < pnSelf t.panel) && nBit t.busy key) (acts [
      tchUpd port fun t => { t with
        base := listSet t.base i (t.raw.getD i 0)
        keys := if nBit t.keys key then t.keys - 2 ^ key else t.keys
        busy := t.busy - 2 ^ key
        forced := t.forced ||| 2 ^ key },
      tchCountUp port 32 1])) s

/-! ### Doze (R523) -/

/-- DOZE_ENTRY: doze_after seconds without a live contact, every key and slider idle. -/
def execDozeEntry (port : Nat) (s : State) : Host.Outcome State Fault Refusal :=
  live (port < 8) (.ask fun s =>
    let t := s.tch port
    actIf (s.tchState port = 2 && fw t.words 4 0 10 != 0 && t.contacts.isEmpty && t.busy = 0 && !t.scan) (tchStatePut port 3)) s

/-- DOZE_APPROACH: PLn_IRQ_N goes low. -/
def execDozeApproach (port : Nat) (s : State) : Host.Outcome State Fault Refusal :=
  live (port < 8) (.ask fun s =>
    let t := s.tch port
    actIf (s.tchState port = 3)
      (if decide (3 ≤ s.pst) then actIf (fb t.words 4 20) (wakeOp 3)
       else tchUpd port fun t => { t with approach := true })) s

/-! ### Secure submission (R535) -/

/-- Whether a secure APPLY is accepted: as R512 decides, its zones naming secure channels, its ring in memory. -/
def State.secApplyOk (s : State) (n : Nat) (ws p : List Word) : Bool :=
  panelOk p && ((panelChannels p).all fun ch => s.unitSec (97 + ch)) && s.scheduleOk n ws p

/-- A go on a secure port: one TCH_CONFIG. -/
def tchSecqOp (n : Nat) : Act :=
  .ask fun s =>
    if s.fld (Reg.tchSecqStatus n) 0 2 != 0 || s.bitAt Reg.secState 0 then .skip
    else
      let r := secPacket s (stTch n) (s.rd (Reg.tchSecqBase n)).toNat
      let refuse (code : Nat) : Act := setFld (Reg.tchSecqStatus n) 2 8 code
      let start (ws p : List Word) : Act := acts [setFld (Reg.tchSecqStatus n) 0 10 1, tchUpd n fun t => { t with pend := t.pend ++ [(none, ws, p)] }]
      acts [readsAct r.1,
        match r.2 with
        | none => refuse 0x14
        | some ws =>
          if hdrOp (ws.headD 0) != 0x0700 || (ws.length != if tcOp ws = 0 then 8 else 4) || !tcWordsOk ws || tcPort ws != n then refuse 0x14
          else if tcOp ws = 0 then
            let o := ownerRead s (stTch n) none (fw ws 5 0 64) 640 .ok
            let p := bytesWords o.bytes
            acts [o.act,
              if o.err || !s.secApplyOk n ws p then refuse 0x14
              else if !s.memExtent (fw ws 6 0 64) (256 * 2 ^ fw ws 7 0 4) then refuse 0x13
              else start ws p]
          else if tcOp ws = 1 && !s.memExtent (fw ws 3 0 64) (2 * (pnCols (s.tch n).panel + pnSelf (s.tch n).panel)) then refuse 0x13
          else start ws []]

end Sys2Proof.Machine
end

