-- ==== Sys2Proof/Machine/Bell.lean ====
section
/-!
DEFINITION. Machine/Bell.lean: the bell edge, its steps in the order of Table 2.8, and the start of a period
(R9 to R11, R62 to R77, R118, R581 to R583).
-/

namespace Sys2Proof.Machine

/-- Steps one after another; a safe state, or a chip reset, that one of them brings ends them (R548, R587). -/
def steps (xs : List Act) : Act := each xs fun a => whenS (fun s => !s.flt.safe && s.tts.running) a

/-! ### The end of a bell (R66, R77) -/

/-- The entries of the timetable of bell `n`: what is booked in it, and entries of the active timetable that have not ended. -/
def State.timetable (s : State) (n : Nat) : List Nat :=
  let still := s.tts.ttActive.filter fun id => match s.cmd? id with | some c => c.stage = .accepted || c.stage = .started | none => false
  still ++ (s.bookedCmds n).filter fun id => !still.contains id

/-- The Registrar builds the timetable of the next bell (Table 2.9, period 24). -/
def timetableBuild : Act := .ask fun s => .eff (.tts fun t => { t with ttNext := s.timetable (t.bell + 1) })

/-- Period 31: the timetable built becomes the pending one. -/
def timetableSwap : Act := .eff (.tts fun t => { t with ttPending := t.ttNext })

/-- What of a bell's timeline an edge that comes before period 31 leaves to be done. -/
def bellClose : Act :=
  .ask fun s => actIf (decide (s.tts.period < 31)) (acts [
    composeNormal [], composeCutoff, compsEnd,
    actIf (decide (s.tts.period < 24)) timetableBuild, timetableSwap])

/-- The deadline commands whose deadline bell ends at the edge of bell `n` and that still run. -/
def State.missed (s : State) (n : Nat) : List Cmd :=
  s.cfe.cmds.filter fun c => (c.stage = .accepted || c.stage = .started) && !opUntimed c.op && !c.background && decide (c.dl + 1 ≤ n)

/-- A haptic channel whose command is stopped: its effect is cut short, its waiting request is gone. -/
def Hap.stopCmd (h : Hap) (id : Nat) : Hap :=
  let play := match h.play with
    | some p => some (if p.cmd = some id then { p with cutShort := true } else p)
    | none => none
  let wait := match h.wait with
    | some w => if w.cmd = some id then none else some w
    | none => none
  { h with play := play, wait := wait }

/-- DEADLINE_MISS (R77): the command is stopped, its status becomes FAULT. -/
def missStop (c : Cmd) : Act :=
  acts [
    .ask fun s => actOpt (s.dmaOf c.id) fun k => dmaUnload k 2,
    .eff (.dma (64 + c.id) (dmaIdle 0)),
    withdraw c.id,
    .eff (.med fun m => { m with hap := m.hap.map fun h => (h.1, h.2.stopCmd c.id) }),
    cmdEnd c.id fun c => { c with fault := true },
    raiseSrc stTts 7 0 (some c.seat)]

/-- The misses of an edge. -/
def missAll (n : Nat) : Act := .ask fun s => steps ((s.missed n).map missStop)

/-! ### Step 1: the count, the period counter, the PTM time; a change edge; the measures of the bell that ended -/

/-- HMN_MGT_LOAD for the bell that ended (Table 16.4). -/
def mgtLoad (busy : Nat) : Act :=
  .ask fun s =>
    let b := min 100 busy
    acts [
      setReg Reg.hmnMgtLoad (BitVec.ofNat 64 (b + max b (s.fld Reg.hmnMgtLoad 8 8) * 2 ^ 8 + min s.adm.decisions 0xFFFF * 2 ^ 16)),
      .eff (.adm fun a => { a with decisions := 0 })]

/-- Step 1 of the edge of bell `n`. -/
def edgeBegin (n : Nat) (change : Bool) (e : EdgeIn) : Act :=
  acts [
    mgtLoad e.mgtBusy,
    .eff (.tts fun t =>
      { (if change then t.change n else t).beginBell n with ptm := (List.range 4).map fun p => e.ptm.getD p 0 }),
    actIf change changeDone,
    .ask fun s => setFld Reg.secState 1 2 s.recentRestarts.length]

/-! ### Step 2: the commit point (R9 to R11, R63) -/

/-- Whether a register's shadow is one that a COMMIT commits: regions of a guard that are not delegated are not (R236). -/
def State.commits (s : State) (off : Nat) : Bool :=
  !(decide (0x420000 ≤ off) && decide (off < 0x440000) && decide (off % 0x1000 < 0x800)
    && decide ((grdIndex off).2 < s.delegateFirst (grdIndex off).1))

/-- The committed value that a register's shadow gives it. -/
def State.shadowed (s : State) (off : Nat) : Word :=
  match regFind off with
  | some (f, _) => let m := accBits f fun a => a = .rwc; (s.cm off &&& ~~~m) ||| (s.rd off &&& m)
  | none => s.cm off

/-- The registers whose committed value a commit changes, with the new values. -/
def State.commitList (s : State) : List (Nat × Word) :=
  (((s.csr ++ s.com).map Prod.fst).eraseDups.filter fun k => s.commits k && s.shadowed k != s.cm k).map fun k => (k, s.shadowed k)

/-- The COMMIT commands that this commit point serves: accepted, and held by no fence (R9, R63, R647). -/
def State.commitCmds (s : State) : List Cmd := s.cfe.cmds.filter fun c => c.op = 0x0110 && c.stage = .accepted && s.free c

/-- Whether this edge commits the shadows written through CSRs. -/
def State.commitDue (s : State) : Bool := s.bitAt Reg.ttsCtrl 1 || !s.commitCmds.isEmpty

/-- RING_WINDOW_LOST (R118): rings whose areas have left their seat's windows are disabled. -/
def ringsLost : Act :=
  .ask fun s => each (s.enabledRings.filter fun r => !s.ringAreasOk (r / 8) (r % 8)) fun r =>
    acts [ringDisableOp (r / 8) (r % 8), raiseSrc stCfe 5 0 (some (r / 8))]

/-- The commit of registers and of the seat table. -/
def registersCommit (list : List (Nat × Word)) : Act :=
  acts [each list fun x => .eff (.com x.1 x.2), tblCommit, vfmapApply, ringsLost]

/-- The units whose sets a commit has brought: heads first, so that a port is judged under the timing that the same commit gives. -/
def setsApply (chg : Changed) : Act :=
  acts [each (List.range 32) (headApply chg), each (List.range 16) (portApply chg), each (List.range 8) (capApply chg)]

/-- COMMIT_POINT of bell `n`: registers where a commit is due, the shadows of commands, what follows for each unit; then the sync counters
and the stamp blocks are sampled. -/
def commitPoint (n : Nat) : Act :=
  .ask fun s =>
    let due := s.commitDue
    let list := if due then s.commitList else []
    let chg := list.map Prod.fst
    steps [
      actIf due (registersCommit list),
      commitSets,
      actIf due (setsApply chg),
      each (List.range 8) capEdge, audEdge chg, each (List.range 8) tchEdge, rndEdge chg.contains,
      reserveEdge, handoverQuiesce,
      each (List.range 32) headStatePut,
      .eff (.seats fun t => { t with budget := t.budgetNext }),
      .eff (.adm fun a => { a with shares := a.shares.filter fun x => decide (n ≤ x.bell) }),
      each (if due then s.commitCmds else []) fun c => cmdSingle c (n % 2 ^ 32),
      .eff (.tts fun t => { t with sampled := t.sync }),
      stampsSample]

/-! ### Step 3: the flip latch -/

/-- Flips and bound rings latch; an encode of a capture source takes the publication of the edge (R464). -/
def latchPoint : Act :=
  acts [flipLatch, ringLatch,
    .eff (.vid fun v => { v with caps := v.caps.map fun x => (x.1, { x.2 with edgePub := x.2.ring.bind fun r => r.pubs.head? }) })]

/-! ### Step 5: roll call, self-refresh, SLEEP (R340, R385 to R388, R581 to R583) -/

/-- Whether the chip leaves SLEEP at an edge, and whether because of a request (R582). -/
def State.sleepLeaves (s : State) (jolt : Bool) : Bool :=
  s.pst = 2 && (s.pwr.runReq || (List.range 32).any fun h => s.hdState h = 3 && (s.srCause h jolt != .stay || s.critAbsent h))

/-- SLEEP_EXIT at the edge of bell `n` (R583). -/
def sleepExit (n : Nat) : Act :=
  .ask fun s => acts [
    pwrState 0,
    setFld Reg.pwrStatus 6 3 (if s.pwr.runReq then 1 else 2),
    actIf s.pwr.runReq (pwrResult 1),
    .eff (.pwr fun p => { p with runReq := false, deep := false, resume := n + 1 }),
    gateAll,
    each (List.range 32) markHead]

/-- Whether a booking on an engine that SLEEP does not clock remains in bell `n` or later. -/
def State.sleepBooked (s : State) (n : Nat) : Bool :=
  s.adm.shares.any fun x => decide (n ≤ x.bell) && (match s.cmd? x.cmd with | some c => !s.sleepClocked (gateOfEngine c.engine) | none => false)

/-- Whether bell `n` is the one at whose edge SLEEP is entered (R581 step 2). -/
def State.sleepEnters (s : State) (n : Nat) : Bool :=
  s.pst = 1 && decide (s.pwr.sleepReq + 2 ≤ n) && s.tts.held.isNone && (!s.sleepBooked n || decide (s.pwr.sleepReq + 257 ≤ n))

/-- First bell from `n` on at whose edge a head starts a frame. -/
def HeadSt.nextStart (h : HeadSt) (n : Nat) : Nat := ((List.range h.k).map (n + ·)).find? h.starts |>.getD n

/-- SLEEP_ENTRY_EDGE (R581): composition stops, heads of eDP ports send their capture frame, blocks are gated. -/
def sleepEntry (n : Nat) : Act :=
  .ask fun s => acts [
    each ((List.range 32).filter fun h => s.srHead h && s.hdState h != 3 && s.hdState h != 0) fun h =>
      headUpd h fun x => { x with capture := some (x.nextStart (if s.hdState h = 4 then max n x.wakeBell else n)) },
    pwrState 2,
    actIf (!s.pwr.deep) (pwrResult 1),
    gateAll]

/-- The heads of canvases, as canvas and head. -/
def State.canvasHeads (s : State) : List (Nat × Nat) :=
  (s.pic.canvases.map fun c => (cpEntries c.2.par).map fun e => (c.1, e.2)).flatten

/-- Step 5 of the edge of bell `n`. `jolt`: a change edge, or the edge of a stretched bell. -/
def verdictPoint (n : Nat) (jolt : Bool) : Act :=
  steps [
    rollCall n,
    .ask fun s => each s.canvasHeads fun x => edgeMarks x.1 x.2,
    .ask fun s => actIf (s.pst != 2) (each (List.range 32) (idleCount n)),
    .ask fun s =>
      if s.sleepLeaves jolt then acts [sleepExit n, each (List.range 32) (srDecide n true)]
      else actIf (s.pst != 3) (each (List.range 32) (srDecide n jolt)),
    whenS (fun s => s.sleepEnters n) (sleepEntry n),
    deepBegin,
    whenS State.marking (.ask fun s => each s.canvasHeads fun x => planBegin n x.2)]

/-! ### Step 6: dispatch -/

/-- What the start of every period does (R76, R140, R168): dependencies, late entries, dispatch, idle cores and pipes, status words. -/
def periodWork (elapsed : Nat) : Act :=
  acts [
    .eff (.cfe fun c => { c with cmds := mapIf (fun x => x.stage = .received) (fun x => { x with age := x.age + elapsed }) c.cmds }),
    resolveAll, lateSquash, dispatchAll, coresTake, codecAll, statusAll]

/-- The timetable of the new bell becomes active. -/
def timetableActivate : Act := .eff (.tts fun t => { t with ttActive := t.ttPending, ttNext := [], ttPending := [] })

/-! ### Registers that an edge refreshes -/

/-- Whether a head sends active lines in period `p` of bell `n`, of the frame that started in bell `b`. -/
def HeadSt.drawsIn (h : HeadSt) (n p b : Nat) : Bool :=
  let t := 32 * (n - b) + p
  decide (h.phi ≤ t) && decide ((t - h.phi) * h.vt < 32 * h.k * h.ht)

/-- HDh_QUIET for bell `n` (Table 11.3): the frame in progress, and the one that starts in this bell. -/
def quietPut (n h : Nat) : Act :=
  .ask fun s =>
    let x := s.head h
    let st := s.hdState h
    let sends := !x.asleep && (st = 1 || st = 2 || (st = 4 && decide (x.wakeBell ≤ n)))
    let busy (p : Nat) : Bool := sends && ((x.starts n && x.drawsIn n p n)
      || (match x.frame with | some b => decide (b < n) && !(x.starts n && decide (x.phi ≤ p)) && x.drawsIn n p b | none => false))
    setReg (Reg.hdQuiet h) (BitVec.ofNat 64 (sumOn ((List.range 32).filter fun p => !busy p) fun p => 2 ^ p))

/-- What the new bell makes of the registers that show it. -/
def edgeRegs (n : Nat) : Act := acts [each (List.range 32) (quietPut n), bellRegs, queueReg, capRegs]

/-! ### The commands -/

/-- The edge sequence of the next bell (Table 2.8). -/
def edgeSequence (e : EdgeIn) : Act :=
  .ask fun s =>
    let n := s.tts.bell + 1
    let elapsed := 32 - s.tts.period
    let change := s.changeDue n
    let jolt := change || s.tts.jump != 0
    steps [
      bellClose, edgeForget, missAll n,
      edgeBegin n change e,
      commitPoint n,
      latchPoint,
      checkEdge n,
      verdictPoint n jolt,
      timetableActivate, periodWork elapsed,
      edgeRegs n,
      actIf e.hot (raise stDmc 9),
      actIf e.late (raise stTts 6)]

/-- BELL_EDGE (R62). -/
def execBellEdge (e : EdgeIn) (s : State) : Host.Outcome State Fault Refusal := live s.tts.running (edgeSequence e) s

/-- The start of the next period of the bell. -/
def periodNext (e : PeriodIn) : Act :=
  .ask fun s =>
    let p := s.tts.period + 1
    steps [
      .eff (.tts fun t => { t with period := p }),
      actIf (p = 24) timetableBuild,
      actIf (p = 31) timetableSwap,
      composePeriod p e.lateTiles,
      periodWork 1,
      bellRegs, queueReg,
      actIf (e.drift && decide (28 ≤ p) && decide (p ≤ 30)) (raise stDmc 8)]

/-- PERIOD_START (R66, R76): periods 1 to 31; the edge itself starts period 0. -/
def execPeriodStart (e : PeriodIn) (s : State) : Host.Outcome State Fault Refusal :=
  live (s.tts.running && decide (s.tts.period < 31)) (periodNext e) s

/-- BELL_CHANGE_REQUEST (R56, R59): a write of TTS_BELL_CHANGE that covers request. -/
def bellRequestOp (v : Word) : Act := actIf (wBit v 0) bellChangeOp

end Sys2Proof.Machine
end

