-- ==== Sys2Proof/Machine/Csr.lean ====
section
/-!
DEFINITION. Machine/Csr.lean: reads and writes of registers through every path (R7, R57, R58, R109 to R119, R183 to R188, R204, R207,
R224, R235, R480, R538, R551, R552, R586, R614 to R624, R634).
-/

namespace Sys2Proof.Machine

/-! ### Registers whose write does more than their access codes say -/

/-- A register takes a write by its access codes. -/
def slotWrite (f : RegFam) (lock : Bool) (off : Nat) (w m : Word) : Act :=
  .ask fun s =>
    let v := writeWord f lock (s.rd off) w m
    if reactReg off then .eff (.react off v) else setReg off v

/-- A mask without a field. -/
def maskOut (m : Word) (lo w : Nat) : Word := m &&& ~~~ BitVec.ofNat 64 (fieldMask lo w)

/-- Whether all 8 rings of a seat are disabled and idle (R113). -/
def State.ringsIdle (s : State) (seat : Nat) : Bool :=
  (List.range 8).all fun r => !s.ringOn seat r && s.bitAt (Reg.ringBase seat r) 1

/-- A write of RING_BASEn: base while the ring is disabled, then enable (R110, R116, R117). -/
def ringBaseWrite (f : RegFam) (seat ring : Nat) (w : Word) : Act :=
  .ask fun s =>
    let on := s.ringOn seat ring
    acts [
      actIf (!on) (slotWrite f false (Reg.ringBase seat ring) w (BitVec.ofNat 64 (fieldMask 12 52))),
      if wBit w 0 then actIf (!on) (ringEnableOp seat ring) else actIf on (ringDisableOp seat ring)]

/-- A write of a seat-page register at offset `o` of the page of `seat`; `size` is the size of the access (R109, R113, R187, R207). -/
def seatPageWrite (p : Path) (f : RegFam) (seat o size : Nat) (w m : Word) : Act :=
  let off := 0x800000 + 0x1000 * seat + o
  if o = 0x28 then .ask fun s =>
    actIf (s.supPath p) (acts [slotWrite f false off w m, actIf (wBit (w &&& m) 2) (dirtySwap seat)])
  else if o = 0x30 || o = 0x38 then .ask fun s => actIf (size = 8 && s.ringsIdle seat) (slotWrite f false off w m)
  else if 0x100 ≤ o && o < 0x140 then actIf (size = 8) (ringBaseWrite f seat ((o - 0x100) / 8) w)
  else if 0x140 ≤ o && o < 0x180 then .ask fun s =>
    actIf (size = 8) (slotWrite f false off w (if s.ringOn seat ((o - 0x140) / 8) then maskOut m 0 5 else m))
  else if 0x180 ≤ o && o < 0x1C0 then actIf (size = 8) (doorbellOp seat ((o - 0x180) / 8) w)
  else slotWrite f false off w m

/-- A write of IRQ_MASK: what it unmasks while pending is sent (R149). -/
def irqMaskWriteAct (f : RegFam) (seat : Nat) (w m : Word) : Act :=
  .ask fun s =>
    let new := writeWord f false (s.rd (Reg.irqMask seat)) w m
    acts [setReg (Reg.irqMask seat) new, unmaskSend seat (s.rd (Reg.irqMask seat)) new]

/-- The locking of SEAT_GLOBAL_CTRL makes the seat of sup_pf the supervisor seat (R185, R186). -/
def globalCtrlWrite (f : RegFam) (w m : Word) : Act :=
  acts [slotWrite f false Reg.seatGlobalCtrl w m,
    .ask fun s => actIf s.locked (supervisorMake (s.fld Reg.seatGlobalCtrl 0 2))]

/-- A write of MGT_HOST_READY.go (R621, Table 17.14 step 7): through the physical function that the straps name, while done is 0. -/
def hostReadyWrite (p : Path) (w : Word) : Act :=
  .ask fun s => actIf (wBit w 0 && p = .pf s.pwr.straps.sup && !s.bitAt Reg.mgtHostReady 1 && s.adm.mgtUp && s.pwr.boot = 6) handshake

/-- A write of GRDn_CTRL (R235, R236): delegate_first from the secure world alone, apply from either. -/
def grdCtrlWrite (p : Path) (f : RegFam) (off : Nat) (w m : Word) : Act :=
  let n := (grdIndex off).1
  acts [
    if isSecPath p then slotWrite f false off w m else actIf (m &&& BitVec.ofNat 64 0x7F != 0) (secEvent p off),
    actIf (wBit (w &&& m) 8) (grdApplyOp n (isSecPath p))]

/-- A parity injection that test_en lets act (R552). -/
def parityInject (i : Nat) : Act :=
  whenS (fun s => s.bitAt (Reg.fsCtrl i) 0 && s.bitAt (Reg.fsCtrl i) 2) (.ask fun s => acts [
    clearBits (Reg.fsCtrl i) 4,
    .eff (.flt fun f => { f with parity := if f.parity.contains i then f.parity else f.parity ++ [i] }),
    .eff .tick,
    enterSafe i (Config.paritySource s.fv % 32) true])

/-- A write of AUD_BUSb_OWNER: each field from the world that writes it (R480). -/
def busOwnerWrite (p : Path) (f : RegFam) (off : Nat) (w m : Word) : Act :=
  .ask fun s =>
    if isSecPath p then slotWrite f false off w (m &&& BitVec.ofNat 64 0x400)
    else actIf (s.supPath p) (slotWrite f false off w (m &&& BitVec.ofNat 64 0x3FF))

/-- A go of a unit's secure submission registers: of a secure unit alone (R432, R472, R535). -/
def secureGo (u : Nat) (a : Act) : Act := whenS (fun s => s.unitSec u) a

/-- Index of an instance: the offset within the block over the stride. -/
def regIx (off base stride : Nat) : Nat := (off - base) / stride

/-- A write of a register of the Control Region's blocks below 0x100000. -/
def controlWrite (p : Path) (f : RegFam) (lock : Bool) (off : Nat) (w m : Word) : Act :=
  let x := w &&& m
  let base := slotWrite f lock off w m
  if off = Reg.mgtHostReady then hostReadyWrite p x
  else if off = Reg.ttsChange then bellRequestOp x
  else if off = Reg.seatGlobalCtrl then globalCtrlWrite f w m
  else if off = Reg.seatReset then seatResetGoOp x
  else if off = Reg.seatTblCmd then seatTblOp (wBits x 0 2)
  else if off = Reg.secRestart then acts [base, actIf (wBit x 0) secRestartGoOp, actIf (wBit x 1) secRestartReadyOp]
  else if off = Reg.secHoCtrl then actIf (wBit x 0) secHoGoOp
  else if off = Reg.secReserveDram then acts [base, .ask fun s => reserveOp false (s.fld Reg.secReserveDram 0 32)]
  else if off = Reg.secReserveStore then acts [base, .ask fun s => reserveOp true (s.fld Reg.secReserveStore 0 32)]
  else if off = Reg.clkHosc then (if lock then base else .ask fun s => acts [base, hoscWriteOp (s.rd Reg.clkHosc) m])
  else if decide (0x70100 ≤ off) && decide (off < 0x70800) && f.name = "CLK_PLLp_CTRL" then
    acts [slotWrite f lock off w (maskOut m 0 2), actIf (!lock && wBits m 0 2 != 0) (pllRefOp (regIx off 0x70100 0x10) (wBits w 0 2))]
  else if decide (0x70800 ≤ off) && decide (off < 0x80000) then acts [base, actIf (!lock) (gateReview false (regIx off 0x70800 8))]
  else if off = Reg.rstChip then rstChipOp p x
  else if off = Reg.pwrCtrl then pwrRequestOp p (wBits x 0 2)
  else if off = Reg.fltPin then acts [base, actIf (wBit x 1) pinRelease]
  else base

/-- A write of a register of the blocks from 0x100000 to 0x400000. -/
def mediaWrite (p : Path) (f : RegFam) (lock : Bool) (off : Nat) (w m : Word) : Act :=
  let x := w &&& m
  let base := slotWrite f lock off w m
  if off = Reg.rndSecqCtrl then acts [base, actIf (wBit x 16) secqGoOp, actIf (wBit x 17) secqAbortOp]
  else if decide (0x300000 ≤ off) && decide (off < 0x310000) && off % 0x20 = 8 then
    (let n := regIx off 0x300000 0x20
     acts [base, secureGo (113 + n) (acts [actIf (wBit x 0) (secpGoOp n), actIf (wBit x 1) (secpAbortOp n)])])
  else if off = Reg.audSecRoute then secRouteOp p x
  else if decide (0x310800 ≤ off) && decide (off < 0x311000) then busOwnerWrite p f off w m
  else if decide (0x320000 ≤ off) && decide (off < 0x330000) && off % 0x100 = 0x48 then
    (let n := regIx off 0x320000 0x100
     secureGo (89 + n) (actIf (wBit x 0) (tchSecqOp n)))
  else if decide (0x330000 ≤ off) && decide (off < 0x340000) && off % 0x100 = 0x48 then
    (let n := regIx off 0x330000 0x100
     secureGo (97 + n) (actIf (wBit x 0) (hapSecqOp n)))
  else base

/-- A write of a register of the Memory Region, the Link Region and the station pages. -/
def memoryWrite (p : Path) (f : RegFam) (lock : Bool) (off : Nat) (w m : Word) : Act :=
  let x := w &&& m
  let base := slotWrite f lock off w m
  if off = Reg.stoEccCtrl then acts [base, eccClears false x]
  else if off = Reg.dmcEccCtrl then acts [base, eccClears true x]
  else if off = Reg.stoTestCmd then testOp false (isSecPath p) (wBits x 0 2)
  else if off = Reg.dmcTestCmd then testOp true (isSecPath p) (wBits x 0 2)
  else if decide (0x420000 ≤ off) && decide (off < 0x440000) && off % 0x1000 = 0x800 then grdCtrlWrite p f off w m
  else if decide (0x440000 ≤ off) && decide (off < 0x450000) && off % 0x40 = 0x18 then
    (let k := regIx off 0x440000 0x40
     acts [base, actIf (wBit x 48) (dmaGoOp k), actIf (wBit x 49) (dmaAbortOp k)])
  else if decide (0x600000 ≤ off) && decide (off < 0x610000) then
    (let i := regIx off 0x600000 0x100
     if off % 0x100 = 0x18 then acts [base, parityInject i]
     else if off % 0x100 = 0x20 then slotWrite f lock off (w &&& BitVec.ofNat 64 (injMaskOf i)) m
     else base)
  else base

/-- A write of a register at a slot, which the gate lets act. -/
def registerWrite (p : Path) (f : RegFam) (lock : Bool) (off size : Nat) (w m : Word) : Act :=
  if off < 0x100000 then controlWrite p f lock off w m
  else if off < 0x400000 then mediaWrite p f lock off w m
  else if off < 0x800000 then memoryWrite p f lock off w m
  else
    let seat := (off - 0x800000) / 0x1000
    if off % 0x1000 = 0x18 then irqMaskWriteAct f seat w m
    else seatPageWrite p f seat (off % 0x1000) size w m

/-! ### Writes -/

/-- What a write meets at the register that it reaches. -/
def gatedWrite (p : Path) (f : RegFam) (at_ size : Nat) (v : Word) : Act :=
  .ask fun s =>
    let off := at_ / 8 * 8
    let m := coverMask at_ size
    let w := coverWord at_ size v
    match s.gate p off w m with
    | .pass => registerWrite p f false off size w m
    | .drop => .skip
    | .log => secEvent p at_
    | .locked => acts [actIf (coversRwl f m) (secEvent p at_), registerWrite p f true off size w m]

/-- A write of 4 or 8 bytes through a path, at the offset that the path uses. -/
def csrWriteNow (p : Path) (off size : Nat) (v : Word) : Act :=
  .ask fun s =>
    if !accessOk off size then .skip
    else match s.reach p off true with
      | none => .skip
      | some a => actOpt (regFind (a / 8 * 8)) fun f => gatedWrite p f.1 a size v

/-- Whether the PCIe endpoint holds a request: in DEEP_SLEEP and while the chip wakes (R586). -/
def State.holds (s : State) (p : Path) : Bool := isPcie p && (s.pst = 4 || s.pst = 5)

/-- Hold a request until the state is RUN; it wakes the chip (R585, R634). -/
def holdReq (r : HeldReq) : Act := acts [.eff (.pwr fun x => { x with heldReqs := x.heldReqs ++ [r] }), wakeOp 4]

/-- A register write. -/
def csrWriteAct (p : Path) (off size : Nat) (v : Word) : Act :=
  .ask fun s => if s.holds p then holdReq (.csr p off size v) else csrWriteNow p off size v

/-! ### Reads -/

/-- Number of a read path for the snapshots of R58. -/
def pathKey : Path → Nat
  | .pf p => p
  | .mgt => 4
  | .sec => 5
  | .i3c => 6
  | .jtag => 7
  | .vf n => 8 + n

/-- The snapshot of a path: bell count and PTM time. -/
def State.snap (s : State) (p : Path) : Nat × Nat := mapGet (fun _ => (0, 0)) (pathKey p) s.tts.snaps

/-- The PTM time that a path reads at the last edge: that of its physical function, 0 on every other path. -/
def State.ptmOf (s : State) : Path → Nat
  | .pf p => s.tts.ptm.getD p 0
  | _ => 0

/-- BUDGET_VIEW of a seat (Table 6.7). -/
def State.budgetView (s : State) (seat : Nat) : Word :=
  let k := s.fld (Reg.budgetView seat) 0 4
  let c := if s.bitAt (Reg.budgetView seat) 4 then s.budgetShown seat k else if 9 ≤ k then 0 else s.budgetOf seat k
  wSet (s.rd (Reg.budgetView seat)) 32 32 (c % 2 ^ 32)

/-- Whether a read is hidden from a path: of the SEC registers, the normal world reads three alone (R224). -/
def secHidden (p : Path) (off : Nat) : Bool :=
  decide (0x50000 ≤ off) && decide (off < 0x60000) && !isSecPath p
    && !(off = Reg.secState || off = Reg.secHoStatus || (decide (0x50100 ≤ off) && decide (off < 0x50138)))

/-- The value of the slot of a register, as a path reads it. -/
def State.slotValue (s : State) (p : Path) (off : Nat) : Word :=
  if secHidden p off then 0
  else if off = Reg.ttsCountLo then BitVec.ofNat 64 (s.tts.bell % 2 ^ 32)
  else if off = Reg.ttsCountHi then BitVec.ofNat 64 ((s.snap p).1 / 2 ^ 32 % 2 ^ 32)
  else if off = Reg.ttsPtmLo then BitVec.ofNat 64 ((s.snap p).2 % 2 ^ 32)
  else if off = Reg.ttsPtmHi then BitVec.ofNat 64 ((s.snap p).2 / 2 ^ 32 % 2 ^ 32)
  else if decide (0x38000 ≤ off) && decide (off < 0x40000) then s.sync ((off - 0x38000) / 8)
  else if decide (0x800000 ≤ off) && off % 0x1000 = 0 then s.seatIdWord ((off - 0x800000) / 0x1000)
  else if decide (0x800000 ≤ off) && off % 0x1000 = 0x20 then s.budgetView ((off - 0x800000) / 0x1000)
  else s.rd off

/-- What a read of 4 or 8 bytes returns: 0 where it reaches no register (R5, R183, R616). -/
def State.readValue (s : State) (p : Path) (off size : Nat) : Word :=
  if !accessOk off size then 0
  else match s.reach p off false with
    | none => 0
    | some a =>
      match regFind (a / 8 * 8) with
      | none => 0
      | some _ =>
        let v := s.slotValue p (a / 8 * 8)
        if size = 8 then v else BitVec.ofNat 64 (wBits v (8 * (a % 8)) 32)

/-- The side effect of a read of RS fields (R7): a snapshot, the peak to busy, the counts that are covered to 0. -/
def readEffect (p : Path) (f : RegFam) (a size : Nat) : Act :=
  .ask fun s =>
    let off := a / 8 * 8
    let rs := accBits f (fun x => x = .rs) &&& coverMask a size
    if secHidden p off || rs = 0 then .skip
    else if off = Reg.ttsCountLo then .eff (.tts fun t => { t with snaps := mapPut (fun _ => (0, 0)) (pathKey p) (t.bell, s.ptmOf p) t.snaps })
    else if off = Reg.hmnMgtLoad then setFld Reg.hmnMgtLoad 8 8 (s.fld Reg.hmnMgtLoad 0 8)
    else setReg off (s.rd off &&& ~~~ rs)

/-- A register read that is served now: its data, then its side effect. -/
def csrReadNow (p : Path) (off size : Nat) : Act :=
  .ask fun s => acts [
    .eff (.rdata (s.readValue p off size)),
    actIf (accessOk off size) (actOpt (s.reach p off false) fun a => actOpt (regFind (a / 8 * 8)) fun f => readEffect p f.1 a size)]

/-- A register read. -/
def csrReadAct (p : Path) (off size : Nat) : Act :=
  .ask fun s => if s.holds p then holdReq (.read p off size) else csrReadNow p off size

/-- What a command that reads a register answers. In the safe state JTAG and I3C read the frozen value, without side effect; the
endpoint aborts every request and the cores are halted (R548, R549). -/
def readCommand (ok : Bool) (p : Path) (off size : Nat) (s : State) : Host.Outcome State Fault Refusal :=
  if s.flt.safe && s.pwr.rails && ok && (p = .i3c || p = .jtag) then .next (runAct (.eff (.rdata (s.readValue p off size))) s)
  else live ok (csrReadAct p off size) s

end Sys2Proof.Machine
end

