-- ==== Sys2Proof/Machine/Regs.lean ====
section
/-!
DEFINITION. Machine/Regs.lean: the commands that are an access of one register, CSR_WRITE, FLR and VF Enable, the wake from DEEP_SLEEP,
and the commands of the rings.
-/

namespace Sys2Proof.Machine

/-! ### Writes of one register -/

/-- A write of a register through a path, as a command. -/
def writeCommand (ok : Bool) (p : Path) (off size : Nat) (v : Word) (s : State) : Host.Outcome State Fault Refusal :=
  live ok (csrWriteAct p off size v) s

/-- A write that sets bits of a register and gives its other fields the values that they read; bits that a 1 would clear are 0. -/
def setCommand (ok : Bool) (p : Path) (off size bits clears : Nat) (s : State) : Host.Outcome State Fault Refusal :=
  live ok (.ask fun s => csrWriteAct p off size ((s.rd off &&& ~~~ BitVec.ofNat 64 clears) ||| BitVec.ofNat 64 bits)) s

/-- CSR_WRITE (R7, R616): any write. -/
def execCsrWrite (p : Path) (off size : Nat) (v : Word) (s : State) : Host.Outcome State Fault Refusal := writeCommand true p off size v s

/-- CLK_PLL_REF_WRITE (R570). -/
def execClkPllRefWrite (p : Path) (pll : Nat) (v : Word) (s : State) : Host.Outcome State Fault Refusal :=
  writeCommand (pll < 10) p (Reg.clkPllCtrl pll) 4 v s
/-- CLK_HOSC_STOP (R573): a write of CLK_HOSC_CTRL. -/
def execClkHoscStop (p : Path) (v : Word) (s : State) : Host.Outcome State Fault Refusal := writeCommand true p Reg.clkHosc 4 v s
/-- CLK_GATE_WRITE (R578). -/
def execClkGateWrite (p : Path) (b : Nat) (v : Word) (s : State) : Host.Outcome State Fault Refusal :=
  writeCommand (b < 256) p (Reg.clkGate b) 4 v s
/-- BELL_CHANGE_REQUEST (R59). -/
def execBellChangeRequest (p : Path) (v : Word) (s : State) : Host.Outcome State Fault Refusal := writeCommand true p Reg.ttsChange 4 v s
/-- AUD_SEC_ROUTE_WRITE (R486). -/
def execAudSecRouteWrite (p : Path) (v : Word) (s : State) : Host.Outcome State Fault Refusal := writeCommand true p Reg.audSecRoute 8 v s
/-- SEAT_TBL_READ_SHADOW (R188). -/
def execSeatTblReadShadow (p : Path) (s : State) : Host.Outcome State Fault Refusal := writeCommand true p Reg.seatTblCmd 4 1 s
/-- SEAT_TBL_READ_COMMITTED (R188). -/
def execSeatTblReadCommitted (p : Path) (s : State) : Host.Outcome State Fault Refusal := writeCommand true p Reg.seatTblCmd 4 2 s
/-- SEAT_TBL_WRITE_SHADOW (R188, R189). -/
def execSeatTblWriteShadow (p : Path) (s : State) : Host.Outcome State Fault Refusal := writeCommand true p Reg.seatTblCmd 4 3 s
/-- MGT_HOST_READY_GO (R621). -/
def execMgtHostReadyGo (p : Path) (s : State) : Host.Outcome State Fault Refusal := writeCommand true p Reg.mgtHostReady 4 1 s
/-- SEAT_RESET_GO (R208). -/
def execSeatResetGo (p : Path) (v : Word) (s : State) : Host.Outcome State Fault Refusal := writeCommand (wBit v 9) p Reg.seatReset 4 v s
/-- SEC_HO_GO (R226). -/
def execSecHoGo (p : Path) (s : State) : Host.Outcome State Fault Refusal := writeCommand true p Reg.secHoCtrl 4 1 s
/-- SEC_RESERVE_WRITE (R225). -/
def execSecReserveWrite (p : Path) (store : Bool) (v : Word) (s : State) : Host.Outcome State Fault Refusal :=
  writeCommand true p (if store then Reg.secReserveStore else Reg.secReserveDram) 4 v s
/-- SEC_RESTART_GO (R241). -/
def execSecRestartGo (p : Path) (s : State) : Host.Outcome State Fault Refusal := setCommand true p Reg.secRestart 4 1 0 s
/-- SEC_RESTART_READY (R241). -/
def execSecRestartReady (p : Path) (s : State) : Host.Outcome State Fault Refusal := setCommand true p Reg.secRestart 4 2 0 s
/-- HMN_KICK (R545): a kick, or a write of the timeout. -/
def execHmnKick (p : Path) (k : Nat) (cfg : Option Word) (s : State) : Host.Outcome State Fault Refusal :=
  match cfg with
  | none => writeCommand (k < 3) p (Reg.hmnKick k) 4 1 s
  | some v => writeCommand (k < 3) p (Reg.hmnCfg k) 4 v s
/-- GRD_APPLY (R236). -/
def execGrdApply (p : Path) (n : Nat) (s : State) : Host.Outcome State Fault Refusal := setCommand (n < 28) p (Reg.grdCtrl n) 4 (2 ^ 8) 0 s
/-- CLEAR_CE_LOG (R257). -/
def execClearCeLog (p : Path) (dmc : Bool) (s : State) : Host.Outcome State Fault Refusal := setCommand true p (eccCtrl dmc) 4 1 8 s
/-- CLEAR_UE_LOG (R257). -/
def execClearUeLog (p : Path) (dmc : Bool) (s : State) : Host.Outcome State Fault Refusal := setCommand true p (eccCtrl dmc) 4 2 8 s
/-- CLEAR_COUNTS (R257). -/
def execClearCounts (p : Path) (dmc : Bool) (s : State) : Host.Outcome State Fault Refusal := setCommand true p (eccCtrl dmc) 4 4 8 s
/-- RAW_READ (R259). -/
def execRawRead (p : Path) (dmc : Bool) (s : State) : Host.Outcome State Fault Refusal := writeCommand true p (testRegs dmc).2.2.2 4 1 s
/-- RAW_WRITE (R259). -/
def execRawWrite (p : Path) (dmc : Bool) (s : State) : Host.Outcome State Fault Refusal := writeCommand true p (testRegs dmc).2.2.2 4 2 s
/-- CHECK_WRITE (R259). -/
def execCheckWrite (p : Path) (dmc : Bool) (s : State) : Host.Outcome State Fault Refusal := writeCommand true p (testRegs dmc).2.2.2 4 3 s
/-- DMA_GO (R291, R292): a 64-bit write of DMAk_CTRL with go. -/
def execDmaGo (p : Path) (ch : Nat) (v : Word) (s : State) : Host.Outcome State Fault Refusal :=
  writeCommand (decide (ch < 64) && wBit v 48) p (Reg.dmaCtrl ch) 8 v s
/-- DMA_ABORT (R292). -/
def execDmaAbort (p : Path) (ch : Nat) (s : State) : Host.Outcome State Fault Refusal := setCommand (ch < 64) p (Reg.dmaCtrl ch) 8 (2 ^ 49) 0 s
/-- RND_SECQ_GO (R432). -/
def execRndSecqGo (p : Path) (v : Word) (s : State) : Host.Outcome State Fault Refusal := writeCommand (wBit v 16) p Reg.rndSecqCtrl 8 v s
/-- RND_SECQ_ABORT (R432). -/
def execRndSecqAbort (p : Path) (s : State) : Host.Outcome State Fault Refusal := setCommand true p Reg.rndSecqCtrl 8 (2 ^ 17) 0 s
/-- VDC_SECP_GO (R472). -/
def execVdcSecpGo (p : Path) (pipe : Nat) (v : Word) (s : State) : Host.Outcome State Fault Refusal :=
  writeCommand (decide (pipe < 10) && wBit v 0) p (Reg.vdcCtrl pipe) 4 v s
/-- VDC_SECP_ABORT (R472). -/
def execVdcSecpAbort (p : Path) (pipe : Nat) (s : State) : Host.Outcome State Fault Refusal := writeCommand (pipe < 10) p (Reg.vdcCtrl pipe) 4 2 s
/-- TCH_SECQ_GO (R535). -/
def execTchSecqGo (p : Path) (port : Nat) (s : State) : Host.Outcome State Fault Refusal := writeCommand (port < 8) p (Reg.tchSecqCtrl port) 4 1 s
/-- HAP_SECQ_GO (R535). -/
def execHapSecqGo (p : Path) (ch : Nat) (s : State) : Host.Outcome State Fault Refusal := writeCommand (ch < 8) p (Reg.hapSecqCtrl ch) 4 1 s
/-- FS_INJECT (R551). -/
def execFsInject (p : Path) (st : Nat) (v : Word) (s : State) : Host.Outcome State Fault Refusal :=
  writeCommand (st < 256) p (Reg.fsInject st) 4 v s
/-- FS_INJ_PARITY (R552). -/
def execFsInjParity (p : Path) (st : Nat) (s : State) : Host.Outcome State Fault Refusal := setCommand (st < 256) p (Reg.fsCtrl st) 4 4 0 s
/-- FLT_PIN_RELEASE (R547). -/
def execFltPinRelease (p : Path) (s : State) : Host.Outcome State Fault Refusal := writeCommand true p Reg.fltPin 4 2 s
/-- PWR_REQUEST_RUN (R582, R585). -/
def execPwrRequestRun (p : Path) (s : State) : Host.Outcome State Fault Refusal := writeCommand true p Reg.pwrCtrl 4 1 s
/-- PWR_REQUEST_SLEEP (R581). -/
def execPwrRequestSleep (p : Path) (s : State) : Host.Outcome State Fault Refusal := writeCommand true p Reg.pwrCtrl 4 2 s
/-- PWR_REQUEST_DEEP_SLEEP (R584). -/
def execPwrRequestDeepSleep (p : Path) (s : State) : Host.Outcome State Fault Refusal := writeCommand true p Reg.pwrCtrl 4 3 s
/-- RST_CHIP_GO (R589). -/
def execRstChipGo (p : Path) (v : Word) (s : State) : Host.Outcome State Fault Refusal := writeCommand true p Reg.rstChip 4 v s

/-! ### Writes of a seat page (R109 to R120, R149, R207, R623, R624) -/

/-- Offset of a register of a seat's page on a path: a virtual function's BAR0 maps its page at 0. -/
def pageOff (p : Path) (seat o : Nat) : Nat := match p with | .vf _ => o | _ => 0x800000 + 0x1000 * seat + o

/-- Whether a path can name a seat's page: a virtual function names its own alone. -/
def pageOk (p : Path) (seat : Nat) : Bool := seatOk seat && (match p with | .vf n => n = seat | _ => true)

/-- DOORBELL_WRITE (R119, R120): a 64-bit write of DOORBELLn. -/
def execDoorbellWrite (p : Path) (seat ring : Nat) (v : Word) (s : State) : Host.Outcome State Fault Refusal :=
  writeCommand (pageOk p seat && decide (ring < 8)) p (pageOff p seat (0x180 + 8 * ring)) 8 v s
/-- RING_ENABLE (R116): a 64-bit write of RING_BASEn with enable 1. -/
def execRingEnable (p : Path) (seat ring : Nat) (v : Word) (s : State) : Host.Outcome State Fault Refusal :=
  writeCommand (pageOk p seat && decide (ring < 8) && wBit v 0) p (pageOff p seat (0x100 + 8 * ring)) 8 v s
/-- RING_DISABLE (R117): a 64-bit write of RING_BASEn with enable 0. -/
def execRingDisable (p : Path) (seat ring : Nat) (v : Word) (s : State) : Host.Outcome State Fault Refusal :=
  writeCommand (pageOk p seat && decide (ring < 8) && !wBit v 0) p (pageOff p seat (0x100 + 8 * ring)) 8 v s
/-- IRQ_MASK_WRITE (R149). -/
def execIrqMaskWrite (p : Path) (seat : Nat) (v : Word) (s : State) : Host.Outcome State Fault Refusal :=
  writeCommand (pageOk p seat) p (pageOff p seat 0x18) 4 v s
/-- DIRTY_LOG_SWAP (R207): a write of DIRTY_LOG_BASE.swap as 1. -/
def execDirtyLogSwap (p : Path) (seat : Nat) (s : State) : Host.Outcome State Fault Refusal :=
  live (pageOk p seat) (.ask fun s => csrWriteAct p (pageOff p seat 0x28) 8 ((s.rd (Reg.dirtyLogBase seat) &&& ~~~ 0x200) ||| 4)) s

/-! ### Reads with a side effect -/

/-- TTS_BELL_COUNT_LO_READ (R57, R58). -/
def execTtsBellCountLoRead (p : Path) (s : State) : Host.Outcome State Fault Refusal := readCommand true p Reg.ttsCountLo 4 s
/-- ADM_BUSY_COUNT_READ (R88). -/
def execAdmBusyCountRead (p : Path) (s : State) : Host.Outcome State Fault Refusal := readCommand true p Reg.admBusyCount 4 s
/-- HMN_MGT_LOAD_READ (R545). -/
def execHmnMgtLoadRead (p : Path) (s : State) : Host.Outcome State Fault Refusal := readCommand true p Reg.hmnMgtLoad 4 s
/-- GRD_VIOL_INFO_READ (R234). -/
def execGrdViolInfoRead (p : Path) (n : Nat) (s : State) : Host.Outcome State Fault Refusal := readCommand (n < 28) p (Reg.grdViolInfo n) 4 s
/-- CAPN_FRAMES_READ (R440). -/
def execCapnFramesRead (p : Path) (port : Nat) (s : State) : Host.Outcome State Fault Refusal := readCommand (port < 8) p (Reg.capFrames port) 8 s
/-- HDH_UNDERRUN_READ (R371). -/
def execHdhUnderrunRead (p : Path) (h : Nat) (s : State) : Host.Outcome State Fault Refusal := readCommand (h < 32) p (Reg.hdUnderrun h) 8 s
/-- TCHN_COUNT_READ (R513). -/
def execTchnCountRead (p : Path) (port : Nat) (s : State) : Host.Outcome State Fault Refusal := readCommand (port < 8) p (Reg.tchCount port) 8 s
/-- HAPN_COUNT_READ (R534). -/
def execHapnCountRead (p : Path) (ch : Nat) (s : State) : Host.Outcome State Fault Refusal := readCommand (ch < 8) p (Reg.hapCount ch) 8 s
/-- FS_COUNT_READ (R537). -/
def execFsCountRead (p : Path) (st : Nat) (s : State) : Host.Outcome State Fault Refusal := readCommand (st < 256) p (Reg.fsCount st) 4 s

/-! ### Functions (R182, R209, R634) -/

/-- An access of configuration space, held while the chip sleeps deep or wakes. -/
def configAct (r : HeldReq) (a : Act) : Act := .ask fun s => if s.pst = 4 || s.pst = 5 then holdReq r else a

/-- FLR (R209). -/
def execFlr (seat : Nat) (s : State) : Host.Outcome State Fault Refusal := live (seatOk seat) (configAct (.flr seat) (flrOp seat)) s
/-- VF_ENABLE_SET (R182). -/
def execVfEnableSet (pf : Nat) (s : State) : Host.Outcome State Fault Refusal := live (pf < 4) (configAct (.vfEnable pf true) (vfEnableOp pf)) s
/-- VF_ENABLE_CLEAR (R182). -/
def execVfEnableClear (pf : Nat) (s : State) : Host.Outcome State Fault Refusal := live (pf < 4) (configAct (.vfEnable pf false) (vfDisableOp pf)) s

/-! ### The wake from DEEP_SLEEP (R61, R583, R585, R586) -/

/-- Serve a request that was held. -/
def heldServe : HeldReq → Act
  | .csr p off size v => csrWriteNow p off size v
  | .read p off size => csrReadNow p off size
  | .flr seat => flrOp seat
  | .vfEnable pf on => if on then vfEnableOp pf else vfDisableOp pf

/-- The bell as it restarts: the first bell after the wake and the next are blanked. -/
def Tts.wake (t : Tts) : Tts :=
  { t with running := true, lock := if t.cur.mode = 0 then .free else .acquiring, pulses := 0, lastPulse := none, meas := none, aligned := false,
           divCount := 0, slew := 0, jump := 0, blankTo := max t.blankTo (t.bell + 3) }

/-- The end of the wake: the bell restarts, state becomes RUN, ports are brought up, touch ports scan, held requests are served. -/
def wakeDone : Act :=
  .ask fun s => acts [
    pllWake,
    .eff (.memc fun m => { m with selfRefresh := false }),
    .eff (.tts Tts.wake),
    pwrState 0,
    actIf (s.fld Reg.pwrStatus 6 3 = 5) (pwrResult 1),
    .eff (.pwr fun x => { x with runReq := false, deep := false, resume := s.tts.bell + 1, heldReqs := [] }),
    gateAll,
    bellRegs,
    each (List.range 32) markHead,
    each ((List.range 16).filter fun n => portMode (s.port n) != 0) bringUp,
    each ((List.range 8).filter fun n => s.tchState n = 3) fun n => acts [tchStatePut n 2, tchUpd n fun t => { t with approach := false, woke := true }],
    audUpd fun a => { a with fadeUp := true },
    each s.pwr.heldReqs heldServe]

/-- DEEP_SLEEP_WAKE_DONE (R585). -/
def execDeepSleepWakeDone (s : State) : Host.Outcome State Fault Refusal := live (s.pst = 5) wakeDone s

/-! ### The rings (R121, R144, R408, R416) -/

/-- PACKET_FETCH (R121). -/
def execPacketFetch (host : HostAns) (s : State) : Host.Outcome State Fault Refusal := live true (fetchOp host) s
/-- RND_PASS_BEGIN (R408): a packet that opens a pass, which CFE holds. -/
def execRndPassBegin (seat ring : Nat) (s : State) : Host.Outcome State Fault Refusal :=
  live (seatOk seat && decide (ring < 8)) (passBeginOp seat ring) s
/-- RND_DRAW (R416): a member draw of the pass that is open. -/
def execRndDraw (seat ring : Nat) (s : State) : Host.Outcome State Fault Refusal :=
  live (seatOk seat && decide (ring < 8)) (passDrawOp seat ring) s
/-- RND_PASS_END (R144): closes the pass, which is then received. -/
def execRndPassEnd (seat ring : Nat) (s : State) : Host.Outcome State Fault Refusal :=
  live (seatOk seat && decide (ring < 8)) (passEndOp seat ring) s

end Sys2Proof.Machine
end

