-- ==== Sys2Proof/Machine/Dispatch.lean ====
section
/-!
DEFINITION. Machine/Dispatch.lean: the command of the opcode table that each constructor is, given to its meaning.
-/

namespace Sys2Proof.Machine

/-- The effect of a command on everything but the queue of commands. -/
def exec (i : Instr) (s : State) : Host.Outcome State Fault Refusal :=
  match i with
  | .powerOnReset st => Sys2Proof.Machine.execPowerOnReset st s
  | .pinReset st lowNs => Sys2Proof.Machine.execPinReset st lowNs s
  | .linkReset link => Sys2Proof.Machine.execLinkReset link s
  | .perstRelease link => Sys2Proof.Machine.execPerstRelease link s
  | .dramTrainingDone trained => Sys2Proof.Machine.execDramTrainingDone trained s
  | .beylothMeasureDone ok => Sys2Proof.Machine.execBeylothMeasureDone ok s
  | .secBootRomStart => Sys2Proof.Machine.execSecBootRomStart s
  | .clockSourceReady src => Sys2Proof.Machine.execClockSourceReady src s
  | .clockMonitorTrip src => Sys2Proof.Machine.execClockMonitorTrip src s
  | .fallbackTimeout => Sys2Proof.Machine.execFallbackTimeout s
  | .hoscTrimWindow counted => Sys2Proof.Machine.execHoscTrimWindow counted s
  | .clkPllRefWrite p pll v => Sys2Proof.Machine.execClkPllRefWrite p pll v s
  | .clkHoscStop p v => Sys2Proof.Machine.execClkHoscStop p v s
  | .clkGateWrite p b v => Sys2Proof.Machine.execClkGateWrite p b v s
  | .gateAckTimeout b => Sys2Proof.Machine.execGateAckTimeout b s
  | .bellEdge e => Sys2Proof.Machine.execBellEdge e s
  | .periodStart e => Sys2Proof.Machine.execPeriodStart e s
  | .decisionTimeout => Sys2Proof.Machine.execDecisionTimeout s
  | .genlockPulse at_ high => Sys2Proof.Machine.execGenlockPulse at_ high s
  | .bellRefLost at_ => Sys2Proof.Machine.execBellRefLost at_ s
  | .bellChangeRequest p v => Sys2Proof.Machine.execBellChangeRequest p v s
  | .ttsBellCountLoRead p => Sys2Proof.Machine.execTtsBellCountLoRead p s
  | .admBusyCountRead p => Sys2Proof.Machine.execAdmBusyCountRead p s
  | .doorbellWrite p seat ring v => Sys2Proof.Machine.execDoorbellWrite p seat ring v s
  | .ringEnable p seat ring v => Sys2Proof.Machine.execRingEnable p seat ring v s
  | .ringDisable p seat ring v => Sys2Proof.Machine.execRingDisable p seat ring v s
  | .packetFetch host => Sys2Proof.Machine.execPacketFetch host s
  | .admissionDecision host => Sys2Proof.Machine.execAdmissionDecision host s
  | .turnEnd t => Sys2Proof.Machine.execTurnEnd t s
  | .turnCycleLimit t => Sys2Proof.Machine.execTurnCycleLimit t s
  | .envelopeLimitReached cmd which => Sys2Proof.Machine.execEnvelopeLimitReached cmd which s
  | .memoryTransactionResponse t => Sys2Proof.Machine.execMemoryTransactionResponse t s
  | .stationParityError st => Sys2Proof.Machine.execStationParityError st s
  | .arbTimeout st => Sys2Proof.Machine.execArbTimeout st s
  | .pcieCompletionTimeout st seat cmd => Sys2Proof.Machine.execPcieCompletionTimeout st seat cmd s
  | .pinReadback => Sys2Proof.Machine.execPinReadback s
  | .commandComplete cmd => Sys2Proof.Machine.execCommandComplete cmd s
  | .nop => Sys2Proof.Machine.execNop s
  | .queryCaps => Sys2Proof.Machine.execQueryCaps s
  | .setBudget => Sys2Proof.Machine.execSetBudget s
  | .setQuota => Sys2Proof.Machine.execSetQuota s
  | .quotaReclaim seat => Sys2Proof.Machine.execQuotaReclaim seat s
  | .commit => Sys2Proof.Machine.execCommit s
  | .dmaCopy cmd => Sys2Proof.Machine.execDmaCopy cmd s
  | .dmaFill cmd => Sys2Proof.Machine.execDmaFill cmd s
  | .dmaBurstResponse ch host => Sys2Proof.Machine.execDmaBurstResponse ch host s
  | .chkAttach => Sys2Proof.Machine.execChkAttach s
  | .chkDetach => Sys2Proof.Machine.execChkDetach s
  | .rndProgramLoad => Sys2Proof.Machine.execRndProgramLoad s
  | .rndProgramUnload => Sys2Proof.Machine.execRndProgramUnload s
  | .programCompileDone cmd models kib cause => Sys2Proof.Machine.execProgramCompileDone cmd models kib cause s
  | .rndPassBegin seat ring => Sys2Proof.Machine.execRndPassBegin seat ring s
  | .rndDraw seat ring => Sys2Proof.Machine.execRndDraw seat ring s
  | .rndPassEnd seat ring => Sys2Proof.Machine.execRndPassEnd seat ring s
  | .rndDispatch cmd host => Sys2Proof.Machine.execRndDispatch cmd host s
  | .cmpCanvasSet => Sys2Proof.Machine.execCmpCanvasSet s
  | .cmpLayerSet => Sys2Proof.Machine.execCmpLayerSet s
  | .cmpFlip => Sys2Proof.Machine.execCmpFlip s
  | .cmpFlipGroup => Sys2Proof.Machine.execCmpFlipGroup s
  | .vdcSessionOpen => Sys2Proof.Machine.execVdcSessionOpen s
  | .vdcSessionClose => Sys2Proof.Machine.execVdcSessionClose s
  | .vdcDecode cmd => Sys2Proof.Machine.execVdcDecode cmd s
  | .vdcEncode cmd => Sys2Proof.Machine.execVdcEncode cmd s
  | .vdcKeyRequest => Sys2Proof.Machine.execVdcKeyRequest s
  | .codecPictureBoundary pic => Sys2Proof.Machine.execCodecPictureBoundary pic s
  | .audRoute cmd => Sys2Proof.Machine.execAudRoute cmd s
  | .audStreamOpen => Sys2Proof.Machine.execAudStreamOpen s
  | .audStreamClose => Sys2Proof.Machine.execAudStreamClose s
  | .audEffect => Sys2Proof.Machine.execAudEffect s
  | .audioBlock b => Sys2Proof.Machine.execAudioBlock b s
  | .tdmFrameReceived port rate slots => Sys2Proof.Machine.execTdmFrameReceived port rate slots s
  | .tdmClockLost => Sys2Proof.Machine.execTdmClockLost s
  | .audInputLost n => Sys2Proof.Machine.execAudInputLost n s
  | .audSecRouteWrite p v => Sys2Proof.Machine.execAudSecRouteWrite p v s
  | .tchConfigApply => Sys2Proof.Machine.execTchConfigApply s
  | .tchConfigSelftest => Sys2Proof.Machine.execTchConfigSelftest s
  | .tchConfigRecalibrate => Sys2Proof.Machine.execTchConfigRecalibrate s
  | .tchConfigDisable => Sys2Proof.Machine.execTchConfigDisable s
  | .touchLinkBringup port id ok => Sys2Proof.Machine.execTouchLinkBringup port id ok s
  | .touchScanStart port => Sys2Proof.Machine.execTouchScanStart port s
  | .touchScanEnd port ok counts => Sys2Proof.Machine.execTouchScanEnd port ok counts s
  | .keyForcedRelease port key => Sys2Proof.Machine.execKeyForcedRelease port key s
  | .dozeEntry port => Sys2Proof.Machine.execDozeEntry port s
  | .dozeApproach port => Sys2Proof.Machine.execDozeApproach port s
  | .touchLinkRetry port id ok => Sys2Proof.Machine.execTouchLinkRetry port id ok s
  | .hapEffectLoad cmd => Sys2Proof.Machine.execHapEffectLoad cmd s
  | .hapEffectClear cmd => Sys2Proof.Machine.execHapEffectClear cmd s
  | .hapPlay cmd => Sys2Proof.Machine.execHapPlay cmd s
  | .hapticFrame ch volt => Sys2Proof.Machine.execHapticFrame ch volt s
  | .fence cmd => Sys2Proof.Machine.execFence cmd s
  | .signal cmd => Sys2Proof.Machine.execSignal cmd s
  | .wait cmd => Sys2Proof.Machine.execWait cmd s
  | .queryStatus => Sys2Proof.Machine.execQueryStatus s
  | .queryStatusByTag => Sys2Proof.Machine.execQueryStatusByTag s
  | .queryBudget => Sys2Proof.Machine.execQueryBudget s
  | .irqMaskWrite p seat v => Sys2Proof.Machine.execIrqMaskWrite p seat v s
  | .seatTblReadShadow p => Sys2Proof.Machine.execSeatTblReadShadow p s
  | .seatTblReadCommitted p => Sys2Proof.Machine.execSeatTblReadCommitted p s
  | .seatTblWriteShadow p => Sys2Proof.Machine.execSeatTblWriteShadow p s
  | .mgtHostReadyGo p => Sys2Proof.Machine.execMgtHostReadyGo p s
  | .seatResetGo p v => Sys2Proof.Machine.execSeatResetGo p v s
  | .flr seat => Sys2Proof.Machine.execFlr seat s
  | .vfEnableSet pf => Sys2Proof.Machine.execVfEnableSet pf s
  | .vfEnableClear pf => Sys2Proof.Machine.execVfEnableClear pf s
  | .seatResetSettle seat => Sys2Proof.Machine.execSeatResetSettle seat s
  | .seatResetComplete seat => Sys2Proof.Machine.execSeatResetComplete seat s
  | .transferAbandoned st seat cmd => Sys2Proof.Machine.execTransferAbandoned st seat cmd s
  | .dirtyLogSwap p seat => Sys2Proof.Machine.execDirtyLogSwap p seat s
  | .dirtyLogSwapDone seat => Sys2Proof.Machine.execDirtyLogSwapDone seat s
  | .secHoGo p => Sys2Proof.Machine.execSecHoGo p s
  | .handoverReset => Sys2Proof.Machine.execHandoverReset s
  | .secReserveWrite p store v => Sys2Proof.Machine.execSecReserveWrite p store v s
  | .secRestartGo p => Sys2Proof.Machine.execSecRestartGo p s
  | .secRestartReady p => Sys2Proof.Machine.execSecRestartReady p s
  | .secFatalTrap => Sys2Proof.Machine.execSecFatalTrap s
  | .readyLimitExpired => Sys2Proof.Machine.execReadyLimitExpired s
  | .mgtExpired => Sys2Proof.Machine.execMgtExpired s
  | .secExpired => Sys2Proof.Machine.execSecExpired s
  | .ttsExpired => Sys2Proof.Machine.execTtsExpired s
  | .hmnKick p k cfg => Sys2Proof.Machine.execHmnKick p k cfg s
  | .hmnMgtLoadRead p => Sys2Proof.Machine.execHmnMgtLoadRead p s
  | .grdApply p n => Sys2Proof.Machine.execGrdApply p n s
  | .grdViolInfoRead p n => Sys2Proof.Machine.execGrdViolInfoRead p n s
  | .clearCeLog p dmc => Sys2Proof.Machine.execClearCeLog p dmc s
  | .clearUeLog p dmc => Sys2Proof.Machine.execClearUeLog p dmc s
  | .clearCounts p dmc => Sys2Proof.Machine.execClearCounts p dmc s
  | .rawRead p dmc => Sys2Proof.Machine.execRawRead p dmc s
  | .rawWrite p dmc => Sys2Proof.Machine.execRawWrite p dmc s
  | .checkWrite p dmc => Sys2Proof.Machine.execCheckWrite p dmc s
  | .dramRefresh channel bank allRows => Sys2Proof.Machine.execDramRefresh channel bank allRows s
  | .rowHammerRefresh channel bank row => Sys2Proof.Machine.execRowHammerRefresh channel bank row s
  | .dmaGo p ch v => Sys2Proof.Machine.execDmaGo p ch v s
  | .dmaAbort p ch => Sys2Proof.Machine.execDmaAbort p ch s
  | .rndSecqGo p v => Sys2Proof.Machine.execRndSecqGo p v s
  | .rndSecqAbort p => Sys2Proof.Machine.execRndSecqAbort p s
  | .vdcSecpGo p pipe v => Sys2Proof.Machine.execVdcSecpGo p pipe v s
  | .vdcSecpAbort p pipe => Sys2Proof.Machine.execVdcSecpAbort p pipe s
  | .tchSecqGo p port => Sys2Proof.Machine.execTchSecqGo p port s
  | .hapSecqGo p ch => Sys2Proof.Machine.execHapSecqGo p ch s
  | .headFrameStart h => Sys2Proof.Machine.execHeadFrameStart h s
  | .headLineStart h line late lockstep => Sys2Proof.Machine.execHeadLineStart h line late lockstep s
  | .linkWakeDone port => Sys2Proof.Machine.execLinkWakeDone port s
  | .hpdRise port => Sys2Proof.Machine.execHpdRise port s
  | .hpdFall port => Sys2Proof.Machine.execHpdFall port s
  | .irqHpd port => Sys2Proof.Machine.execIrqHpd port s
  | .sinkLockLoss port => Sys2Proof.Machine.execSinkLockLoss port s
  | .linkBringupDone port sink => Sys2Proof.Machine.execLinkBringupDone port sink s
  | .captureFrameStart port f => Sys2Proof.Machine.execCaptureFrameStart port f s
  | .captureFrameComplete port rows damaged => Sys2Proof.Machine.execCaptureFrameComplete port rows damaged s
  | .captureLinkLost port => Sys2Proof.Machine.execCaptureLinkLost port s
  | .captureHpdPulseEnd port => Sys2Proof.Machine.execCaptureHpdPulseEnd port s
  | .capnFramesRead p port => Sys2Proof.Machine.execCapnFramesRead p port s
  | .hdhUnderrunRead p h => Sys2Proof.Machine.execHdhUnderrunRead p h s
  | .tchnCountRead p port => Sys2Proof.Machine.execTchnCountRead p port s
  | .hapnCountRead p ch => Sys2Proof.Machine.execHapnCountRead p ch s
  | .fsCountRead p st => Sys2Proof.Machine.execFsCountRead p st s
  | .fsInject p st v => Sys2Proof.Machine.execFsInject p st v s
  | .fsInjParity p st => Sys2Proof.Machine.execFsInjParity p st s
  | .fltPinRelease p => Sys2Proof.Machine.execFltPinRelease p s
  | .pwrRequestRun p => Sys2Proof.Machine.execPwrRequestRun p s
  | .pwrRequestSleep p => Sys2Proof.Machine.execPwrRequestSleep p s
  | .pwrRequestDeepSleep p => Sys2Proof.Machine.execPwrRequestDeepSleep p s
  | .deepSleepEntry => Sys2Proof.Machine.execDeepSleepEntry s
  | .pcieWakeRequest => Sys2Proof.Machine.execPcieWakeRequest s
  | .deepSleepWakeDone => Sys2Proof.Machine.execDeepSleepWakeDone s
  | .rstChipGo p v => Sys2Proof.Machine.execRstChipGo p v s
  | .csrWrite p off size v => Sys2Proof.Machine.execCsrWrite p off size v s
  | .captureLinkTraining port rate lanes done => Sys2Proof.Machine.execCaptureLinkTraining port rate lanes done s
  | .captureAuxTransaction port edid addr => Sys2Proof.Machine.execCaptureAuxTransaction port edid addr s
  | .pendingVectorRelease seat => Sys2Proof.Machine.execPendingVectorRelease seat s
  | .busIdleAcknowledgement b => Sys2Proof.Machine.execBusIdleAcknowledgement b s
  | .grdApplyDone n => Sys2Proof.Machine.execGrdApplyDone n s
  | .seatTblCmdDone => Sys2Proof.Machine.execSeatTblCmdDone s
  | .testCmdDone dmc => Sys2Proof.Machine.execTestCmdDone dmc s
  | .internalParityError st cell => Sys2Proof.Machine.execInternalParityError st cell s
  | .railsComeDown => Sys2Proof.Machine.execRailsComeDown s
  | .karcenFirmwareStart => Sys2Proof.Machine.execKarcenFirmwareStart s
  | .pcieLinkTrained link => Sys2Proof.Machine.execPcieLinkTrained link s

end Sys2Proof.Machine
end

