-- ==== Sys2Proof/Safety.lean ====
section
/-!
DEFINITION. Safety.lean: the terms in which statements speak of a run that nothing cuts short, and of the invariant of the state.
-/

namespace Sys2Proof.Machine

/-- The block has power and is not in the safe state: commands have their effects (R548, R549). -/
def State.live (s : State) : Prop := s.flt.safe = false ∧ s.pwr.rails = true

/-- The sources to which Table 16.3 gives SAFE: HMN 6 (TTS_EXPIRED), SEC 5 (MEASURE_FAIL), CLK 6, FLT 4, DMC 7 (TRAIN_FAIL). -/
def gravest (st src : Nat) : Bool :=
  (decide (st = 14) && decide (src = 6)) || (decide (st = 13) && decide (src = 5)) || (decide (st = 15) && decide (src = 6))
    || (decide (st = 18) && decide (src = 4)) || (decide (st = 161) && decide (src = 7))

/-- No reaction mask holds SAFE or CHIP_RESET but those to which Table 16.3 gives SAFE: the faults that commands meet in passing do not
cut them short (R543). -/
def State.calm (s : State) : Prop :=
  ∀ st src, st < 256 → src < 32 → gravest st src = false → nBit (s.react st src) 3 = false ∧ nBit (s.react st src) 5 = false

/-! ### States that differ in one register -/

/-- The state with one register set; its reserved bits stay 0 (R3). -/
def State.putReg (s : State) (off : Nat) (v : Word) : State := { s with csr := regPut off v s.csr }

/-- The state with one field of one register set: `w` bits at `lo` read `x`. -/
def State.putFld (s : State) (off lo w x : Nat) : State := s.putReg off (wSet (s.rd off) lo w x)

/-! ### Register writes that act -/

/-- A write of `size` bytes at an offset, through a path, reaches CSR offset `a` and acts there: the block lives, the endpoint does not hold
the request (R586), size and alignment are those of R616, the path reaches the register (R183, R621), and whoever writes may write it. -/
def State.lets (s : State) (p : Path) (off size : Nat) (v : Word) (a : Nat) : Prop :=
  s.live ∧ s.holds p = false ∧ accessOk off size = true ∧ s.reach p off true = some a ∧
    s.gate p (a / 8 * 8) (coverWord a size v) (coverMask a size) = .pass

/-- A read that a path makes reaches CSR offset `off`, and nothing hides it: the block lives, the endpoint does not hold the request, the path reaches the
register (R183, R224, R586). -/
def State.reads (s : State) (p : Path) (off : Nat) : Prop := s.live ∧ s.holds p = false ∧ s.reach p off false = some off

/-! ### What a detection and an entry into the safe state leave -/

/-- What a detection leaves at its station (R537, R539): the source's bit is set, the count has advanced, saturating, and a record of the first
detection that was not valid holds source, cell and bell. -/
def State.logs (s t : State) (st src cell : Nat) : Prop :=
  t.rd (Reg.fsStatus st) = s.rd (Reg.fsStatus st) ||| BitVec.ofNat 64 (2 ^ src)
    ∧ t.fld (Reg.fsCount st) 0 16 = min (s.fld (Reg.fsCount st) 0 16 + 1) 0xFFFF
    ∧ if s.bitAt (Reg.fsFirst st) 12 then t.rd (Reg.fsFirst st) = s.rd (Reg.fsFirst st)
      else t.fld (Reg.fsFirst st) 0 5 = src ∧ t.fld (Reg.fsFirst st) 6 6 = cell % 64 ∧ t.bitAt (Reg.fsFirst st) 12 = true
        ∧ t.fld (Reg.fsFirst st) 16 48 = s.tts.bell % 2 ^ 48

/-- What an entry into the safe state leaves (R548, Table 16.6): the state is frozen, FLT_CAUSE names station, source and bell. -/
def State.goesSafe (s t : State) (st src : Nat) : Prop :=
  t.flt.safe = true ∧ t.fld Reg.fltCause 0 8 = st ∧ t.fld Reg.fltCause 8 5 = src ∧ t.bitAt Reg.fltCause 13 = false
    ∧ t.bitAt Reg.fltCause 14 = true ∧ t.fld Reg.fltCause 16 48 = s.tts.bell % 2 ^ 48

/-! ### The form of the state, which every step keeps -/

/-- A map of registers is in canonical form, and no register holds a 1 in a reserved bit or in a bit that reads 0 (R3, R7). -/
def regsWf (m : List (Nat × Word)) : Bool := mapWf regDflt m && m.all fun kv => regMask kv.1 kv.2 = kv.2

/-- Memory, its check bits, the registers and their committed values are in canonical form. -/
def State.wf (s : State) : Bool :=
  Memory.wf s.mem && mapWf (fun _ => (0 : Byte)) s.ecc && regsWf s.csr && regsWf s.com && mapWf dmaIdle s.dma && mapWf chkIdle s.chk

/-! ### Parts of the state, for what commands leave alone -/

/-- What every effect on an outstanding command keeps, short of its being received anew: number, seat, ring, packet, and that it has been
accepted. -/
def Cmd.Goes (c c' : Cmd) : Prop :=
  c'.id = c.id ∧ c'.seat = c.seat ∧ c'.ring = c.ring ∧ c'.words = c.words ∧ (c.taken = true → c'.taken = true)

/-- The parts of the state. Some are parts of others: a command may touch a unit and leave a part of it alone. -/
inductive Part
  /-- Registers but the reaction masks; of them those below 0x400000 but FLT_PIN; the reaction masks; committed values. -/
  | registers | lowRegisters | reactions | committed
  /-- Memory; check bits; the data of the last read; the free values. -/
  | memory | ecc | rdata | free
  /-- The bell generator and the timetables; of them bell count and period. -/
  | tts | time
  /-- The command front end; of it the commands that come, and those that go. -/
  | cfe | arrivals | departures
  /-- The Registrar; of it all but the freeing of shares. -/
  | adm | decisions
  /-- The SEAT block; of it all but messages owed and sent. -/
  | messages | seats
  /-- The worlds; of them all but interrupts to the secure core. -/
  | secureIrqs | worlds
  /-- The memory controllers; of them all but thresholds reported. -/
  | thresholds | memc
  /-- The units that are one part each. -/
  | dma | chk | pic | vid | med | flt | clk
  /-- Power; of it rails and straps. -/
  | pwr | supply
deriving DecidableEq, Repr

/-- That a part is the same in two states. -/
def Part.same : Part → State → State → Prop
  | .registers, s, t => ∀ off, reactReg off = false → t.rd off = s.rd off
  | .lowRegisters, s, t => ∀ off, off < 0x400000 → off ≠ Reg.fltPin → t.rd off = s.rd off
  | .reactions, s, t => ∀ off, reactReg off = true → t.rd off = s.rd off
  | .committed, s, t => t.com = s.com
  | .memory, s, t => t.mem = s.mem
  | .ecc, s, t => t.ecc = s.ecc
  | .rdata, s, t => t.rdata = s.rdata
  | .free, s, t => t.fv = s.fv
  | .tts, s, t => t.tts = s.tts
  | .time, s, t => t.tts.bell = s.tts.bell ∧ t.tts.period = s.tts.period
  | .cfe, s, t => t.cfe = s.cfe
  | .arrivals, s, t => t.cfe.nextId = s.cfe.nextId ∧ ∀ c' ∈ t.cfe.cmds, ∃ c ∈ s.cfe.cmds, c.Goes c'
  | .departures, s, t => ∀ c ∈ s.cfe.cmds, ∃ c' ∈ t.cfe.cmds, c.Goes c'
  | .adm, s, t => t.adm = s.adm
  | .decisions, s, t => t.adm.decisions = s.adm.decisions ∧ t.adm.mgtUp = s.adm.mgtUp ∧ ∀ x ∈ t.adm.shares, x ∈ s.adm.shares
  | .messages, s, t => t.seats = s.seats
  | .seats, s, t => t.seats = { s.seats with msixOwed := t.seats.msixOwed, msixSent := t.seats.msixSent }
  | .secureIrqs, s, t => t.worlds = s.worlds
  | .worlds, s, t => t.worlds = { s.worlds with secIrq := t.worlds.secIrq, secHeld := t.worlds.secHeld }
  | .thresholds, s, t => t.memc = s.memc
  | .memc, s, t => t.memc = { s.memc with threshed := t.memc.threshed }
  | .dma, s, t => t.dma = s.dma
  | .chk, s, t => t.chk = s.chk
  | .pic, s, t => t.pic = s.pic
  | .vid, s, t => t.vid = s.vid
  | .med, s, t => t.med = s.med
  | .flt, s, t => t.flt = s.flt
  | .clk, s, t => t.clk = s.clk
  | .pwr, s, t => t.pwr = s.pwr
  | .supply, s, t => t.pwr.rails = s.pwr.rails ∧ t.pwr.straps = s.pwr.straps

/-- What the detection of a fault can touch: station registers, FLT_PIN, the interrupts, and by a fault reset what a block holds. -/
def Part.ofFault : List Part := [.registers, .lowRegisters, .cfe, .adm, .decisions, .messages, .secureIrqs, .dma, .chk, .pic, .vid, .med, .flt]
/-- What a store to memory can touch besides. -/
def Part.ofStore : List Part := [.memory, .ecc, .thresholds]
/-- What a decision can touch. -/
def Part.ofDecision : List Part :=
  [.registers, .lowRegisters, .memory, .ecc, .free, .cfe, .departures, .adm, .decisions, .messages, .seats, .secureIrqs, .thresholds, .chk, .pic, .vid, .med, .flt]

/-- The parts of the state that a command can touch, from a calm state; none for the commands that can enter the safe state, reset the chip
or write a reaction mask. -/
def commandParts : Instr → Option (List Part)
  | .powerOnReset _ | .pinReset _ _ | .dramTrainingDone _ | .beylothMeasureDone _ | .fallbackTimeout | .clkPllRefWrite _ _ _
  | .clkHoscStop _ _ | .clkGateWrite _ _ _ | .bellChangeRequest _ _ | .doorbellWrite _ _ _ _ | .ringEnable _ _ _ _
  | .ringDisable _ _ _ _ | .stationParityError _ | .pinReadback | .audSecRouteWrite _ _ | .irqMaskWrite _ _ _
  | .seatTblReadShadow _ | .seatTblReadCommitted _ | .seatTblWriteShadow _ | .mgtHostReadyGo _ | .seatResetGo _ _
  | .dirtyLogSwap _ _ | .secHoGo _ | .secReserveWrite _ _ _ | .secRestartGo _ | .secRestartReady _ | .secFatalTrap
  | .readyLimitExpired | .secExpired | .ttsExpired | .hmnKick _ _ _ | .grdApply _ _ | .clearCeLog _ _ | .clearUeLog _ _
  | .clearCounts _ _ | .rawRead _ _ | .rawWrite _ _ | .checkWrite _ _ | .dmaGo _ _ _ | .dmaAbort _ _ | .rndSecqGo _ _
  | .rndSecqAbort _ | .vdcSecpGo _ _ _ | .vdcSecpAbort _ _ | .tchSecqGo _ _ | .hapSecqGo _ _ | .fsInject _ _ _ | .fsInjParity _ _
  | .fltPinRelease _ | .pwrRequestRun _ | .pwrRequestSleep _ | .pwrRequestDeepSleep _ | .deepSleepWakeDone | .rstChipGo _ _
  | .csrWrite _ _ _ _ | .railsComeDown => none
  | .linkReset _ | .flr _ => some (Part.ofStore ++ [.registers, .lowRegisters, .cfe, .departures, .adm, .messages, .seats, .secureIrqs, .dma, .chk, .pic, .vid, .med, .flt, .pwr])
  | .perstRelease _ | .pcieLinkTrained _ => some ([.pwr])
  | .secBootRomStart => some ([.secureIrqs, .worlds])
  | .clockSourceReady _ => some ([.registers, .lowRegisters, .tts, .clk, .pwr])
  | .clockMonitorTrip _ | .arbTimeout _ | .pcieCompletionTimeout _ _ _ | .vdcDecode _ | .vdcEncode _ | .tdmClockLost
  | .touchLinkBringup _ _ _ | .touchLinkRetry _ _ _ | .hapticFrame _ _ | .transferAbandoned _ _ _ | .mgtExpired
  | .headFrameStart _ | .hpdRise _ | .hpdFall _ | .linkBringupDone _ _ | .internalParityError _ _ => some (Part.ofFault)
  | .hoscTrimWindow _ => some ([.registers, .lowRegisters, .clk])
  | .gateAckTimeout _ => some (Part.ofFault ++ [.clk])
  | .bellEdge _ => some (Part.ofFault ++ Part.ofStore ++ [.committed, .free, .tts, .time, .departures, .seats, .worlds, .clk, .pwr, .supply])
  | .periodStart _ => some (Part.ofFault ++ Part.ofStore ++ [.free, .tts, .time])
  | .decisionTimeout => some (Part.ofStore ++ [.registers, .lowRegisters, .cfe, .departures, .adm, .messages, .secureIrqs, .chk, .pic, .flt])
  | .genlockPulse _ _ | .bellRefLost _ | .captureFrameStart _ _ => some (Part.ofFault ++ [.tts])
  | .ttsBellCountLoRead _ | .admBusyCountRead _ | .hmnMgtLoadRead _ | .grdViolInfoRead _ _ | .capnFramesRead _ _
  | .hdhUnderrunRead _ _ | .tchnCountRead _ _ | .hapnCountRead _ _ | .fsCountRead _ _ => some ([.registers, .lowRegisters, .rdata, .tts, .pwr])
  | .packetFetch _ => some (Part.ofStore ++ [.registers, .cfe, .arrivals, .departures, .messages, .secureIrqs, .chk, .flt])
  | .admissionDecision _ | .nop | .queryCaps | .setBudget | .setQuota | .commit | .chkAttach | .chkDetach | .rndProgramLoad
  | .rndProgramUnload | .cmpCanvasSet | .cmpLayerSet | .cmpFlip | .cmpFlipGroup | .vdcSessionOpen | .vdcSessionClose
  | .vdcKeyRequest | .audStreamOpen | .audStreamClose | .audEffect | .tchConfigApply | .tchConfigSelftest | .tchConfigRecalibrate
  | .tchConfigDisable | .queryStatus | .queryStatusByTag | .queryBudget => some (Part.ofDecision)
  | .turnEnd _ | .touchScanEnd _ _ _ | .captureFrameComplete _ _ _ => some (Part.ofFault ++ Part.ofStore ++ [.free])
  | .turnCycleLimit _ | .dmaBurstResponse _ _ | .rndDispatch _ _ | .audioBlock _ => some (Part.ofFault ++ Part.ofStore)
  | .envelopeLimitReached _ _ | .captureHpdPulseEnd _ => some ([.vid])
  | .memoryTransactionResponse _ => some (Part.ofFault ++ Part.ofStore ++ [.rdata, .memc])
  | .commandComplete _ => some (Part.ofFault ++ Part.ofStore ++ [.departures])
  | .quotaReclaim _ => some (Part.ofStore ++ [.registers, .lowRegisters, .cfe, .departures, .adm, .messages, .seats, .secureIrqs, .dma, .chk, .pic, .vid, .med, .flt])
  | .dmaCopy _ | .dmaFill _ => some ([.registers, .cfe, .adm, .dma])
  | .programCompileDone _ _ _ _ => some ([.registers, .lowRegisters, .cfe, .adm, .vid])
  | .rndPassBegin _ _ | .rndDraw _ _ | .rndPassEnd _ _ => some ([.registers, .cfe, .arrivals, .departures])
  | .codecPictureBoundary _ => some (Part.ofFault ++ Part.ofStore ++ [.free, .departures])
  | .audRoute _ => some ([.med])
  | .tdmFrameReceived _ _ _ | .audInputLost _ | .touchScanStart _ | .keyForcedRelease _ _ => some ([.registers, .lowRegisters, .med])
  | .dozeEntry _ => some ([.registers, .lowRegisters])
  | .dozeApproach _ => some ([.registers, .lowRegisters, .med, .pwr])
  | .hapEffectLoad _ | .hapEffectClear _ => some ([.registers, .cfe, .adm, .med])
  | .hapPlay _ => some ([.registers, .lowRegisters, .cfe, .adm, .med])
  | .fence _ => some ([.registers, .lowRegisters, .cfe, .adm, .chk, .pic, .vid, .med])
  | .signal _ => some ([.tts, .cfe, .adm])
  | .wait _ => some ([.cfe, .adm])
  | .vfEnableSet _ | .vfEnableClear _ => some ([.registers, .lowRegisters, .messages, .seats, .pwr])
  | .seatResetSettle _ | .dirtyLogSwapDone _ | .linkWakeDone _ => some ([.registers])
  | .seatResetComplete _ => some (Part.ofStore ++ [.registers, .lowRegisters, .messages, .seats, .secureIrqs, .chk, .vid, .med, .flt])
  | .handoverReset => some ([.registers, .lowRegisters, .committed, .cfe, .adm, .messages, .secureIrqs, .worlds, .dma, .chk, .pic, .vid, .med, .clk])
  | .dramRefresh _ _ _ | .rowHammerRefresh _ _ _ => some ([.thresholds, .memc])
  | .headLineStart _ _ _ _ => some (Part.ofFault ++ [.free, .thresholds])
  | .irqHpd _ => some []
  | .sinkLockLoss _ => some ([.registers, .pic])
  | .captureLinkLost _ | .captureLinkTraining _ _ _ _ => some ([.registers, .lowRegisters, .vid])
  | .deepSleepEntry => some ([.registers, .lowRegisters, .tts, .thresholds, .memc, .pic, .vid, .med, .clk, .pwr])
  | .pcieWakeRequest => some ([.registers, .lowRegisters, .pwr])
  | .captureAuxTransaction _ _ _ => some ([.rdata])
  | .pendingVectorRelease _ => some ([.messages, .seats])
  | .busIdleAcknowledgement _ => some ([.registers, .lowRegisters, .secureIrqs, .worlds, .clk])
  | .grdApplyDone _ => some ([.registers, .committed, .thresholds, .memc])
  | .seatTblCmdDone => some ([.registers, .lowRegisters, .messages, .seats])
  | .testCmdDone _ => some ([.registers, .lowRegisters, .thresholds, .memc])
  | .karcenFirmwareStart => some ([.adm, .decisions, .pwr])

/-! ### Packets: decisions and replies -/

/-- The packets of which a command decides the next one, where it is one of them, and the host's answer to what the decision reads. -/
def decisionOf : Instr → Option ((Cmd → Bool) × HostAns)
  | .admissionDecision h => some (fun _ => true, h)
  | .nop => some (fun c => c.op = 0x0100, .ok)
  | .queryCaps => some (fun c => c.op = 0x0101, .ok)
  | .setBudget => some (fun c => c.op = 0x0102, .ok)
  | .setQuota => some (fun c => c.op = 0x0103, .ok)
  | .commit => some (fun c => c.op = 0x0110, .ok)
  | .chkAttach => some (fun c => c.op = 0x0210 && !c.chkDetach, .ok)
  | .chkDetach => some (fun c => c.op = 0x0210 && c.chkDetach, .ok)
  | .rndProgramLoad => some (fun c => c.op = 0x0300 && c.f 2 0 32 != 0, .ok)
  | .rndProgramUnload => some (fun c => c.op = 0x0300 && c.f 2 0 32 = 0, .ok)
  | .cmpCanvasSet => some (fun c => c.op = 0x0400, .ok)
  | .cmpLayerSet => some (fun c => c.op = 0x0401, .ok)
  | .cmpFlip => some (fun c => c.op = 0x0402, .ok)
  | .cmpFlipGroup => some (fun c => c.op = 0x0403, .ok)
  | .vdcSessionOpen => some (fun c => c.op = 0x0500 && !c.b 1 0, .ok)
  | .vdcSessionClose => some (fun c => c.op = 0x0500 && c.b 1 0, .ok)
  | .vdcKeyRequest => some (fun c => c.op = 0x0503, .ok)
  | .audStreamOpen => some (fun c => c.op = 0x0601 && !c.b 1 0, .ok)
  | .audStreamClose => some (fun c => c.op = 0x0601 && c.b 1 0, .ok)
  | .audEffect => some (fun c => c.op = 0x0602, .ok)
  | .tchConfigApply => some (fun c => c.op = 0x0700 && tcOp c.words = 0, .ok)
  | .tchConfigSelftest => some (fun c => c.op = 0x0700 && tcOp c.words = 1, .ok)
  | .tchConfigRecalibrate => some (fun c => c.op = 0x0700 && tcOp c.words = 2, .ok)
  | .tchConfigDisable => some (fun c => c.op = 0x0700 && tcOp c.words = 3, .ok)
  | .queryStatus => some (fun c => c.op = 0x0900 && !c.b 1 19, .ok)
  | .queryStatusByTag => some (fun c => c.op = 0x0900 && c.b 1 19, .ok)
  | .queryBudget => some (fun c => c.op = 0x0901, .ok)
  | _ => none

/-- A command decides: the block lives, the management core decides, the command at the front is one that this one takes up, its window is open
(R72, R100). -/
def State.decides (s : State) (i : Instr) (c : Cmd) (h : HostAns) : Prop :=
  s.live ∧ s.calm ∧ s.wf = true ∧ s.nextDecision = some c ∧ s.adm.mgtUp = true ∧ c.age < 64 ∧ c.seat < 512 ∧ c.ring < 8 ∧ s.replyLog c.seat ≤ 14
    ∧ ∃ f, decisionOf i = some (f, h) ∧ f c = true

/-- The state in which a verdict is carried out: the decision is counted, what it read is recorded. -/
def State.judged (s : State) (c : Cmd) (h : HostAns) : State :=
  runAct (judge s c h).reads { s with adm := { s.adm with decisions := s.adm.decisions + 1 } }

/-- The shares that a booking enters, none where it leaves part of the cost (R101, R102). A command without cost takes an entry in the first bell
that it can book. -/
def State.sharesFor (s : State) (c : Cmd) (cost : Cost) (dur : Nat) (cap : Option (Nat × Nat)) : Option (List Share) :=
  if cost.all fun x => x.2.2 = 0 then some [{ cmd := c.id, seat := c.seat, bell := s.firstBell, cls := 0, unit := 0, n := 0 }]
  else
    let p := s.book c.id c.seat cap ((32 * (c.dl + 1) - dur) / 32 + 1 - s.firstBell) s.firstBell cost { shares := [], left := cost, by_ := .none, last := s.firstBell }
    if p.left.all fun x => x.2.2 = 0 then some p.shares else none

/-- Whether deadline and latest start lie where a booking can serve them, and no change of the bell is pending (R101). -/
def State.inTime (s : State) (c : Cmd) (latest : Nat) : Prop := s.bellChanging = false ∧ s.firstBell ≤ c.dl ∧ 32 * s.firstBell ≤ latest

/-- Whether a verdict accepts a command. -/
def State.accepts (s : State) (c : Cmd) : Verdict → Prop
  | .reject _ => False
  | .single _ _ => True
  | .later _ => True
  | .hold _ => True
  | .book cost dur cap _ => c.background = true ∨ (s.inTime c (32 * (c.dl + 1) - dur) ∧ ∃ xs, s.sharesFor c cost dur cap = some xs ∧ s.shareReject c xs = none)
  | .fixed shares latest _ => s.inTime c latest ∧ s.shareReject c shares = none

/-- Whether a verdict ends its command at the decision, and whether it owes no reply then. -/
def Verdict.isSingle : Verdict → Bool
  | .single _ _ => true
  | _ => false
/-- Whether the reply follows later. -/
def Verdict.isLater : Verdict → Bool
  | .later _ => true
  | _ => false

/-- The reply write pointer has advanced by one entry (R129). -/
def State.repliedOnce (s t : State) (seat ring : Nat) : Prop := t.replyWr seat ring = (s.replyWr seat ring + 1) % 2 ^ (s.replyLog seat + 1)

/-- The reply entry at the write pointer holds two words, where the reply area and the mirror lie in host memory, apart from each other, and no dirty-page
log is kept (R114, R129). -/
def State.replies (s t : State) (seat ring w0 w1 : Nat) : Prop :=
  let e := s.replyLog seat
  let base := s.baseOf (Reg.replyBase seat)
  ∀ pl pm, s.translate seat (base + 64 + ring * 16 * 2 ^ e + 16 * (s.replyWr seat ring % 2 ^ e)) 16 .write = some pl → pl.target = 0 →
    s.translate seat (base + 8 * ring) 8 .write = some pm → pm.target = 0 → s.cfld (Reg.dirtyLogBase seat) 0 1 = 0 →
    (hostKey (s.linkOf seat) pm.addr + 8 ≤ hostKey (s.linkOf seat) pl.addr ∨ hostKey (s.linkOf seat) pl.addr + 16 ≤ hostKey (s.linkOf seat) pm.addr) →
    t.bytesAt (hostKey (s.linkOf seat) pl.addr) 16 = leBytes 8 w0 ++ leBytes 8 w1
/-- No reaction mask of a station holds BLOCK_RESET: what it detects leaves its block at work (R542, R543). -/
def State.noReset (s : State) (st : Nat) : Prop := ∀ src, src < 32 → nBit (s.react st src) 2 = false

/-- What the end of a command leaves of it (R150): it has ended. -/
def State.ends (t : State) (id : Nat) : Prop := ∃ c, t.cmd? id = some c ∧ c.stage = .ended

end Sys2Proof.Machine
end

