-- ==== Sys2Proof/WellFormed.lean ====
section
/-!
DEFINITION. WellFormed.lean: the operands that a command of the block can have. A command with other operands names a unit, a register or an
outcome that the block does not have; it changes nothing (Machine/Ops.lean, `live`).
-/

namespace Sys2Proof

/-- A path names a physical function (R178) or the virtual function of a seat (R179). -/
def Path.wf : Path → Bool
  | .pf p => decide (p < 4)
  | .vf n => decide (4 ≤ n) && decide (n < 512)
  | _ => true

/-- Straps have two bits each (Table 17.13). -/
def Straps.wf (st : Straps) : Bool := decide (st.link < 4) && decide (st.sup < 4)

/-- A register access has 4 or 8 bytes, aligned, in 16 MiB of register space (R616). -/
def accessWf (off size : Nat) : Bool := (size = 4 || size = 8) && off % size = 0 && decide (off < 2 ^ 24)

/-- A seat (R178). -/
def seatWf (n : Nat) : Bool := decide (n < 512)

/-- A ring of a seat (R109). -/
def ringWf (seat ring : Nat) : Bool := seatWf seat && decide (ring < 8)

/-- A transaction names a station page and a seat; an atomic one carries 4 or 8 bytes (R177). -/
def Txn.wf (t : Txn) : Bool :=
  decide (t.station < 256) && (match t.seat with | some n => seatWf n | none => true)
    && (!t.atomic || t.data.length = 4 || t.data.length = 8)

/-- A sink answers in the codes of Table 11.12. -/
def SinkIn.wf (k : SinkIn) : Bool := decide (k.rate < 8) && decide (k.lanes < 3) && decide (k.sr < 3)

/-- A received frame has the codes of Table 13.3 and dimensions of 16 bits. -/
def CapIn.wf (f : CapIn) : Bool :=
  decide (f.enc < 4) && decide (f.bpc < 5) && decide (f.colorimetry < 4) && decide (f.eotf < 4)
    && decide (f.w < 2 ^ 16) && decide (f.h < 2 ^ 16)

/-- Whether the operands of a command are ones that the block's event can carry. -/
def Instr.wf : Instr → Bool
  | .powerOnReset st | .pinReset st _ => st.wf
  | .linkReset l | .perstRelease l | .pcieLinkTrained l => decide (l < 4)
  | .dramTrainingDone m => decide (m < 2 ^ 32)
  | .clockSourceReady i | .clockMonitorTrip i => decide (i < 3)
  | .clkPllRefWrite p pll _ => p.wf && decide (pll < 10)
  | .clkGateWrite p b _ => p.wf && decide (b < 256)
  | .gateAckTimeout b | .busIdleAcknowledgement b => decide (b < 256)
  | .doorbellWrite p seat ring _ | .ringEnable p seat ring _ | .ringDisable p seat ring _ => p.wf && ringWf seat ring
  | .turnEnd t | .turnCycleLimit t => decide (t.core < 24)
  | .envelopeLimitReached _ w => decide (w < 3)
  | .memoryTransactionResponse t => t.wf
  | .stationParityError st | .arbTimeout st | .internalParityError st _ => decide (st < 256)
  | .pcieCompletionTimeout st seat _ => decide (st < 256) && (match seat with | some n => seatWf n | none => true)
  | .quotaReclaim n | .flr n | .seatResetSettle n | .seatResetComplete n | .dirtyLogSwapDone n | .pendingVectorRelease n => seatWf n
  | .transferAbandoned st n _ => decide (st < 256) && seatWf n
  | .dmaBurstResponse ch _ => decide (ch < 64)
  | .programCompileDone _ _ _ cause => decide (cause ≤ 4)
  | .rndPassBegin seat ring | .rndDraw seat ring | .rndPassEnd seat ring => ringWf seat ring
  | .codecPictureBoundary pic => decide (pic.pipe < 10)
  | .audioBlock b => decide (b.n ≤ 512)
  | .tdmFrameReceived port _ _ => decide (port < 8)
  | .audInputLost n => decide (n < 256)
  | .touchLinkBringup port id _ | .touchLinkRetry port id _ => decide (port < 8) && decide (id < 65536)
  | .touchScanStart port | .touchScanEnd port _ _ | .keyForcedRelease port _ | .dozeEntry port | .dozeApproach port => decide (port < 8)
  | .hapticFrame ch _ => decide (ch < 8)
  | .irqMaskWrite p seat _ | .dirtyLogSwap p seat => p.wf && seatWf seat
  | .vfEnableSet pf | .vfEnableClear pf => decide (pf < 4)
  | .hmnKick p k _ => p.wf && decide (k < 3)
  | .grdApply p n | .grdViolInfoRead p n => p.wf && decide (n < 28)
  | .grdApplyDone n => decide (n < 28)
  | .dramRefresh c b _ | .rowHammerRefresh c b _ => decide (c < 32) && decide (b < 16)
  | .dmaGo p ch _ | .dmaAbort p ch => p.wf && decide (ch < 64)
  | .vdcSecpGo p pipe _ | .vdcSecpAbort p pipe => p.wf && decide (pipe < 10)
  | .tchSecqGo p n | .hapSecqGo p n | .capnFramesRead p n | .tchnCountRead p n | .hapnCountRead p n => p.wf && decide (n < 8)
  | .headFrameStart h | .headLineStart h _ _ _ => decide (h < 32)
  | .linkWakeDone n | .hpdRise n | .hpdFall n | .irqHpd n | .sinkLockLoss n => decide (n < 16)
  | .linkBringupDone n k => decide (n < 16) && k.wf
  | .captureFrameStart n f => decide (n < 8) && f.wf
  | .captureFrameComplete n _ _ | .captureLinkLost n | .captureHpdPulseEnd n | .captureLinkTraining n _ _ _
  | .captureAuxTransaction n _ _ => decide (n < 8)
  | .hdhUnderrunRead p h => p.wf && decide (h < 32)
  | .fsCountRead p st | .fsInject p st _ | .fsInjParity p st => p.wf && decide (st < 256)
  | .csrWrite p off size _ => p.wf && accessWf off size
  | .clkHoscStop p _ | .bellChangeRequest p _ | .ttsBellCountLoRead p | .admBusyCountRead p | .audSecRouteWrite p _
  | .seatTblReadShadow p | .seatTblReadCommitted p | .seatTblWriteShadow p | .mgtHostReadyGo p | .seatResetGo p _ | .secHoGo p
  | .secReserveWrite p _ _ | .secRestartGo p | .secRestartReady p | .hmnMgtLoadRead p | .clearCeLog p _ | .clearUeLog p _
  | .clearCounts p _ | .rawRead p _ | .rawWrite p _ | .checkWrite p _ | .rndSecqGo p _ | .rndSecqAbort p | .fltPinRelease p
  | .pwrRequestRun p | .pwrRequestSleep p | .pwrRequestDeepSleep p | .rstChipGo p _ => p.wf
  | .beylothMeasureDone _ | .secBootRomStart | .fallbackTimeout | .hoscTrimWindow _ | .bellEdge _ | .periodStart _ | .decisionTimeout
  | .genlockPulse _ _ | .bellRefLost _ | .packetFetch _ | .admissionDecision _ | .pinReadback | .commandComplete _ | .nop | .queryCaps
  | .setBudget | .setQuota | .commit | .dmaCopy _ | .dmaFill _ | .chkAttach | .chkDetach | .rndProgramLoad | .rndProgramUnload
  | .rndDispatch _ _ | .cmpCanvasSet | .cmpLayerSet | .cmpFlip | .cmpFlipGroup | .vdcSessionOpen | .vdcSessionClose | .vdcDecode _
  | .vdcEncode _ | .vdcKeyRequest | .audRoute _ | .audStreamOpen | .audStreamClose | .audEffect | .tdmClockLost | .tchConfigApply
  | .tchConfigSelftest | .tchConfigRecalibrate | .tchConfigDisable | .hapEffectLoad _ | .hapEffectClear _ | .hapPlay _ | .fence _
  | .signal _ | .wait _ | .queryStatus | .queryStatusByTag | .queryBudget | .handoverReset | .secFatalTrap | .readyLimitExpired
  | .mgtExpired | .secExpired | .ttsExpired | .deepSleepEntry | .pcieWakeRequest | .deepSleepWakeDone | .seatTblCmdDone
  | .testCmdDone _ | .railsComeDown | .karcenFirmwareStart => true

end Sys2Proof
end

