-- ==== Sys2Proof/Certificates/Slice0/Obligations.lean ====
section
/-!
DEFINITION. Certificates/Slice0/Obligations.lean: the statements for the provers. Each speaks of `exec` or `step` and of what holds in the next
state. Hypotheses: `live` the block has power and is not in the safe state; `calm` no reaction mask holds SAFE or CHIP_RESET but those to which
Table 16.3 gives SAFE; `wf` the form that every step keeps; `lets` and `reads` a register access reaches its register and may act.
-/

open Sys2Proof Sys2Proof.Machine

/-! ### The queue, and what every command keeps -/

/-- A step takes the command at the front of the queue and runs it on the state with the rest of the queue. -/
def Obligations.StepTakesFront : Prop :=
  ∀ (c : Instr) (cs : List Instr) (s : State), step { s with pending := c :: cs } = exec c { s with pending := cs }

/-- No command touches the commands that wait behind it, and none ends in a fault or a refusal (the queue is the model's own; that every event has an
effect is what the rules of the spec come to). On an empty queue the block idles (the model's choice: assumption 1). -/
def Obligations.CommandsAnswer : Prop :=
  (∀ (c : Instr) (s : State), ∃ t, exec c s = .next t ∧ t.pending = s.pending) ∧
  (∀ s : State, s.pending = [] → step s = .next s)

/-- What the block starts from: every register reads its reset value, no byte of memory is listed, the bell stands, no command is outstanding, every
unit is normal (R218), the chip is in RUN and not in the safe state. The state after reset is in the form that every step keeps. -/
def Obligations.ResetState : Prop :=
  ((∀ off, State.reset.rd off = regDflt off ∧ State.reset.cm off = regDflt off) ∧ (∀ k, State.reset.byte k = memDflt k)
     ∧ State.reset.pending = [] ∧ State.reset.tts.bell = 0 ∧ State.reset.tts.running = false ∧ State.reset.cfe.cmds = []
     ∧ (∀ u, u < 211 → State.reset.unitSec u = false) ∧ State.reset.live ∧ State.reset.calm ∧ State.reset.locked = false
     ∧ (∀ n, n < 512 → State.reset.seatState n = 0)) ∧
  (State.reset.wf = true)

/-- Every step keeps the form of the state: memory, its check bits, registers and committed values stay in canonical form, and reserved bits read as 0
(R3). -/
def Obligations.StepKeepsForm : Prop :=
  ∀ s t : State, s.wf = true → step s = .next t → t.wf = true

/-- In a state that lives, whose reaction masks hold SAFE and CHIP_RESET for no source but those of Table 16.3, a command leaves every part of the
state alone that `commandParts` does not list for it. Such a command leaves the state calm and out of the safe state. -/
def Obligations.CommandsSpareParts : Prop :=
  (∀ (c : Instr) (ps : List Part) (s t : State), s.live → s.calm → commandParts c = some ps → exec c s = .next t →
     ∀ p : Part, p ∉ ps → p.same s t) ∧
  (∀ (c : Instr) (ps : List Part) (s t : State), s.live → s.calm → commandParts c = some ps → exec c s = .next t → t.calm ∧ t.flt.safe = false)

/-- The register that a command reads: path, offset, bytes. -/
def readOf : Instr → Option (Path × Nat × Nat)
  | .ttsBellCountLoRead p => some (p, Reg.ttsCountLo, 4)
  | .admBusyCountRead p => some (p, Reg.admBusyCount, 4)
  | .hmnMgtLoadRead p => some (p, Reg.hmnMgtLoad, 4)
  | .grdViolInfoRead p n => some (p, Reg.grdViolInfo n, 4)
  | .capnFramesRead p n => some (p, Reg.capFrames n, 8)
  | .hdhUnderrunRead p h => some (p, Reg.hdUnderrun h, 8)
  | .tchnCountRead p n => some (p, Reg.tchCount n, 8)
  | .hapnCountRead p n => some (p, Reg.hapCount n, 8)
  | .fsCountRead p st => some (p, Reg.fsCount st, 4)
  | _ => none

/-- In the safe state (R549) a read through JTAG or I3C returns the value that stands, without side effect, each time; what else comes changes
nothing, but that a head in SAFE goes on sending the safe pattern; only a reset from POR_N leaves it (or the loss of power). -/
def Obligations.SafeStateFrozen : Prop :=
  (∀ (c : Instr) (s t : State), s.flt.safe = true → exec c s = .next t →
     (∃ st, c = .powerOnReset st) ∨ (∃ st n, c = .pinReset st n) ∨ c = .railsComeDown
       ∨ (∃ h line late lock, c = .headLineStart h line late lock ∧ t = { s with pic := t.pic })
       ∨ (∃ p off n, readOf c = some (p, off, n) ∧ (p = .i3c ∨ p = .jtag) ∧ t = { s with rdata := s.readValue p off n })
       ∨ t = s) ∧
  (∀ (c : Instr) (p : Path) (off n : Nat) (s : State), s.flt.safe = true → s.pwr.rails = true → c.wf = true → readOf c = some (p, off, n) →
     p = .i3c ∨ p = .jtag → exec c s = .next { s with rdata := s.readValue p off n }) ∧
  (∀ (st : Straps) (n : Nat) (s : State), s.flt.safe = true → s.pwr.rails = true → st.wf = true → 10000 ≤ n →
     ∃ t, exec (.pinReset st n) s = .next t ∧ t.flt.safe = false)

/-- Without power nothing happens until POWER_ON_RESET (R590, Table 17.10). -/
def Obligations.NoPowerNoEffect : Prop :=
  ∀ (c : Instr) (s t : State), s.pwr.rails = false → exec c s = .next t → (∃ st, c = .powerOnReset st) ∨ c = .railsComeDown ∨ t = s

/-! ### Resets, power, boot (chapter 17) -/

/-- POWER_ON_RESET (R587, Table 17.10): whatever the state was, every register reads its reset value, device memory reads as what nothing has written
(the model's choice of byte: assumption 2), host memory is as it was, no command is outstanding, and boot runs from step 1, or is halted where the
straps are reserved (Table 17.13). RAILS_COME_DOWN (R590, Table 17.10): power is gone and nothing inside the chip is kept. -/
def Obligations.PowerComesAndGoes : Prop :=
  (∀ (st : Straps) (s : State), st.wf = true →
     ∃ t, exec (.powerOnReset st) s = .next t ∧ (∀ off, t.rd off = regDflt off ∧ t.cm off = regDflt off)
       ∧ (∀ k, t.byte k = if k < 2 ^ 64 then memDflt k else s.byte k)
       ∧ t.cfe.cmds = [] ∧ t.adm.shares = [] ∧ t.chk = [] ∧ t.dma = [] ∧ t.tts.bell = 0 ∧ t.tts.running = false
       ∧ t.pwr.straps = st ∧ t.pwr.boot = (if st.link = 3 then 0 else 1) ∧ t.live ∧ t.calm) ∧
  (∀ s : State, ∃ t, exec .railsComeDown s = .next t ∧ t.pwr.rails = false ∧ (∀ off, t.rd off = regDflt off ∧ t.cm off = regDflt off)
     ∧ (∀ k, t.byte k = if k < 2 ^ 64 then memDflt k else s.byte k) ∧ t.cfe.cmds = [])

/-- PIN_RESET (R587, Tables 17.10, 17.11): a pulse of 10 µs or more on POR_N, in the safe state too, returns every register but FLT_CAUSE, RST_CAUSE
and CLK_HOSC_CTRL to its reset value, records kind PIN in RST_CAUSE, keeps FLT_CAUSE and memory (assumption 5). RST_CHIP_GO (R589, Tables 17.10,
17.11): a write of RST_CHIP with go and key 0x5A that acts resets the chip and records kind SOFTWARE and who asked in RST_CAUSE: 0 the supervisor
seat, 1 the management firmware, 2 I3C. With another key nothing changes. -/
def Obligations.ChipResets : Prop :=
  (∀ (st : Straps) (n : Nat) (s : State), st.wf = true → s.pwr.rails = true →
     (10000 ≤ n → ∃ t, exec (.pinReset st n) s = .next t
       ∧ (∀ off, off ≠ Reg.rstCause → off ≠ Reg.fltCause → off ≠ Reg.clkHosc → t.rd off = regDflt off) ∧ (∀ off, t.cm off = regDflt off)
       ∧ t.rd Reg.rstCause = 1 ∧ t.rd Reg.fltCause = s.rd Reg.fltCause ∧ t.fld Reg.clkHosc 8 8 = s.fld Reg.clkHosc 8 8
       ∧ t.mem = s.mem ∧ t.cfe.cmds = [] ∧ t.pwr.straps = st ∧ t.live)) ∧
  (∀ (p : Path) (v : Word) (s : State), s.lets p Reg.rstChip 4 v Reg.rstChip →
     (wBit v 0 = true → wBits v 8 8 = 0x5A → ∃ t, exec (.rstChipGo p v) s = .next t
       ∧ (∀ off, off ≠ Reg.rstCause → off ≠ Reg.fltCause → off ≠ Reg.clkHosc → t.rd off = regDflt off)
       ∧ t.fld Reg.rstCause 0 2 = 3 ∧ t.fld Reg.rstCause 2 2 = (match p with | .pf _ => 0 | .i3c => 2 | _ => 1)
       ∧ t.rd Reg.fltCause = s.rd Reg.fltCause ∧ t.mem = s.mem ∧ t.cfe.cmds = [] ∧ t.pwr.straps = s.pwr.straps ∧ t.live) ∧
     (wBits v 8 8 ≠ 0x5A → exec (.rstChipGo p v) s = .next s))

/-- A low pulse on POR_N (R588): shorter than 1 µs it is ignored; from 1 µs up to 10 µs it is ignored or resets as one of 10 µs does. Which of the two
is open: the model takes it from a free value. -/
def Obligations.PorPulses : Prop :=
  ∀ (st : Straps) (n : Nat) (s : State), st.wf = true → s.pwr.rails = true →
    (n < 1000 → exec (.pinReset st n) s = .next s) ∧
    (1000 ≤ n → n < 10000 → exec (.pinReset st n) s = .next { s with fv := s.fv + 1 }
      ∨ exec (.pinReset st n) s = exec (.pinReset st 10000) { s with fv := s.fv + 1 })

/-- Boot (R592, Table 17.14): REFCLK becoming ready ends step 2: the domains leave HOSC and the bell runs. A measurement that succeeds starts Beyloth
and ends step 3; the management firmware then starts (step 4), and commands are decided from there on; a link trains once PERST_N is high (step 6).
DRAM_TRAINING_DONE (R262, R266, R273, Table 17.14 step 5): with every channel trained, the controller takes DMC_CFG, protects the ranges that it can,
and boot goes on; a channel that failed raises TRAIN_FAIL, and with the mask of Table 16.3 that is the safe state. -/
def Obligations.BootAndTraining : Prop :=
  (∀ s : State, s.live → s.calm →
     (s.pwr.boot = 1 → ∃ t, exec (.clockSourceReady 0) s = .next t ∧ t.clk.direct = [] ∧ t.pwr = { s.pwr with boot := 2 } ∧ t.tts.running = true
       ∧ t.tts.bell = s.tts.bell) ∧
     (s.worlds.measuring = true → 2 ≤ s.pwr.boot → exec (.beylothMeasureDone true) s =
       .next { s with worlds := { s.worlds with measuring := false, beyloth := true }, pwr := { s.pwr with boot := max s.pwr.boot 3 } }) ∧
     (s.pwr.boot = 3 → s.worlds.beyloth = true → exec .karcenFirmwareStart s =
       .next { s with pwr := { s.pwr with boot := 4 }, adm := { s.adm with mgtUp := true } }) ∧
     (∀ l, l < s.linkCount → s.pwr.perst.contains l = false → exec (.perstRelease l) s =
       .next { s with pwr := { s.pwr with perst := s.pwr.perst ++ [l] } }) ∧
     (∀ l, 5 ≤ s.pwr.boot → s.pwr.perst.contains l = true → s.pwr.links.contains l = false → exec (.pcieLinkTrained l) s =
       .next { s with pwr := { s.pwr with links := s.pwr.links ++ [l], boot := max s.pwr.boot 6 } }) ∧
     (s.bitAt Reg.secState 0 = true → s.worlds.beyloth = false → exec .secBootRomStart s =
       .next { s with worlds := { s.worlds with measuring := true } })) ∧
  (∀ (m : Nat) (s : State), s.live → s.calm → s.wf = true → m < 2 ^ 32 → s.pwr.boot = 4 → s.memc.up = false → s.fld Reg.dmcCfg 0 2 ≠ 3 →
     ((∀ c, c < 32 → nBit m c = true) → ∃ t, exec (.dramTrainingDone m) s = .next t ∧ t.memc.up = true ∧ t.memc.cfg = (s.rd Reg.dmcCfg).toNat
       ∧ t.pwr.boot = 5 ∧ t.flt.safe = false) ∧
     ((∃ c, c < 32 ∧ nBit m c = false) → nBit (s.react stDmc 7) 5 = true →
       ∃ t, exec (.dramTrainingDone m) s = .next t ∧ t.flt.safe = true ∧ t.pwr.boot = 4 ∧ t.rd Reg.dmcTrainStatus = BitVec.ofNat 64 m))

/-- MGT_HOST_READY_GO (R182, R185, R186, R592 steps 7 and 8): the handshake, written through the physical function that the straps name, makes that
function's seat the supervisor seat, locks SEAT_GLOBAL_CTRL, makes the seats of the physical functions ACTIVE, gives the supervisor unlimited budgets
and quotas, and reports done. -/
def Obligations.HandshakeMakesSupervisor : Prop :=
  ∀ s : State, s.live → s.wf = true → s.pwr.straps.sup < 4 → s.lets (.pf s.pwr.straps.sup) Reg.mgtHostReady 4 1 Reg.mgtHostReady →
    s.bitAt Reg.mgtHostReady 1 = false → s.adm.mgtUp = true → s.pwr.boot = 6 →
    ∃ t, exec (.mgtHostReadyGo (.pf s.pwr.straps.sup)) s = .next t ∧ t.locked = true ∧ t.fld Reg.seatGlobalCtrl 0 2 = s.pwr.straps.sup
      ∧ (∀ p, p < 4 → t.seatState p = 1) ∧ t.isSup s.pwr.straps.sup = true ∧ t.bitAt Reg.mgtHostReady 1 = true ∧ t.pwr.boot = 8
      ∧ (∀ k, k < 9 → t.budgetOf s.pwr.straps.sup k = 0xFFFFFFFF) ∧ (∀ k, k < 6 → t.quotaOf s.pwr.straps.sup k = 0xFFFFFFFF)

/-- PWR_CTRL, RUN (R580, R583, R585): in SLEEP the block notes the request and leaves at an edge; a request that fits no rule is refused with result
2. PWR_CTRL, SLEEP and DEEP_SLEEP (R581, R584): in RUN, with no MOTION layer on a self-refreshing head, the state becomes SLEEP_PENDING and the
request's bell is kept; with one the request is refused with result 3. The model reads its clauses as assumptions 115, 116 say. -/
def Obligations.PowerRequests : Prop :=
  (∀ (p : Path) (s : State), s.lets p Reg.pwrCtrl 4 1 Reg.pwrCtrl →
     (s.pst = 2 → exec (.pwrRequestRun p) s = .next { s.putFld Reg.pwrStatus 3 3 0 with pwr := { s.pwr with runReq := true, deep := false } }) ∧
     (s.pst ≠ 2 → ¬ (p = .i3c ∧ (s.pst = 3 ∨ s.pst = 4)) → exec (.pwrRequestRun p) s = .next (s.putFld Reg.pwrStatus 3 3 2)) ∧
     (s.wf = true → p = .i3c → s.pst = 4 → exec (.pwrRequestRun p) s =
       .next (((s.putFld Reg.pwrStatus 3 3 0).putFld Reg.pwrStatus 0 3 5).putFld Reg.pwrStatus 6 3 5))) ∧
  (∀ (p : Path) (s : State), s.pst = 0 →
     (s.lets p Reg.pwrCtrl 4 2 Reg.pwrCtrl →
       exec (.pwrRequestSleep p) s = .next (if s.motionHeld then s.putFld Reg.pwrStatus 3 3 3
         else { ((s.putFld Reg.pwrStatus 3 3 0).putFld Reg.pwrStatus 0 3 1).putFld Reg.pwrStatus 9 1 0 with
                pwr := { s.pwr with sleepReq := s.tts.bell, deep := false, runReq := false } })) ∧
     (s.lets p Reg.pwrCtrl 4 3 Reg.pwrCtrl →
       exec (.pwrRequestDeepSleep p) s = .next (if s.motionHeld then s.putFld Reg.pwrStatus 3 3 3
         else { ((s.putFld Reg.pwrStatus 3 3 0).putFld Reg.pwrStatus 0 3 1).putFld Reg.pwrStatus 9 1 0 with
                pwr := { s.pwr with sleepReq := s.tts.bell, deep := true, runReq := false } })))

/-- DEEP_SLEEP_ENTRY (R271, R584, R595, Table 17.9): the bell stops, DRAM is in self-refresh, every PLL but PLL 8 is off, audio has faded out and the
state reads DEEP_SLEEP, or WAKING where a wake arrived meanwhile. Memory is kept. While it stands still, no edge comes and BELL_COUNT holds.
PCIE_WAKE_REQUEST (R585, R595): in DEEP_SLEEP the chip begins to wake, with cause 4; one that meets the entry waits for its end. DEEP_SLEEP_WAKE_DONE
(R61, R585): with no request held, the bell restarts with bell count and setting kept and the next bells blanked, the PLLs are on, DRAM leaves
self-refresh, the state reads RUN and heads resume at the first bell after the wake. The model reads its clauses as assumptions 68, 115 say. -/
def Obligations.DeepSleepAndWake : Prop :=
  (∀ s : State, s.live → s.calm → s.wf = true → s.pst = 3 →
     ∃ t, exec .deepSleepEntry s = .next t ∧ t.tts = { s.tts with running := false } ∧ t.memc.selfRefresh = true
       ∧ t.clk.off = [0, 1, 2, 3, 4, 5, 6, 7, 9] ∧ t.med.aud.fade = 0 ∧ t.med.aud.fadeUp = false ∧ t.mem = s.mem
       ∧ t.pst = (if s.pwr.wakeReq = 0 then 4 else 5) ∧ t.pwr.wakeReq = 0) ∧
  (∀ (e : EdgeIn) (s : State), s.live → s.tts.running = false → exec (.bellEdge e) s = .next s) ∧
  (∀ s : State, s.live →
     (s.pst = 4 → exec .pcieWakeRequest s = .next ((s.putFld Reg.pwrStatus 0 3 5).putFld Reg.pwrStatus 6 3 4)) ∧
     (s.pst = 3 → s.pwr.wakeReq = 0 → exec .pcieWakeRequest s = .next { s with pwr := { s.pwr with wakeReq := 4 } }) ∧
     (s.pst < 3 → exec .pcieWakeRequest s = .next s)) ∧
  (∀ s : State, s.live → s.calm → s.wf = true → s.pst = 5 → s.pwr.heldReqs = [] →
     ∃ t, exec .deepSleepWakeDone s = .next t ∧ t.tts = s.tts.wake ∧ t.tts.bell = s.tts.bell ∧ t.tts.cur = s.tts.cur ∧ t.tts.running = true
       ∧ t.memc.selfRefresh = false ∧ t.clk.off = [] ∧ t.pst = 0 ∧ t.pwr.resume = s.tts.bell + 1 ∧ t.mem = s.mem
       ∧ s.tts.bell + 2 < t.tts.blankTo)

/-! ### Detections and the safe state (chapter 16) -/

/-- Sources that command no reset of the chip are recorded at their station (R37, R537, R539, R544, R545): an arbitration timeout, a parity error in a
region's fabric or in a block's memory with its cell, the management core's hall monitor, a PCIe completion timeout, which also marks its command with
FAULT (R38). The model reads its clauses as assumption 11 says. -/
def Obligations.DetectionsRecorded : Prop :=
  ∀ s : State, s.live → s.calm → s.wf = true →
    (∀ st, stIsRegion st = true → ∃ t, exec (.arbTimeout st) s = .next t ∧ s.logs t st 1 0) ∧
    (∀ st cell, stIsRegion st = true → ∃ t, exec (.internalParityError st cell) s = .next t ∧ s.logs t st 0 0) ∧
    (∀ st cell, stIsRegion st = false → (stKind st).isSome = true →
      ∃ t, exec (.internalParityError st cell) s = .next t ∧ s.logs t st 3 cell) ∧
    (4 ≤ s.pwr.boot → ∃ t, exec .mgtExpired s = .next t ∧ s.logs t 14 4 0) ∧
    (∀ st seat cmd, st < 256 → ∃ t, exec (.pcieCompletionTimeout st seat cmd) s = .next t ∧ s.logs t 192 4 0
      ∧ ∀ c ∈ t.cfe.cmds, some c.id = cmd → c.fault = true)

/-- Where the reaction mask holds SAFE, as Table 16.3 gives it at reset, these detections enter the safe state (R543, R548): a failover still held at
its timeout, FAULT_N that does not follow its register, the bell that stands still. A parity error in a station's configuration enters the safe state
whatever the masks hold (R550), and so does the injection of one where test_en is set (R552), once: FLT_CAUSE names the station and reads parity;
while test_en is clear the bit waits. -/
def Obligations.DetectionsEnterSafe : Prop :=
  (∀ s : State, s.live → s.calm → s.wf = true →
     (nBit (s.react 15 6) 5 = true → (∃ p, p < 10 ∧ s.bitAt (Reg.clkPllStatus p) 4 = true) →
       ∃ t, exec .fallbackTimeout s = .next t ∧ s.goesSafe t 15 6) ∧
     (nBit (s.react 18 4) 5 = true → ∃ t, exec .pinReadback s = .next t ∧ s.goesSafe t 18 4) ∧
     (nBit (s.react 14 6) 5 = true → s.tts.running = true → ∃ t, exec .ttsExpired s = .next t ∧ s.goesSafe t 14 6)) ∧
  (∀ (st : Nat) (s : State), s.live → s.calm → s.wf = true → (stKind st).isSome = true → st < 256 →
     (∃ t, exec (.stationParityError st) s = .next t ∧ t.flt.safe = true ∧ t.fld Reg.fltCause 0 8 = st ∧ t.bitAt Reg.fltCause 13 = true
       ∧ t.bitAt Reg.fltCause 14 = true ∧ t.fld Reg.fltCause 16 48 = s.tts.bell % 2 ^ 48) ∧
     (∀ p, s.lets p (Reg.fsCtrl st) 4 (s.rd (Reg.fsCtrl st) ||| 4) (Reg.fsCtrl st) → s.bitAt (Reg.fsCtrl st) 0 = true →
       ∃ t, exec (.fsInjParity p st) s = .next t ∧ t.flt.safe = true ∧ t.fld Reg.fltCause 0 8 = st ∧ t.bitAt Reg.fltCause 13 = true
         ∧ st ∈ t.flt.parity ∧ t.bitAt (Reg.fsCtrl st) 2 = false) ∧
     (∀ p, s.lets p (Reg.fsCtrl st) 4 (s.rd (Reg.fsCtrl st) ||| 4) (Reg.fsCtrl st) → s.bitAt (Reg.fsCtrl st) 0 = false →
       ∃ t, exec (.fsInjParity p st) s = .next t ∧ t.flt.safe = false ∧ t.bitAt (Reg.fsCtrl st) 2 = true))

/-- A write of FS_INJECT arms the sources that have a checker and no other (R551, R648). FLT_PIN.release (R547): FAULT_N goes high unless a status bit
whose mask holds PIN stands, or hold does; then refused reads 1. HMN_WDk_KICK changes no register: it restarts the monitor's time, which is the
environment's (R545). A write of HMN_WDk_CFG sets its timeout. The model reads its clauses as assumption 120 says. -/
def Obligations.InjectionPinMonitors : Prop :=
  (∀ (p : Path) (st : Nat) (v : Word) (s : State), st < 256 → s.lets p (Reg.fsInject st) 4 v (Reg.fsInject st) → (stKind st).isSome = true →
     exec (.fsInject p st v) s = .next (s.putReg (Reg.fsInject st) (s.rd (Reg.fsInject st) ||| BitVec.ofNat 64 (v.toNat % 2 ^ 32 &&& injMaskOf st)))) ∧
  (∀ (p : Path) (s : State), s.lets p Reg.fltPin 4 2 Reg.fltPin → s.wf = true →
     (s.bitAt Reg.fltPin 2 = false → s.pinHeld = false → ∃ t, exec (.fltPinRelease p) s = .next t ∧ t.bitAt Reg.fltPin 0 = false) ∧
     (s.bitAt Reg.fltPin 2 = true ∨ s.pinHeld = true →
       ∃ t, exec (.fltPinRelease p) s = .next t ∧ t.bitAt Reg.fltPin 3 = true ∧ t.bitAt Reg.fltPin 0 = s.bitAt Reg.fltPin 0)) ∧
  (∀ (p : Path) (k : Nat) (s : State), k < 2 → s.wf = true →
     (s.lets p (Reg.hmnKick k) 4 1 (Reg.hmnKick k) → exec (.hmnKick p k none) s = .next s) ∧
     (∀ v, s.lets p (Reg.hmnCfg k) 4 v (Reg.hmnCfg k) → ∃ t, exec (.hmnKick p k (some v)) s = .next t ∧ t.fld (Reg.hmnCfg k) 0 16 = wBits v 0 16
       ∧ ∀ off, off ≠ Reg.hmnCfg k → t.rd off = s.rd off))

/-! ### Worlds (chapter 7) -/

/-- What the beginning of a trusted restart leaves (R241, R242, Table 7.9 step 1): SEC_STATE reads restarting, the number of restarts within 4,096 bells and
the cause; Beyloth stands still; every seat reads secure_unavailable. -/
def restartBegun (s t : State) (byGo : Bool) : Prop :=
  t.worlds = { s.worlds with restarts := s.tts.bell :: s.recentRestarts, beyloth := false, measuring := false }
    ∧ t.bitAt Reg.secState 0 = true ∧ t.fld Reg.secState 1 2 = s.recentRestarts.length + 1 ∧ t.bitAt Reg.secState 3 = byGo
    ∧ ∀ n, n < 512 → t.bitAt (Reg.seatState n) 4 = true

/-- A trusted restart begins by SEC_RESTART.go, by a fatal trap of Beyloth, by the ready limit or by the hall monitor of the secure core (R241, R242,
R545), while fewer than three have begun within 4,096 bells and the chip is not in DEEP_SLEEP. The fourth restart within 4,096 bells enters the safe
state (R242, R548); so does a measurement that fails, where MEASURE_FAIL's mask holds SAFE (Table 16.3). SEC_RESTART.ready (Table 7.9 step 6, R244):
with Beyloth running again the restart ends, every seat may use the secure services, and the interrupts that were held reach the secure core. The
model reads its clauses as assumption 25 says. -/
def Obligations.TrustedRestarts : Prop :=
  (∀ s : State, s.live → s.calm → s.wf = true → s.pst ≠ 4 → s.recentRestarts.length < 3 →
     (∀ p, s.lets p Reg.secRestart 4 (s.rd Reg.secRestart ||| 1) Reg.secRestart → ∃ t, exec (.secRestartGo p) s = .next t ∧ restartBegun s t true) ∧
     (s.worlds.beyloth = true → ∃ t, exec .secFatalTrap s = .next t ∧ restartBegun s t false) ∧
     (s.bitAt Reg.secState 0 = true ∨ s.pwr.boot < 4 → ∃ t, exec .readyLimitExpired s = .next t ∧ restartBegun s t false) ∧
     (s.worlds.beyloth = true → s.bitAt Reg.secState 0 = false →
       ∃ t, exec .secExpired s = .next t ∧ s.logs t 14 5 0 ∧ t.worlds.beyloth = false ∧ t.bitAt Reg.secState 0 = true)) ∧
  (∀ s : State, s.live → s.calm → s.wf = true →
     (s.worlds.beyloth = true → s.pst ≠ 4 → 3 ≤ s.recentRestarts.length → ∃ t, exec .secFatalTrap s = .next t ∧ s.goesSafe t 13 5) ∧
     (s.worlds.measuring = true → 2 ≤ s.pwr.boot → nBit (s.react 13 5) 5 = true →
       ∃ t, exec (.beylothMeasureDone false) s = .next t ∧ s.goesSafe t 13 5)) ∧
  (∀ (p : Path) (s : State), s.calm → s.wf = true → s.lets p Reg.secRestart 4 (s.rd Reg.secRestart ||| 2) Reg.secRestart →
     s.bitAt Reg.secState 0 = true → s.worlds.beyloth = true →
     ∃ t, exec (.secRestartReady p) s = .next t ∧ t.bitAt Reg.secState 0 = false ∧ (∀ n, n < 512 → t.bitAt (Reg.seatState n) 4 = false)
       ∧ t.worlds = { s.worlds with secIrq := s.worlds.secHeld.reverse ++ s.worlds.secIrq, secHeld := [] })

/-- SEC_HO_CTRL.go (R226, R227): with no hand-over and no restart in progress, the units whose target differs from their world begin to move; a
request that breaks R227 sets the result it names and moves nothing. BUS_IDLE_ACKNOWLEDGEMENT (R226, R578): it gates a block whose gate request waits;
for a block of moving units it is noted. HANDOVER_RESET (R226, R230, R232): once every moving unit is idle, each changes its world and no other unit
does; the hand-over is over with result DONE and the secure core is told. The model reads its clauses as assumptions 17, 19 say. -/
def Obligations.HandOvers : Prop :=
  (∀ (p : Path) (s : State), s.calm → s.wf = true → s.lets p Reg.secHoCtrl 4 1 Reg.secHoCtrl → s.fld Reg.secHoStatus 0 2 = 0 →
     s.bitAt Reg.secState 0 = false → s.pst ≠ 3 →
     (s.hoCheck s.hoMoving = 0 → ∃ t, exec (.secHoGo p) s = .next t ∧ t.fld Reg.secHoStatus 0 2 = 1
       ∧ t.worlds = { s.worlds with moving := s.hoMoving, hoBell := s.tts.bell, idle := [] } ∧ ∀ u, u < 211 → t.unitSec u = s.unitSec u) ∧
     (s.hoCheck s.hoMoving ≠ 0 → exec (.secHoGo p) s = .next (s.putFld Reg.secHoStatus 2 4 (s.hoCheck s.hoMoving)))) ∧
  (∀ (b : Nat) (s : State), s.live → b < 256 →
     ((s.clk.gateReq.any fun x => x.1 = b) = true → s.fld Reg.secHoStatus 0 2 ≠ 2 →
       exec (.busIdleAcknowledgement b) s = .next { s.putFld (Reg.clkGate b) 3 1 1 with
         clk := { s.clk with gateReq := s.clk.gateReq.filter fun x => x.1 != b } }) ∧
     ((s.clk.gateReq.any fun x => x.1 = b) = false → s.fld Reg.secHoStatus 0 2 = 2 → (s.worlds.moving.any fun u => idleStation u = b) = true →
       b ∉ s.worlds.idle → exec (.busIdleAcknowledgement b) s = .next { s with worlds := { s.worlds with idle := s.worlds.idle ++ [b] } })) ∧
  (∀ s : State, s.live → s.calm → s.wf = true → s.fld Reg.secHoStatus 0 2 = 2 → (∀ u ∈ s.worlds.moving, idleStation u ∈ s.worlds.idle ∧ u < 211) →
     s.worlds.moving.Nodup →
     ∃ t, exec .handoverReset s = .next t ∧ (∀ u, u < 211 → t.unitSec u = if s.worlds.moving.contains u then !s.unitSec u else s.unitSec u)
       ∧ t.fld Reg.secHoStatus 0 2 = 0 ∧ t.fld Reg.secHoStatus 2 4 = 1
       ∧ t.worlds = { s.worlds with moving := [], idle := [], hoDone := s.worlds.hoDone + 1 })

/-- SEC_RESERVE_DRAM and SEC_RESERVE_STORE (R225): the register holds what was written, the change waits with its bell, and pending reads 1 while a
raise waits. GRDn_CTRL.apply (R236): apply_busy reads 1 and the shadows that the writer's world may write are taken as they stand; when the apply ends
they are the committed values, and no other committed value changes. The model reads its clauses as assumption 24 says. -/
def Obligations.ReservationsAndGuards : Prop :=
  (∀ (p : Path) (v : Word) (s : State), s.wf = true →
     (s.lets p Reg.secReserveDram 4 v Reg.secReserveDram → ∃ t, exec (.secReserveWrite p false v) s = .next t
       ∧ t.fld Reg.secReserveDram 0 32 = wBits v 0 32 ∧ t.worlds = { s.worlds with raiseDram := some (wBits v 0 32, s.tts.bell) }
       ∧ (s.worlds.resDram < wBits v 0 32 → t.bitAt Reg.secReserveStatus 0 = true)) ∧
     (s.lets p Reg.secReserveStore 4 v Reg.secReserveStore → ∃ t, exec (.secReserveWrite p true v) s = .next t
       ∧ t.fld Reg.secReserveStore 0 32 = wBits v 0 32 ∧ t.worlds = { s.worlds with raiseStore := some (wBits v 0 32, s.tts.bell) }
       ∧ (s.worlds.resStore < wBits v 0 32 → t.bitAt Reg.secReserveStatus 0 = true))) ∧
  (∀ (n : Nat) (s : State), n < 28 → s.wf = true →
     (∀ p, s.lets p (Reg.grdCtrl n) 4 (s.rd (Reg.grdCtrl n) ||| 0x100) (Reg.grdCtrl n) → p = .sec → s.bitAt (Reg.grdCtrl n) 9 = false →
       ∃ t, exec (.grdApply p n) s = .next t ∧ t.bitAt (Reg.grdCtrl n) 9 = true
         ∧ (n, (((List.range 64).map fun m => (regionRegs n m).map fun r => (r, s.rd r)).flatten)) ∈ t.memc.applying ∧ t.com = s.com) ∧
     (∀ snap, s.live → (s.memc.applying.find? fun x => x.1 = n) = some (n, snap) → (snap.map Prod.fst).Nodup →
       ∃ t, exec (.grdApplyDone n) s = .next t ∧ t.bitAt (Reg.grdCtrl n) 9 = false
         ∧ (∀ r v, (r, v) ∈ snap → t.cm r = regMask r v) ∧ (∀ off, off ∉ snap.map Prod.fst → t.cm off = s.cm off)))

/-! ### Clocks (chapter 17) -/

/-- CLOCK_SOURCE_READY (R565, R569): the source reads ready; outside start-up a PLL that is locked or coasts and holds no failover is left as it is.
CLOCK_MONITOR_TRIP (R565, R566, R571): the source reads failed and not ready; a PLL locked to it that may fail over locks to the fallback where that
is ready, and one that may not coasts; CLK_FAILOVER is recorded where a PLL was locked to it. CLK_PLLp_CTRL.ref (R570): with the reference ready the
PLL takes it and locks; with a reference that is not ready, the write is refused: the field keeps its value, refused reads 1 and CLK_REF_REFUSED is
recorded. The model reads its clauses as assumption 64 says. -/
def Obligations.ClockSources : Prop :=
  (∀ (src : Nat) (s : State), s.live → s.calm → s.wf = true → src < 3 → (src = 2 → s.bitAt Reg.clkHosc 18 = true) → 2 ≤ s.pwr.boot →
     ∃ t, exec (.clockSourceReady src) s = .next t ∧ t.srcReady src = true ∧ t.tts = s.tts ∧ t.pwr = s.pwr ∧ t.clk = s.clk
       ∧ (∀ p, p < 10 → s.bitAt (Reg.clkPllStatus p) 4 = false → (s.bitAt (Reg.clkPllStatus p) 0 = true ∨ s.bitAt (Reg.clkPllStatus p) 1 = true) →
           t.rd (Reg.clkPllStatus p) = s.rd (Reg.clkPllStatus p))
       ∧ (∀ p, p < 10 → s.pllOn p = true → s.bitAt (Reg.clkPllStatus p) 4 = true → fallbackOf (s.pllRef p) = src →
           t.fld (Reg.clkPllStatus p) 0 5 = 1 + 4 * src)) ∧
  (∀ (src : Nat) (s : State), s.live → s.calm → s.wf = true → src < 3 →
     ∃ t, exec (.clockMonitorTrip src) s = .next t ∧ t.bitAt Reg.clkSrcStatus src = false ∧ t.bitAt Reg.clkSrcStatus (4 + src) = true
       ∧ (∀ p, p < 10 → s.pllOn p = true → s.bitAt (Reg.clkPllStatus p) 0 = true → s.pllRef p = src →
           (s.bitAt (Reg.clkPllCtrl p) 2 = true → s.srcReady (fallbackOf src) = true → t.fld (Reg.clkPllStatus p) 0 5 = 1 + 4 * fallbackOf src)
           ∧ (s.bitAt (Reg.clkPllCtrl p) 2 = false → t.fld (Reg.clkPllStatus p) 0 5 = 2 + 4 * src)
           ∧ s.logs t 15 4 0)) ∧
  (∀ (p : Path) (pll : Nat) (v : Word) (s : State), s.calm → s.wf = true → pll < 10 → s.lets p (Reg.clkPllCtrl pll) 4 v (Reg.clkPllCtrl pll) →
     (s.srcReady (wBits v 0 2) = true → s.pllOn pll = true → ∃ t, exec (.clkPllRefWrite p pll v) s = .next t
       ∧ t.fld (Reg.clkPllCtrl pll) 0 2 = wBits v 0 2 ∧ t.fld (Reg.clkPllStatus pll) 0 5 = 1 + 4 * wBits v 0 2) ∧
     (s.srcReady (wBits v 0 2) = false → ∃ t, exec (.clkPllRefWrite p pll v) s = .next t
       ∧ t.fld (Reg.clkPllCtrl pll) 0 2 = s.fld (Reg.clkPllCtrl pll) 0 2 ∧ t.fld (Reg.clkPllStatus pll) 0 5 = s.fld (Reg.clkPllStatus pll) 0 5
       ∧ t.bitAt (Reg.clkPllStatus pll) 5 = true ∧ s.logs t 15 5 0))

/-- CLK_HOSC_CTRL.stop (R573): where nothing runs from HOSC it stops; else the write of stop is refused and refused reads 1; a write of 0 starts it.
HOSC_TRIM_WINDOW (R575): with a reference, auto set and HOSC running, a window within 0.06% counts towards two good ones and any other starts the
count anew; the code moves by no more than one step while the oscillator is trimmed; without a reference trimming pauses. The model reads its clauses
as assumptions 65, 66 say. -/
def Obligations.HoscStopsAndTrims : Prop :=
  (∀ (p : Path) (v : Word) (s : State), s.wf = true → s.lets p Reg.clkHosc 4 v Reg.clkHosc →
     (wBit v 0 = true → s.stopRefused = false → ∃ t, exec (.clkHoscStop p v) s = .next t ∧ t.bitAt Reg.clkHosc 0 = true
       ∧ t.bitAt Reg.clkHosc 18 = false ∧ t.srcReady 2 = false) ∧
     (wBit v 0 = true → s.stopRefused = true → ∃ t, exec (.clkHoscStop p v) s = .next t ∧ t.bitAt Reg.clkHosc 0 = s.bitAt Reg.clkHosc 0
       ∧ t.bitAt Reg.clkHosc 17 = true ∧ t.bitAt Reg.clkHosc 18 = s.bitAt Reg.clkHosc 18) ∧
     (wBit v 0 = false → ∃ t, exec (.clkHoscStop p v) s = .next t ∧ t.bitAt Reg.clkHosc 0 = false ∧ t.bitAt Reg.clkHosc 18 = true)) ∧
  (∀ (n : Nat) (s : State), s.live → s.wf = true →
     (s.trimExpect = none → exec (.hoscTrimWindow n) s = .next s) ∧
     (∀ a b, s.trimExpect = some (a, b) → s.bitAt Reg.clkHosc 1 = true → s.bitAt Reg.clkHosc 18 = true →
       ∃ t, exec (.hoscTrimWindow n) s = .next t
         ∧ t.clk = { s.clk with goodWindows := if ((n : Int) * b - a).natAbs * 10000 ≤ 6 * a then s.clk.goodWindows + 1 else 0 }
         ∧ (s.bitAt Reg.clkHosc 16 = true → ((n : Int) * b - a).natAbs * 10000 ≤ 2 * a → t.fld Reg.clkHosc 8 8 = s.fld Reg.clkHosc 8 8)
         ∧ ((n : Int) * b - a = 0 → 1 ≤ s.clk.goodWindows → t.bitAt Reg.clkHosc 16 = true)
         ∧ (a < ((n : Int) * b - a).natAbs * 1000 → t.bitAt Reg.clkHosc 16 = false)))

/-- CLK_GATEb (R578, Table 17.7): the enables hold what was written; a block that is to be clocked is clocked at once, and one that is not is gated
already or has a gate request that waits for its acknowledgement. GATE_ACK_TIMEOUT (R578): a gate request that is not acknowledged is dropped: the
block stays clocked, refused reads 1, so does PWR_STATUS.gate_refused where a power transition had asked, and GATE_REFUSED is recorded. -/
def Obligations.ClockGates : Prop :=
  (∀ (p : Path) (b : Nat) (v : Word) (s : State), s.wf = true → b < 256 → s.lets p (Reg.clkGate b) 4 v (Reg.clkGate b) → (gateRow b).isSome = true →
     ∃ t, exec (.clkGateWrite p b v) s = .next t ∧ t.fld (Reg.clkGate b) 0 3 = wBits v 0 3
       ∧ (t.wantClock b = true → t.bitAt (Reg.clkGate b) 3 = false ∧ ∀ x ∈ t.clk.gateReq, x.1 ≠ b)
       ∧ (t.wantClock b = false → t.bitAt (Reg.clkGate b) 3 = true ∨ (b, false) ∈ t.clk.gateReq)) ∧
  (∀ (b : Nat) (trans : Bool) (s : State), s.live → s.calm → s.wf = true → b < 256 → (s.clk.gateReq.find? fun x => x.1 = b) = some (b, trans) →
     ∃ t, exec (.gateAckTimeout b) s = .next t ∧ t.clk = { s.clk with gateReq := s.clk.gateReq.filter fun x => x.1 != b }
       ∧ t.bitAt (Reg.clkGate b) 4 = true ∧ t.bitAt (Reg.clkGate b) 3 = s.bitAt (Reg.clkGate b) 3
       ∧ (trans = true → t.bitAt Reg.pwrStatus 9 = true) ∧ s.logs t 15 7 0)

/-! ### The bell (chapter 2) -/

/-- BELL_EDGE (R13, R62, R66, R95, Table 2.8): the count advances, period 0 begins, the edge lies one bell length after the last, the PTM times are
those of the edge, and the budgets set during the bell are in force. The length of a bell (R45, R51): without a change of the bell and with nothing to
slew or to stretch, in any lock state but HOLDOVER, it is the whole number of cycles that the rate and the remainder carried give, and the remainder
is carried on. PERIOD_START (R43, R66): the next of the 32 periods of the bell begins; the count stays. The model reads its clauses as assumption 114
says. -/
def Obligations.BellAdvances : Prop :=
  (∀ (e : EdgeIn) (s : State), s.live → s.calm → s.tts.running = true →
     ∃ t, exec (.bellEdge e) s = .next t ∧ t.tts.bell = s.tts.bell + 1 ∧ t.tts.period = 0 ∧ t.tts.edgeAt = s.tts.edgeAt + s.tts.len
       ∧ t.tts.running = true ∧ t.tts.ptm = (List.range 4).map (fun p => e.ptm.getD p 0) ∧ t.seats.budget = s.seats.budgetNext) ∧
  (∀ (e : EdgeIn) (s : State), s.live → s.calm → s.tts.running = true → s.tts.held = none → s.tts.slew = 0 → s.tts.jump = 0 → s.tts.lock ≠ .holdover →
     0 < s.tts.cur.num →
     ∃ t, exec (.bellEdge e) s = .next t ∧ t.tts.len * s.tts.cur.num + t.tts.acc = 1200000000 * s.tts.cur.den + s.tts.acc ∧ t.tts.acc < s.tts.cur.num
       ∧ t.tts.cur = s.tts.cur ∧ t.tts.lock = s.tts.lock ∧ t.tts.blankTo = s.tts.blankTo) ∧
  (∀ (e : PeriodIn) (s : State), s.live → s.calm → s.tts.running = true → s.tts.period < 31 →
     ∃ t, exec (.periodStart e) s = .next t ∧ t.tts.period = s.tts.period + 1 ∧ t.tts.bell = s.tts.bell ∧ t.tts.edgeAt = s.tts.edgeAt
       ∧ t.tts.len = s.tts.len ∧ t.tts.cur = s.tts.cur)

/-- GENLOCK_PULSE (R46, R49, R50): the first pulse is noted; a pulse at a good interval is valid, and the eighth in a row locks the generator; one
that comes too early is ignored; one after more than 1.5 intervals starts the count anew; a pulse shorter than 100 ns, or in another mode, does
nothing. BELL_REF_LOST (R50): a locked generator whose reference is overdue enters HOLDOVER and REF_LOST is recorded; before that nothing happens. -/
def Obligations.ReferencePulses : Prop :=
  (∀ (at_ high : Nat) (s : State), s.live → s.calm → s.tts.running = true →
     (high < 100 ∨ s.tts.cur.mode ≠ 1 → exec (.genlockPulse at_ high) s = .next s) ∧
     (100 ≤ high → s.tts.cur.mode = 1 →
       (s.tts.lastPulse = none → exec (.genlockPulse at_ high) s = .next { s with tts := { s.tts with lastPulse := some at_, pulses := 0 } }) ∧
       (∀ l, s.tts.lastPulse = some l → s.tts.cur.intervalOk (at_ - l) = true → s.tts.lock ≠ .locked →
         ∃ t, exec (.genlockPulse at_ high) s = .next t ∧ t.tts.lastPulse = some at_ ∧ t.tts.meas = some (at_ - l) ∧ t.tts.pulses = s.tts.pulses + 1
           ∧ t.tts.lock = (if 8 ≤ s.tts.pulses + 1 then .locked else s.tts.lock) ∧ t.tts.bell = s.tts.bell) ∧
       (∀ l, s.tts.lastPulse = some l → s.tts.cur.intervalOk (at_ - l) = false → s.tts.cur.overdue (at_ - l) = false →
         exec (.genlockPulse at_ high) s = .next s) ∧
       (∀ l, s.tts.lastPulse = some l → s.tts.cur.intervalOk (at_ - l) = false → s.tts.cur.overdue (at_ - l) = true →
         exec (.genlockPulse at_ high) s = .next { s with tts := { s.tts with lastPulse := some at_, pulses := 0 } }))) ∧
  (∀ (at_ l : Nat) (s : State), s.live → s.calm → s.wf = true → s.tts.lastPulse = some l →
     (s.tts.running = true → s.tts.lock = .locked → s.tts.cur.overdue (at_ - l) = true →
       ∃ t, exec (.bellRefLost at_) s = .next t ∧ t.tts = { s.tts with lock := .holdover, pulses := 0, acc := 0 }
         ∧ t.fld Reg.ttsStatus 5 2 = 3 ∧ s.logs t 10 4 0) ∧
     (s.tts.cur.overdue (at_ - l) = false → exec (.bellRefLost at_) s = .next s))

/-- TTS_BELL_CHANGE.request (R44, R56, R59, R627): the committed setting is held for its edge, with the bell of the request, where it has a legal
encoding and keeps the ranges and the configuration; else result 3 or 2 says why not. While a change is pending a request is ignored. The model reads
its clauses as assumptions 17, 84 say. -/
def Obligations.BellChangeHeld : Prop :=
  ∀ (p : Path) (v : Word) (s : State), s.calm → s.wf = true → s.lets p Reg.ttsChange 4 v Reg.ttsChange → wBit v 0 = true →
    (s.bitAt Reg.ttsChange 1 = false → s.bellWanted.mode ≠ 3 → s.bellWanted.den ≠ 0 → s.bellWanted.rateOk = true → s.bellFits s.bellWanted = true →
      ∃ t, exec (.bellChangeRequest p v) s = .next t ∧ t.tts = { s.tts with held := some s.bellWanted, reqBell := s.tts.bell }
        ∧ t.bitAt Reg.ttsChange 1 = true ∧ t.fld Reg.ttsChange 4 4 = 0) ∧
    (s.bitAt Reg.ttsChange 1 = false → s.bellWanted.mode = 3 ∨ s.bellWanted.den = 0 →
      exec (.bellChangeRequest p v) s = .next (s.putFld Reg.ttsChange 4 4 3)) ∧
    (s.bitAt Reg.ttsChange 1 = false → s.bellWanted.mode ≠ 3 → s.bellWanted.den ≠ 0 → s.bellWanted.rateOk = false ∨ s.bellFits s.bellWanted = false →
      exec (.bellChangeRequest p v) s = .next (s.putFld Reg.ttsChange 4 4 2)) ∧
    (s.bitAt Reg.ttsChange 1 = true → exec (.bellChangeRequest p v) s = .next s)

/-! ### Reads with a side effect -/

/-- Reading TTS_BELL_COUNT_LO returns the low half of the count and keeps count and PTM time for the halves that the same path reads later (R57, R58).
A read of a register whose fields clear on reading returns the register and leaves those fields 0, the peak of HMN_MGT_LOAD at busy; the other fields
stay (R7, R88, R234, R371, R440, R513, R534, R537, R545). The model reads its clauses as assumption 122 says. -/
def Obligations.ReadsClear : Prop :=
  (∀ (p : Path) (s : State), s.reads p Reg.ttsCountLo →
     ∃ t, exec (.ttsBellCountLoRead p) s = .next t ∧ t.rdata = BitVec.ofNat 64 (s.tts.bell % 2 ^ 32)
       ∧ (0 < s.tts.bell → t.slotValue p Reg.ttsCountHi = BitVec.ofNat 64 (s.tts.bell / 2 ^ 32 % 2 ^ 32)
           ∧ t.slotValue p Reg.ttsPtmLo = BitVec.ofNat 64 (s.ptmOf p % 2 ^ 32))
       ∧ t.tts.bell = s.tts.bell ∧ (∀ off, t.rd off = s.rd off)) ∧
  (∀ (p : Path) (s : State), s.wf = true →
     (s.reads p Reg.admBusyCount → ∃ t, exec (.admBusyCountRead p) s = .next t ∧ t.rdata = s.rd Reg.admBusyCount ∧ t.rd Reg.admBusyCount = 0) ∧
     (s.reads p Reg.hmnMgtLoad → ∃ t, exec (.hmnMgtLoadRead p) s = .next t ∧ t.rdata = s.rd Reg.hmnMgtLoad ∧ t.fld Reg.hmnMgtLoad 8 8 = s.fld Reg.hmnMgtLoad 0 8
       ∧ t.fld Reg.hmnMgtLoad 0 8 = s.fld Reg.hmnMgtLoad 0 8 ∧ t.fld Reg.hmnMgtLoad 16 16 = s.fld Reg.hmnMgtLoad 16 16) ∧
     (∀ n, n < 28 → s.reads p (Reg.grdViolInfo n) → ∃ t, exec (.grdViolInfoRead p n) s = .next t ∧ t.rdata = s.rd (Reg.grdViolInfo n)
       ∧ t.fld (Reg.grdViolInfo n) 20 12 = 0 ∧ t.fld (Reg.grdViolInfo n) 0 20 = s.fld (Reg.grdViolInfo n) 0 20) ∧
     (∀ n, n < 8 → s.reads p (Reg.capFrames n) → ∃ t, exec (.capnFramesRead p n) s = .next t ∧ t.rdata = s.rd (Reg.capFrames n)
       ∧ t.fld (Reg.capFrames n) 32 32 = 0 ∧ t.fld (Reg.capFrames n) 0 32 = s.fld (Reg.capFrames n) 0 32) ∧
     (∀ h, h < 32 → s.reads p (Reg.hdUnderrun h) → ∃ t, exec (.hdhUnderrunRead p h) s = .next t ∧ t.rdata = s.rd (Reg.hdUnderrun h)
       ∧ t.fld (Reg.hdUnderrun h) 48 16 = 0 ∧ t.fld (Reg.hdUnderrun h) 0 48 = s.fld (Reg.hdUnderrun h) 0 48) ∧
     (∀ n, n < 8 → s.reads p (Reg.tchCount n) → ∃ t, exec (.tchnCountRead p n) s = .next t ∧ t.rdata = s.rd (Reg.tchCount n) ∧ t.rd (Reg.tchCount n) = 0) ∧
     (∀ n, n < 8 → s.reads p (Reg.hapCount n) → ∃ t, exec (.hapnCountRead p n) s = .next t ∧ t.rdata = s.rd (Reg.hapCount n) ∧ t.fld (Reg.hapCount n) 0 48 = 0) ∧
     (∀ st, st < 256 → (stKind st).isSome = true → s.reads p (Reg.fsCount st) → ∃ t, exec (.fsCountRead p st) s = .next t
       ∧ t.rdata = s.rd (Reg.fsCount st) ∧ t.rd (Reg.fsCount st) = 0))

/-! ### Rings and seats (chapters 4 and 6) -/

/-- DOORBELLn (R117, R119, R120, R211): on an enabled ring of an ACTIVE seat a valid value is taken, both pointers at once; an invalid one is ignored
whole, and DOORBELL_INVALID is recorded; on a disabled ring, or in a seat that resets, nothing happens. RING_BASEn (R110, R116, R117): enable as 1 on
a disabled ring takes the base and tries the conditions of R116: all met, the ring is enabled with pointers 0; else enable_result names the first that
fails. Enable as 0 on an enabled ring stops it: no pass stays open, base and the commands received stay. -/
def Obligations.RingsServe : Prop :=
  (∀ (p : Path) (seat ring : Nat) (v : Word) (s : State), s.calm → s.wf = true → seat < 512 → ring < 8 →
     s.lets p (pageOff p seat (0x180 + 8 * ring)) 8 v (Reg.doorbell seat ring) →
     (s.ringOn seat ring = true → s.seatState seat = 1 → s.doorbellOk seat ring (wBits v 0 17) (wBits v 32 15) = true →
       exec (.doorbellWrite p seat ring v) s = .next (s.putReg (Reg.doorbell seat ring) (BitVec.ofNat 64 (wBits v 0 17 + wBits v 32 15 * 2 ^ 32)))) ∧
     (s.ringOn seat ring = true → s.seatState seat = 1 → s.doorbellOk seat ring (wBits v 0 17) (wBits v 32 15) = false →
       ∃ t, exec (.doorbellWrite p seat ring v) s = .next t ∧ s.logs t stCfe 4 0 ∧ t.rd (Reg.doorbell seat ring) = s.rd (Reg.doorbell seat ring)) ∧
     (s.ringOn seat ring = false ∨ s.seatState seat ≠ 1 → exec (.doorbellWrite p seat ring v) s = .next s)) ∧
  (∀ (p : Path) (seat ring : Nat) (v : Word) (s : State), s.calm → s.wf = true → seat < 512 → ring < 8 →
     s.lets p (pageOff p seat (0x100 + 8 * ring)) 8 v (Reg.ringBase seat ring) →
     (wBit v 0 = true → s.ringOn seat ring = false →
       let s1 := s.putFld (Reg.ringBase seat ring) 12 52 (wBits v 12 52)
       exec (.ringEnable p seat ring v) s = .next (if s1.enableResult seat ring = 0
         then (((s1.putFld (Reg.ringBase seat ring) 2 2 0).putFld (Reg.ringBase seat ring) 0 1 1).putFld (Reg.ringPtrs seat ring) 32 32 0).putReg
           (Reg.doorbell seat ring) 0
         else s1.putFld (Reg.ringBase seat ring) 2 2 (s1.enableResult seat ring))) ∧
     (wBit v 0 = true → s.ringOn seat ring = true → exec (.ringEnable p seat ring v) s = .next s) ∧
     (wBit v 0 = false → s.ringOn seat ring = true → (s.cfe.cmds.map Cmd.id).Nodup → ∃ t, exec (.ringDisable p seat ring v) s = .next t
       ∧ t.ringOn seat ring = false ∧ t.fld (Reg.ringBase seat ring) 12 52 = s.fld (Reg.ringBase seat ring) 12 52
       ∧ t.ringCmds seat ring = (s.ringCmds seat ring).filter (fun c => c.stage ≠ .opened)
       ∧ t.bitAt (Reg.ringBase seat ring) 1 = (t.ringCmds seat ring).isEmpty) ∧
     (wBit v 0 = false → s.ringOn seat ring = false →
       exec (.ringDisable p seat ring v) s = .next (s.putFld (Reg.ringBase seat ring) 12 52 (wBits v 12 52))))

/-- IRQ_MASK and the messages of a seat (R149): a bit that is pending and becomes unmasked sends its message at once; where the function may not send,
the message is owed; once it may, what is still pending and unmasked is sent. DIRTY_LOG_BASE.swap (R207): while swap_busy is 0 the supervisor's swap
exchanges the active buffer and sets swap_busy, else it is ignored; swap_busy clears when the writes to the old buffer are done. -/
def Obligations.SeatMessages : Prop :=
  (∀ (seat : Nat) (s : State), seat < 512 → s.wf = true →
     (∀ p v, s.lets p (pageOff p seat 0x18) 4 v (Reg.irqMask seat) → ∃ t, exec (.irqMaskWrite p seat v) s = .next t
       ∧ t.fld (Reg.irqMask seat) 0 12 = wBits v 0 12 ∧ (∀ off, off ≠ Reg.irqMask seat → t.rd off = s.rd off)
       ∧ t = { s with csr := t.csr, seats := t.seats }
       ∧ (let bs := (List.range 12).filter fun b => s.bitAt (Reg.irqMask seat) b && !wBit v b && s.bitAt (Reg.irqPend seat) b
          if mapGet (fun _ => false) seat s.seats.msixOn
          then t.seats.msixSent = (bs.reverse.map fun b => (seat, s.vectorOf seat b)) ++ s.seats.msixSent
          else t.seats.msixSent = s.seats.msixSent ∧ ∀ b ∈ bs, (seat, b) ∈ t.seats.msixOwed)) ∧
     (s.live → ∃ t, exec (.pendingVectorRelease seat) s = .next t ∧ t = { s with seats := t.seats }
       ∧ mapGet (fun _ => false) seat t.seats.msixOn = true ∧ t.seats.msixOwed = s.seats.msixOwed.filter (fun x => x.1 ≠ seat)
       ∧ t.seats.msixSent = (((s.seats.msixOwed.filter fun x => x.1 = seat && s.bitAt (Reg.irqPend seat) x.2 && !s.bitAt (Reg.irqMask seat) x.2).reverse.map
           fun x => (seat, s.vectorOf seat x.2)) ++ s.seats.msixSent))) ∧
  (∀ (seat : Nat) (s : State), seat < 512 → s.wf = true →
     (∀ p, s.supPath p = true →
       s.lets p (pageOff p seat 0x28) 8 ((s.rd (Reg.dirtyLogBase seat) &&& ~~~ 0x200) ||| 4) (Reg.dirtyLogBase seat) →
       (s.bitAt (Reg.dirtyLogBase seat) 3 = false → exec (.dirtyLogSwap p seat) s = .next ((s.putFld (Reg.dirtyLogBase seat) 1 1
         (1 - s.fld (Reg.dirtyLogBase seat) 1 1)).putFld (Reg.dirtyLogBase seat) 3 1 1)) ∧
       (s.bitAt (Reg.dirtyLogBase seat) 3 = true → exec (.dirtyLogSwap p seat) s = .next s)) ∧
     (s.live → exec (.dirtyLogSwapDone seat) s = .next (s.putFld (Reg.dirtyLogBase seat) 3 1 0)))

/-- What the trigger of a seat reset leaves (R208, R209, Tables 6.15, 6.16): the seat is DRAINING, its cause and bell are kept, and no command that had
not been accepted is left. -/
def resetBegun (t : State) (seat bell cause : Nat) : Prop :=
  t.seatState seat = 2 ∧ (∃ r ∈ t.seats.resets, r.seat = seat ∧ r.bell = bell ∧ r.cause = cause)
    ∧ ∀ c ∈ t.cfe.cmds, c.seat = seat → c.taken = true

/-- An ACTIVE seat begins its reset: by a write of SEAT_RESET with go, by an FLR, by a reset of its physical function's link, by a reclaim that
SET_QUOTA left owed (R201, R208, R209, R587). After an FLR the function cannot send messages. A seat reset goes on (R211, R212, R214, R216): the seat
settles when its last command has ended; a transfer without response at bell T+2, period 1, is abandoned, the fault recorded at its block, its drained
command marked FAULT; with no command left the reset is complete: rings disabled with pointers 0, interrupts reset, every holding released, the cause
in reset_cause, the seat ACTIVE or DISABLED. The model reads its clauses as assumptions 11, 23 say. -/
def Obligations.SeatResets : Prop :=
  (∀ (seat : Nat) (s : State), s.calm → s.wf = true → seat < 512 → s.seatState seat = 1 → (∀ r ∈ s.seats.resets, r.seat ≠ seat) →
     (∀ p v, s.lets p Reg.seatReset 4 v Reg.seatReset → wBit v 9 = true → wBits v 0 9 = seat →
       ∃ t, exec (.seatResetGo p v) s = .next t ∧ resetBegun t seat s.tts.bell 2) ∧
     (s.live → s.pst < 4 → mapWf (fun _ => false) s.seats.msixOn = true → ∃ t, exec (.flr seat) s = .next t ∧ resetBegun t seat s.tts.bell 1 ∧
         mapGet (fun _ => false) seat t.seats.msixOn = false) ∧
     (∀ l, s.live → seat < 4 → l < s.linkCount → s.linkOfPf seat = l → ∃ t, exec (.linkReset l) s = .next t
       ∧ resetBegun t seat s.tts.bell 1 ∧ t.pwr = { s.pwr with perst := s.pwr.perst.filter (· ≠ l), links := s.pwr.links.filter (· ≠ l) }) ∧
     (s.live → seat ∈ s.seats.reclaims → ∃ t, exec (.quotaReclaim seat) s = .next t ∧ resetBegun t seat s.tts.bell 3 ∧ seat ∉ t.seats.reclaims)) ∧
  (∀ (seat : Nat) (s : State), s.live → s.calm → s.wf = true → seat < 512 →
     (s.seatState seat = 2 → (∀ c ∈ s.cfe.cmds, c.seat = seat → c.stage = .ended) →
       exec (.seatResetSettle seat) s = .next (s.putFld (Reg.seatState seat) 0 3 3)) ∧
     (∀ st r, s.resetOf seat = some r → st < 256 → srcExists st 2 = true → 32 * (r.bell + 2) + 1 ≤ s.now →
       (∃ t, exec (.transferAbandoned st seat none) s = .next t ∧ s.logs t st 2 0) ∧
       (∀ c, s.cmd? c.id = some c → c.seat = seat → ∃ t c', exec (.transferAbandoned st seat (some c.id)) s = .next t ∧ s.logs t st 2 0
         ∧ t.cmd? c.id = some c' ∧ c'.inflight = 0 ∧ (c.stage ≠ .ended → c'.stage = .ended)
         ∧ (c.squashed = false → c.squashReq = false → c'.fault = true))) ∧
     (∀ r, s.resetOf seat = some r → s.seatState seat = 3 → (∀ c ∈ s.cfe.cmds, c.seat ≠ seat) →
       ∃ t, exec (.seatResetComplete seat) s = .next t ∧ t.seatState seat = (if r.toDisabled then 0 else 1)
         ∧ t.fld (Reg.seatState seat) 8 2 = r.cause % 4 ∧ (∀ x ∈ t.seats.resets, x.seat ≠ seat)
         ∧ (∀ n, n < 8 → t.ringOn seat n = false ∧ t.cmdRd seat n = 0 ∧ t.replyWr seat n = 0 ∧ t.cmdWr seat n = 0 ∧ t.replyRd seat n = 0)
         ∧ t.fld (Reg.irqPend seat) 0 12 = 0 ∧ t.fld (Reg.irqMask seat) 0 12 = 0xFFF
         ∧ (∀ x ∈ t.vid.sess, x.seat ≠ some seat) ∧ (∀ x ∈ t.vid.progs, x.seat ≠ seat) ∧ ∀ x ∈ t.med.aud.streams, x.seat ≠ seat))

/-- VF Enable of a physical function (R182): set, the seats of its virtual functions become ACTIVE; cleared, they become DISABLED, those in a reset
when it ends. SEAT_TBL_CMD (R188, R189, Table 6.9): while busy is 0, an operation on an entry that exists sets busy; READ_SHADOW and READ_COMMITTED
load the data registers, WRITE_SHADOW checks the data and stores them where it finds nothing wrong, CTL granted always; a write that is not OK stores
nothing. When the operation is done busy clears and the result stands. The model reads its clauses as assumptions 16, 18 say. -/
def Obligations.SeatTables : Prop :=
  (∀ (pf : Nat) (s : State), s.live → s.wf = true → pf < 4 → s.pst < 4 →
     (s.seats.vfEnable.getD pf true = false → ∃ t, exec (.vfEnableSet pf) s = .next t ∧ t.seats.vfEnable.getD pf false = true
       ∧ (∀ n ∈ s.vfSeats pf, n < 512 → t.seatState n = 1) ∧ ∀ n, n < 512 → n ∉ s.vfSeats pf → t.seatState n = s.seatState n) ∧
     (∃ t, exec (.vfEnableClear pf) s = .next t ∧ t.seats.vfEnable.getD pf false = false
       ∧ (∀ n ∈ s.vfSeats pf, n < 512 → (∀ r ∈ s.seats.resets, r.seat ≠ n) → t.seatState n = 0)
       ∧ (∀ r ∈ t.seats.resets, r.seat ∈ s.vfSeats pf → r.toDisabled = true)
       ∧ ∀ n, n < 512 → n ∉ s.vfSeats pf → t.seatState n = s.seatState n)) ∧
  (∀ s : State, s.wf = true →
     (s.bitAt Reg.seatTblCmd 2 = false → s.tblAddr.1 < 5 → s.tblAddr.2.2 < tblIndices s.tblAddr.1 →
       (∀ p, s.lets p Reg.seatTblCmd 4 1 Reg.seatTblCmd → ∃ t, exec (.seatTblReadShadow p) s = .next t ∧ t.bitAt Reg.seatTblCmd 2 = true
         ∧ (∀ i, i < 4 → t.rd (Reg.seatTblData i) = s.tblSh s.tblAddr.1 s.tblAddr.2.1 s.tblAddr.2.2 i) ∧ t.seats = { s.seats with tblOp := some 0 }) ∧
       (∀ p, s.lets p Reg.seatTblCmd 4 2 Reg.seatTblCmd → ∃ t, exec (.seatTblReadCommitted p) s = .next t ∧ t.bitAt Reg.seatTblCmd 2 = true
         ∧ (∀ i, i < 4 → t.rd (Reg.seatTblData i) = s.tblW s.tblAddr.1 s.tblAddr.2.1 s.tblAddr.2.2 i) ∧ t.seats = { s.seats with tblOp := some 0 }) ∧
       (∀ p, s.lets p Reg.seatTblCmd 4 3 Reg.seatTblCmd →
         let d := fun i => s.rd (Reg.seatTblData i)
         let r := s.tblCheck s.tblAddr.1 s.tblAddr.2.1 s.tblAddr.2.2 d
         ∃ t, exec (.seatTblWriteShadow p) s = .next t ∧ t.bitAt Reg.seatTblCmd 2 = true ∧ t.seats.tblOp = some r ∧ t.seats.tbl = s.seats.tbl
           ∧ (r ≠ 0 → t.seats = { s.seats with tblOp := some r })
           ∧ (r = 0 → mapWf tblDflt s.seats.tblShadow = true → ∀ i, i < 4 → t.tblSh s.tblAddr.1 s.tblAddr.2.1 s.tblAddr.2.2 i =
               if s.tblAddr.1 = 0 ∧ i = 0 then d 0 ||| 0x100 else d i))) ∧
     (∀ r, s.live → s.seats.tblOp = some r → exec .seatTblCmdDone s =
       .next { (s.putFld Reg.seatTblCmd 2 1 0).putFld Reg.seatTblCmd 4 3 r with seats := { s.seats with tblOp := none } }))

/-! ### Memory (chapter 8) -/

/-- A transaction of a block without a seat, to device memory, that no error meets: mapped, in no carve-out, no link error. -/
def plainTxn (s : State) (t : Txn) (len : Nat) : Prop :=
  t.station < 256 ∧ t.seat = none ∧ t.cmd = none ∧ t.atomic = false ∧ t.linkErr = 0 ∧ (∀ i, i < len → s.mapped (t.addr + i) = true)
    ∧ s.inCarve t.addr len = false

/-- The request that such a transaction makes of a guard. -/
def plainReq (s : State) (t : Txn) : Req := { station := t.station, secure := s.txnSecure t, seat := none, window := 0, kind := t.kind }

/-- A read of device memory (R39, R234, R238, R245, R246): where every guard permits it and every word checks, the data are the bytes; a refused one
returns zeros and the guard records it; one that touches no memory returns zeros and the interconnect records it. Memory is not changed. The model
reads its clauses as assumptions 2, 6 say. -/
def Obligations.MemoryReads : Prop :=
  ∀ (t : Txn) (s : State), s.live → s.calm → s.wf = true → t.kind ≠ .write → 0 < t.len →
    (plainTxn s t t.len → s.refusedBy (plainReq s t) t.addr t.len = none → (∀ w ∈ wordsOf t.addr t.len, s.wordCheck (wordsOf t.addr t.len) w = .clean) →
      ∃ u, exec (.memoryTransactionResponse t) s = .next u ∧ u.rdata = bytesWord ((s.bytesAt t.addr t.len).take 8) ∧ u.mem = s.mem ∧ u.ecc = s.ecc) ∧
    (∀ n, plainTxn s t t.len → s.refusedBy (plainReq s t) t.addr t.len = some n →
      ∃ u, exec (.memoryTransactionResponse t) s = .next u ∧ u.rdata = 0 ∧ u.mem = s.mem ∧ u.bitAt (Reg.grdViolInfo n) 19 = true
        ∧ u.fld (Reg.grdViolInfo n) 20 12 = min (s.fld (Reg.grdViolInfo n) 20 12 + 1) 0xFFF ∧ s.logs u (stGrd n) 4 0) ∧
    (t.station < 256 → t.seat = none → t.cmd = none → t.atomic = false → t.station ≠ stCmp → t.station ≠ stPrf →
      (∃ i, i < t.len ∧ s.mapped (t.addr + i) = false) →
      ∃ u, exec (.memoryTransactionResponse t) s = .next u ∧ u.rdata = 0 ∧ u.mem = s.mem ∧ s.logs u stRgnMem 2 0)

/-- A write of device memory (R39, R238, R246, R254): where every guard permits it, and every protected word of which it covers a part checks, its
bytes are stored and no other byte changes; a refused one stores nothing. Transactions of a seat (R194, R195): through a window that leads to host
memory a read gives the host's bytes and a write stores there and nowhere else (no dirty-page log in force); where no window permits the access it is
not made, and WINDOW_MISS is recorded at the block. The model reads its clauses as assumption 6 says. -/
def Obligations.MemoryWrites : Prop :=
  (∀ (t : Txn) (s : State), s.live → s.calm → s.wf = true → t.kind = .write → 0 < t.data.length → plainTxn s t t.data.length →
     (s.refusedBy (plainReq s t) t.addr t.data.length = none →
       (∀ w ∈ partWords t.addr t.data, s.protected w = true → s.wordCheck (partWords t.addr t.data) w = .clean) →
       ∃ u, exec (.memoryTransactionResponse t) s = .next u
         ∧ ∀ k, u.byte k = if t.addr ≤ k ∧ k < t.addr + t.data.length then t.data.getD (k - t.addr) 0 else s.byte k) ∧
     (∀ n, s.refusedBy (plainReq s t) t.addr t.data.length = some n →
       ∃ u, exec (.memoryTransactionResponse t) s = .next u ∧ u.mem = s.mem ∧ u.ecc = s.ecc ∧ s.logs u (stGrd n) 4 0)) ∧
  (∀ (t : Txn) (n : Nat) (s : State), s.live → s.calm → s.wf = true → t.station < 256 → t.seat = some n → n < 512 → t.cmd = none → t.atomic = false →
     t.host = .ok →
     (∀ pl, t.kind ≠ .write → s.translate n t.addr t.len (if t.kind = .fetch then .fetch else .read) = some pl → pl.target = 0 →
       ∃ u, exec (.memoryTransactionResponse t) s = .next u ∧ u.mem = s.mem
         ∧ u.rdata = bytesWord ((s.bytesAt (hostKey (s.linkOf n) pl.addr) t.len).take 8)) ∧
     (∀ pl, t.kind = .write → s.translate n t.addr t.data.length .write = some pl → pl.target = 0 → s.cfld (Reg.dirtyLogBase n) 0 1 = 0 →
       ∃ u, exec (.memoryTransactionResponse t) s = .next u ∧ u.mem = memPut (hostKey (s.linkOf n) pl.addr) t.data s.mem
         ∧ ∀ k, k < hostKey (s.linkOf n) pl.addr ∨ hostKey (s.linkOf n) pl.addr + t.data.length ≤ k → u.byte k = s.byte k) ∧
     (t.kind = .write → s.translate n t.addr t.data.length .write = none → srcExists t.station 1 = true →
       ∃ u, exec (.memoryTransactionResponse t) s = .next u ∧ u.mem = s.mem ∧ s.logs u t.station 1 0))

/-- Refresh of DRAM (R268 to R270): one that completes a pass over every row of a bank frees the bank's counts, any other changes nothing; the
neighbours of a row that has reached the threshold are refreshed and its entry is freed. STO_ECC_CTRL and DMC_ECC_CTRL (R252, R255, R257): each clear
line empties its log or its counts and leaves every other register but the control register alone. The model reads its clauses as assumptions 26, 122
say. -/
def Obligations.MemoryMaintenance : Prop :=
  (∀ (ch bank : Nat) (s : State), s.live → ch < 32 → bank < 16 → mapWf (fun _ => []) s.memc.rows = true →
     (s.memc.up = true → s.memc.selfRefresh = false → ∃ t, exec (.dramRefresh ch bank true) s = .next t ∧ t.rowTable (bankKey ch bank) = []
       ∧ (∀ k, k ≠ bankKey ch bank → t.rowTable k = s.rowTable k) ∧ t = { s with memc := { s.memc with rows := t.memc.rows } }) ∧
     exec (.dramRefresh ch bank false) s = .next s ∧
     (∀ row, (ch, bank, row) ∈ s.memc.rhPend → ∃ t, exec (.rowHammerRefresh ch bank row) s = .next t ∧ (ch, bank, row) ∉ t.memc.rhPend
       ∧ t.rowTable (bankKey ch bank) = (s.rowTable (bankKey ch bank)).filter (fun e => e.2.1 ≠ row)
       ∧ t.memc.rhLog = ((s.neighbours row).map fun r => (ch, bank, r)) ++ s.memc.rhLog ∧ t.csr = s.csr ∧ t.mem = s.mem)) ∧
  (∀ (p : Path) (dmc : Bool) (s : State), s.wf = true →
     (s.lets p (eccCtrl dmc) 4 ((s.rd (eccCtrl dmc) &&& ~~~ 8) ||| 1) (eccCtrl dmc) → ∃ t, exec (.clearCeLog p dmc) s = .next t
       ∧ (∀ i, i < 16 → t.rd (ceAddr dmc i) = 0 ∧ t.rd (ceInfo dmc i) = 0) ∧ t.bitAt (eccCtrl dmc) 3 = false
       ∧ (∀ off, off ≠ eccCtrl dmc → (∀ i, i < 16 → off ≠ ceAddr dmc i ∧ off ≠ ceInfo dmc i) → t.rd off = s.rd off) ∧ t = { s with csr := t.csr }) ∧
     (s.lets p (eccCtrl dmc) 4 ((s.rd (eccCtrl dmc) &&& ~~~ 8) ||| 2) (eccCtrl dmc) → ∃ t, exec (.clearUeLog p dmc) s = .next t
       ∧ (∀ i, i < 8 → t.rd (ueAddr dmc i) = 0 ∧ t.rd (ueInfo dmc i) = 0) ∧ t.rd (ueHead dmc) = 0
       ∧ (∀ off, off ≠ eccCtrl dmc → off ≠ ueHead dmc → (∀ i, i < 8 → off ≠ ueAddr dmc i ∧ off ≠ ueInfo dmc i) → t.rd off = s.rd off)
       ∧ t = { s with csr := t.csr }) ∧
     (s.lets p (eccCtrl dmc) 4 ((s.rd (eccCtrl dmc) &&& ~~~ 8) ||| 4) (eccCtrl dmc) → ∃ t, exec (.clearCounts p dmc) s = .next t
       ∧ (∀ u, u < (if dmc then 32 else 48) → t.rd (ceCount dmc u) = 0)
       ∧ t.memc = { s.memc with threshed := s.memc.threshed.filter fun u => if dmc then decide (u < 64) else decide (64 ≤ u) }))

/-- The test interface of Store and DRAM (R259, R260, R277): with test_en set and an operation that is permitted, RAW_READ gives the stored word and
its check bits, RAW_WRITE stores both, CHECK_WRITE the check bits alone; busy stands until the operation is done. With test_en clear the result is 1.
The model reads its clauses as assumptions 16, 27 say. -/
def Obligations.TestInterface : Prop :=
  ∀ (dmc : Bool) (s : State), s.wf = true →
    (s.bitAt (testRegs dmc).2.2.2 2 = false → s.bitAt (eccCtrl dmc) 4 = true →
      (∀ p, s.lets p (testRegs dmc).2.2.2 4 1 (testRegs dmc).2.2.2 → s.testResult dmc (isSecPath p) 1 = 0 → ∃ t, exec (.rawRead p dmc) s = .next t
        ∧ t.rd (testRegs dmc).2.1 = s.wordAt (s.testWord dmc) ∧ t.fld (testRegs dmc).2.2.1 0 8 = (s.checkAt (s.testWord dmc)).toNat
        ∧ t.bitAt (testRegs dmc).2.2.2 2 = true ∧ t.mem = s.mem ∧ t.ecc = s.ecc) ∧
      (∀ p, s.lets p (testRegs dmc).2.2.2 4 2 (testRegs dmc).2.2.2 → s.testResult dmc (isSecPath p) 2 = 0 → ∃ t, exec (.rawWrite p dmc) s = .next t
        ∧ t.wordAt (s.testWord dmc) = s.rd (testRegs dmc).2.1 ∧ (t.checkAt (s.testWord dmc)).toNat = s.fld (testRegs dmc).2.2.1 0 8
        ∧ t.bitAt (testRegs dmc).2.2.2 2 = true ∧ ∀ k, k < s.testWord dmc ∨ s.testWord dmc + 8 ≤ k → t.byte k = s.byte k) ∧
      (∀ p, s.lets p (testRegs dmc).2.2.2 4 3 (testRegs dmc).2.2.2 → s.testResult dmc (isSecPath p) 3 = 0 → ∃ t, exec (.checkWrite p dmc) s = .next t
        ∧ (t.checkAt (s.testWord dmc)).toNat = s.fld (testRegs dmc).2.2.1 0 8 ∧ t.bitAt (testRegs dmc).2.2.2 2 = true ∧ t.mem = s.mem)) ∧
    (∀ p, s.lets p (testRegs dmc).2.2.2 4 1 (testRegs dmc).2.2.2 → s.bitAt (testRegs dmc).2.2.2 2 = false → s.bitAt (eccCtrl dmc) 4 = false →
      exec (.rawRead p dmc) s = .next (s.putFld (testRegs dmc).2.2.2 4 3 1)) ∧
    (∀ r, s.live → (if dmc then s.memc.dmcOp else s.memc.stoOp) = some r → exec (.testCmdDone dmc) s =
      .next { (s.putFld (testRegs dmc).2.2.2 2 1 0).putFld (testRegs dmc).2.2.2 4 3 r with
              memc := if dmc then { s.memc with dmcOp := none } else { s.memc with stoOp := none } })

/-! ### Register writes, secure submission, DMA (R7, R183, R239, R280 to R292, R432, R472, R486, R535) -/

/-- CSR_WRITE: an RW field takes the value, a 1 clears a W1C field, an RO field keeps its value, an RWC field takes the value while its committed
value stays (R7, R9); a write that reaches no register, or is neither 4 nor 8 bytes aligned, does nothing (R183, R616); one that the normal world may
not make is ignored, logged as a security event and recorded as LOCKED_WRITE (R239). The model reads its clauses as assumption 15 says. -/
def Obligations.RegisterWrites : Prop :=
  ∀ (p : Path) (off size : Nat) (v : Word) (s : State), s.wf = true →
    (∀ h, h < 32 → s.lets p off 4 v (Reg.hdEventEn h) →
      exec (.csrWrite p off 4 v) s = .next (s.putReg (Reg.hdEventEn h) (BitVec.ofNat 64 (wBits v 0 4)))) ∧
    (∀ h, h < 32 → s.lets p off 4 v (Reg.hdEvent h) →
      exec (.csrWrite p off 4 v) s = .next (s.putReg (Reg.hdEvent h) (s.rd (Reg.hdEvent h) &&& ~~~ v))) ∧
    (∀ k, k < 9 → s.lets p off size v (Reg.admCap k) → exec (.csrWrite p off size v) s = .next s) ∧
    (s.lets p off 8 v Reg.audDpRate96 → exec (.csrWrite p off 8 v) s = .next (s.putReg Reg.audDpRate96 v)) ∧
    (s.live → s.holds p = false → accessOk off size = false ∨ s.reach p off true = none → exec (.csrWrite p off size v) s = .next s) ∧
    (∀ a, s.live → s.calm → s.holds p = false → accessOk off size = true → s.reach p off true = some a → (regFind (a / 8 * 8)).isSome = true →
      s.gate p (a / 8 * 8) (coverWord a size v) (coverMask a size) = .log → stIsRegion (stationOfOffset a) = false → srcExists (stationOfOffset a) 0 = true →
      ∃ t, exec (.csrWrite p off size v) s = .next t ∧ s.logs t (stationOfOffset a) 0 0
        ∧ t.rd (Reg.secEvt (s.fld Reg.secEvtHead 0 5)) = BitVec.ofNat 64 (a % 2 ^ 24 + (pathSource p).2 * 2 ^ 24 + (pathSource p).1 * 2 ^ 33 + 2 ^ 35
            + (s.tts.bell % 2 ^ 28) * 2 ^ 36)
        ∧ t.fld Reg.secEvtHead 0 5 = (s.fld Reg.secEvtHead 0 5 + 1) % 32
        ∧ (0x420000 ≤ a → a < 0x440000 → t.rd (a / 8 * 8) = s.rd (a / 8 * 8)))

/-- The secure submission of the render engine (R432): a sequence that cannot be read as one, on an idle submission outside a restart, is refused with
code 0x14 and runs nothing; a pass that would be accepted runs, here one of draws without set tables; an abort lets the turns at work end. The model
reads its clauses as assumption 93 says. -/
def Obligations.SecureRenders : Prop :=
  ∀ (p : Path) (s : State), s.calm → s.wf = true →
    (∀ v, wBit v 16 = true → wBit v 17 = false → s.lets p Reg.rndSecqCtrl 8 v Reg.rndSecqCtrl → s.fld Reg.rndSecqStatus 0 2 = 0 →
      s.bitAt Reg.secState 0 = false → s.vid.runs = [] →
      let s1 := s.putReg Reg.rndSecqCtrl v
      let o := s1.secqRead (s.rd Reg.rndSecqBase).toNat (8 * wBits v 0 16)
      (o.err = false → secParse (bytesWords o.bytes) = none → ∃ t, exec (.rndSecqGo p v) s = .next t ∧ t.fld Reg.rndSecqStatus 0 2 = 0
        ∧ t.fld Reg.rndSecqStatus 2 8 = 0x14 ∧ t.vid.runs = []) ∧
      (∀ ws draws, o.err = false → secParse (bytesWords o.bytes) = some (ws, draws) → hdrOp (ws.headD 0) = 0x0301 →
        let t := s1.secqRead (fw ws 1 0 64) 320
        let sts := draws.map fun d => s1.secqRead (fw d 4 0 64) 96
        let states := sts.map fun x => bytesWords x.bytes
        t.err = false → readsFailed sts = false → draws ≠ [] → draws.length ≤ fw ws 2 16 16 → draws.all drawLenOk = true → passWordsOk ws = true →
        draws.all drawWordsOk = true → passEnvelopeOk s1.rndPeriod ws = true → states.all stateOk = true → targetOk ws (bytesWords t.bytes) states = true →
        s1.secExtentsOk ws (bytesWords t.bytes) draws = true → (fw (bytesWords t.bytes) 1 0 64 = 0 ∨ isStore (fw (bytesWords t.bytes) 1 0 64) = true) →
        (∀ d ∈ draws, d.length = 5 + b2n (drawIndexed d)) →
        ∃ u, exec (.rndSecqGo p v) s = .next u ∧ u.fld Reg.rndSecqStatus 0 2 = 1 ∧ ∃ r ∈ u.vid.runs, r.cmd = none ∧ r.words = ws ∧ r.draws = draws)) ∧
    (∀ r, s.lets p Reg.rndSecqCtrl 8 (s.rd Reg.rndSecqCtrl ||| 0x20000) Reg.rndSecqCtrl → s.fld Reg.rndSecqStatus 0 2 = 1 → s.run? none = some r →
      (s.unitsRunning none ≠ [] → ∃ t, exec (.rndSecqAbort p) s = .next t ∧ t.fld Reg.rndSecqStatus 0 2 = 2) ∧
      (s.unitsRunning none = [] → ∃ t, exec (.rndSecqAbort p) s = .next t ∧ t.fld Reg.rndSecqStatus 0 2 = 0
        ∧ t.fld Reg.rndSecqStatus 2 8 = (if r.fault then 0x22 else 0x21)))

/-- The secure pipes of the codec (R472): a packet with a malformed header is refused with code 0x14; a close ends its session; a key request is held
for the session's next picture. An abort ends the run at once where no picture is at work, else at the picture's end. The model reads its clauses as
assumption 99 says. -/
def Obligations.SecurePipes : Prop :=
  ∀ (p : Path) (n : Nat) (s : State), s.calm → s.wf = true → n < 10 → s.unitSec (113 + n) = true →
    (∀ v, wBit v 0 = true → wBit v 1 = false → s.lets p (Reg.vdcCtrl n) 4 v (Reg.vdcCtrl n) → s.fld (Reg.vdcStatus n) 0 2 = 0 → s.bitAt Reg.secState 0 = false →
      let h := ownerRead s stVdc none (s.rd (Reg.vdcBase n)).toNat 8 .ok
      let hdr := bytesWord h.bytes
      let o := ownerRead s stVdc none (s.rd (Reg.vdcBase n)).toNat (8 * hdrLen hdr) .ok
      let ws := bytesWords o.bytes
      h.err = false →
      (hdrReserved hdr = true → ∃ t, exec (.vdcSecpGo p n v) s = .next t ∧ t.fld (Reg.vdcStatus n) 0 2 = 0 ∧ t.fld (Reg.vdcStatus n) 2 8 = 0x14
        ∧ t.vid.sess = s.vid.sess) ∧
      (∀ x, o.err = false → hdrLen hdr ≠ 0 → hdrReserved hdr = false → lengthOk (hdrOp hdr) (hdrLen hdr) = true → hdrOp hdr = 0x0500 → fb ws 1 0 = true →
        s.secSess n (fw ws 1 24 8) = some x → ((rangeFrom 2 6).all fun i => fw ws i 0 64 = 0) = true →
        ∃ t, exec (.vdcSecpGo p n v) s = .next t ∧ t.fld (Reg.vdcStatus n) 2 8 = 0 ∧ t.vid.sess = s.vid.sess.filter (fun y => y.id ≠ x.id)) ∧
      (∀ x, o.err = false → hdrLen hdr ≠ 0 → hdrReserved hdr = false → lengthOk (hdrOp hdr) (hdrLen hdr) = true → hdrOp hdr = 0x0503 →
        s.secSess n (fw ws 1 0 8) = some x → fw ws 1 8 56 = 0 → fb x.words 1 1 = true →
        ∃ t, exec (.vdcSecpGo p n v) s = .next t ∧ t.fld (Reg.vdcStatus n) 2 8 = 0 ∧ { x with keys := x.keys ++ [none] } ∈ t.vid.sess)) ∧
    (∀ r, s.lets p (Reg.vdcCtrl n) 4 2 (Reg.vdcCtrl n) → s.fld (Reg.vdcStatus n) 0 2 = 1 → s.codecRun? none n = some r →
      (r.active = true → ∃ t, exec (.vdcSecpAbort p n) s = .next t ∧ t.fld (Reg.vdcStatus n) 0 2 = 2) ∧
      (r.active = false → ∃ t, exec (.vdcSecpAbort p n) s = .next t ∧ t.fld (Reg.vdcStatus n) 0 2 = 0
        ∧ t.fld (Reg.vdcStatus n) 2 8 = (if r.fault then 0x22 else 0x21) ∧ t.codecRun? none n = none))

/-- The secure submission of touch ports and haptic channels (R535): a RECALIBRATE or DISABLE waits for the port's next scan and the status reads
RUNNING; a descriptor that is valid is stored in its slot at once with outcome 0; a byte count of 0 clears the slot. AUD_SEC_ROUTE from the secure
world (R486): outside a restart a valid node word waits for the next audio block; any other is ignored. The model reads its clauses as assumptions
105, 109 say. -/
def Obligations.SecurePorts : Prop :=
  (∀ (p : Path) (n : Nat) (s : State), s.calm → s.wf = true → n < 8 →
     (∀ ws, s.lets p (Reg.tchSecqCtrl n) 4 1 (Reg.tchSecqCtrl n) → s.unitSec (89 + n) = true → s.fld (Reg.tchSecqStatus n) 0 2 = 0 →
       s.bitAt Reg.secState 0 = false → (secPacket s (stTch n) (s.rd (Reg.tchSecqBase n)).toNat).2 = some ws → hdrOp (ws.headD 0) = 0x0700 →
       ws.length = 4 → tcWordsOk ws = true → tcPort ws = n → tcOp ws = 2 ∨ tcOp ws = 3 →
       ∃ t, exec (.tchSecqGo p n) s = .next t ∧ t.fld (Reg.tchSecqStatus n) 0 2 = 1 ∧ (none, ws, []) ∈ (t.tch n).pend) ∧
     (∀ ws, s.lets p (Reg.hapSecqCtrl n) 4 1 (Reg.hapSecqCtrl n) → s.unitSec (97 + n) = true → s.fld (Reg.hapSecqStatus n) 0 2 = 0 →
       s.bitAt Reg.secState 0 = false → (secPacket s (stHap n) (s.rd (Reg.hapSecqBase n)).toNat).2 = some ws → hdrOp (ws.headD 0) = 0x0710 →
       fw ws 1 3 5 = 0 → fw ws 1 14 50 = 0 → hpCh ws = n → fw ws 3 32 32 = 0 → fw ws 2 0 3 = 0 → mapWf hapNone s.med.hap = true →
       mapWf (fun _ => []) (s.hap n).effects = true →
       (fw ws 3 0 32 = 0 → ∃ t, exec (.hapSecqGo p n) s = .next t ∧ t.fld (Reg.hapSecqStatus n) 0 10 = 0
         ∧ mapGet (fun _ => []) (hpSlot ws) (t.hap n).effects = []) ∧
       (fw ws 3 0 32 = 32 → (ownerRead s (stHap n) none (fw ws 2 0 64) 32 .ok).err = false →
         descOk (bytesWords (ownerRead s (stHap n) none (fw ws 2 0 64) 32 .ok).bytes) = true →
         ∃ t, exec (.hapSecqGo p n) s = .next t ∧ t.fld (Reg.hapSecqStatus n) 0 10 = 0
           ∧ mapGet (fun _ => []) (hpSlot ws) (t.hap n).effects = bytesWords (ownerRead s (stHap n) none (fw ws 2 0 64) 32 .ok).bytes))) ∧
  (∀ (v : Word) (s : State), s.lets .sec Reg.audSecRoute 8 v Reg.audSecRoute →
     (nodeOk v = true → s.bitAt Reg.secState 0 = false → exec (.audSecRouteWrite .sec v) s =
       .next { s with med := { s.med with aud := { s.med.aud with routes := s.med.aud.routes ++ [(none, [0, v])] } } }) ∧
     (nodeOk v = false ∨ s.bitAt Reg.secState 0 = true → exec (.audSecRouteWrite .sec v) s = .next s))

/-- DMAk_CTRL on a secure channel (R285, R291, R292): go on an idle channel takes the fields and begins the transfer, with bytes_done 0 and bursts
issued; ends that are not aligned give outcome FAULT; abort stops the channel, at once where no write is in flight. The model reads its clauses as
assumption 69 says. -/
def Obligations.SecureDma : Prop :=
  ∀ (p : Path) (k : Nat) (s : State), s.wf = true → k < 64 →
    (∀ v, wBit v 48 = true → wBit v 49 = false → s.lets p (Reg.dmaCtrl k) 8 v (Reg.dmaCtrl k) → s.xState k = 0 →
      (wBits v 0 40 ≠ 0 → dmaEndsOk (wBits v 0 40) (s.xSrc k) (s.xDst k) (wBit v 43 && !wBit v 45) (wBit v 44) = true →
        ∃ t, exec (.dmaGo p k v) s = .next t ∧ t.xN k = wBits v 0 40 ∧ t.fld (Reg.dmaStatus k) 0 40 = 0 ∧ (t.dmaCh k).off = 0
          ∧ 0 < (t.dmaCh k).issued ∧ t.xState k = if (t.dmaCh k).issued = wBits v 0 40 then 2 else 1) ∧
      (dmaEndsOk (wBits v 0 40) (s.xSrc k) (s.xDst k) (wBit v 43 && !wBit v 45) (wBit v 44) = false →
        ∃ t, exec (.dmaGo p k v) s = .next t ∧ t.fld (Reg.dmaStatus k) 52 2 = 2 ∧ t.xState k = 0)) ∧
    (s.lets p (Reg.dmaCtrl k) 8 (s.rd (Reg.dmaCtrl k) ||| 0x2000000000000) (Reg.dmaCtrl k) → s.xState k = 1 → (s.dmaCh k).off ≠ s.xN k →
      ((s.dmaCh k).off ≠ (s.dmaCh k).issued → ∃ t, exec (.dmaAbort p k) s = .next t ∧ t.xState k = 2 ∧ (t.dmaCh k).stop = 1) ∧
      ((s.dmaCh k).off = (s.dmaCh k).issued → ∃ t, exec (.dmaAbort p k) s = .next t ∧ t.xState k = 0 ∧ t.fld (Reg.dmaStatus k) 52 2 = 3))

/-- A started DMA_COPY or DMA_FILL issues its bursts (R286, R289): up to 64 in flight, and the issue of the last ends the command. DMA_BURST_RESPONSE
(R285, R287, R289, R290): the oldest burst of a secure fill stores the pattern, at the burst's place and nowhere else, and bytes_done advances by its
length; the last one ends the transfer with outcome DONE. A burst of a seat's copy whose read fails ends its command with FAULT. The model reads its
clauses as assumption 30 says. -/
def Obligations.DmaBursts : Prop :=
  (∀ (id k : Nat) (c : Cmd) (s : State), s.live → s.wf = true → s.cmd? id = some c → c.stage = .started → s.engineUp 1 = true → s.dmaOf id = some k →
     s.xState k = 1 → (s.dmaCh k).stop = 0 → (s.dmaCh k).off < s.xN k →
     ∀ i, (c.op = 0x0200 ∧ i = .dmaCopy id) ∨ (c.op = 0x0201 ∧ i = .dmaFill id) → ∃ t, exec i s = .next t
       ∧ (t.dmaCh k).issued = max (s.dmaCh k).issued (s.burstsFrom k 64 (s.dmaCh k).off) ∧ (t.dmaCh k).off = (s.dmaCh k).off
       ∧ ((t.dmaCh k).issued = s.xN k → t.xState k = 2 ∧ ∃ c', t.cmd? id = some c' ∧ c'.stage = .ended)
       ∧ ((t.dmaCh k).issued ≠ s.xN k → t.xState k = 1 ∧ t.cfe = s.cfe)) ∧
  (∀ (k : Nat) (h : HostAns) (s : State), s.live → s.calm → s.wf = true → k < 64 → s.dmaRuns k = true → s.xState k ≠ 0 →
     (s.dmaCh k).off + s.burstLen k (s.dmaCh k).off ≤ (s.dmaCh k).issued → (s.dmaCh k).issued ≤ s.xN k → (s.dmaCh k).off < s.xN k →
     ((s.dmaCh k).cmd = none → s.xFill k = true →
       let o := (s.dmaCh k).off
       let n := s.burstLen k o
       let a := s.xDst k + if s.xDstFixed k then 0 else o
       let q : Req := { station := stDma, secure := true, seat := none, window := 0, kind := .write }
       let bs := s.xData k o n []
       (∀ i, i < n → s.mapped (a + i) = true) → s.inCarve a n = false → s.refusedBy q a n = none →
       (∀ w ∈ partWords a bs, s.protected w = true → s.wordCheck (partWords a bs) w = .clean) →
       ∃ t, exec (.dmaBurstResponse k h) s = .next t ∧ (∀ x, t.byte x = if a ≤ x ∧ x < a + n then bs.getD (x - a) 0 else s.byte x)
         ∧ t.fld (Reg.dmaStatus k) 0 40 = o + n
         ∧ (o + n = s.xN k → t.xState k = 0 ∧ t.fld (Reg.dmaStatus k) 52 2 = 1)
         ∧ (o + n ≠ s.xN k → (s.dmaCh k).stop = 0 → (t.dmaCh k).off = o + n)) ∧
     (∀ id c, (s.dmaCh k).cmd = some id → s.cmd? id = some c → c.stage = .started → c.engine = 1 → s.xFill k = false →
       s.translate c.seat (s.xSrc k + if s.xSrcFixed k then 0 else (s.dmaCh k).off) (s.burstLen k (s.dmaCh k).off) .read = none →
       ∃ t c', exec (.dmaBurstResponse k h) s = .next t ∧ t.cmd? id = some c' ∧ c'.fault = true ∧ c'.stage = .ended ∧ t.xState k = 0
         ∧ s.logs t stDma 1 0))

/-! ### Packets (chapters 3 to 5) -/

/-- PACKET_FETCH (R121 to R124, R127, R144, R645): from the ring whose turn it is, a packet whose words are read is taken up. A well-formed one is
received: it takes a number, the seat's next sequence number and its deadline, the ring is not idle and its read pointer has advanced. One of a pass
is held for its pass; a malformed one is rejected and is no command; a read with an error response disables the ring. -/
def Obligations.PacketsFetched : Prop :=
  ∀ (h : HostAns) (r : Nat) (s : State), s.live → s.calm → s.wf = true → s.nextRing = some r → s.ringLog (r / 8) (r % 8) ≤ 16 → s.replyLog (r / 8) ≤ 14 →
    let os := s.ringReads (r / 8) (r % 8) (s.cmdRd (r / 8) (r % 8)) (s.nextLen (r / 8) (r % 8)) h
    let ws := os.map fun o => bytesWord o.bytes
    let op := hdrOp (ws.headD 0)
    (os.any fun o => o.miss) = false →
    ((os.any fun o => o.err) = false →
      (s.fetchReject (r / 8) (r % 8) (ws.headD 0) = 0 → op ≠ 0x0301 → op ≠ 0x0302 → op ≠ 0x0304 →
        (∀ c ∈ s.cfe.cmds, c.id < s.cfe.nextId) → ∃ t, exec (.packetFetch h) s = .next t ∧ t.cfe.nextId = s.cfe.nextId + 1
          ∧ (∃ c ∈ t.cfe.cmds, c.id = s.cfe.nextId ∧ c.seat = r / 8 ∧ c.ring = r % 8 ∧ c.words = ws ∧ c.stage = .received ∧ c.age = 0
            ∧ c.dl = s.tts.bell + 1 + c.deadline ∧ (s.openPass (r / 8) (r % 8) = none → c.seq = mapGet (fun _ => 0) (r / 8) s.cfe.seq))
          ∧ t.cmdRd (r / 8) (r % 8) = (s.cmdRd (r / 8) (r % 8) + s.nextLen (r / 8) (r % 8)) % 2 ^ (s.ringLog (r / 8) (r % 8) + 1)
          ∧ t.bitAt (Reg.ringBase (r / 8) (r % 8)) 1 = false) ∧
      (s.fetchReject (r / 8) (r % 8) (ws.headD 0) = 0 → op = 0x0301 ∨ op = 0x0302 ∨ op = 0x0304 →
        ∃ t, exec (.packetFetch h) s = .next t ∧ mapGet (fun _ => []) r t.cfe.held = ws ∧ t.cfe.cmds.map Cmd.id = s.cfe.cmds.map Cmd.id
          ∧ t.cmdRd (r / 8) (r % 8) = (s.cmdRd (r / 8) (r % 8) + s.nextLen (r / 8) (r % 8)) % 2 ^ (s.ringLog (r / 8) (r % 8) + 1)) ∧
      (s.fetchReject (r / 8) (r % 8) (ws.headD 0) ≠ 0 → op ≠ 0x0302 → op ≠ 0x0304 → s.openPass (r / 8) (r % 8) = none →
        ∃ t, exec (.packetFetch h) s = .next t ∧ t.cfe.cmds.map Cmd.id = s.cfe.cmds.map Cmd.id ∧ t.cfe.nextId = s.cfe.nextId
          ∧ s.repliedOnce t (r / 8) (r % 8))) ∧
    ((os.any fun o => o.err) = true → ∃ t, exec (.packetFetch h) s = .next t ∧ t.ringOn (r / 8) (r % 8) = false ∧ s.logs t stCfe 6 0
      ∧ t.cmdRd (r / 8) (r % 8) = s.cmdRd (r / 8) (r % 8))

/-- The packets of a pass (R144): RND_PASS_BEGIN opens a pass, and one that was open is received, to be rejected; a draw joins the open pass, and one
more than it declares gives it ENVELOPE; RND_PASS_END makes it received; a draw or an end outside a pass is a command of its own, to be rejected with
PARAMETER. -/
def Obligations.PassesAssemble : Prop :=
  ∀ (seat ring : Nat) (ws : List Word) (s : State), s.live → s.wf = true → seat < 512 → ring < 8 → mapWf (fun _ => []) s.cfe.held = true →
    (s.cfe.cmds.map Cmd.id).Nodup →
    (s.heldPacket seat ring 0x0301 = some ws → ∃ t, exec (.rndPassBegin seat ring) s = .next t ∧ mapGet (fun _ => []) (8 * seat + ring) t.cfe.held = []
      ∧ (∃ c ∈ t.cfe.cmds, c.id = s.cfe.nextId ∧ c.seat = seat ∧ c.ring = ring ∧ c.stage = .opened ∧ c.words = ws ∧ c.draws = [] ∧ c.bad = 0)
      ∧ ∀ c, s.openPass seat ring = some c → ∃ c' ∈ t.cfe.cmds, c'.id = c.id ∧ c'.stage = .received ∧ c'.bad ≠ 0) ∧
    (∀ c, s.heldPacket seat ring 0x0302 = some ws → s.openPass seat ring = some c → c.bad = 0 → s.fetchReject seat ring (ws.headD 0) = 0 →
      ∃ t, exec (.rndDraw seat ring) s = .next t ∧ mapGet (fun _ => []) (8 * seat + ring) t.cfe.held = []
        ∧ ∃ c' ∈ t.cfe.cmds, c'.id = c.id ∧ c'.stage = .opened ∧ c'.draws = c.draws ++ [ws] ∧ c'.bad = if c.f 2 16 16 < c.draws.length + 1 then 4 else 0) ∧
    (∀ c, s.heldPacket seat ring 0x0304 = some ws → s.openPass seat ring = some c → s.fetchReject seat ring (ws.headD 0) = 0 →
      ∃ t, exec (.rndPassEnd seat ring) s = .next t ∧ ∃ c' ∈ t.cfe.cmds, c'.id = c.id ∧ c'.stage = .received ∧ c'.draws = c.draws ∧ c'.bad = c.bad
        ∧ c'.seq = mapGet (fun _ => 0) c.seat s.cfe.seq ∧ c'.dl = s.tts.bell + 1 + c.deadline) ∧
    (s.openPass seat ring = none → ∀ i, (s.heldPacket seat ring 0x0302 = some ws ∧ i = .rndDraw seat ring) ∨
        (s.heldPacket seat ring 0x0304 = some ws ∧ i = .rndPassEnd seat ring) →
      ∃ t, exec i s = .next t ∧ ∃ c ∈ t.cfe.cmds, c.id = s.cfe.nextId ∧ c.words = ws ∧ c.stage = .received ∧ c.bad = 5)

/-- Every decision answers (R70, R72, R100 to R102, R128, R133): it is counted; a command that is rejected gets one reply and is gone; one that is
accepted is taken and gets ACCEPTED, a single-reply one its only reply, with which it is gone, but those whose reply follows later. -/
def Obligations.DecisionsAnswer : Prop :=
  ∀ (i : Instr) (c : Cmd) (h : HostAns) (s : State), s.decides i c h →
    ∃ t, exec i s = .next t ∧ t.adm.decisions = s.adm.decisions + 1 ∧
      (¬ (s.judged c h).accepts c (judge s c h).v → (∀ c' ∈ t.cfe.cmds, c'.id ≠ c.id) ∧ s.repliedOnce t c.seat c.ring) ∧
      ((s.judged c h).accepts c (judge s c h).v →
        ((judge s c h).v.isSingle = true → (∀ c' ∈ t.cfe.cmds, c'.id ≠ c.id) ∧ s.repliedOnce t c.seat c.ring) ∧
        ((judge s c h).v.isSingle = false → (∃ c' ∈ t.cfe.cmds, c'.id = c.id ∧ c'.taken = true ∧ c'.words = c.words) ∧
          (if (judge s c h).v.isLater then t.replyWr c.seat c.ring = s.replyWr c.seat c.ring else s.repliedOnce t c.seat c.ring)))

/-- What a booking enters (R73, R101, R102): the shares that the bells from the first bookable one give, and no other share is lost. The model reads
its clauses as assumption 57 says. -/
def Obligations.BookingsEnter : Prop :=
  ∀ (i : Instr) (c : Cmd) (h : HostAns) (s : State) (cost : Cost) (dur : Nat) (cap : Option (Nat × Nat)) (act : Act) (xs : List Share),
    s.decides i c h → (judge s c h).v = .book cost dur cap act → c.background = false → (s.judged c h).inTime c (32 * (c.dl + 1) - dur) →
    (s.judged c h).sharesFor c cost dur cap = some xs → (s.judged c h).shareReject c xs = none →
    (∀ x ∈ s.vid.sess, x.opening = none ∧ x.closing = none) → (∀ x ∈ s.vid.progs, x.unload = none) →
    ∃ t, exec i s = .next t ∧ t.adm.shares = (s.judged c h).adm.shares ++ xs

/-- What single-reply packets answer (R92, R95, R129, R143, R147, R197, R622, R646): the reply entry holds DONE, the engine, the tag and the bell, and
in word 1 what the opcode gives: 0 for NOP, the bell from which a budget counts, use and excess of a quota, the budget left, the state of the seat or
of a tag; the new budgets are in force from the next edge, the new limit at once. -/
def Obligations.SinglesReply : Prop :=
  ∀ (c : Cmd) (s : State), c.mute = false →
    (∀ i d act, s.decides i c .ok → (judge s c .ok).v = .single d act →
      ∃ t, exec i s = .next t ∧ s.replies t c.seat c.ring (replyWord 0 (replyEngine c.op) c.tag s.tts.bell) d) ∧
    (c.op = 0x0100 → ∃ act, (judge s c .ok).v = .single 0 act) ∧
    (c.op = 0x0101 → queryCapsOk c = true → s.areaOk c.seat (c.n 1) (c.f 2 0 32) .write = true →
      ∃ act, (judge s c .ok).v = .single (s.fld Reg.mgtChipId 16 4 + min 32 (c.f 2 0 32 / 8 * 8) * 2 ^ 32) act) ∧
    (c.op = 0x0900 → queryStatusOk c = true → c.b 1 19 = false →
      ∃ act, (judge s c .ok).v = .single (s.fld (Reg.seatState c.seat) 0 32 + s.secUnavailable) act) ∧
    (c.op = 0x0900 → queryStatusOk c = true → c.b 1 19 = true → s.latestTagged c.seat (c.f 1 16 3) (c.f 1 0 16) = none →
      ∃ act, (judge s c .ok).v = .single (0xFF + s.secUnavailable) act) ∧
    (c.op = 0x0901 → queryBudgetOk c = true → ∃ act, (judge s c .ok).v = .single (s.budgetShown c.seat (c.f 1 0 4) % 2 ^ 32 + s.secUnavailable) act) ∧
    (∀ i, s.decides i c .ok → c.op = 0x0102 → setBudgetOk c = true → s.isSup c.seat = true → mapWf (fun _ => 0) s.seats.budgetNext = true →
      ∃ t, exec i s = .next t ∧ (∀ k, k < 9 → mapGet (fun _ => 0) (16 * c.f 1 0 9 + k) t.seats.budgetNext = c.budgetOf k) ∧ t.seats.budget = s.seats.budget) ∧
    (∀ i, s.decides i c .ok → c.op = 0x0103 → setQuotaOk c = true → s.isSup c.seat = true → mapWf (fun _ => 0) s.seats.quota = true →
      ∃ t, exec i s = .next t ∧ t.quotaOf (c.f 1 0 9) (c.f 1 16 8) = c.f 2 0 32)

/-- Accepted commands of the composer and of the check-value units, and COMMIT, wait for their time (R9, R301, R302, R304, R325, R559): a set with its
words, held back where it chains; a flip with its surfaces and fence, which squashes the flips of its layers that were pending; an attachment holds
its unit, a detach is noted; a COMMIT is accepted and its one reply follows the commit point. The model reads its clauses as assumptions 62, 63 say.
-/
def Obligations.PicturesWait : Prop :=
  ∀ (c : Cmd) (s : State), (∀ r, (judge s c .ok).v ≠ .reject r) →
    (s.decides .cmpCanvasSet c .ok → ∃ t, exec .cmpCanvasSet s = .next t
      ∧ ∃ x ∈ t.pic.sets, x.cmd = c.id ∧ x.canvas = true ∧ x.idx = fw c.words 1 0 5 ∧ x.words = c.words ∧ x.held = fb c.words 1 7) ∧
    (s.decides .cmpLayerSet c .ok → ∃ t, exec .cmpLayerSet s = .next t
      ∧ ∃ x ∈ t.pic.sets, x.cmd = c.id ∧ x.canvas = false ∧ x.idx = fw c.words 1 0 9 ∧ x.words = c.words ∧ x.held = fb c.words 1 15) ∧
    (∀ i, i = .cmpFlip ∨ i = .cmpFlipGroup → s.decides i c .ok → ∃ t, exec i s = .next t
      ∧ (∃ x ∈ t.pic.flips, x.cmd = c.id ∧ x.items = flipItems c ∧ x.fence = flipFence c)
      ∧ ∀ x ∈ t.pic.flips, x.cmd ≠ c.id → ∀ y ∈ x.items, y.1 ∉ (flipItems c).map Prod.fst) ∧
    (s.decides .chkAttach c .ok → ∃ t, exec .chkAttach s = .next t ∧ (t.chkU c.chkUnit).att = 2 ∧ (t.chkU c.chkUnit).src = c.chkSrc
      ∧ (t.chkU c.chkUnit).seat = c.seat ∧ (t.chkU c.chkUnit).cmd = some c.id ∧ t.fld (Reg.chkCfg c.chkUnit) 11 10 = 1 + 2 * c.seat) ∧
    (s.decides .chkDetach c .ok → ∃ t, exec .chkDetach s = .next t ∧ (t.chkU c.chkUnit).det = some c.id) ∧
    (s.decides .commit c .ok → (∀ x ∈ s.vid.sess, x.opening = none ∧ x.closing = none) → (∀ x ∈ s.vid.progs, x.unload = none) →
      ∃ t, exec .commit s = .next t ∧ (∃ c' ∈ t.cfe.cmds, c'.id = c.id ∧ c'.op = 0x0110 ∧ c'.stage = .accepted)
        ∧ t.replyWr c.seat c.ring = s.replyWr c.seat c.ring)

/-- Accepted commands that hold a resource (R402, R406, R447 to R450, R470, R490, R499, R501, R510 to R512): a program takes its ID and pages and is
not ready yet, an unload marks it; a session takes an ID, a close marks it, a key request waits in it; a stream takes an ID, a close marks it; effects
and touch configurations wait for their edge. The model reads its clauses as assumptions 20, 28, 55, 59, 63 say. -/
def Obligations.ResourcesTaken : Prop :=
  ∀ (c : Cmd) (s : State), (s.judged c .ok).accepts c (judge s c .ok).v →
    (s.decides .rndProgramLoad c .ok → ∃ t, exec .rndProgramLoad s = .next t
      ∧ ∃ x ∈ t.vid.progs, x.seat = c.seat ∧ x.id = c.f 3 0 16 ∧ x.load = some c.id ∧ x.ready = false) ∧
    (s.decides .rndProgramUnload c .ok → ∃ t, exec .rndProgramUnload s = .next t
      ∧ ∀ x ∈ t.vid.progs, x.seat = c.seat → x.id = c.f 3 0 16 → x.unload = some c.id) ∧
    (s.decides .vdcSessionOpen c .ok → s.vid.sess.length < 256 → ∃ t, exec .vdcSessionOpen s = .next t
      ∧ ∃ x ∈ t.vid.sess, x.seat = some c.seat ∧ x.words = c.words ∧ x.closing = none ∧ x.id = (s.judged c .ok).sessId) ∧
    (s.decides .vdcSessionClose c .ok → ∃ t, exec .vdcSessionClose s = .next t
      ∧ ∀ x ∈ t.vid.sess, x.id = fw c.words 1 24 8 → x.closing = some c.id) ∧
    (s.decides .vdcKeyRequest c .ok → (s.vid.sess.map Session.id).Nodup → ∃ t, exec .vdcKeyRequest s = .next t
      ∧ ∃ x ∈ t.vid.sess, x.id = c.f 1 0 8 ∧ some c.id ∈ x.keys) ∧
    (s.decides .audStreamOpen c .ok → ∃ t, exec .audStreamOpen s = .next t
      ∧ ∃ x ∈ t.med.aud.streams, x.cmd = c.id ∧ x.seat = c.seat ∧ x.words = c.words ∧ x.moved = 0 ∧ x.close = none) ∧
    (s.decides .audStreamClose c .ok → ∃ t, exec .audStreamClose s = .next t
      ∧ ∀ x ∈ t.med.aud.streams, x.id = fw c.words 1 8 8 → x.close = some c.id) ∧
    (s.decides .audEffect c .ok → ∃ t, exec .audEffect s = .next t ∧ (c.id, c.words) ∈ t.med.aud.effects) ∧
    (∀ i, i = .tchConfigApply ∨ i = .tchConfigSelftest ∨ i = .tchConfigRecalibrate ∨ i = .tchConfigDisable → s.decides i c .ok →
      ∃ t, exec i s = .next t ∧ ∃ p, (some c.id, c.words, p) ∈ (t.tch (tcPort c.words)).pend)

/-- DECISION_TIMEOUT (R72, R88): no command whose window has closed is left, and each is counted in ADM_BUSY_COUNT. FENCE, SIGNAL, WAIT and the end of
a command (R134, R150, R160 to R167): a fence ends when its condition holds, with WAIT_TIMEOUT where a command behind which it stands has; a signal
writes its counter and ends; a wait ends when its counter has the value; a command that has ended and owes no write response gets its final reply and
is gone. The model reads its clauses as assumption 12 says. -/
def Obligations.OrderingActs : Prop :=
  (∀ s : State, s.live → s.calm → s.wf = true → (s.cfe.cmds.map Cmd.id).Nodup →
     ∃ t, exec .decisionTimeout s = .next t ∧ (∀ c ∈ t.cfe.cmds, c.stage = .received → c.age < 64)
       ∧ t.fld Reg.admBusyCount 0 32 = min (s.fld Reg.admBusyCount 0 32 + s.overdue.length) 0xFFFFFFFF
       ∧ ∀ c ∈ s.cfe.cmds, c ∉ s.overdue → ∃ c' ∈ t.cfe.cmds, c'.id = c.id) ∧
  (∀ (id : Nat) (c : Cmd) (s : State), s.live → s.calm → s.wf = true → s.cmd? id = some c →
     (c.stage = .started → c.op = 0x0800 →
       (s.fenceTimed c = true → ∃ t c', exec (.fence id) s = .next t ∧ t.cmd? id = some c' ∧ c'.stage = .ended ∧ c'.timedOut = true) ∧
       (s.fenceTimed c = false → s.fenceMet c = true → ∃ t c', exec (.fence id) s = .next t ∧ t.cmd? id = some c' ∧ c'.stage = .ended
         ∧ c'.timedOut = c.timedOut) ∧
       (s.fenceTimed c = false → s.fenceMet c = false → exec (.fence id) s = .next s)) ∧
     (c.stage = .started → c.op = 0x0801 →
       (s.memBack c = false → mapWf (fun _ => 0) s.tts.sync = true → ∃ t c', exec (.signal id) s = .next t ∧ t.sync (c.f 1 0 12) = c.w 2
         ∧ (∀ n, n ≠ c.f 1 0 12 → t.sync n = s.sync n) ∧ t.cmd? id = some c' ∧ c'.stage = .ended) ∧
       (s.memBack c = true → exec (.signal id) s = .next s)) ∧
     (c.stage = .started → c.op = 0x0802 → ∃ t c', exec (.wait id) s = .next t ∧ t.cmd? id = some c'
       ∧ c'.stage = (if s.waitMet c then .ended else .started) ∧ c'.part = max c.part (s.sync (c.f 1 0 12)).toNat) ∧
     (c.stage = .ended → c.inflight = 0 → c.seat < 512 → c.ring < 8 → s.replyLog c.seat ≤ 14 → ∃ t, exec (.commandComplete id) s = .next t
       ∧ (∀ c' ∈ t.cfe.cmds, c'.id ≠ id) ∧ s.repliedOnce t c.seat c.ring
       ∧ (c.mute = false → s.replies t c.seat c.ring (replyWord c.finalStatus (replyEngine c.op) c.tag c.endBell) c.detail)) ∧
     (c.stage ≠ .ended ∨ c.inflight ≠ 0 → exec (.commandComplete id) s = .next s))

/-! ### Rendering and the codec (chapters 12 and 13) -/

/-- RND_DISPATCH (R426, R427): a started dispatch begins: its set tables are read, its workgroup counts are those of its packet or, for an indirect
one, those that memory holds, and counts beyond the declared ones pass the envelope. TURN_END (R399, R400, R413, R414, R427): a vertex turn leaves its
primitives, a tile turn is done and counts as written or skipped unless it fails, a slice is done with its workgroups. The model reads its clauses as
assumptions 87, 94 say. -/
def Obligations.TurnsYield : Prop :=
  (∀ (id : Nat) (h : HostAns) (r : RndRun) (s : State), s.live → s.calm → s.noReset 24 → s.run? (some id) = some r → r.isPass = false → r.begun = false →
     s.runLive r = true →
     ∃ t r', exec (.rndDispatch id h) s = .next t ∧ t.run? (some id) = some r' ∧ r'.begun = true ∧ r'.words = r.words
       ∧ (dispIndirect r.words = false → r'.counts = dispCounts r.words)
       ∧ (dispIndirect r.words = true →
           let bs := readBytes (s.runReads r (fw r.words 6 0 64) 76 h)
           r'.counts = (leNat ((bs.drop 64).take 4), leNat ((bs.drop 68).take 4), leNat ((bs.drop 72).take 4)))
       ∧ (fw r.words 3 0 32 < countsProd r'.counts → r'.past = true)) ∧
  (∀ (x : TurnIn) (id u : Nat) (r : RndRun) (s : State), s.live → s.calm → s.noReset 24 → x.core < 24 → s.turn? x.core = some (some id, u) →
     s.run? (some id) = some r →
     ∃ t r', exec (.turnEnd x) s = .next t ∧ t.run? (some id) = some r' ∧
       (r.isPass = false → r'.done = r.done ++ [u] ∧ r'.written = r.written + 1 ∧ r'.groups = r.groups + r.sliceSize u) ∧
       (r.isPass = true → r.tiles = none → r'.drawn = r.drawn ++ [(u, x.outWords, x.prims)] ∧ r'.done = r.done) ∧
       (r.isPass = true → r.tiles.isSome = true → r'.done = r.done ++ [u]
         ∧ (r'.fault = false → r'.written + r'.skipped = r.written + r.skipped + 1)))

/-- TURN_CYCLE_LIMIT and ENVELOPE_LIMIT_REACHED (R105, R422, R428, R431): the command has reached a limit; a draw that is cut keeps what it has
binned, a tile is not written, a slice counts the workgroups that finished and no further slice starts; a limit of memory stops all further turns; a
limit of bytes waits for the end of the picture. The model reads its clauses as assumption 88 says. -/
def Obligations.LimitsCut : Prop :=
  ∀ (id : Nat) (s : State), s.live →
    (∀ (x : TurnIn) (u : Nat) (r : RndRun), s.calm → s.noReset 24 → x.core < 24 → s.turn? x.core = some (some id, u) → s.run? (some id) = some r →
      ∃ t r', exec (.turnCycleLimit x) s = .next t ∧ t.run? (some id) = some r' ∧ r'.past = true ∧
        (r.isPass = false → r'.stop = true ∧ r'.written = r.written ∧ r'.groups = r.groups + min x.groups (r.sliceSize u)) ∧
        (r.isPass = true → r.tiles = none → r'.drawn = r.drawn ++ [(u, x.outWords, x.prims)]) ∧
        (r.isPass = true → r.tiles.isSome = true → r'.done = r.done ++ [u] ∧ r'.written = r.written ∧ r'.skipped = r.skipped)) ∧
    (∀ r, s.run? (some id) = some r → r.isPass = true → r.bin.stopped = true → exec (.envelopeLimitReached id 0) s =
      .next { s with vid := { s.vid with runs := mapIf (fun y => y.cmd = some id) (fun y => { y with past := true }) s.vid.runs } }) ∧
    (∀ r, s.run? (some id) = some r → s.unitsRunning (some id) ≠ [] → exec (.envelopeLimitReached id 1) s =
      .next { s with vid := { s.vid with runs := mapIf (fun y => y.cmd = some id) (fun y => { y with past := true, stop := true }) s.vid.runs } }) ∧
    (∀ r, (s.vid.codec.find? fun y => y.cmd = some id && y.active) = some r → exec (.envelopeLimitReached id 2) s =
      .next { s with vid := { s.vid with
        codec := mapIf (fun y => y.cmd = some id && y.pipe = r.pipe) (fun y => { y with past := true }) s.vid.codec } })

/-- PROGRAM_COMPILE_DONE (R402 to R404): a program that compiles is ready with its entry points and the pages its code needs, and its load ends with
its ID and the number of its entry points; one that does not is gone, and its load ends with OVERRUN and the cause. The model reads its clauses as
assumption 92 says. -/
def Obligations.ProgramsCompile : Prop :=
  ∀ (id : Nat) (models : List Nat) (kib cause : Nat) (p : Prog) (c : Cmd) (s : State), s.live → cause ≤ 4 →
    (s.vid.progs.find? fun x => x.load = some id) = some p → s.cmd? id = some c → c.stage = .started →
    (cause = 0 → models.length ≤ 64 → kib ≤ 4 * p.pages.length → ∃ t c', exec (.programCompileDone id models kib cause) s = .next t
      ∧ (∃ x ∈ t.vid.progs, x.seat = p.seat ∧ x.id = p.id ∧ x.load = none ∧ x.ready = true ∧ x.models = models ∧ x.kib = 4 * ceilDiv kib 4
        ∧ x.pages = p.pages.take (ceilDiv kib 4))
      ∧ t.cmd? id = some c' ∧ c'.stage = .ended ∧ c'.overrun = c.overrun ∧ c'.part = models.length ∧ c'.detail = p.id + models.length * 2 ^ 16) ∧
    (cause ≠ 0 → ∃ t c', exec (.programCompileDone id models kib cause) s = .next t ∧ (∀ x ∈ t.vid.progs, x.load ≠ some id)
      ∧ t.cmd? id = some c' ∧ c'.stage = .ended ∧ c'.overrun = true ∧ c'.detail = p.id + cause * 2 ^ 32)

/-- VDC_DECODE and VDC_ENCODE (R454, R463): a started command begins its work on the pipe of its session, with nothing finished; a decode's new ring
takes the place of the session's. CODEC_PICTURE_BOUNDARY (R452, R455, R460, R465, R468): a pipe finishes its picture: the session's picture number has
advanced, the command counts it, and one with no picture left ends. A picture whose command has failed is not counted. The model reads its clauses as
assumption 95 says. -/
def Obligations.CodecPictures : Prop :=
  (∀ (id : Nat) (c : Cmd) (x : Session) (s : State), s.live → s.calm → s.noReset 136 → s.cmd? id = some c → c.stage = .started →
     (∀ r ∈ s.vid.codec, r.cmd ≠ some id) → (s.vid.sess.find? fun y => y.id = c.f 1 0 8 && y.seat = some c.seat) = some x →
     ∀ i, (i = .vdcDecode id ∧ c.op = 0x0501) ∨ (i = .vdcEncode id ∧ c.op = 0x0502) →
       ∃ t r', exec i s = .next t ∧ t.codecRun? (some id) x.pipe = some r' ∧ r'.words = c.words ∧ r'.sess = x.id ∧ r'.finished = 0 ∧ r'.output = 0
         ∧ (c.op = 0x0501 → c.res ≠ [] → ∃ y ∈ t.vid.sess, y.id = x.id ∧ y.ring = some (ringOf x.seat (c.res.map (BitVec.ofNat 64))))) ∧
  (∀ (q : PicIn) (id : Nat) (r : CodecRun) (x : Session) (s : State), s.live → s.calm → s.noReset 136 → q.pipe < 10 →
     s.pipeRun q.pipe = some r → r.cmd = some id → (s.vid.codec.filter fun y => y.cmd = some id && y.pipe = q.pipe) = [r] →
     (s.vid.sess.find? fun y => y.id = r.sess) = some x → some id ∉ r.reqs → s.codecBroken r = false →
     ∃ t, exec (.codecPictureBoundary q) s = .next t
       ∧ (∃ y ∈ t.vid.sess, y.id = x.id ∧ y.number = x.number + (if r.isEnc then 1 else b2n q.coded))
       ∧ (∀ r', t.codecRun? (some id) q.pipe = some r' → r'.finished = r.finished + (if r.isEnc then 1 else b2n q.coded))
       ∧ (t.codecRun? (some id) q.pipe = none → t.ends id))

/-! ### Audio, touch and haptics (chapters 14 and 15) -/

/-- AUD_ROUTE (R483): a started route waits for the next block with its words. AUDIO_BLOCK (R476, R483): with the engine clocked and the bell running
a block's samples are counted, no route waits any longer and every AUD_ROUTE whose ramps start ends. TDM_FRAME_RECEIVED (R495): an enabled port runs
at the rate measured, its enabled input slots are the next samples of their converters and no other converter changes. TDM_CLOCK_LOST and
AUD_INPUT_LOST (R475, R487, R495): the sample clock is in holdover, its port reads NO_CLOCK and CLOCK_LOST is recorded; an input whose source stops
fades out and reads unlocked. The model reads its clauses as assumptions 103, 105 say. -/
def Obligations.AudioBlocks : Prop :=
  (∀ s : State, s.live →
     (∀ id c, s.cmd? id = some c → c.op = 0x0600 → c.stage = .started → (s.med.aud.routes.any fun r => r.1 = some id) = false →
       exec (.audRoute id) s =
         .next { s with med := { s.med with aud := { s.med.aud with routes := s.med.aud.routes ++ [(some id, c.words)] } } }) ∧
     (∀ b : AudIo, s.calm → b.n ≤ 512 → s.tts.running = true → s.engineUp 5 = true → ∃ t, exec (.audioBlock b) s = .next t
       ∧ t.med.aud.n = s.med.aud.n + b.n ∧ t.med.aud.routes = []
       ∧ ∀ id ws, (some id, ws) ∈ s.med.aud.routes → (s.cmd? id).isSome = true → t.ends id)) ∧
  (∀ (p rate : Nat) (slots : List Nat) (s : State), s.live → s.wf = true → p < 8 → s.tts.running = true → fb (s.tdmSt p).set 0 0 = true →
     mapWf audInNone s.med.aud.inputs = true →
     ∃ t, exec (.tdmFrameReceived p rate slots) s = .next t ∧ t.fld (Reg.audTdmStatus p) 0 2 = 1 ∧ t.fld (Reg.audTdmStatus p) 5 18 = rate % 2 ^ 18
       ∧ ∀ k, mapGet audInNone k t.med.aud.inputs =
           if 16 * p ≤ k ∧ k < 16 * p + tdmSlots (s.tdmSt p).set ∧ fb (s.tdmSt p).set 0 (16 + (k - 16 * p)) = true then
             (mapGet audInNone k s.med.aud.inputs).feed
               [intSmp (tdmWidth (s.tdmSt p).set) (slots.getD (k - 16 * p) 0 % 2 ^ tdmWidth (s.tdmSt p).set)]
           else mapGet audInNone k s.med.aud.inputs) ∧
  (∀ s : State, s.live → s.calm → s.wf = true →
     (1 ≤ s.med.aud.clkNow → s.med.aud.clkNow ≤ 8 → s.bitAt Reg.audClk 5 = false → ∃ t, exec .tdmClockLost s = .next t
       ∧ t.fld Reg.audClk 4 2 = 2 ∧ t.fld (Reg.audTdmStatus (s.med.aud.clkNow - 1)) 0 2 = 2 ∧ s.logs t stAud 4 0) ∧
     (∀ i, i < 192 → s.inputActive i = true → mapWf audInNone s.med.aud.inputs = true → ∃ t, exec (.audInputLost i) s = .next t
       ∧ mapGet audInNone i t.med.aud.inputs = { mapGet audInNone i s.med.aud.inputs with up := false } ∧ t.bitAt (Reg.audIn i) 1 = false
       ∧ (∀ k, k ≠ i → mapGet audInNone k t.med.aud.inputs = mapGet audInNone k s.med.aud.inputs)
       ∧ (i < 128 → fb (s.tdmSt (i / 16)).set 0 1 = true → t.fld (Reg.audTdmStatus (i / 16)) 0 2 = 2)))

/-- TOUCH_LINK_BRINGUP and TOUCH_LINK_RETRY (R509): in LINK, or in LINK_FAIL 100 bells after the last attempt, a good response with an ID other than
0x0000 and 0xFFFF brings the port to ACTIVE with its ID shown and baselines to be taken anew; else it reads LINK_FAIL, with PL_ERROR for a bad
response. KEY_FORCED_RELEASE, DOZE_ENTRY and DOZE_APPROACH (R521, R523, R585): a channel that has stayed non-idle too long takes its raw count for
baseline, is released and counted; an idle port dozes; an approach ends the doze with the next scan, or in DEEP_SLEEP wakes the chip with cause 3
where it may. The model reads its clauses as assumptions 111, 112 say. -/
def Obligations.PanelsLink : Prop :=
  (∀ (n id : Nat) (ok : Bool) (i : Instr) (s : State), s.live → s.calm → s.wf = true → n < 8 → id < 65536 → s.noReset (stTch n) →
     mapWf tchNone s.med.tch = true →
     (i = .touchLinkBringup n id ok ∧ s.tchState n = 1) ∨
       (i = .touchLinkRetry n id ok ∧ s.tchState n = 5 ∧ (s.tch n).failBell + 100 ≤ s.tts.bell) →
     ∃ t, exec i s = .next t ∧ (ok = true → t.fld (Reg.tchStatus n) 32 16 = id) ∧ (ok = false → s.logs t (stTch n) 4 0) ∧
       (ok = true → id ≠ 0 → id ≠ 0xFFFF → t.tchState n = 2 ∧ t.tch n = { s.tch n with bad := 0, fresh := true, scan := false, testScan := false }) ∧
       (ok = false ∨ id = 0 ∨ id = 0xFFFF → t.tchState n = 5 ∧ t.tch n = { s.tch n with failBell := s.tts.bell })) ∧
  (∀ (n : Nat) (s : State), s.live → n < 8 →
     (∀ k, s.wf = true → k < pnSelf (s.tch n).panel → nBit (s.tch n).busy k = true → ∃ t, exec (.keyForcedRelease n k) s = .next t
       ∧ (t.tch n).base = listSet (s.tch n).base (pnNodes (s.tch n).panel + k) ((s.tch n).raw.getD (pnNodes (s.tch n).panel + k) 0)
       ∧ nBit (t.tch n).keys k = false ∧ nBit (t.tch n).busy k = false ∧ (t.tch n).forced = (s.tch n).forced ||| 2 ^ k
       ∧ t.fld (Reg.tchCount n) 32 16 = min (s.fld (Reg.tchCount n) 32 16 + 1) 0xFFFF) ∧
     (s.tchState n = 2 → fw (s.tch n).words 4 0 10 ≠ 0 → (s.tch n).contacts = [] → (s.tch n).busy = 0 → (s.tch n).scan = false →
       exec (.dozeEntry n) s = .next (s.putFld (Reg.tchStatus n) 0 3 3)) ∧
     (s.tchState n = 3 → s.pst < 3 → ∃ t, exec (.dozeApproach n) s = .next t ∧ t.tch n = { s.tch n with approach := true } ∧ t.tchState n = 3) ∧
     (s.tchState n = 3 → s.pst = 4 → fb (s.tch n).words 4 20 = true →
       exec (.dozeApproach n) s = .next ((s.putFld Reg.pwrStatus 0 3 5).putFld Reg.pwrStatus 6 3 3)))

/-- TOUCH_SCAN_START (R514, R515, R522, R523): a scheduled acquisition starts in ACTIVE, or ends the doze after an approach; a pending self-test takes
its place; one that meets a running scan is skipped and counted. TOUCH_SCAN_END (R509, R516, R519, R522): a good scan leaves its raw counts and the
keys that are touched; a response in error counts and is recorded, and the scan is discarded; a self-test's result tells how many channels lie outside
its limits and the first of them. The model reads its clauses as assumption 112 says. -/
def Obligations.PanelScans : Prop :=
  (∀ (n : Nat) (noisy : Bool) (s : State), s.live → s.wf = true → n < 8 → s.tts.running = true → s.scanDue (s.tch n) = some noisy →
     ((s.tch n).scan = true → ∃ t, exec (.touchScanStart n) s = .next t ∧ t.tch n = s.tch n
       ∧ t.fld (Reg.tchCount n) 48 16 = min (s.fld (Reg.tchCount n) 48 16 + 1) 0xFFFF) ∧
     ((s.tch n).scan = false → s.tchState n = 2 ∨ (s.tchState n = 3 ∧ (s.tch n).approach = true) →
       (((s.tch n).pend.find? fun x => tcOp x.2.1 = 1) = none → ∃ t, exec (.touchScanStart n) s = .next t ∧ t.tchState n = 2
         ∧ t.tch n = { s.tch n with scan := true, noisy := noisy, testScan := false, woke := (s.tch n).woke || decide (s.tchState n = 3)
                                    approach := false }) ∧
       (∀ x, ((s.tch n).pend.find? fun x => tcOp x.2.1 = 1) = some x → ∃ t, exec (.touchScanStart n) s = .next t ∧ t.tchState n = 4
         ∧ (t.tch n).scan = true ∧ (t.tch n).testScan = true ∧ (t.tch n).test = some (x.1, x.2.1) ∧ (t.tch n).pend = (s.tch n).pend.erase x))) ∧
  (∀ (n : Nat) (counts : List Nat) (s : State), s.live → s.calm → s.wf = true → n < 8 → s.noReset (stTch n) → mapWf tchNone s.med.tch = true →
     (s.tch n).scan = true →
     ((s.tch n).test = none → ∃ t, exec (.touchScanEnd n true counts) s = .next t ∧ (t.tch n).scan = false ∧ (t.tch n).bad = 0 ∧ (t.tch n).fresh = false
       ∧ (t.tch n).raw = (List.range (pnNodes (s.tch n).panel + pnSelf (s.tch n).panel)).map (fun i => counts.getD i 0 % 65536)
       ∧ (t.tch n).keys = touchedMask (s.tch n).panel
           (signals (s.tch n).panel (if (s.tch n).fresh then (t.tch n).raw else (s.tch n).base) (t.tch n).raw)
           (if (s.tch n).fresh then 0 else (s.tch n).keys)) ∧
     ((s.tch n).test = none → (s.tch n).bad ≠ 2 → ∃ t, exec (.touchScanEnd n false counts) s = .next t
       ∧ t.tch n = { s.tch n with scan := false, testScan := false, test := none, bad := (s.tch n).bad + 1 } ∧ s.logs t (stTch n) 4 0
       ∧ t.fld (Reg.tchCount n) 0 16 = min (s.fld (Reg.tchCount n) 0 16 + 1) 0xFFFF) ∧
     ((s.tch n).test = none → (s.tch n).bad = 2 → ∃ t, exec (.touchScanEnd n false counts) s = .next t ∧ t.tchState n = 5
       ∧ (t.tch n).bad = 0 ∧ (t.tch n).scan = false ∧ (t.tch n).failBell = s.tts.bell) ∧
     (∀ x, (s.tch n).test = some x → ∃ t, exec (.touchScanEnd n true counts) s = .next t ∧ (t.tch n).scan = false ∧ (t.tch n).test = none ∧
       let cs := (List.range (pnCols (s.tch n).panel + pnSelf (s.tch n).panel)).map fun i => counts.getD i 0 % 65536
       let bad := (List.range cs.length).filter fun i => decide (cs.getD i 0 < fw x.2 2 0 16) || decide (fw x.2 2 16 16 < cs.getD i 0)
       t.fld (Reg.tchTest n) 0 8 = bad.length % 256 ∧ t.fld (Reg.tchTest n) 8 8 = bad.headD 0xFF % 256))

/-- HAP_EFFECT_LOAD, HAP_EFFECT_CLEAR and HAP_PLAY (R526, R527, R532): a started load fills its slot with the descriptor read, a clear empties it, and
the command ends with the byte count; a started HAP_PLAY waits on its channel, what waited before is squashed, and a drive is cut short. HAPTIC_FRAME
(R528, R530, R533): each frame is counted; an idle channel without a request sends drive_en 0; a channel that drives sends its effect's amplitude,
limited by vmax, with the polarity of the half-cycle. The model reads its clauses as assumptions 48, 107, 108 say. -/
def Obligations.HapticsPlay : Prop :=
  (∀ (id : Nat) (c : Cmd) (s : State), s.live → s.cmd? id = some c → c.stage = .started →
     (∀ i n, (i = .hapEffectLoad id ∧ n = 32) ∨ (i = .hapEffectClear id ∧ n = 0) → c.op = 0x0710 → c.f 3 0 32 = n →
       mapWf hapNone s.med.hap = true → mapWf (fun _ => []) (s.hap (c.f 1 0 3)).effects = true →
       ∃ t c', exec i s = .next t ∧ t.hapEffect (c.f 1 0 3) (c.f 1 8 6) = (if n = 0 then [] else c.res.map (BitVec.ofNat 64))
         ∧ (∀ k, k ≠ c.f 1 8 6 → t.hapEffect (c.f 1 0 3) k = s.hapEffect (c.f 1 0 3) k)
         ∧ t.cmd? id = some c' ∧ c'.stage = .ended ∧ c'.detail = n) ∧
     (c.op = 0x0711 → c.res = [] → ∃ t, exec (.hapPlay id) s = .next t
       ∧ (t.hap (hpCh c.words)).wait = some { cmd := some id, sec := false, slot := hpSlot c.words }
       ∧ (∀ w k, (s.hap (hpCh c.words)).wait = some w → w.cmd = some k → k ≠ id → (s.cmd? k).isSome = true → t.ends k)
       ∧ (∀ p, (s.hap (hpCh c.words)).play = some p →
           (t.hap (hpCh c.words)).play = some (if p.phase = 1 then { p with cutShort := true } else p)))) ∧
  (∀ (ch volt : Nat) (s : State), s.live → s.calm → ch < 8 → s.tts.running = true → s.noReset (stHap ch) → mapWf hapNone s.med.hap = true →
     (∃ t, exec (.hapticFrame ch volt) s = .next t ∧ (t.hap ch).n = (s.hap ch).n + 1) ∧
     ((s.hap ch).play = none → (s.hap ch).wait = none →
       ∃ t, exec (.hapticFrame ch volt) s = .next t ∧ (t.hap ch).play = none ∧ (t.hap ch).sent = (0, false, false)) ∧
     (∀ p, (s.hap ch).play = some p → p.phase = 1 → p.cutShort = false → s.cfld (Reg.hapCfg ch) 0 1 = 1 →
       ∃ t, exec (.hapticFrame ch volt) s = .next t ∧ (t.hap ch).sent = p.sent (s.cfld (Reg.hapCfg ch) 8 16)))

/-! ### Heads, ports and capture (chapters 11 and 13) -/

/-- HEAD_FRAME_START (R298, R365, R366, R581): a frame that is due on an active head begins at line 0 and is counted, and a head that was waking is
active; in SLEEP a head outside self-refresh reads OFF from here. HEAD_LINE_START (R369, R370, R548): lines of a frame begin in order; at line V
active END_OF_ACTIVE and the event of bit 2 are recorded, each once in a frame; an active line of a frame that shows nothing is black; in the safe
state an active line carries the safe colour. The model reads its clauses as assumption 79 says. -/
def Obligations.HeadsSend : Prop :=
  (∀ (h : Nat) (s : State), s.live → s.calm → s.wf = true → h < 32 → s.frameDue h = true → (s.head h).asleep = false →
     (s.pst ≠ 2 → s.hdState h = 1 ∨ s.hdState h = 2 ∨ (s.hdState h = 4 ∧ (s.head h).wakeBell ≤ s.tts.bell) →
       ∃ t, exec (.headFrameStart h) s = .next t ∧ (t.head h).frame = some s.tts.bell ∧ (t.head h).line = 0
         ∧ t.fld (Reg.hdStatus h) 32 32 = (s.fld (Reg.hdStatus h) 32 32 + 1) % 2 ^ 32
         ∧ t.hdState h = if s.hdState h = 4 then 2 else s.hdState h) ∧
     (s.pst = 2 → s.hdState h = 1 ∨ s.hdState h = 2 → s.srHead h = false →
       ∃ t, exec (.headFrameStart h) s = .next t ∧ t.hdState h = 0 ∧ (t.head h).asleep = true)) ∧
  (∀ (h line : Nat) (late odd : Bool) (s : State), h < 32 →
     (s.live → s.calm → s.wf = true → (s.head h).frame.isSome = true → line = (s.head h).line → line < (s.head h).vt → s.hdState h = 1 ∨ s.hdState h = 2 →
       ∃ t, exec (.headLineStart h line late odd) s = .next t ∧ (t.head h).line = line + 1 ∧
         (s.fld (Reg.hdLineMatch h) 0 16 = line → nBit (s.head h).raised 1 = false → t.bitAt (Reg.hdEvent h) 1 = true) ∧
         (line = (s.head h).ht → (s.head h).raised % 8 = 0 → t.bitAt (Reg.hdEvent h) 0 = true ∧ t.bitAt (Reg.hdEvent h) 2 = true) ∧
         (line < (s.head h).ht → s.lineCarried h line = true → s.headSlice h = false → (s.head h).shows = false →
           (t.head h).sent = List.replicate (s.head h).w 0)) ∧
     (s.flt.safe = true → s.pwr.rails = true → s.hdState h = 5 → line < (s.head h).ht → mapWf headNone s.pic.heads = true →
       ∃ t, exec (.headLineStart h line late odd) s = .next t
         ∧ t.head h = { s.head h with sent := List.replicate (s.head h).w (s.cfld (Reg.hdColors h) 0 30) }))

/-- HPD_RISE, HPD_FALL, SINK_LOCK_LOSS, LINK_WAKE_DONE and IRQ_HPD (R380, R386, R389, R391): with a sink there the link of a port in use is brought
up; without one the port is OFF, its EDID reads 0 and its heads leave self-refresh; a waking link is UP; IRQ_HPD changes no link. LINK_BRINGUP_DONE
(R380): the sink's capabilities and EDID are shown; a link that trains is UP, one that does not has FAILED and is recorded; a sink that lacks what the
set asks for gives FAILED with result SINK. The model reads its clauses as assumption 67 says. -/
def Obligations.LinksTrain : Prop :=
  (∀ (n : Nat) (s : State), s.live → n < 16 →
     (s.calm → s.wf = true → ∃ t, exec (.hpdRise n) s = .next t ∧ t.bitAt (Reg.dptStatus n) 3 = true ∧ s.logs t (stDpt n) 5 0
       ∧ (portMode (s.port n) ≠ 0 → t.fld (Reg.dptStatus n) 0 3 = 1 ∧ t.port n = { s.port n with bringup := true })
       ∧ (portMode (s.port n) = 0 → t.fld (Reg.dptStatus n) 0 3 = 0)) ∧
     (s.calm → s.wf = true → mapWf portNone s.pic.ports = true → ∃ t, exec (.hpdFall n) s = .next t ∧ t.bitAt (Reg.dptStatus n) 3 = false
       ∧ t.fld (Reg.dptStatus n) 0 3 = 0 ∧ t.port n = { s.port n with bringup := false } ∧ s.logs t (stDpt n) 5 0
       ∧ (∀ i j, i < 4 → j < 64 → t.rd (Reg.dptEdid n i j) = 0)
       ∧ ∀ h ∈ portHeads (s.port n), t.hdState h = if s.hdState h = 3 then 2 else s.hdState h) ∧
     (s.wf = true → portMode (s.port n) ≠ 0 → ∃ t, exec (.sinkLockLoss n) s = .next t ∧ t.fld (Reg.dptStatus n) 0 3 = 1
       ∧ t.port n = { s.port n with bringup := true }) ∧
     (s.fld (Reg.dptStatus n) 0 3 = 5 → exec (.linkWakeDone n) s = .next (s.putFld (Reg.dptStatus n) 0 3 2)) ∧
     exec (.irqHpd n) s = .next s) ∧
  (∀ (n : Nat) (k : SinkIn) (s : State), s.live → s.calm → s.wf = true → n < 16 → k.rate < 8 → k.lanes < 3 → k.sr < 3 → (s.port n).bringup = true →
     mapWf portNone s.pic.ports = true →
     ∃ t, exec (.linkBringupDone n k) s = .next t ∧ t.port n = { s.port n with bringup := false }
       ∧ t.fld (Reg.dptStatus n) 4 4 = k.rate ∧ t.fld (Reg.dptStatus n) 8 2 = k.lanes ∧ t.fld (Reg.dptStatus n) 10 2 = k.sr
       ∧ t.bitAt (Reg.dptStatus n) 12 = k.dsc ∧ t.bitAt (Reg.dptStatus n) 13 = k.mst
       ∧ (∀ i j, i < 4 → j < 64 → t.rd (Reg.dptEdid n i j) = (k.edids.getD i []).getD j 0) ∧
       (sinkLacks (s.port n).set k = true → t.fld (Reg.dptStatus n) 0 3 = 3 ∧ t.fld (Reg.dptStatus n) 14 3 = 7) ∧
       (sinkLacks (s.port n).set k = false → k.trained = true → t.fld (Reg.dptStatus n) 0 3 = 2) ∧
       (sinkLacks (s.port n).set k = false → k.trained = false → t.fld (Reg.dptStatus n) 0 3 = 3 ∧ s.logs t (stDpt n) 4 0))

/-- Links of a capture port (R441, R444, R446): training at a rate and on lanes that the port presents reads TRAINING, or RECEIVING with what was
trained once it succeeds; a link that is lost, or trained anew, discards the frame in progress; the end of the HPD pulse raises HPD again where the
port is enabled and held; an AUX read gives the EDID's word. CAPTURE_FRAME_START (R438, R441, R443): the shape received is shown; a shape that fits
the set takes an unprotected slot, or where none is free or the frame comes too soon is dropped and counted; a shape that does not is MISMATCH and is
recorded once. CAPTURE_FRAME_COMPLETE (R435, R442, R444): a frame in a slot is published under the next sequence number, its slot is free for no other
frame in progress, and a frame with damaged pixels counts as degraded. The model reads its clauses as assumption 86 says. -/
def Obligations.CapturePorts : Prop :=
  (∀ (n : Nat) (s : State), s.live → n < 8 → mapWf capNone s.vid.caps = true →
     (∀ rate lanes done, s.wf = true → (s.capSt n).hpd = true → 3 ≤ rate → rate ≤ fw (s.capSt n).set 0 1 3 → lanes ≤ fw (s.capSt n).set 0 4 2 →
       ∃ t, exec (.captureLinkTraining n rate lanes done) s = .next t ∧ t.capSt n = { s.capSt n with slot := none }
         ∧ t.capState n = (if done then 3 else 2)
         ∧ (done = true → t.fld (Reg.capStatus n) 6 4 = rate ∧ t.fld (Reg.capStatus n) 10 2 = lanes)) ∧
     (s.wf = true → 2 ≤ s.capState n → s.capState n ≤ 4 → ∃ t, exec (.captureLinkLost n) s = .next t
       ∧ t.capSt n = { s.capSt n with slot := none } ∧ t.capState n = 1) ∧
     ((s.capSt n).pulse = true → ∃ t, exec (.captureHpdPulseEnd n) s = .next t
       ∧ t.capSt n = { s.capSt n with pulse := false, hpd := fb (s.capSt n).set 0 0 && s.capHeld n }) ∧
     ((s.capSt n).hpd = true → ∀ a, exec (.captureAuxTransaction n true a) s = .next { s with rdata := (s.capSt n).edid.getD (a / 8) 0 } ∧
       exec (.captureAuxTransaction n false a) s = .next { s with rdata := dpcdWord (s.capSt n) })) ∧
  (∀ (n : Nat) (f : CapIn) (s : State), s.live → s.calm → s.wf = true → n < 8 → f.enc < 4 → f.bpc < 5 → f.colorimetry < 4 → f.eotf < 4 → f.w < 2 ^ 16 →
     f.h < 2 ^ 16 → s.capState n = 3 ∨ s.capState n = 4 → s.noReset (stCap n) →
     let fits := capPair f.enc (fw (s.capSt n).set 0 7 4) && decide (f.w = fw (s.capSt n).set 1 0 16) && decide (f.h = fw (s.capSt n).set 1 16 16)
     ∃ t, exec (.captureFrameStart n f) s = .next t ∧ (t.capSt n).rxAt = some f.at_
       ∧ t.fld (Reg.capStatus n) 12 2 = f.enc ∧ t.fld (Reg.capStatus n) 14 3 = f.bpc ∧ t.fld (Reg.capStatus n) 32 16 = f.w
       ∧ t.fld (Reg.capStatus n) 48 16 = f.h ∧
       (fits = true → t.capState n = 3 ∧
         (∀ r k, s.capRing n = some r → capSpaced (s.capSt n).set (s.capSt n).wroteAt f.at_ = true → s.slotFor r (fun _ => false) = some k →
           (t.capSt n).slot = some k ∧ (t.capSt n).wroteAt = some f.at_) ∧
         (capSpaced (s.capSt n).set (s.capSt n).wroteAt f.at_ = false → (t.capSt n).slot = none
           ∧ t.fld (Reg.capFrames n) 32 16 = min (s.fld (Reg.capFrames n) 32 16 + 1) 0xFFFF)) ∧
       (fits = false → t.capState n = 4 ∧ (t.capSt n).slot = none ∧ (s.capState n = 3 → s.tts.cur.mode ≠ 2 → s.logs t (stCap n) 4 0))) ∧
  (∀ (n : Nat) (rows : List (List Nat)) (damaged : List (Nat × Nat)) (k : Nat) (r : SurfRing) (s : State), s.live → s.calm → s.wf = true → n < 8 →
     (s.capSt n).slot = some k → s.capRing n = some r →
     ∃ t, exec (.captureFrameComplete n rows damaged) s = .next t ∧ (t.capSt n).slot = none
       ∧ (t.capSt n).ring = (s.capSt n).ring.map (fun q => q.publish k) ∧ t.fld (Reg.capFrames n) 0 32 = (r.seq + 1) % 2 ^ 32
       ∧ t.fld (Reg.capFrames n) 48 16 =
           (if damaged.any (fun p => decide (p.1 < fw (s.capSt n).set 1 0 16) && decide (p.2 < fw (s.capSt n).set 1 16 16)) then
             min (s.fld (Reg.capFrames n) 48 16 + 1) 0xFFFF else s.fld (Reg.capFrames n) 48 16))
end

