-- ==== Sys2Proof/Laws/RegFind.lean ====
section
/-!
SUPPORT. Laws/RegFind.lean: which register stands at an offset, for the pages of stations and of seats, whose instances are many; the bits
that those registers hold.
-/

namespace Sys2Proof.Machine

/-! ### Windows and families -/

/-- An offset within a window is looked up in the window's families. -/
theorem regFind_window {off a n : Nat} {fs : List RegFam} (l1 l2 : List (Nat × Nat × List RegFam)) (h : regWindows = l1 ++ (a, n, fs) :: l2)
    (hl : ∀ x ∈ l1, x.1 + x.2.1 ≤ a) (h1 : a ≤ off) (h2 : off < a + n) : regFind off = famFind off fs := by
  have : regWindows.find? (fun w => w.1 ≤ off && off < w.1 + w.2.1) = some (a, n, fs) := by
    rw [h, List.find?_append]
    have : l1.find? (fun w => w.1 ≤ off && off < w.1 + w.2.1) = none := by
      rw [List.find?_eq_none]
      intro x hx
      have := hl x hx
      simp
      omega
    rw [this]
    simp [h1, h2]
  rw [regFind, this]

theorem fam_skip1 {off : Nat} {f : RegFam} {fs : List RegFam} (s n i r : Nat) (hd : f.dims = [(s, n)]) (ho : off = f.base + s * i + r)
    (hr : 0 < r) (hs : r < s) : famFind off (f :: fs) = famFind off fs := by
  have h1 : (off - f.base) / s = i := by
    rw [show off - f.base = r + s * i by omega, Nat.add_mul_div_left _ _ (by omega), Nat.div_eq_of_lt hs]; omega
  have h2 : (off - f.base) % s = r := by
    rw [show off - f.base = r + s * i by omega, Nat.add_mul_mod_self_left, Nat.mod_eq_of_lt hs]
  have : dimsIndex f.dims (off - f.base) = none := by
    simp only [hd, dimsIndex, h1, h2, show ¬ r = 0 by omega, if_false]
    split <;> rfl
  simp [famFind, this]

theorem fam_skip2 {off : Nat} {f : RegFam} {fs : List RegFam} (s n s2 n2 i r : Nat) (hd : f.dims = [(s, n), (s2, n2)])
    (ho : off = f.base + s * i + r) (hr : n2 ≤ r / s2) (hs : r < s) : famFind off (f :: fs) = famFind off fs := by
  have h1 : (off - f.base) / s = i := by
    rw [show off - f.base = r + s * i by omega, Nat.add_mul_div_left _ _ (by omega), Nat.div_eq_of_lt hs]; omega
  have h2 : (off - f.base) % s = r := by
    rw [show off - f.base = r + s * i by omega, Nat.add_mul_mod_self_left, Nat.mod_eq_of_lt hs]
  have : dimsIndex f.dims (off - f.base) = none := by
    simp only [hd, dimsIndex, h1, h2, show ¬ r / s2 < n2 by omega, if_false]
    split <;> rfl
  simp [famFind, this]

theorem fam_hit1 {off : Nat} {f : RegFam} {fs : List RegFam} (s n i : Nat) (hd : f.dims = [(s, n)]) (ho : off = f.base + s * i)
    (hs : 0 < s) (hi : i < n) (h : regInstance f [i] = true) : famFind off (f :: fs) = some (f, [i]) := by
  have h1 : (off - f.base) / s = i := by
    rw [show off - f.base = s * i by omega, Nat.mul_div_cancel_left _ hs]
  have h2 : (off - f.base) % s = 0 := by
    rw [show off - f.base = s * i by omega, Nat.mul_mod_right]
  have : dimsIndex f.dims (off - f.base) = some [i] := by
    simp [hd, dimsIndex, h1, h2, hi]
  rw [famFind, if_pos (by omega), this]
  simp [h]

theorem fam_at2 {off : Nat} {f : RegFam} {fs : List RegFam} (s n s2 n2 i j : Nat) (hd : f.dims = [(s, n), (s2, n2)])
    (ho : off = f.base + s * i + s2 * j) (hs2 : 0 < s2) (hs : s2 * n2 ≤ s) (hi : i < n) (hj : j < n2) :
    famFind off (f :: fs) = if regInstance f [i, j] then some (f, [i, j]) else none := by
  have hlt : s2 * j < s := Nat.lt_of_lt_of_le (Nat.mul_lt_mul_of_pos_left hj hs2) hs
  have h1 : (off - f.base) / s = i := by
    rw [show off - f.base = s2 * j + s * i by omega, Nat.add_mul_div_left _ _ (by omega), Nat.div_eq_of_lt hlt]; omega
  have h2 : (off - f.base) % s = s2 * j := by
    rw [show off - f.base = s2 * j + s * i by omega, Nat.add_mul_mod_self_left, Nat.mod_eq_of_lt hlt]
  have : dimsIndex f.dims (off - f.base) = some [i, j] := by
    simp only [hd, dimsIndex, h1, h2, hi, if_true, Nat.mul_div_cancel_left _ hs2, hj, Nat.mul_mod_right, Option.map]
  rw [famFind, if_pos (by omega), this]

theorem fam_hit2 {off : Nat} {f : RegFam} {fs : List RegFam} (s n s2 n2 i j : Nat) (hd : f.dims = [(s, n), (s2, n2)])
    (ho : off = f.base + s * i + s2 * j) (hs2 : 0 < s2) (hs : s2 * n2 ≤ s) (hi : i < n) (hj : j < n2) (h : regInstance f [i, j] = true) :
    famFind off (f :: fs) = some (f, [i, j]) := by
  rw [fam_at2 s n s2 n2 i j hd ho hs2 hs hi hj, if_pos h]

/-! ### Station pages -/

/-- A station page is looked up in the families of stations. -/
theorem regFind_station {i o : Nat} (hi : i < 256) (ho : o < 0x100) : regFind (0x600000 + 0x100 * i + o) = famFind (0x600000 + 0x100 * i + o) regsFs :=
  regFind_window (a := 0x600000) (n := 0x10000) (regWindows.take 26) [(0x800000, 0x200000, regsPage)] rfl (by decide) (by omega) (by omega)

/-- A seat page is looked up in the families of seat pages. -/
theorem regFind_page {i o : Nat} (hi : i < 512) (ho : o < 0x1000) : regFind (0x800000 + 0x1000 * i + o) = famFind (0x800000 + 0x1000 * i + o) regsPage :=
  regFind_window (a := 0x800000) (n := 0x200000) (regWindows.take 27) [] rfl (by decide) (by omega) (by omega)

theorem regFind_fsStatus {n : Nat} (hn : n < 256) (hk : (stKind n).isSome = true) : regFind (Reg.fsStatus n) = some ((regsFs[0]'(by decide)), [n]) := by
  have h : Reg.fsStatus n = 6291456 + 256 * n + (0) := by unfold Reg.fsStatus; first | rfl | omega
  rw [h, regFind_station hn (by omega)]
  unfold regsFs
  exact fam_hit1 256 256 n rfl (by first | rfl | (dsimp only; omega)) (by omega) hn (by simp [regInstance, hk])
theorem regImpl_fsStatus {n : Nat} (hn : n < 256) (hk : (stKind n).isSome = true) : regImpl (Reg.fsStatus n) = 0xffffffff := by
  rw [regImpl, regFind_fsStatus hn hk]; rfl
theorem regFind_fsFirst {n : Nat} (hn : n < 256) (hk : (stKind n).isSome = true) : regFind (Reg.fsFirst n) = some ((regsFs[1]'(by decide)), [n]) := by
  have h : Reg.fsFirst n = 6291456 + 256 * n + (8) := by unfold Reg.fsFirst; first | rfl | omega
  rw [h, regFind_station hn (by omega)]
  unfold regsFs
  rw [fam_skip1 256 256 n (8) rfl (by first | rfl | (dsimp only; omega)) (by omega) (by omega)]
  exact fam_hit1 256 256 n rfl (by first | rfl | (dsimp only; omega)) (by omega) hn (by simp [regInstance, hk])
theorem regImpl_fsFirst {n : Nat} (hn : n < 256) (hk : (stKind n).isSome = true) : regImpl (Reg.fsFirst n) = 0xffffffffffff1fdf := by
  rw [regImpl, regFind_fsFirst hn hk]; rfl
theorem regFind_fsCount {n : Nat} (hn : n < 256) (hk : (stKind n).isSome = true) : regFind (Reg.fsCount n) = some ((regsFs[2]'(by decide)), [n]) := by
  have h : Reg.fsCount n = 6291456 + 256 * n + (16) := by unfold Reg.fsCount; first | rfl | omega
  rw [h, regFind_station hn (by omega)]
  unfold regsFs
  rw [fam_skip1 256 256 n (16) rfl (by first | rfl | (dsimp only; omega)) (by omega) (by omega)]
  rw [fam_skip1 256 256 n (8) rfl (by first | rfl | (dsimp only; omega)) (by omega) (by omega)]
  exact fam_hit1 256 256 n rfl (by first | rfl | (dsimp only; omega)) (by omega) hn (by simp [regInstance, hk])
theorem regImpl_fsCount {n : Nat} (hn : n < 256) (hk : (stKind n).isSome = true) : regImpl (Reg.fsCount n) = 0xffff := by
  rw [regImpl, regFind_fsCount hn hk]; rfl
theorem regFind_fsCtrl {n : Nat} (hn : n < 256) (hk : (stKind n).isSome = true) : regFind (Reg.fsCtrl n) = some ((regsFs[3]'(by decide)), [n]) := by
  have h : Reg.fsCtrl n = 6291456 + 256 * n + (24) := by unfold Reg.fsCtrl; first | rfl | omega
  rw [h, regFind_station hn (by omega)]
  unfold regsFs
  rw [fam_skip1 256 256 n (24) rfl (by first | rfl | (dsimp only; omega)) (by omega) (by omega)]
  rw [fam_skip1 256 256 n (16) rfl (by first | rfl | (dsimp only; omega)) (by omega) (by omega)]
  rw [fam_skip1 256 256 n (8) rfl (by first | rfl | (dsimp only; omega)) (by omega) (by omega)]
  exact fam_hit1 256 256 n rfl (by first | rfl | (dsimp only; omega)) (by omega) hn (by simp [regInstance, hk])
theorem regImpl_fsCtrl {n : Nat} (hn : n < 256) (hk : (stKind n).isSome = true) : regImpl (Reg.fsCtrl n) = 0x7 := by
  rw [regImpl, regFind_fsCtrl hn hk]; rfl
theorem regFind_fsInject {n : Nat} (hn : n < 256) (hk : (stKind n).isSome = true) : regFind (Reg.fsInject n) = some ((regsFs[4]'(by decide)), [n]) := by
  have h : Reg.fsInject n = 6291456 + 256 * n + (32) := by unfold Reg.fsInject; first | rfl | omega
  rw [h, regFind_station hn (by omega)]
  unfold regsFs
  rw [fam_skip1 256 256 n (32) rfl (by first | rfl | (dsimp only; omega)) (by omega) (by omega)]
  rw [fam_skip1 256 256 n (24) rfl (by first | rfl | (dsimp only; omega)) (by omega) (by omega)]
  rw [fam_skip1 256 256 n (16) rfl (by first | rfl | (dsimp only; omega)) (by omega) (by omega)]
  rw [fam_skip1 256 256 n (8) rfl (by first | rfl | (dsimp only; omega)) (by omega) (by omega)]
  exact fam_hit1 256 256 n rfl (by first | rfl | (dsimp only; omega)) (by omega) hn (by simp [regInstance, hk])
theorem regImpl_fsInject {n : Nat} (hn : n < 256) (hk : (stKind n).isSome = true) : regImpl (Reg.fsInject n) = 0xffffffff := by
  rw [regImpl, regFind_fsInject hn hk]; rfl
theorem regFind_fsInjMask {n : Nat} (hn : n < 256) (hk : (stKind n).isSome = true) : regFind (Reg.fsInjMask n) = some ((regsFs[5]'(by decide)), [n]) := by
  have h : Reg.fsInjMask n = 6291456 + 256 * n + (40) := by unfold Reg.fsInjMask; first | rfl | omega
  rw [h, regFind_station hn (by omega)]
  unfold regsFs
  rw [fam_skip1 256 256 n (40) rfl (by first | rfl | (dsimp only; omega)) (by omega) (by omega)]
  rw [fam_skip1 256 256 n (32) rfl (by first | rfl | (dsimp only; omega)) (by omega) (by omega)]
  rw [fam_skip1 256 256 n (24) rfl (by first | rfl | (dsimp only; omega)) (by omega) (by omega)]
  rw [fam_skip1 256 256 n (16) rfl (by first | rfl | (dsimp only; omega)) (by omega) (by omega)]
  rw [fam_skip1 256 256 n (8) rfl (by first | rfl | (dsimp only; omega)) (by omega) (by omega)]
  exact fam_hit1 256 256 n rfl (by first | rfl | (dsimp only; omega)) (by omega) hn (by simp [regInstance, hk])
theorem regImpl_fsInjMask {n : Nat} (hn : n < 256) (hk : (stKind n).isSome = true) : regImpl (Reg.fsInjMask n) = 0xffffffff := by
  rw [regImpl, regFind_fsInjMask hn hk]; rfl
theorem regFind_fsReact {n j : Nat} (hn : n < 256) (hj : j < 4) (hk : (stKind n).isSome = true) : regFind (Reg.fsReact n j) = some ((regsFs[6]'(by decide)), [n, j]) := by
  have h : Reg.fsReact n j = 6291456 + 256 * n + (64 + 8 * j) := by unfold Reg.fsReact; first | rfl | omega
  rw [h, regFind_station hn (by omega)]
  unfold regsFs
  rw [fam_skip1 256 256 n (64 + 8 * j) rfl (by first | rfl | (dsimp only; omega)) (by omega) (by omega)]
  rw [fam_skip1 256 256 n (56 + 8 * j) rfl (by first | rfl | (dsimp only; omega)) (by omega) (by omega)]
  rw [fam_skip1 256 256 n (48 + 8 * j) rfl (by first | rfl | (dsimp only; omega)) (by omega) (by omega)]
  rw [fam_skip1 256 256 n (40 + 8 * j) rfl (by first | rfl | (dsimp only; omega)) (by omega) (by omega)]
  rw [fam_skip1 256 256 n (32 + 8 * j) rfl (by first | rfl | (dsimp only; omega)) (by omega) (by omega)]
  rw [fam_skip1 256 256 n (24 + 8 * j) rfl (by first | rfl | (dsimp only; omega)) (by omega) (by omega)]
  exact fam_hit2 256 256 8 4 n j rfl (by first | rfl | (dsimp only; omega)) (by omega) (by omega) hn hj (by simp [regInstance, hk])
theorem regFind_fsReact_if {n j : Nat} (hn : n < 256) (hj : j < 4) : regFind (Reg.fsReact n j) = if (stKind n).isSome then some ((regsFs[6]'(by decide)), [n, j]) else none := by
  have h : Reg.fsReact n j = 6291456 + 256 * n + (64 + 8 * j) := by unfold Reg.fsReact; first | rfl | omega
  rw [h, regFind_station hn (by omega)]
  unfold regsFs
  rw [fam_skip1 256 256 n (64 + 8 * j) rfl (by first | rfl | (dsimp only; omega)) (by omega) (by omega)]
  rw [fam_skip1 256 256 n (56 + 8 * j) rfl (by first | rfl | (dsimp only; omega)) (by omega) (by omega)]
  rw [fam_skip1 256 256 n (48 + 8 * j) rfl (by first | rfl | (dsimp only; omega)) (by omega) (by omega)]
  rw [fam_skip1 256 256 n (40 + 8 * j) rfl (by first | rfl | (dsimp only; omega)) (by omega) (by omega)]
  rw [fam_skip1 256 256 n (32 + 8 * j) rfl (by first | rfl | (dsimp only; omega)) (by omega) (by omega)]
  rw [fam_skip1 256 256 n (24 + 8 * j) rfl (by first | rfl | (dsimp only; omega)) (by omega) (by omega)]
  rw [fam_at2 256 256 8 4 n j rfl (by first | rfl | (dsimp only; omega)) (by omega) (by omega) hn hj]
  simp [regInstance]
/-- The reset value of a reaction mask (Table 16.3). -/
theorem regReset_fsReact {n j : Nat} (hn : n < 256) (hj : j < 4) :
    regReset (Reg.fsReact n j) = if (stKind n).isSome then reactResetOf n j else 0 := by
  rw [regReset, regFind_fsReact_if hn hj]
  by_cases h : (stKind n).isSome = true
  · rw [if_pos h, if_pos h]; rfl
  · rw [if_neg h, if_neg h]
theorem regImpl_fsReact {n j : Nat} (hn : n < 256) (hj : j < 4) (hk : (stKind n).isSome = true) : regImpl (Reg.fsReact n j) = 0xffffffffffffffff := by
  rw [regImpl, regFind_fsReact hn hj hk]; rfl
theorem regFind_seatId {n : Nat} (hn : n < 512) : regFind (Reg.seatId n) = some ((regsPage[0]'(by decide)), [n]) := by
  have h : Reg.seatId n = 8388608 + 4096 * n + (0) := by unfold Reg.seatId; first | rfl | omega
  rw [h, regFind_page hn (by omega)]
  unfold regsPage
  exact fam_hit1 4096 512 n rfl (by first | rfl | (dsimp only; omega)) (by omega) hn (by simp [regInstance])
theorem regImpl_seatId {n : Nat} (hn : n < 512) : regImpl (Reg.seatId n) = 0x7fffff := by
  rw [regImpl, regFind_seatId hn]; rfl
theorem regFind_seatState {n : Nat} (hn : n < 512) : regFind (Reg.seatState n) = some ((regsPage[1]'(by decide)), [n]) := by
  have h : Reg.seatState n = 8388608 + 4096 * n + (8) := by unfold Reg.seatState; first | rfl | omega
  rw [h, regFind_page hn (by omega)]
  unfold regsPage
  rw [fam_skip1 4096 512 n (8) rfl (by first | rfl | (dsimp only; omega)) (by omega) (by omega)]
  exact fam_hit1 4096 512 n rfl (by first | rfl | (dsimp only; omega)) (by omega) hn (by simp [regInstance])
theorem regImpl_seatState {n : Nat} (hn : n < 512) : regImpl (Reg.seatState n) = 0x33f := by
  rw [regImpl, regFind_seatState hn]; rfl
theorem regFind_irqPend {n : Nat} (hn : n < 512) : regFind (Reg.irqPend n) = some ((regsPage[2]'(by decide)), [n]) := by
  have h : Reg.irqPend n = 8388608 + 4096 * n + (16) := by unfold Reg.irqPend; first | rfl | omega
  rw [h, regFind_page hn (by omega)]
  unfold regsPage
  rw [fam_skip1 4096 512 n (16) rfl (by first | rfl | (dsimp only; omega)) (by omega) (by omega)]
  rw [fam_skip1 4096 512 n (8) rfl (by first | rfl | (dsimp only; omega)) (by omega) (by omega)]
  exact fam_hit1 4096 512 n rfl (by first | rfl | (dsimp only; omega)) (by omega) hn (by simp [regInstance])
theorem regImpl_irqPend {n : Nat} (hn : n < 512) : regImpl (Reg.irqPend n) = 0xfff := by
  rw [regImpl, regFind_irqPend hn]; rfl
theorem regFind_irqMask {n : Nat} (hn : n < 512) : regFind (Reg.irqMask n) = some ((regsPage[3]'(by decide)), [n]) := by
  have h : Reg.irqMask n = 8388608 + 4096 * n + (24) := by unfold Reg.irqMask; first | rfl | omega
  rw [h, regFind_page hn (by omega)]
  unfold regsPage
  rw [fam_skip1 4096 512 n (24) rfl (by first | rfl | (dsimp only; omega)) (by omega) (by omega)]
  rw [fam_skip1 4096 512 n (16) rfl (by first | rfl | (dsimp only; omega)) (by omega) (by omega)]
  rw [fam_skip1 4096 512 n (8) rfl (by first | rfl | (dsimp only; omega)) (by omega) (by omega)]
  exact fam_hit1 4096 512 n rfl (by first | rfl | (dsimp only; omega)) (by omega) hn (by simp [regInstance])
theorem regImpl_irqMask {n : Nat} (hn : n < 512) : regImpl (Reg.irqMask n) = 0xfff := by
  rw [regImpl, regFind_irqMask hn]; rfl
theorem regFind_budgetView {n : Nat} (hn : n < 512) : regFind (Reg.budgetView n) = some ((regsPage[4]'(by decide)), [n]) := by
  have h : Reg.budgetView n = 8388608 + 4096 * n + (32) := by unfold Reg.budgetView; first | rfl | omega
  rw [h, regFind_page hn (by omega)]
  unfold regsPage
  rw [fam_skip1 4096 512 n (32) rfl (by first | rfl | (dsimp only; omega)) (by omega) (by omega)]
  rw [fam_skip1 4096 512 n (24) rfl (by first | rfl | (dsimp only; omega)) (by omega) (by omega)]
  rw [fam_skip1 4096 512 n (16) rfl (by first | rfl | (dsimp only; omega)) (by omega) (by omega)]
  rw [fam_skip1 4096 512 n (8) rfl (by first | rfl | (dsimp only; omega)) (by omega) (by omega)]
  exact fam_hit1 4096 512 n rfl (by first | rfl | (dsimp only; omega)) (by omega) hn (by simp [regInstance])
theorem regImpl_budgetView {n : Nat} (hn : n < 512) : regImpl (Reg.budgetView n) = 0xffffffff0000001f := by
  rw [regImpl, regFind_budgetView hn]; rfl
theorem regFind_dirtyLogBase {n : Nat} (hn : n < 512) : regFind (Reg.dirtyLogBase n) = some ((regsPage[5]'(by decide)), [n]) := by
  have h : Reg.dirtyLogBase n = 8388608 + 4096 * n + (40) := by unfold Reg.dirtyLogBase; first | rfl | omega
  rw [h, regFind_page hn (by omega)]
  unfold regsPage
  rw [fam_skip1 4096 512 n (40) rfl (by first | rfl | (dsimp only; omega)) (by omega) (by omega)]
  rw [fam_skip1 4096 512 n (32) rfl (by first | rfl | (dsimp only; omega)) (by omega) (by omega)]
  rw [fam_skip1 4096 512 n (24) rfl (by first | rfl | (dsimp only; omega)) (by omega) (by omega)]
  rw [fam_skip1 4096 512 n (16) rfl (by first | rfl | (dsimp only; omega)) (by omega) (by omega)]
  rw [fam_skip1 4096 512 n (8) rfl (by first | rfl | (dsimp only; omega)) (by omega) (by omega)]
  exact fam_hit1 4096 512 n rfl (by first | rfl | (dsimp only; omega)) (by omega) hn (by simp [regInstance])
theorem regImpl_dirtyLogBase {n : Nat} (hn : n < 512) : regImpl (Reg.dirtyLogBase n) = 0xfffffffffffff3fb := by
  rw [regImpl, regFind_dirtyLogBase hn]; rfl
theorem regFind_replyBase {n : Nat} (hn : n < 512) : regFind (Reg.replyBase n) = some ((regsPage[6]'(by decide)), [n]) := by
  have h : Reg.replyBase n = 8388608 + 4096 * n + (48) := by unfold Reg.replyBase; first | rfl | omega
  rw [h, regFind_page hn (by omega)]
  unfold regsPage
  rw [fam_skip1 4096 512 n (48) rfl (by first | rfl | (dsimp only; omega)) (by omega) (by omega)]
  rw [fam_skip1 4096 512 n (40) rfl (by first | rfl | (dsimp only; omega)) (by omega) (by omega)]
  rw [fam_skip1 4096 512 n (32) rfl (by first | rfl | (dsimp only; omega)) (by omega) (by omega)]
  rw [fam_skip1 4096 512 n (24) rfl (by first | rfl | (dsimp only; omega)) (by omega) (by omega)]
  rw [fam_skip1 4096 512 n (16) rfl (by first | rfl | (dsimp only; omega)) (by omega) (by omega)]
  rw [fam_skip1 4096 512 n (8) rfl (by first | rfl | (dsimp only; omega)) (by omega) (by omega)]
  exact fam_hit1 4096 512 n rfl (by first | rfl | (dsimp only; omega)) (by omega) hn (by simp [regInstance])
theorem regImpl_replyBase {n : Nat} (hn : n < 512) : regImpl (Reg.replyBase n) = 0xfffffffffffff00f := by
  rw [regImpl, regFind_replyBase hn]; rfl
theorem regFind_statusBase {n : Nat} (hn : n < 512) : regFind (Reg.statusBase n) = some ((regsPage[7]'(by decide)), [n]) := by
  have h : Reg.statusBase n = 8388608 + 4096 * n + (56) := by unfold Reg.statusBase; first | rfl | omega
  rw [h, regFind_page hn (by omega)]
  unfold regsPage
  rw [fam_skip1 4096 512 n (56) rfl (by first | rfl | (dsimp only; omega)) (by omega) (by omega)]
  rw [fam_skip1 4096 512 n (48) rfl (by first | rfl | (dsimp only; omega)) (by omega) (by omega)]
  rw [fam_skip1 4096 512 n (40) rfl (by first | rfl | (dsimp only; omega)) (by omega) (by omega)]
  rw [fam_skip1 4096 512 n (32) rfl (by first | rfl | (dsimp only; omega)) (by omega) (by omega)]
  rw [fam_skip1 4096 512 n (24) rfl (by first | rfl | (dsimp only; omega)) (by omega) (by omega)]
  rw [fam_skip1 4096 512 n (16) rfl (by first | rfl | (dsimp only; omega)) (by omega) (by omega)]
  rw [fam_skip1 4096 512 n (8) rfl (by first | rfl | (dsimp only; omega)) (by omega) (by omega)]
  exact fam_hit1 4096 512 n rfl (by first | rfl | (dsimp only; omega)) (by omega) hn (by simp [regInstance])
theorem regImpl_statusBase {n : Nat} (hn : n < 512) : regImpl (Reg.statusBase n) = 0xfffffffffffff01f := by
  rw [regImpl, regFind_statusBase hn]; rfl
theorem regFind_ringBase {n j : Nat} (hn : n < 512) (hj : j < 8) : regFind (Reg.ringBase n j) = some ((regsPage[8]'(by decide)), [n, j]) := by
  have h : Reg.ringBase n j = 8388608 + 4096 * n + (256 + 8 * j) := by unfold Reg.ringBase; first | rfl | omega
  rw [h, regFind_page hn (by omega)]
  unfold regsPage
  rw [fam_skip1 4096 512 n (256 + 8 * j) rfl (by first | rfl | (dsimp only; omega)) (by omega) (by omega)]
  rw [fam_skip1 4096 512 n (248 + 8 * j) rfl (by first | rfl | (dsimp only; omega)) (by omega) (by omega)]
  rw [fam_skip1 4096 512 n (240 + 8 * j) rfl (by first | rfl | (dsimp only; omega)) (by omega) (by omega)]
  rw [fam_skip1 4096 512 n (232 + 8 * j) rfl (by first | rfl | (dsimp only; omega)) (by omega) (by omega)]
  rw [fam_skip1 4096 512 n (224 + 8 * j) rfl (by first | rfl | (dsimp only; omega)) (by omega) (by omega)]
  rw [fam_skip1 4096 512 n (216 + 8 * j) rfl (by first | rfl | (dsimp only; omega)) (by omega) (by omega)]
  rw [fam_skip1 4096 512 n (208 + 8 * j) rfl (by first | rfl | (dsimp only; omega)) (by omega) (by omega)]
  rw [fam_skip1 4096 512 n (200 + 8 * j) rfl (by first | rfl | (dsimp only; omega)) (by omega) (by omega)]
  exact fam_hit2 4096 512 8 8 n j rfl (by first | rfl | (dsimp only; omega)) (by omega) (by omega) hn hj (by simp [regInstance])
theorem regImpl_ringBase {n j : Nat} (hn : n < 512) (hj : j < 8) : regImpl (Reg.ringBase n j) = 0xfffffffffffff00f := by
  rw [regImpl, regFind_ringBase hn hj]; rfl
theorem regFind_ringPtrs {n j : Nat} (hn : n < 512) (hj : j < 8) : regFind (Reg.ringPtrs n j) = some ((regsPage[9]'(by decide)), [n, j]) := by
  have h : Reg.ringPtrs n j = 8388608 + 4096 * n + (320 + 8 * j) := by unfold Reg.ringPtrs; first | rfl | omega
  rw [h, regFind_page hn (by omega)]
  unfold regsPage
  rw [fam_skip1 4096 512 n (320 + 8 * j) rfl (by first | rfl | (dsimp only; omega)) (by omega) (by omega)]
  rw [fam_skip1 4096 512 n (312 + 8 * j) rfl (by first | rfl | (dsimp only; omega)) (by omega) (by omega)]
  rw [fam_skip1 4096 512 n (304 + 8 * j) rfl (by first | rfl | (dsimp only; omega)) (by omega) (by omega)]
  rw [fam_skip1 4096 512 n (296 + 8 * j) rfl (by first | rfl | (dsimp only; omega)) (by omega) (by omega)]
  rw [fam_skip1 4096 512 n (288 + 8 * j) rfl (by first | rfl | (dsimp only; omega)) (by omega) (by omega)]
  rw [fam_skip1 4096 512 n (280 + 8 * j) rfl (by first | rfl | (dsimp only; omega)) (by omega) (by omega)]
  rw [fam_skip1 4096 512 n (272 + 8 * j) rfl (by first | rfl | (dsimp only; omega)) (by omega) (by omega)]
  rw [fam_skip1 4096 512 n (264 + 8 * j) rfl (by first | rfl | (dsimp only; omega)) (by omega) (by omega)]
  rw [fam_skip2 4096 512 8 8 n (64 + 8 * j) rfl (by first | rfl | (dsimp only; omega)) (by omega) (by omega)]
  exact fam_hit2 4096 512 8 8 n j rfl (by first | rfl | (dsimp only; omega)) (by omega) (by omega) hn hj (by simp [regInstance])
theorem regImpl_ringPtrs {n j : Nat} (hn : n < 512) (hj : j < 8) : regImpl (Reg.ringPtrs n j) = 0xffffffff7fff001f := by
  rw [regImpl, regFind_ringPtrs hn hj]; rfl
theorem regFind_doorbell {n j : Nat} (hn : n < 512) (hj : j < 8) : regFind (Reg.doorbell n j) = some ((regsPage[10]'(by decide)), [n, j]) := by
  have h : Reg.doorbell n j = 8388608 + 4096 * n + (384 + 8 * j) := by unfold Reg.doorbell; first | rfl | omega
  rw [h, regFind_page hn (by omega)]
  unfold regsPage
  rw [fam_skip1 4096 512 n (384 + 8 * j) rfl (by first | rfl | (dsimp only; omega)) (by omega) (by omega)]
  rw [fam_skip1 4096 512 n (376 + 8 * j) rfl (by first | rfl | (dsimp only; omega)) (by omega) (by omega)]
  rw [fam_skip1 4096 512 n (368 + 8 * j) rfl (by first | rfl | (dsimp only; omega)) (by omega) (by omega)]
  rw [fam_skip1 4096 512 n (360 + 8 * j) rfl (by first | rfl | (dsimp only; omega)) (by omega) (by omega)]
  rw [fam_skip1 4096 512 n (352 + 8 * j) rfl (by first | rfl | (dsimp only; omega)) (by omega) (by omega)]
  rw [fam_skip1 4096 512 n (344 + 8 * j) rfl (by first | rfl | (dsimp only; omega)) (by omega) (by omega)]
  rw [fam_skip1 4096 512 n (336 + 8 * j) rfl (by first | rfl | (dsimp only; omega)) (by omega) (by omega)]
  rw [fam_skip1 4096 512 n (328 + 8 * j) rfl (by first | rfl | (dsimp only; omega)) (by omega) (by omega)]
  rw [fam_skip2 4096 512 8 8 n (128 + 8 * j) rfl (by first | rfl | (dsimp only; omega)) (by omega) (by omega)]
  rw [fam_skip2 4096 512 8 8 n (64 + 8 * j) rfl (by first | rfl | (dsimp only; omega)) (by omega) (by omega)]
  exact fam_hit2 4096 512 8 8 n j rfl (by first | rfl | (dsimp only; omega)) (by omega) (by omega) hn hj (by simp [regInstance])
theorem regImpl_doorbell {n j : Nat} (hn : n < 512) (hj : j < 8) : regImpl (Reg.doorbell n j) = 0x7fff0001ffff := by
  rw [regImpl, regFind_doorbell hn hj]; rfl
end Sys2Proof.Machine
end

