-- ==== Sys2Proof/Laws/Maps.lean ====
section
/-!
SUPPORT. Laws/Maps.lean: reads after writes of sparse maps, the canonical form, which every write keeps, and the same of memory.
-/

namespace Sys2Proof.Machine

variable {α : Type} [DecidableEq α]

/-! ### Reads after writes -/

/-- A write at one key leaves every other key as it was. -/
@[simp] theorem mapGet_put_ne (d : Nat → α) {k k' : Nat} (h : k' ≠ k) (v : α) (m : List (Nat × α)) :
    mapGet d k' (mapPut d k v m) = mapGet d k' m := by
  induction m with
  | nil =>
    unfold mapPut
    split <;> simp [mapGet, h]
  | cons e m ih =>
    obtain ⟨k₁, v₁⟩ := e
    unfold mapPut
    split
    · split <;> simp [mapGet, h]
    · split
      · subst_vars
        split <;> simp [mapGet, h]
      · simp [mapGet, ih]

/-- Keys rise strictly from a bound on: what is above a bound is above a lower one. -/
theorem mapAbove_le (d : Nat → α) {b b' : Nat} (h : b' ≤ b) (m : List (Nat × α)) (hm : mapAbove d b m = true) : mapAbove d b' m = true := by
  cases m with
  | nil => rfl
  | cons e m =>
    simp only [mapAbove, Bool.and_eq_true, decide_eq_true_eq] at hm ⊢
    exact ⟨⟨by omega, hm.1.2⟩, hm.2⟩

/-- A key below the bound reads as its default. -/
theorem mapGet_below (d : Nat → α) {b k : Nat} (m : List (Nat × α)) (hm : mapAbove d b m = true) (h : k < b) : mapGet d k m = d k := by
  induction m generalizing b with
  | nil => rfl
  | cons e m ih =>
    obtain ⟨k₁, v₁⟩ := e
    simp only [mapAbove, Bool.and_eq_true, decide_eq_true_eq] at hm
    simp only [mapGet, show ¬ k = k₁ by omega, if_false]
    exact ih hm.2 (by omega)

/-- A write at a key gives the value written, where the map is canonical. -/
theorem mapGet_put_eq (d : Nat → α) (k : Nat) (v : α) {b : Nat} (m : List (Nat × α)) (hm : mapAbove d b m = true) :
    mapGet d k (mapPut d k v m) = v := by
  induction m generalizing b with
  | nil =>
    unfold mapPut
    split <;> simp_all [mapGet]
  | cons e m ih =>
    obtain ⟨k₁, v₁⟩ := e
    simp only [mapAbove, Bool.and_eq_true, decide_eq_true_eq] at hm
    unfold mapPut
    split
    · split
      · simp only [mapGet, show ¬ k = k₁ by omega, if_false]
        rw [mapGet_below d m hm.2 (by omega)]
        simp_all
      · simp [mapGet]
    · split
      · subst_vars
        split
        · rw [mapGet_below d m hm.2 (by omega)]
          simp_all
        · simp [mapGet]
      · simp only [mapGet]
        rw [if_neg (by assumption)]
        exact ih hm.2

/-- A write keeps the canonical form. -/
theorem mapAbove_put (d : Nat → α) (k : Nat) (v : α) {b : Nat} (hb : b ≤ k) (m : List (Nat × α)) (hm : mapAbove d b m = true) :
    mapAbove d b (mapPut d k v m) = true := by
  induction m generalizing b with
  | nil =>
    unfold mapPut
    split <;> simp_all [mapAbove]
  | cons e m ih =>
    obtain ⟨k₁, v₁⟩ := e
    have hm' := hm
    simp only [mapAbove, Bool.and_eq_true, decide_eq_true_eq] at hm
    unfold mapPut
    split
    · split
      · exact hm'
      · simp only [mapAbove, Bool.and_eq_true, decide_eq_true_eq]
        exact ⟨⟨hb, by assumption⟩, ⟨by omega, hm.1.2⟩, hm.2⟩
    · split
      · subst_vars
        split
        · exact mapAbove_le d (by omega) m hm.2
        · simp only [mapAbove, Bool.and_eq_true, decide_eq_true_eq]
          exact ⟨⟨hb, by assumption⟩, hm.2⟩
      · simp only [mapAbove, Bool.and_eq_true, decide_eq_true_eq]
        exact ⟨hm.1, ih (by omega) hm.2⟩

/-- A write keeps the canonical form of a map. -/
theorem mapWf_put (d : Nat → α) (k : Nat) (v : α) (m : List (Nat × α)) (hm : mapWf d m = true) : mapWf d (mapPut d k v m) = true :=
  mapAbove_put d k v (Nat.zero_le k) m hm

/-- A write gives its value, where the map is canonical. -/
theorem mapGet_put_wf (d : Nat → α) (k : Nat) (v : α) (m : List (Nat × α)) (hm : mapWf d m = true) : mapGet d k (mapPut d k v m) = v :=
  mapGet_put_eq d k v m hm

/-- The elements that a filter leaves of a canonical map are a canonical map. -/
theorem mapAbove_filter (d : Nat → α) (p : Nat × α → Bool) {b : Nat} (m : List (Nat × α)) (hm : mapAbove d b m = true) :
    mapAbove d b (m.filter p) = true := by
  induction m generalizing b with
  | nil => rfl
  | cons e m ih =>
    simp only [mapAbove, Bool.and_eq_true, decide_eq_true_eq] at hm
    rw [List.filter_cons]
    split
    · simp only [mapAbove, Bool.and_eq_true, decide_eq_true_eq]
      exact ⟨hm.1, ih hm.2⟩
    · exact mapAbove_le d (by omega) _ (ih hm.2)

/-! ### Memory -/

/-- Bytes stored from a key up leave every other key as it was. -/
theorem memGet_put_out (k : Nat) (bs : List Byte) (m : List Host.Cell) {j : Nat} (h : j < k ∨ k + bs.length ≤ j) :
    memGet (memPut k bs m) j = memGet m j := by
  induction bs generalizing k m with
  | nil => rfl
  | cons b bs ih =>
    simp only [List.length_cons] at h
    rw [memPut, ih (k + 1) _ (by omega)]
    exact mapGet_put_ne memDflt (by omega) b m

/-- A store keeps the canonical form of memory. -/
theorem memPut_wf (k : Nat) (bs : List Byte) (m : List Host.Cell) (hm : Memory.wf m = true) : Memory.wf (memPut k bs m) = true := by
  induction bs generalizing k m with
  | nil => exact hm
  | cons b bs ih => exact ih (k + 1) _ (mapWf_put memDflt k b m hm)

/-- Stored bytes read back. -/
theorem memGet_put_in (k : Nat) (bs : List Byte) (m : List Host.Cell) (hm : Memory.wf m = true) {i : Nat} (h : i < bs.length) :
    memGet (memPut k bs m) (k + i) = bs[i] := by
  induction bs generalizing k m i with
  | nil => exact absurd h (Nat.not_lt_zero i)
  | cons b bs ih =>
    have hw := mapWf_put memDflt k b m hm
    cases i with
    | zero =>
      rw [memPut, memGet_put_out (k + 1) bs _ (Or.inl (by omega))]
      exact mapGet_put_wf memDflt k b m hm
    | succ i =>
      have := ih (k + 1) _ hw (i := i) (by simpa using h)
      rw [memPut, show k + (i + 1) = k + 1 + i by omega, this]
      rfl

end Sys2Proof.Machine
end

