-- ==== Sys2Proof/Laws/Act.lean ====
section
/-!
SUPPORT. Laws/Act.lean: footprints of programs of effects. `a.Foot P` says that every effect that `a` can have is in the class `P`, in
every run in which no reaction mask holds SAFE or CHIP_RESET; `runGo_foot` turns a footprint into a frame.
-/

namespace Sys2Proof.Machine

/-- Every effect that a program can have, run from calm states, is in a class. -/
inductive Act.Foot (P : Eff → Prop) : Act → Prop
  | skip : Act.Foot P .skip
  | eff {e : Eff} (h : P e) : Act.Foot P (.eff e)
  | seq {a b : Act} (ha : Act.Foot P a) (hb : Act.Foot P b) : Act.Foot P (.seq a b)
  | ask {k : State → Act} (h : ∀ s : State, s.calm → Act.Foot P (k s)) : Act.Foot P (.ask k)

/-! ### Kinds of effects -/

/-- Number of the kind of an effect. -/
def Eff.tag : Eff → Nat
  | .csr _ _ => 0
  | .react _ _ => 1
  | .com _ _ => 2
  | .mem _ _ => 3
  | .ecc _ _ => 4
  | .rdata _ => 5
  | .tick => 6
  | .safe => 7
  | .powerOn _ => 7
  | .chipReset _ _ => 7
  | .tts _ => 8
  | .cfe _ => 9
  | .adm _ => 10
  | .seats _ => 11
  | .worlds _ => 12
  | .memc _ => 13
  | .dma _ _ => 14
  | .chk _ _ => 15
  | .pic _ => 16
  | .vid _ => 17
  | .med _ => 18
  | .flt _ => 19
  | .clk _ => 20
  | .pwr _ => 21

/-- A change of the command front end that keeps every outstanding command, in its place. -/
def CfeKeeps (f : Cfe → Cfe) : Prop := ∀ x, (f x).nextId = x.nextId ∧ ∃ g : Cmd → Cmd, (f x).cmds = x.cmds.map g ∧ ∀ c : Cmd, c.Goes (g c)

/-- A change of the command front end that takes commands from the outstanding ones. -/
def CfeDrops (f : Cfe → Cfe) : Prop := ∀ x, (f x).nextId = x.nextId ∧ (f x).cmds.Sublist x.cmds

/-- Effects that stay within the everyday bookkeeping of their unit: they move neither the bell count nor the period, leave the rails and
straps as they are, keep the outstanding commands (bit 24 of the class admits that some are taken away), of the seats touch only the messages,
of the worlds only the interrupts, of the memories only the thresholds reported, of the Registrar only free shares, of the registers only
those from 0x400000 up and FAULT_N. -/
def Eff.mild (drops : Bool) : Eff → Prop
  | .csr off _ => 0x400000 ≤ off ∨ off = Reg.fltPin
  | .tts f => ∀ t, (f t).bell = t.bell ∧ (f t).period = t.period
  | .pwr f => ∀ p, (f p).rails = p.rails ∧ (f p).straps = p.straps
  | .cfe f => CfeKeeps f ∨ (drops = true ∧ CfeDrops f)
  | .seats f => ∀ t, f t = { t with msixOwed := (f t).msixOwed, msixSent := (f t).msixSent }
  | .worlds f => ∀ w, f w = { w with secIrq := (f w).secIrq, secHeld := (f w).secHeld }
  | .memc f => ∀ m, f m = { m with threshed := (f m).threshed }
  | .adm f => ∀ a, f a = { a with shares := (f a).shares } ∧ (f a).shares.Sublist a.shares
  | _ => True

/-- The bit that admits the effects of a kind that are not mild. -/
def Eff.wildBit : Eff → Nat
  | .csr _ _ => 29
  | .cfe _ => 23
  | .seats _ => 25
  | .worlds _ => 26
  | .memc _ => 27
  | .adm _ => 28
  | _ => 22

/-- The class of effects whose kind is in the set that the bits of `T` give, and which are mild where the bit of their kind is clear. -/
def In (T : Nat) (e : Eff) : Prop := T.testBit e.tag = true ∧ (T.testBit e.wildBit = true ∨ e.mild (T.testBit 24))

theorem Eff.mild_mono {e : Eff} {a b : Bool} (hab : a = true → b = true) (h : e.mild a) : e.mild b := by
  cases e <;> try exact h
  exact Or.imp id (fun x => ⟨hab x.1, x.2⟩) h

theorem In.mono {L T : Nat} (h : L &&& T = L) {e : Eff} (he : In L e) : In T e := by
  have up : ∀ i, L.testBit i = true → T.testBit i = true := by
    intro i hi
    rw [← h, Nat.testBit_and] at hi
    simp at hi
    exact hi.2
  exact ⟨up _ he.1, he.2.imp (up _) (Eff.mild_mono (up _))⟩

theorem Act.Foot.mono {P Q : Eff → Prop} (h : ∀ e, P e → Q e) {a : Act} (ha : a.Foot P) : a.Foot Q := by
  induction ha with
  | skip => exact .skip
  | eff he => exact .eff (h _ he)
  | seq _ _ iha ihb => exact .seq iha ihb
  | ask _ ih => exact .ask ih

theorem foot_mono {L T : Nat} {a : Act} (ha : a.Foot (In L)) (h : L &&& T = L) : a.Foot (In T) :=
  Act.Foot.mono (fun _ => In.mono h) ha

/-! ### Membership of a class, kind by kind -/

theorem in_iff {T : Nat} {e : Eff} (i : Nat) (hi : e.tag = i) (hm : ∀ b, e.mild b) : In T e ↔ T / 2 ^ i % 2 = 1 := by
  simp [In, hi, hm, Nat.testBit_eq_decide_div_mod_eq]

theorem in_iff' {T : Nat} {e : Eff} (i j : Nat) (hi : e.tag = i) (hj : e.wildBit = j) :
    In T e ↔ T / 2 ^ i % 2 = 1 ∧ (T / 2 ^ j % 2 = 1 ∨ e.mild (T / 2 ^ 24 % 2 = 1)) := by
  simp [In, hi, hj, Nat.testBit_eq_decide_div_mod_eq]

@[simp] theorem in_csr {T : Nat} (off : Nat) (v : Word) :
    In T (.csr off v) ↔ T / 2 ^ 0 % 2 = 1 ∧ (T / 2 ^ 29 % 2 = 1 ∨ 0x400000 ≤ off ∨ off = Reg.fltPin) := in_iff' 0 29 rfl rfl
@[simp] theorem in_react {T : Nat} (off : Nat) (v : Word) : In T (.react off v) ↔ T / 2 ^ 1 % 2 = 1 := in_iff 1 rfl fun _ => trivial
@[simp] theorem in_com {T : Nat} (off : Nat) (v : Word) : In T (.com off v) ↔ T / 2 ^ 2 % 2 = 1 := in_iff 2 rfl fun _ => trivial
@[simp] theorem in_mem {T : Nat} (k : Nat) (bs : List Byte) : In T (.mem k bs) ↔ T / 2 ^ 3 % 2 = 1 := in_iff 3 rfl fun _ => trivial
@[simp] theorem in_ecc {T : Nat} (w : Nat) (d : Byte) : In T (.ecc w d) ↔ T / 2 ^ 4 % 2 = 1 := in_iff 4 rfl fun _ => trivial
@[simp] theorem in_rdata {T : Nat} (v : Word) : In T (.rdata v) ↔ T / 2 ^ 5 % 2 = 1 := in_iff 5 rfl fun _ => trivial
@[simp] theorem in_tick {T : Nat}  : In T .tick ↔ T / 2 ^ 6 % 2 = 1 := in_iff 6 rfl fun _ => trivial
@[simp] theorem in_safe {T : Nat}  : In T .safe ↔ T / 2 ^ 7 % 2 = 1 := in_iff 7 rfl fun _ => trivial
@[simp] theorem in_powerOn {T : Nat} (st : Straps) : In T (.powerOn st) ↔ T / 2 ^ 7 % 2 = 1 := in_iff 7 rfl fun _ => trivial
@[simp] theorem in_chipReset {T : Nat} (st : Straps) (v : Word) : In T (.chipReset st v) ↔ T / 2 ^ 7 % 2 = 1 := in_iff 7 rfl fun _ => trivial
@[simp] theorem in_tts {T : Nat} (f : Tts → Tts) :
    In T (.tts f) ↔ T / 2 ^ 8 % 2 = 1 ∧ (T / 2 ^ 22 % 2 = 1 ∨ ∀ t, (f t).bell = t.bell ∧ (f t).period = t.period) := in_iff' 8 22 rfl rfl
@[simp] theorem in_cfe {T : Nat} (f : Cfe → Cfe) :
    In T (.cfe f) ↔ T / 2 ^ 9 % 2 = 1 ∧ (T / 2 ^ 23 % 2 = 1 ∨ CfeKeeps f ∨ (T / 2 ^ 24 % 2 = 1 ∧ CfeDrops f)) := by
  have := in_iff' (T := T) (e := .cfe f) 9 23 rfl rfl
  simpa only [Eff.mild, decide_eq_true_eq] using this
@[simp] theorem in_adm {T : Nat} (f : Adm → Adm) :
    In T (.adm f) ↔ T / 2 ^ 10 % 2 = 1 ∧ (T / 2 ^ 28 % 2 = 1 ∨ ∀ a, f a = { a with shares := (f a).shares } ∧ (f a).shares.Sublist a.shares) := in_iff' 10 28 rfl rfl
@[simp] theorem in_seats {T : Nat} (f : Seats → Seats) :
    In T (.seats f) ↔ T / 2 ^ 11 % 2 = 1 ∧ (T / 2 ^ 25 % 2 = 1 ∨ ∀ t, f t = { t with msixOwed := (f t).msixOwed, msixSent := (f t).msixSent }) := in_iff' 11 25 rfl rfl
@[simp] theorem in_worlds {T : Nat} (f : Worlds → Worlds) :
    In T (.worlds f) ↔ T / 2 ^ 12 % 2 = 1 ∧ (T / 2 ^ 26 % 2 = 1 ∨ ∀ w, f w = { w with secIrq := (f w).secIrq, secHeld := (f w).secHeld }) := in_iff' 12 26 rfl rfl
@[simp] theorem in_memc {T : Nat} (f : MemCtl → MemCtl) :
    In T (.memc f) ↔ T / 2 ^ 13 % 2 = 1 ∧ (T / 2 ^ 27 % 2 = 1 ∨ ∀ m, f m = { m with threshed := (f m).threshed }) := in_iff' 13 27 rfl rfl
@[simp] theorem in_dma {T : Nat} (k : Nat) (v : DmaCh) : In T (.dma k v) ↔ T / 2 ^ 14 % 2 = 1 := in_iff 14 rfl fun _ => trivial
@[simp] theorem in_chk {T : Nat} (k : Nat) (v : ChkUnit) : In T (.chk k v) ↔ T / 2 ^ 15 % 2 = 1 := in_iff 15 rfl fun _ => trivial
@[simp] theorem in_pic {T : Nat} (f : Pic → Pic) : In T (.pic f) ↔ T / 2 ^ 16 % 2 = 1 := in_iff 16 rfl fun _ => trivial
@[simp] theorem in_vid {T : Nat} (f : Vid → Vid) : In T (.vid f) ↔ T / 2 ^ 17 % 2 = 1 := in_iff 17 rfl fun _ => trivial
@[simp] theorem in_med {T : Nat} (f : Med → Med) : In T (.med f) ↔ T / 2 ^ 18 % 2 = 1 := in_iff 18 rfl fun _ => trivial
@[simp] theorem in_flt {T : Nat} (f : Flt → Flt) : In T (.flt f) ↔ T / 2 ^ 19 % 2 = 1 := in_iff 19 rfl fun _ => trivial
@[simp] theorem in_clk {T : Nat} (f : Clk → Clk) : In T (.clk f) ↔ T / 2 ^ 20 % 2 = 1 := in_iff 20 rfl fun _ => trivial
@[simp] theorem in_pwr {T : Nat} (f : Pwr → Pwr) :
    In T (.pwr f) ↔ T / 2 ^ 21 % 2 = 1 ∧ (T / 2 ^ 22 % 2 = 1 ∨ ∀ p, (f p).rails = p.rails ∧ (f p).straps = p.straps) := in_iff' 21 22 rfl rfl

/-! ### Changes of the command front end -/


@[simp] theorem goes_iff (c c' : Cmd) : c.Goes c' ↔ c'.id = c.id ∧ c'.seat = c.seat ∧ c'.ring = c.ring ∧ c'.words = c.words ∧
    ((c.stage = .accepted ∨ c.stage = .started) ∨ c.stage = .ended → (c'.stage = .accepted ∨ c'.stage = .started) ∨ c'.stage = .ended) := by
  simp [Cmd.Goes, Cmd.taken]

@[simp] theorem cfeKeeps_of {f : Cfe → Cfe} (hn : ∀ x, (f x).nextId = x.nextId) (hc : ∀ x, (f x).cmds = x.cmds) : CfeKeeps f := fun x =>
  ⟨hn x, fun c => c, by simp [hc x], fun _ => ⟨rfl, rfl, rfl, rfl, fun h => h⟩⟩

@[simp] theorem cfeKeeps_map {p : Cmd → Bool} {g : Cmd → Cmd} (hg : ∀ c : Cmd, c.Goes (g c)) : CfeKeeps fun x => { x with cmds := mapIf p g x.cmds } := fun x =>
  ⟨rfl, fun c => if p c then g c else c, rfl, fun c => by dsimp only; split; exact hg c; exact ⟨rfl, rfl, rfl, rfl, fun h => h⟩⟩

theorem cfeDrops_filter (p : Cmd → Bool) : CfeDrops fun x => { x with cmds := x.cmds.filter p } := fun _ => ⟨rfl, List.filter_sublist⟩

/-! ### Footprints of the ways to build programs -/

variable {P : Eff → Prop}

@[simp] theorem foot_skip : Act.skip.Foot P := .skip
@[simp] theorem foot_eff (e : Eff) : (Act.eff e).Foot P ↔ P e := ⟨fun h => by cases h; assumption, .eff⟩
@[simp] theorem foot_seq (a b : Act) : (Act.seq a b).Foot P ↔ a.Foot P ∧ b.Foot P :=
  ⟨fun h => by cases h; exact ⟨by assumption, by assumption⟩, fun h => .seq h.1 h.2⟩
@[simp] theorem foot_ask (k : State → Act) : (Act.ask k).Foot P ↔ ∀ s, s.calm → (k s).Foot P :=
  ⟨fun h => by cases h; assumption, .ask⟩

theorem foot_acts_iff (as : List Act) : (acts as).Foot P ↔ ∀ a ∈ as, a.Foot P := by
  induction as with
  | nil => simp [acts]
  | cons a as ih =>
    cases as with
    | nil => simp [acts]
    | cons b bs => simp only [acts, foot_seq, ih, List.forall_mem_cons]

@[simp] theorem foot_acts_nil : (acts []).Foot P := .skip
@[simp] theorem foot_acts_cons (a : Act) (as : List Act) : (acts (a :: as)).Foot P ↔ a.Foot P ∧ (acts as).Foot P := by
  simp only [foot_acts_iff, List.forall_mem_cons]

@[simp] theorem foot_ite (c : Prop) [Decidable c] (a b : Act) : (if c then a else b).Foot P ↔ (c → a.Foot P) ∧ (¬c → b.Foot P) := by
  by_cases h : c <;> simp [h]

@[simp] theorem foot_actIf (c : Bool) (a : Act) : (actIf c a).Foot P ↔ (c = true → a.Foot P) := by
  unfold actIf; simp

@[simp] theorem foot_whenS (c : State → Bool) (a : Act) : (whenS c a).Foot P ↔ ∀ s : State, s.calm → c s = true → a.Foot P := by
  unfold whenS; simp

@[simp] theorem foot_each {α : Type} (xs : List α) (f : α → Act) : (each xs f).Foot P ↔ ∀ x ∈ xs, (f x).Foot P := by
  unfold each; simp [foot_acts_iff]

@[simp] theorem foot_actOpt {α : Type} (o : Option α) (f : α → Act) : (actOpt o f).Foot P ↔ ∀ x, o = some x → (f x).Foot P := by
  cases o <;> simp [actOpt]

@[simp] theorem foot_onCmd (id : Nat) (k : State → Cmd → Act) :
    (onCmd id k).Foot P ↔ ∀ s : State, s.calm → ∀ c, s.cmd? id = some c → (k s c).Foot P := by
  unfold onCmd
  constructor
  · intro h s hs c hc
    rw [foot_ask] at h
    have := h s hs
    simpa [hc] using this
  · intro h
    rw [foot_ask]
    intro s hs
    split
    · rename_i c hc; exact h s hs c hc
    · exact .skip

/-! ### From footprints to frames -/

/-- An effect that neither ends the step nor touches a reaction mask. -/
def Eff.soft : Eff → Bool
  | .react _ _ => false
  | e => !e.halts

theorem rd_put_ne (s : State) {off off' : Nat} (h : off' ≠ off) (v : Word) :
    (applyEff (.csr off v) s).rd off' = s.rd off' := by
  simp only [applyEff, State.rd]
  split
  · rfl
  · exact mapGet_put_ne regDflt h _ _

/-- A soft effect leaves every reaction mask as it is. -/
theorem rd_react_soft {e : Eff} (h : e.soft = true) {off : Nat} (ho : reactReg off = true) (s : State) : (applyEff e s).rd off = s.rd off := by
  cases e with
  | csr o v =>
    by_cases hc : reactReg o = true
    · simp [applyEff, hc]
    · exact rd_put_ne s (by rintro rfl; exact hc ho) v
  | react _ _ => simp [Eff.soft] at h
  | powerOn _ => simp [Eff.soft, Eff.halts] at h
  | chipReset _ _ => simp [Eff.soft, Eff.halts] at h
  | _ => rfl

theorem reactReg_fsReact {st src : Nat} (h : st < 256) (h' : src < 32) : reactReg (Reg.fsReact st (src / 8)) = true := by
  simp only [reactReg, Reg.fsReact, Bool.and_eq_true]
  refine ⟨⟨⟨?_, ?_⟩, ?_⟩, ?_⟩ <;> exact decide_eq_true (by omega)

theorem react_soft {e : Eff} (h : e.soft = true) (s : State) {st src : Nat} (hs : st < 256) (hr : src < 32) :
    (applyEff e s).react st src = s.react st src := by
  simp only [State.react, State.fld, rd_react_soft h (reactReg_fsReact hs hr)]

theorem calm_soft {e : Eff} (h : e.soft = true) {s : State} (hs : s.calm) : (applyEff e s).calm := by
  intro st src h1 h2 h3
  rw [react_soft h s h1 h2]
  exact hs st src h1 h2 h3

/-- A run from a calm state of a program whose effects are soft and keep a relation is whole, and ends in a calm state that stands in the
relation to its start. -/
theorem runGo_foot {R : State → State → Prop} (refl : ∀ s, R s s) (trans : ∀ {s t u}, R s t → R t u → R s u)
    (hp : ∀ e, P e → e.soft = true) (hr : ∀ e s, P e → R s (applyEff e s)) :
    ∀ (a : Act) (s : State), a.Foot P → s.calm → (runGo a s).2 = false ∧ (runGo a s).1.calm ∧ R s (runGo a s).1 := by
  intro a s ha
  induction ha generalizing s with
  | skip => intro hs; exact ⟨rfl, hs, refl s⟩
  | @eff e he =>
    intro hs
    have h := hp e he
    refine ⟨?_, calm_soft h hs, hr e s he⟩
    cases e <;> first | rfl | simp [Eff.soft, Eff.halts] at h
  | @seq a b _ _ iha ihb =>
    intro hs
    obtain ⟨h1, h2, h3⟩ := iha s hs
    obtain ⟨h4, h5, h6⟩ := ihb _ h2
    have e : runGo (.seq a b) s = runGo b (runGo a s).1 := by
      rw [runGo]
      split
      · rename_i s1 hq; rw [hq] at h1; simp at h1
      · rename_i s1 hq; rw [hq]
    rw [e]
    exact ⟨h4, h5, trans h3 h6⟩
  | ask _ ih => intro hs; exact ih s hs s hs

end Sys2Proof.Machine
end

