-- ==== Sys2Proof/Laws/Frame.lean ====
section
/-!
SUPPORT. Laws/Frame.lean: from the footprint of a program to the parts of the state that it leaves alone.
-/

namespace Sys2Proof.Machine

/-- Whether a class of effects leaves a part of the state alone. -/
def Part.spared (T : Nat) : Part → Bool
  | .registers => !T.testBit 0
  | .lowRegisters => !T.testBit 0 || !T.testBit 29
  | .reactions => true
  | .committed => !T.testBit 2
  | .memory => !T.testBit 3
  | .ecc => !T.testBit 4
  | .rdata => !T.testBit 5
  | .free => !T.testBit 6
  | .tts => !T.testBit 8
  | .time => !T.testBit 8 || !T.testBit 22
  | .cfe => !T.testBit 9
  | .arrivals => !T.testBit 9 || !T.testBit 23
  | .departures => !T.testBit 9 || (!T.testBit 23 && !T.testBit 24)
  | .adm => !T.testBit 10
  | .decisions => !T.testBit 10 || !T.testBit 28
  | .messages => !T.testBit 11
  | .seats => !T.testBit 11 || !T.testBit 25
  | .secureIrqs => !T.testBit 12
  | .worlds => !T.testBit 12 || !T.testBit 26
  | .thresholds => !T.testBit 13
  | .memc => !T.testBit 13 || !T.testBit 27
  | .dma => !T.testBit 14
  | .chk => !T.testBit 15
  | .pic => !T.testBit 16
  | .vid => !T.testBit 17
  | .med => !T.testBit 18
  | .flt => !T.testBit 19
  | .clk => !T.testBit 20
  | .pwr => !T.testBit 21
  | .supply => !T.testBit 21 || !T.testBit 22

theorem Cmd.Goes.refl (c : Cmd) : c.Goes c := ⟨rfl, rfl, rfl, rfl, fun h => h⟩

theorem Cmd.Goes.trans {a b c : Cmd} (h : a.Goes b) (k : b.Goes c) : a.Goes c :=
  ⟨k.1.trans h.1, k.2.1.trans h.2.1, k.2.2.1.trans h.2.2.1, k.2.2.2.1.trans h.2.2.2.1, fun x => k.2.2.2.2 (h.2.2.2.2 x)⟩

theorem Part.same_refl (p : Part) (s : State) : p.same s s := by
  cases p <;> simp only [Part.same, implies_true, and_self]
  · exact ⟨trivial, fun c hc => ⟨c, hc, Cmd.Goes.refl c⟩⟩
  · exact fun c hc => ⟨c, hc, Cmd.Goes.refl c⟩
  · exact ⟨trivial, trivial, fun _ h => h⟩

theorem Part.same_trans (p : Part) {s t u : State} (h : p.same s t) (k : p.same t u) : p.same s u := by
  cases p with
  | registers => exact fun off ho => (k off ho).trans (h off ho)
  | lowRegisters => exact fun off ho hf => (k off ho hf).trans (h off ho hf)
  | reactions => exact fun off ho => (k off ho).trans (h off ho)
  | time => exact ⟨k.1.trans h.1, k.2.trans h.2⟩
  | supply => exact ⟨k.1.trans h.1, k.2.trans h.2⟩
  | arrivals =>
    refine ⟨k.1.trans h.1, fun c hc => ?_⟩
    obtain ⟨d, hd, hdc⟩ := k.2 c hc
    obtain ⟨e, he, hed⟩ := h.2 d hd
    exact ⟨e, he, hed.trans hdc⟩
  | departures =>
    intro c hc
    obtain ⟨d, hd, hcd⟩ := h c hc
    obtain ⟨e, he, hde⟩ := k d hd
    exact ⟨e, he, hcd.trans hde⟩
  | decisions => exact ⟨k.1.trans h.1, k.2.1.trans h.2.1, fun x hx => h.2.2 x (k.2.2 x hx)⟩
  | seats => simp only [Part.same] at *; rw [k, h]
  | worlds => simp only [Part.same] at *; rw [k, h]
  | memc => simp only [Part.same] at *; rw [k, h]
  | _ => exact Eq.trans k h

theorem tag_ne {T i : Nat} {e : Eff} (h : T.testBit e.tag = true) (hp : (!T.testBit i) = true) : e.tag ≠ i := by
  rintro rfl
  rw [h] at hp
  exact absurd hp (by decide)

theorem wild_ne {T i j : Nat} {e : Eff} (h : T.testBit e.tag = true) (hp : (!T.testBit i || !T.testBit j) = true) (he : e.tag = i) : T.testBit j = false := by
  subst he
  rw [h] at hp
  simpa using hp

/-- One effect of a class leaves what the class spares. -/
theorem eff_same {T : Nat} {e : Eff} (he : In T e) (hs : e.soft = true) {p : Part} (hp : p.spared T = true) (s : State) :
    p.same s (applyEff e s) := by
  obtain ⟨h1, h2⟩ := he
  cases p with
  | registers =>
    have := tag_ne h1 hp
    cases e <;> first | (exact fun _ _ => rfl) | exact absurd rfl this | (simp [Eff.soft, Eff.halts] at hs)
  | lowRegisters =>
    have h3 := wild_ne (i := 0) (j := 29) h1 hp
    cases e with
    | csr off v =>
      have h3 := h3 rfl
      simp only [Eff.wildBit, Eff.mild, h3] at h2
      intro off' ho hf
      refine rd_put_ne s ?_ v
      rintro rfl
      rcases h2 with h2 | h2 | h2
      · exact absurd h2 (by decide)
      · omega
      · exact hf h2
    | _ => first | (exact fun _ _ _ => rfl) | (simp [Eff.soft, Eff.halts] at hs)
  | reactions => exact fun off ho => rd_react_soft hs ho s
  | time =>
    have h3 := wild_ne (i := 8) (j := 22) h1 hp
    cases e with
    | tts f =>
      have h3 := h3 rfl
      simp only [Eff.wildBit, Eff.mild, h3] at h2
      rcases h2 with h2 | h2
      · exact absurd h2 (by decide)
      · exact h2 s.tts
    | _ => first | exact ⟨rfl, rfl⟩ | (simp [Eff.soft, Eff.halts] at hs)
  | supply =>
    have h3 := wild_ne (i := 21) (j := 22) h1 hp
    cases e with
    | pwr f =>
      have h3 := h3 rfl
      simp only [Eff.wildBit, Eff.mild, h3] at h2
      rcases h2 with h2 | h2
      · exact absurd h2 (by decide)
      · exact h2 s.pwr
    | _ => first | exact ⟨rfl, rfl⟩ | (simp [Eff.soft, Eff.halts] at hs)
  | arrivals =>
    have h3 := wild_ne (i := 9) (j := 23) h1 hp
    cases e with
    | cfe f =>
      have h3 := h3 rfl
      simp only [Eff.wildBit, Eff.mild, h3] at h2
      rcases h2 with h2 | h2 | h2
      · exact absurd h2 (by decide)
      · obtain ⟨hn, g, hg, hc⟩ := h2 s.cfe
        refine ⟨hn, fun c hcm => ?_⟩
        simp only [applyEff, hg, List.mem_map] at hcm
        obtain ⟨a, ha, rfl⟩ := hcm
        exact ⟨a, ha, hc a⟩
      · obtain ⟨hn, hl⟩ := h2.2 s.cfe
        exact ⟨hn, fun c hcm => ⟨c, hl.subset hcm, Cmd.Goes.refl c⟩⟩
    | _ => first | (exact Part.same_refl .arrivals s) | (simp [Eff.soft, Eff.halts] at hs)
  | departures =>
    cases e with
    | cfe f =>
      have h4 : T.testBit 23 = false ∧ T.testBit 24 = false := by
        simp only [Eff.tag] at h1
        simpa [Part.spared, h1] using hp
      simp only [Eff.wildBit, Eff.mild, h4.1, h4.2] at h2
      rcases h2 with h2 | h2 | h2
      · exact absurd h2 (by decide)
      · obtain ⟨hn, g, hg, hc⟩ := h2 s.cfe
        intro c hcm
        exact ⟨g c, by simp only [applyEff, hg]; exact List.mem_map_of_mem hcm, hc c⟩
      · exact absurd h2.1 (by decide)
    | _ => first | (exact Part.same_refl .departures s) | (simp [Eff.soft, Eff.halts] at hs)
  | decisions =>
    have h3 := wild_ne (i := 10) (j := 28) h1 hp
    cases e with
    | adm f =>
      have h3 := h3 rfl
      simp only [Eff.wildBit, Eff.mild, h3] at h2
      rcases h2 with h2 | h2
      · exact absurd h2 (by decide)
      · obtain ⟨h5, h6⟩ := h2 s.adm
        simp only [Part.same, applyEff]
        exact ⟨by rw [h5], by rw [h5], fun x hx => h6.subset hx⟩
    | _ => first | (exact Part.same_refl .decisions s) | (simp [Eff.soft, Eff.halts] at hs)
  | seats =>
    have h3 := wild_ne (i := 11) (j := 25) h1 hp
    cases e with
    | seats f =>
      have h3 := h3 rfl
      simp only [Eff.wildBit, Eff.mild, h3] at h2
      rcases h2 with h2 | h2
      · exact absurd h2 (by decide)
      · exact h2 s.seats
    | _ => first | rfl | (simp [Eff.soft, Eff.halts] at hs)
  | worlds =>
    have h3 := wild_ne (i := 12) (j := 26) h1 hp
    cases e with
    | worlds f =>
      have h3 := h3 rfl
      simp only [Eff.wildBit, Eff.mild, h3] at h2
      rcases h2 with h2 | h2
      · exact absurd h2 (by decide)
      · exact h2 s.worlds
    | _ => first | rfl | (simp [Eff.soft, Eff.halts] at hs)
  | memc =>
    have h3 := wild_ne (i := 13) (j := 27) h1 hp
    cases e with
    | memc f =>
      have h3 := h3 rfl
      simp only [Eff.wildBit, Eff.mild, h3] at h2
      rcases h2 with h2 | h2
      · exact absurd h2 (by decide)
      · exact h2 s.memc
    | _ => first | rfl | (simp [Eff.soft, Eff.halts] at hs)
  | _ =>
    have := tag_ne h1 hp
    cases e <;> first | rfl | exact absurd rfl this | (simp [Eff.soft, Eff.halts] at hs)

/-- A class without the effects that end a step and without reaction masks. -/
def softClass (T : Nat) : Bool := !T.testBit 1 && !T.testBit 7

theorem in_soft {T : Nat} (h : softClass T = true) {e : Eff} (he : In T e) : e.soft = true := by
  simp only [softClass, Bool.and_eq_true, Bool.not_eq_true'] at h
  have h1 := he.1
  cases e <;> first
    | rfl
    | (simp only [Eff.tag] at h1; rw [h.1] at h1; exact absurd h1 (by decide))
    | (simp only [Eff.tag] at h1; rw [h.2] at h1; exact absurd h1 (by decide))

/-- A program run from a calm state is whole, ends in a calm state, and leaves every part that its footprint spares. -/
theorem runAct_same {T : Nat} (hT : softClass T = true) {a : Act} (ha : a.Foot (In T)) {s : State} (hs : s.calm) :
    (runAct a s).calm ∧ ∀ p : Part, p.spared T = true → p.same s (runAct a s) := by
  have h := runGo_foot (P := In T) (R := fun s t => ∀ p : Part, p.spared T = true → p.same s t) (fun s p _ => p.same_refl s)
    (fun h k p hp => p.same_trans (h p hp) (k p hp)) (fun e he => in_soft hT he) (fun e s he p hp => eff_same he (in_soft hT he) hp s) a s ha hs
  exact ⟨h.2.1, h.2.2⟩

/-- A part of a program that ends nothing is followed by the rest. -/
theorem runGo_seq {T : Nat} (hT : softClass T = true) {a : Act} (ha : a.Foot (In T)) (b : Act) {s : State} (hs : s.calm) :
    runGo (.seq a b) s = runGo b (runAct a s) := by
  have h := runGo_foot (P := In T) (R := fun _ _ => True) (fun _ => trivial) (fun _ _ => trivial) (fun e he => in_soft hT he) (fun _ _ _ => trivial) a s ha hs
  rw [runGo]
  split
  · rename_i s1 hq; rw [hq] at h; simp at h
  · rename_i s1 hq; simp [runAct, hq]

theorem runAct_seq {T : Nat} (hT : softClass T = true) {a : Act} (ha : a.Foot (In T)) (b : Act) {s : State} (hs : s.calm) :
    runAct (.seq a b) s = runAct b (runAct a s) := by
  unfold runAct
  rw [runGo_seq hT ha b hs]
  rfl

end Sys2Proof.Machine
end

