-- ==== Sys2Proof/Laws/Run.lean ====
section
/-!
SUPPORT. Laws/Run.lean: how a program of effects runs, one construct at a time. With these rules `simp` turns a run into the effects that it
comes to.
-/

namespace Sys2Proof.Machine

/-! ### Constructs -/

@[simp] theorem runAct_skip (s : State) : runAct .skip s = s := rfl
@[simp] theorem runAct_eff (e : Eff) (s : State) : runAct (.eff e) s = applyEff e s := rfl
@[simp] theorem runAct_ask (k : State → Act) (s : State) : runAct (.ask k) s = runAct (k s) s := rfl

@[simp] theorem runGo_skip (s : State) : runGo .skip s = (s, false) := rfl
@[simp] theorem runGo_eff (e : Eff) (s : State) : runGo (.eff e) s = (applyEff e s, e.halts) := rfl
@[simp] theorem runGo_ask (k : State → Act) (s : State) : runGo (.ask k) s = runGo (k s) s := rfl

theorem runGo_seq_eq (a b : Act) (s : State) : runGo (.seq a b) s = if (runGo a s).2 then runGo a s else runGo b (runGo a s).1 := by
  rw [runGo]
  split
  · rename_i h; simp [h]
  · rename_i h; simp [h]

theorem runGo_skip_right (a : Act) (s : State) : runGo (.seq a .skip) s = runGo a s := by
  rw [runGo_seq_eq]
  split
  · rfl
  · rename_i h
    rw [runGo_skip]
    simp only [Bool.not_eq_true] at h
    rw [← h]

theorem runGo_acts_cons (a : Act) (as : List Act) (s : State) : runGo (acts (a :: as)) s = runGo (.seq a (acts as)) s := by
  cases as with
  | nil => exact (runGo_skip_right a s).symm
  | cons b bs => rfl

theorem runAct_acts_cons (a : Act) (as : List Act) (s : State) : runAct (acts (a :: as)) s = runAct (.seq a (acts as)) s := by
  rw [runAct, runGo_acts_cons, runAct]

@[simp] theorem acts_nil : acts [] = .skip := rfl
@[simp] theorem acts_one (a : Act) : acts [a] = a := rfl
@[simp] theorem runAct_skip_left (a : Act) (s : State) : runAct (.seq .skip a) s = runAct a s := by
  simp [runAct, runGo_seq_eq]
@[simp] theorem runAct_skip_right (a : Act) (s : State) : runAct (.seq a .skip) s = runAct a s := by
  rw [runAct, runGo_skip_right, runAct]
theorem runAct_eff_left (e : Eff) (a : Act) (s : State) (h : e.halts = false) : runAct (.seq (.eff e) a) s = runAct a (applyEff e s) := by
  simp [runAct, runGo_seq_eq, h]
theorem runAct_halt_left (e : Eff) (a : Act) (s : State) (h : e.halts = true) : runAct (.seq (.eff e) a) s = applyEff e s := by
  simp [runAct, runGo_seq_eq, h]
@[simp] theorem runAct_ask_left (k : State → Act) (a : Act) (s : State) : runAct (.seq (.ask k) a) s = runAct (.seq (k s) a) s := by
  simp only [runAct, runGo_seq_eq]
  rfl
@[simp] theorem runAct_seq_left (a b c : Act) (s : State) : runAct (.seq (.seq a b) c) s = runAct (.seq a (.seq b c)) s := by
  simp only [runAct, runGo_seq_eq]
  by_cases h : (runGo a s).2 = true
  · simp [h]
  · simp [h]
@[simp] theorem runAct_acts_left (a : Act) (as : List Act) (b : Act) (s : State) :
    runAct (.seq (acts (a :: as)) b) s = runAct (.seq a (.seq (acts as) b)) s := by
  rw [← runAct_seq_left]
  simp only [runAct]
  rw [runGo_seq_eq, runGo_seq_eq, runGo_acts_cons]
@[simp] theorem runAct_ite_left (c : Prop) [Decidable c] (a b x : Act) (s : State) :
    runAct (.seq (if c then a else b) x) s = if c then runAct (.seq a x) s else runAct (.seq b x) s := by
  split <;> rfl
@[simp] theorem runAct_ite (c : Prop) [Decidable c] (a b : Act) (s : State) :
    runAct (if c then a else b) s = if c then runAct a s else runAct b s := by
  split <;> rfl

/-! ### Effects that end nothing -/

@[simp] theorem run_csr (off : Nat) (v : Word) (a : Act) (s : State) : runAct (.seq (.eff (.csr off v)) a) s = runAct a (applyEff (.csr off v) s) := runAct_eff_left _ _ _ rfl
@[simp] theorem run_react (off : Nat) (v : Word) (a : Act) (s : State) : runAct (.seq (.eff (.react off v)) a) s = runAct a (applyEff (.react off v) s) := runAct_eff_left _ _ _ rfl
@[simp] theorem run_com (off : Nat) (v : Word) (a : Act) (s : State) : runAct (.seq (.eff (.com off v)) a) s = runAct a (applyEff (.com off v) s) := runAct_eff_left _ _ _ rfl
@[simp] theorem run_mem (k : Nat) (bs : List Byte) (a : Act) (s : State) : runAct (.seq (.eff (.mem k bs)) a) s = runAct a (applyEff (.mem k bs) s) := runAct_eff_left _ _ _ rfl
@[simp] theorem run_ecc (w : Nat) (d : Byte) (a : Act) (s : State) : runAct (.seq (.eff (.ecc w d)) a) s = runAct a (applyEff (.ecc w d) s) := runAct_eff_left _ _ _ rfl
@[simp] theorem run_rdata (v : Word) (a : Act) (s : State) : runAct (.seq (.eff (.rdata v)) a) s = runAct a (applyEff (.rdata v) s) := runAct_eff_left _ _ _ rfl
@[simp] theorem run_tick (a : Act) (s : State) : runAct (.seq (.eff .tick) a) s = runAct a (applyEff .tick s) := runAct_eff_left _ _ _ rfl
@[simp] theorem run_tts (f : Tts → Tts) (a : Act) (s : State) : runAct (.seq (.eff (.tts f)) a) s = runAct a (applyEff (.tts f) s) := runAct_eff_left _ _ _ rfl
@[simp] theorem run_cfe (f : Cfe → Cfe) (a : Act) (s : State) : runAct (.seq (.eff (.cfe f)) a) s = runAct a (applyEff (.cfe f) s) := runAct_eff_left _ _ _ rfl
@[simp] theorem run_adm (f : Adm → Adm) (a : Act) (s : State) : runAct (.seq (.eff (.adm f)) a) s = runAct a (applyEff (.adm f) s) := runAct_eff_left _ _ _ rfl
@[simp] theorem run_seats (f : Seats → Seats) (a : Act) (s : State) : runAct (.seq (.eff (.seats f)) a) s = runAct a (applyEff (.seats f) s) := runAct_eff_left _ _ _ rfl
@[simp] theorem run_worlds (f : Worlds → Worlds) (a : Act) (s : State) : runAct (.seq (.eff (.worlds f)) a) s = runAct a (applyEff (.worlds f) s) := runAct_eff_left _ _ _ rfl
@[simp] theorem run_memc (f : MemCtl → MemCtl) (a : Act) (s : State) : runAct (.seq (.eff (.memc f)) a) s = runAct a (applyEff (.memc f) s) := runAct_eff_left _ _ _ rfl
@[simp] theorem run_dma (k : Nat) (v : DmaCh) (a : Act) (s : State) : runAct (.seq (.eff (.dma k v)) a) s = runAct a (applyEff (.dma k v) s) := runAct_eff_left _ _ _ rfl
@[simp] theorem run_chk (u : Nat) (v : ChkUnit) (a : Act) (s : State) : runAct (.seq (.eff (.chk u v)) a) s = runAct a (applyEff (.chk u v) s) := runAct_eff_left _ _ _ rfl
@[simp] theorem run_pic (f : Pic → Pic) (a : Act) (s : State) : runAct (.seq (.eff (.pic f)) a) s = runAct a (applyEff (.pic f) s) := runAct_eff_left _ _ _ rfl
@[simp] theorem run_vid (f : Vid → Vid) (a : Act) (s : State) : runAct (.seq (.eff (.vid f)) a) s = runAct a (applyEff (.vid f) s) := runAct_eff_left _ _ _ rfl
@[simp] theorem run_med (f : Med → Med) (a : Act) (s : State) : runAct (.seq (.eff (.med f)) a) s = runAct a (applyEff (.med f) s) := runAct_eff_left _ _ _ rfl
@[simp] theorem run_flt (f : Flt → Flt) (a : Act) (s : State) : runAct (.seq (.eff (.flt f)) a) s = runAct a (applyEff (.flt f) s) := runAct_eff_left _ _ _ rfl
@[simp] theorem run_clk (f : Clk → Clk) (a : Act) (s : State) : runAct (.seq (.eff (.clk f)) a) s = runAct a (applyEff (.clk f) s) := runAct_eff_left _ _ _ rfl
@[simp] theorem run_pwr (f : Pwr → Pwr) (a : Act) (s : State) : runAct (.seq (.eff (.pwr f)) a) s = runAct a (applyEff (.pwr f) s) := runAct_eff_left _ _ _ rfl

/-! ### Ways to build programs -/

@[simp] theorem runAct_acts (a : Act) (as : List Act) (s : State) : runAct (acts (a :: as)) s = runAct (.seq a (acts as)) s := runAct_acts_cons a as s
@[simp] theorem runAct_actIf (c : Bool) (a : Act) (s : State) : runAct (actIf c a) s = if c then runAct a s else s := by
  unfold actIf; split <;> rfl
@[simp] theorem runAct_actIf_left (c : Bool) (a b : Act) (s : State) :
    runAct (.seq (actIf c a) b) s = if c then runAct (.seq a b) s else runAct b s := by
  unfold actIf; split <;> simp
@[simp] theorem runAct_whenS (c : State → Bool) (a : Act) (s : State) : runAct (whenS c a) s = if c s then runAct a s else s := by
  unfold whenS; simp
@[simp] theorem runAct_whenS_left (c : State → Bool) (a b : Act) (s : State) :
    runAct (.seq (whenS c a) b) s = if c s then runAct (.seq a b) s else runAct b s := by
  unfold whenS; simp
@[simp] theorem actOpt_some {α : Type} (x : α) (f : α → Act) : actOpt (some x) f = f x := rfl
@[simp] theorem actOpt_none {α : Type} (f : α → Act) : actOpt none f = .skip := rfl
@[simp] theorem each_nil {α : Type} (f : α → Act) : each [] f = .skip := rfl
@[simp] theorem each_cons {α : Type} (x : α) (xs : List α) (f : α → Act) : each (x :: xs) f = acts (f x :: xs.map f) := rfl

/-- A program each of whose parts changes nothing of interest: what holds of the start and is kept by every part holds of the end. -/
theorem runGo_each_inv {α : Type} (J : State → Prop) (xs : List α) (f : α → Act)
    (h : ∀ x ∈ xs, ∀ s, J s → (runGo (f x) s).2 = false ∧ J (runGo (f x) s).1) :
    ∀ s, J s → (runGo (each xs f) s).2 = false ∧ J (runGo (each xs f) s).1 := by
  induction xs with
  | nil => intro s hs; exact ⟨rfl, hs⟩
  | cons x xs ih =>
    intro s hs
    have h1 := h x (List.mem_cons_self ..) s hs
    rw [each_cons, runGo_acts_cons, runGo_seq_eq, h1.1]
    exact ih (fun y hy => h y (List.mem_cons_of_mem _ hy)) _ h1.2

/-! ### Commands in a state that lives -/

/-- In a state with power that is not in the safe state, a command that names what there is has its effects. -/
theorem live_next {s : State} (h : s.live) {ok : Bool} (ho : ok = true) (a : Act) : live ok a s = .next (runAct a s) := by
  unfold live
  simp [h.1, h.2, ho]

/-- A soft part of a program in front of the rest, run from a calm state. -/
theorem runAct_soft_left {T : Nat} (hT : softClass T = true) {a : Act} (ha : a.Foot (In T)) (b : Act) {s : State} (hs : s.calm) :
    runAct (.seq a b) s = runAct b (runAct a s) := runAct_seq hT ha b hs

theorem runAct_soft_cons {T : Nat} (hT : softClass T = true) {a : Act} (ha : a.Foot (In T)) (as : List Act) {s : State} (hs : s.calm) :
    runAct (acts (a :: as)) s = runAct (acts as) (runAct a s) := by
  rw [runAct_acts_cons, runAct_seq hT ha _ hs]

/-- The first part of a program, run from a calm state: the rest runs from a calm state in which every part that the class of the first spares is
the same. -/
theorem soft_step {T : Nat} (hT : softClass T = true) {a : Act} (ha : a.Foot (In T)) (as : List Act) {s : State} (hs : s.calm) :
    ∃ s1, runAct (acts (a :: as)) s = runAct (acts as) s1 ∧ s1 = runAct a s ∧ s1.calm ∧ ∀ p : Part, p.spared T = true → p.same s s1 :=
  ⟨_, runAct_soft_cons hT ha as hs, rfl, runAct_same hT ha hs⟩

/-- The last part of a program. -/
theorem soft_last {T : Nat} (hT : softClass T = true) {a : Act} (ha : a.Foot (In T)) {s : State} (hs : s.calm) :
    ∃ s1, runAct a s = s1 ∧ s1.calm ∧ ∀ p : Part, p.spared T = true → p.same s s1 :=
  ⟨_, rfl, runAct_same hT ha hs⟩

end Sys2Proof.Machine
end

