-- ==== Sys2Proof/Laws/Fields.lean ====
section
/-!
SUPPORT. Laws/Fields.lean: reading back fields of words and of registers after one field has been set.
-/

namespace Sys2Proof.Machine

/-! ### Fields of numbers and words -/

theorem nBits_lt (v lo w : Nat) : nBits v lo w < 2 ^ w := Nat.mod_lt _ (Nat.two_pow_pos w)

theorem nBits_testBit (v lo w i : Nat) : (nBits v lo w).testBit i = (decide (i < w) && v.testBit (lo + i)) := by
  simp [nBits, Nat.testBit_mod_two_pow, Nat.testBit_shiftRight]

theorem nSet_le (v lo w : Nat) : ((v >>> lo) % 2 ^ w) * 2 ^ lo ≤ v := by
  rw [Nat.shiftRight_eq_div_pow]
  calc (v / 2 ^ lo) % 2 ^ w * 2 ^ lo ≤ v / 2 ^ lo * 2 ^ lo := Nat.mul_le_mul_right _ (Nat.mod_le _ _)
    _ ≤ v := Nat.div_mul_le_self _ _

/-- The three parts of a number around a field. -/
theorem nSet_split (v lo w x : Nat) : nSet v lo w x = v % 2 ^ lo + 2 ^ lo * (x % 2 ^ w + 2 ^ w * (v / 2 ^ lo / 2 ^ w)) := by
  have h1 := Nat.div_add_mod v (2 ^ lo)
  have h2 := Nat.div_add_mod (v / 2 ^ lo) (2 ^ w)
  have h3 := nSet_le v lo w
  unfold nSet
  rw [Nat.shiftRight_eq_div_pow] at *
  have e1 : v / 2 ^ lo % 2 ^ w * 2 ^ lo = 2 ^ lo * (v / 2 ^ lo % 2 ^ w) := Nat.mul_comm _ _
  have e2 : x % 2 ^ w * 2 ^ lo = 2 ^ lo * (x % 2 ^ w) := Nat.mul_comm _ _
  have e3 : 2 ^ lo * (v / 2 ^ lo) = 2 ^ lo * (2 ^ w * (v / 2 ^ lo / 2 ^ w)) + 2 ^ lo * (v / 2 ^ lo % 2 ^ w) := by
    rw [← Nat.mul_add, h2]
  rw [Nat.mul_add]
  omega

theorem nSet_testBit (v lo w x i : Nat) :
    (nSet v lo w x).testBit i = if lo ≤ i ∧ i < lo + w then x.testBit (i - lo) else v.testBit i := by
  rw [nSet_split, Nat.add_comm, Nat.testBit_two_pow_mul_add _ (Nat.mod_lt _ (Nat.two_pow_pos lo))]
  by_cases h : i < lo
  · rw [if_pos h, if_neg (by omega), Nat.testBit_mod_two_pow]; simp [h]
  · rw [if_neg h, Nat.add_comm (x % 2 ^ w), Nat.testBit_two_pow_mul_add _ (Nat.mod_lt _ (Nat.two_pow_pos w))]
    by_cases h' : i - lo < w
    · rw [if_pos h', if_pos (by omega), Nat.testBit_mod_two_pow]; simp [h']
    · rw [if_neg h', if_neg (by omega), Nat.testBit_div_two_pow, Nat.testBit_div_two_pow]
      congr 1; omega

theorem nSet_lt {v lo w x n : Nat} (hv : v < 2 ^ n) (hw : lo + w ≤ n) : nSet v lo w x < 2 ^ n := by
  apply Nat.lt_pow_two_of_testBit
  intro i hi
  rw [nSet_testBit, if_neg (by omega)]
  exact Nat.testBit_lt_two_pow (Nat.lt_of_lt_of_le hv (Nat.pow_le_pow_right (by decide) hi))

theorem wSet_toNat (v : Word) {lo w : Nat} (hw : lo + w ≤ 64) (x : Nat) : (wSet v lo w x).toNat = nSet v.toNat lo w x := by
  rw [wSet, BitVec.toNat_ofNat, Nat.mod_eq_of_lt (nSet_lt v.isLt hw)]

theorem wBits_testBit (v : Word) (lo w i : Nat) : (wBits v lo w).testBit i = (decide (i < w) && v.toNat.testBit (lo + i)) := nBits_testBit ..

/-- The field that was set reads its value. -/
theorem wBits_wSet (v : Word) {lo w : Nat} (hw : lo + w ≤ 64) (x : Nat) : wBits (wSet v lo w x) lo w = x % 2 ^ w := by
  apply Nat.eq_of_testBit_eq
  intro i
  rw [wBits_testBit, wSet_toNat v hw, nSet_testBit, Nat.testBit_mod_two_pow]
  by_cases h : i < w
  · rw [if_pos (by omega)]; simp [h]
  · simp [h]

/-- A field apart from the one that was set reads what it read. -/
theorem wBits_wSet_ne (v : Word) {lo w lo' w' : Nat} (hw : lo + w ≤ 64) (hd : lo' + w' ≤ lo ∨ lo + w ≤ lo') (x : Nat) :
    wBits (wSet v lo w x) lo' w' = wBits v lo' w' := by
  apply Nat.eq_of_testBit_eq
  intro i
  rw [wBits_testBit, wBits_testBit, wSet_toNat v hw, nSet_testBit]
  by_cases h : i < w'
  · rw [if_neg (by omega)]
  · simp [h]

/-- A mask that holds a field leaves it. -/
theorem wBits_mask (v : Word) (m lo w : Nat) (hm : nBits (m % 2 ^ 64) lo w = 2 ^ w - 1) : wBits (v &&& BitVec.ofNat 64 m) lo w = wBits v lo w := by
  apply Nat.eq_of_testBit_eq
  intro i
  rw [wBits_testBit, wBits_testBit, BitVec.toNat_and, Nat.testBit_and, BitVec.toNat_ofNat]
  by_cases h : i < w
  · have := congrArg (fun k => k.testBit i) hm
    simp only [nBits_testBit, Nat.testBit_two_pow_sub_one, h, decide_true, Bool.true_and] at this
    rw [this, Bool.and_true]
  · simp [h]

theorem wBit_eq (v : Word) (i : Nat) : wBit v i = v.toNat.testBit i := by
  rw [wBit, nBit, Nat.testBit_eq_decide_div_mod_eq, Nat.shiftRight_eq_div_pow]

theorem wBit_iff (v : Word) (i : Nat) : wBit v i = decide (wBits v i 1 = 1) := by
  simp [wBit, nBit, wBits, nBits]

/-! ### Registers -/

theorem reactReg_low {off : Nat} (h : off < 0x600000) : reactReg off = false := by
  simp only [reactReg]
  rw [decide_eq_false (by omega)]; rfl

theorem reactReg_page {off : Nat} (h : 0x610000 ≤ off) : reactReg off = false := by
  simp only [reactReg]
  rw [decide_eq_false (p := off < 0x610000) (by omega)]; simp

/-- Registers of a station page but its masks. -/
theorem reactReg_station {st o : Nat} (ho : o < 0x40) : reactReg (0x600000 + 0x100 * st + o) = false := by
  simp only [reactReg]
  rw [decide_eq_false (p := 0x40 ≤ (0x600000 + 0x100 * st + o) % 0x100) (by omega)]; simp

/-- The effect on a register but a reaction mask. -/
theorem applyEff_csr {off : Nat} (h : reactReg off = false) (v : Word) (s : State) : applyEff (.csr off v) s = s.putReg off v := by
  simp [applyEff, h, State.putReg]

/-- What the form of the state says of the registers. -/
theorem State.wf_csr {s : State} (h : s.wf = true) : mapWf regDflt s.csr = true := by
  simp only [State.wf, regsWf, Bool.and_eq_true] at h
  exact h.1.1.1.2.1

theorem rd_putReg {s : State} (h : s.wf = true) (off : Nat) (v : Word) : (s.putReg off v).rd off = regMask off v :=
  mapGet_put_wf regDflt off _ _ (State.wf_csr h)

theorem rd_putReg_ne (s : State) {off off' : Nat} (h : off' ≠ off) (v : Word) : (s.putReg off v).rd off' = s.rd off' :=
  mapGet_put_ne regDflt h _ _

/-- A register holds no reserved bit. -/
theorem rd_mask {s : State} (h : s.wf = true) (off : Nat) (hd : regMask off (regDflt off) = regDflt off) : regMask off (s.rd off) = s.rd off := by
  simp only [State.wf, regsWf, Bool.and_eq_true] at h
  have h2 := h.1.1.1.2.2
  unfold State.rd
  generalize s.csr = m at h2
  induction m with
  | nil => exact hd
  | cons e m ih =>
    obtain ⟨k1, v1⟩ := e
    simp only [List.all_cons, Bool.and_eq_true, decide_eq_true_eq] at h2
    unfold mapGet
    split
    · rename_i h'; subst h'; exact h2.1
    · exact ih h2.2

/-- A field that was set reads its value, where the register has that field. -/
theorem fld_putFld {s : State} (h : s.wf = true) {off lo w : Nat} (hw : lo + w ≤ 64) (hm : nBits (regImpl off % 2 ^ 64) lo w = 2 ^ w - 1) (x : Nat) :
    (s.putFld off lo w x).fld off lo w = x % 2 ^ w := by
  rw [State.fld, State.putFld, rd_putReg h, regMask, wBits_mask _ _ _ _ hm, wBits_wSet _ hw]

/-- A field of a register that was set whole. -/
theorem fld_putReg {s : State} (h : s.wf = true) {off lo w : Nat} (hm : nBits (regImpl off % 2 ^ 64) lo w = 2 ^ w - 1) (v : Word) :
    (s.putReg off v).fld off lo w = wBits v lo w := by
  rw [State.fld, rd_putReg h, regMask, wBits_mask _ _ _ _ hm]

/-- Another field of the register reads what it read. -/
theorem fld_putFld_ne {s : State} (h : s.wf = true) {off lo w lo' w' : Nat} (hw : lo + w ≤ 64) (hd : lo' + w' ≤ lo ∨ lo + w ≤ lo')
    (hm : nBits (regImpl off % 2 ^ 64) lo' w' = 2 ^ w' - 1) (x : Nat) : (s.putFld off lo w x).fld off lo' w' = s.fld off lo' w' := by
  rw [State.fld, State.putFld, rd_putReg h, regMask, wBits_mask _ _ _ _ hm, wBits_wSet_ne _ hw hd, State.fld]

theorem bitAt_iff (s : State) (off i : Nat) : s.bitAt off i = decide (s.fld off i 1 = 1) := wBit_iff _ _

/-! ### Register operations as programs -/

@[simp] theorem setFld_run (off lo w x : Nat) (s : State) (h : reactReg off = false) : runAct (setFld off lo w x) s = s.putFld off lo w x := by
  simp [setFld, applyEff_csr h, State.putFld]
@[simp] theorem setFld_run_left (off lo w x : Nat) (a : Act) (s : State) (h : reactReg off = false) :
    runAct (.seq (setFld off lo w x) a) s = runAct a (s.putFld off lo w x) := by
  simp [setFld, applyEff_csr h, State.putFld]
@[simp] theorem setReg_run (off : Nat) (v : Word) (s : State) (h : reactReg off = false) : runAct (setReg off v) s = s.putReg off v := by
  simp [setReg, applyEff_csr h]
@[simp] theorem setReg_run_left (off : Nat) (v : Word) (a : Act) (s : State) (h : reactReg off = false) :
    runAct (.seq (setReg off v) a) s = runAct a (s.putReg off v) := by
  simp [setReg, applyEff_csr h]
@[simp] theorem putFld_live (s : State) (off lo w x : Nat) : (s.putFld off lo w x).live ↔ s.live := Iff.rfl
theorem eff_tts_eq (f : Tts → Tts) (s : State) : applyEff (.tts f) s = { s with tts := f s.tts } := rfl
theorem eff_pwr_eq (f : Pwr → Pwr) (s : State) : applyEff (.pwr f) s = { s with pwr := f s.pwr } := rfl

end Sys2Proof.Machine
end

