-- ==== Sys2Proof/Laws/Form.lean ====
section
/-!
SUPPORT. Laws/Form.lean: every command but the loss of power is a run of one program of effects, and every run keeps the form of the state and
the queue.
-/

namespace Sys2Proof.Machine

/-- No effect touches the commands that wait. -/
theorem applyEff_pending (e : Eff) (s : State) : (applyEff e s).pending = s.pending := by cases e <;> rfl
theorem runGo_pending (a : Act) : ∀ s, (runGo a s).1.pending = s.pending := by
  induction a with
  | skip => intro s; rfl
  | eff e => intro s; exact applyEff_pending e s
  | seq a b iha ihb =>
    intro s
    rw [runGo_seq_eq]
    split
    · exact iha s
    · rw [ihb, iha]
  | ask k ih => intro s; exact ih s s
theorem runAct_pending (a : Act) (s : State) : (runAct a s).pending = s.pending := runGo_pending a s
/-- An outcome that is the end of a run of some program. -/
def Ran (s : State) (o : Host.Outcome State Fault Refusal) : Prop := ∃ a : Act, o = .next (runAct a s)
theorem ran_live (ok : Bool) (a : Act) (s : State) : Ran s (live ok a s) := by
  unfold live
  split
  · exact ⟨.skip, rfl⟩
  · exact ⟨a, rfl⟩
theorem ran_read (ok : Bool) (p : Path) (off size : Nat) (s : State) : Ran s (readCommand ok p off size s) := by
  unfold readCommand
  split
  · exact ⟨_, rfl⟩
  · exact ran_live _ _ _
theorem ran_exec (c : Instr) (s : State) (h : c ≠ .railsComeDown) : Ran s (exec c s) := by
  cases c <;> first
    | exact ran_live _ _ _
    | exact ran_read _ _ _ _ _
    | skip
  case powerOnReset st =>
    show Ran s (execPowerOnReset st s)
    unfold execPowerOnReset; split
    · exact ⟨.eff (.powerOn st), rfl⟩
    · exact ⟨.skip, rfl⟩
  case pinReset st n =>
    show Ran s (execPinReset st n s)
    unfold execPinReset
    split
    · exact ⟨.skip, rfl⟩
    split
    · exact ⟨_, rfl⟩
    split
    · exact ⟨_, rfl⟩
    · exact ⟨_, rfl⟩
  case hmnKick p k cfg =>
    cases cfg <;> exact ran_live _ _ _
  case headLineStart a b c d =>
    show Ran s (execHeadLineStart a b c d s)
    unfold execHeadLineStart
    split
    · exact ⟨_, rfl⟩
    · exact ran_live _ _ _
  case railsComeDown => exact absurd rfl h

theorem mapAll_put {α : Type} [DecidableEq α] (d : Nat → α) (p : Nat × α → Bool) (k : Nat) (v : α) (m : List (Nat × α))
    (hm : m.all p = true) (hv : p (k, v) = true) : (mapPut d k v m).all p = true := by
  induction m with
  | nil => unfold mapPut; split <;> simp_all
  | cons e m ih =>
    obtain ⟨k1, v1⟩ := e
    simp only [List.all_cons, Bool.and_eq_true] at hm
    unfold mapPut
    split
    · split <;> simp_all
    · split
      · split <;> simp_all
      · simp [ih hm.2, hm.1]
theorem regsWf_put (off : Nat) (v : Word) (m : List (Nat × Word)) (h : regsWf m = true) : regsWf (regPut off v m) = true := by
  simp only [regsWf, Bool.and_eq_true] at *
  refine ⟨mapWf_put _ _ _ _ h.1, mapAll_put _ _ _ _ _ h.2 ?_⟩
  simp [regMask, BitVec.and_assoc]

theorem wf_iff (s : State) : s.wf = true ↔ Memory.wf s.mem = true ∧ mapWf (fun _ => (0 : Byte)) s.ecc = true ∧ regsWf s.csr = true
    ∧ regsWf s.com = true ∧ mapWf dmaIdle s.dma = true ∧ mapWf chkIdle s.chk = true := by
  simp [State.wf, and_assoc]

theorem mapGet_all {α : Type} (d : Nat → α) (p : Nat × α → Bool) (k : Nat) (m : List (Nat × α)) (hd : p (k, d k) = true) (hm : m.all p = true) :
    p (k, mapGet d k m) = true := by
  induction m with
  | nil => exact hd
  | cons e m ih =>
    obtain ⟨k1, v1⟩ := e
    simp only [List.all_cons, Bool.and_eq_true] at hm
    unfold mapGet
    split
    · rename_i h; subst h; exact hm.1
    · exact ih hm.2
theorem hosc_mask : ∀ a < 256, ∀ b < 2, regMask Reg.clkHosc (wSet (wSet (regDflt Reg.clkHosc) 8 8 a) 16 1 b) = wSet (wSet (regDflt Reg.clkHosc) 8 8 a) 16 1 b := by
  decide +kernel
theorem kept_wf (s : State) (h : regsWf s.csr = true) : regsWf (keptRegs s) = true := by
  unfold keptRegs
  simp only [regsWf, Bool.and_eq_true] at *
  refine ⟨mapWf_put _ _ _ _ (mapWf_put _ _ _ _ rfl), mapAll_put _ _ _ _ _ (mapAll_put _ _ _ _ _ rfl ?_) ?_⟩
  · exact mapGet_all regDflt (fun kv => decide (regMask kv.1 kv.2 = kv.2)) Reg.fltCause s.csr (by decide) h.2
  · have h1 : s.fld Reg.clkHosc 8 8 < 256 := by unfold State.fld wBits nBits; omega
    have h2 : s.fld Reg.clkHosc 16 1 < 2 := by unfold State.fld wBits nBits; omega
    simpa using hosc_mask _ h1 _ h2

theorem applyEff_wf (e : Eff) (s : State) (h : s.wf = true) : (applyEff e s).wf = true := by
  rw [wf_iff] at *
  obtain ⟨h1, h2, h3, h4, h5, h6⟩ := h
  cases e with
  | csr off v => refine ⟨h1, h2, ?_, h4, h5, h6⟩; simp only [applyEff]; split; exact h3; exact regsWf_put _ _ _ h3
  | react off v => refine ⟨h1, h2, ?_, h4, h5, h6⟩; simp only [applyEff]; split; exact regsWf_put _ _ _ h3; exact h3
  | com off v => exact ⟨h1, h2, h3, regsWf_put _ _ _ h4, h5, h6⟩
  | mem k bs => exact ⟨memPut_wf k bs _ h1, h2, h3, h4, h5, h6⟩
  | ecc w d => exact ⟨h1, mapWf_put _ _ _ _ h2, h3, h4, h5, h6⟩
  | dma k v => exact ⟨h1, h2, h3, h4, mapWf_put _ _ _ _ h5, h6⟩
  | chk k v => exact ⟨h1, h2, h3, h4, h5, mapWf_put _ _ _ _ h6⟩
  | powerOn st => exact ⟨mapAbove_filter _ _ _ h1, rfl, rfl, rfl, rfl, rfl⟩
  | chipReset st v => exact ⟨h1, h2, regsWf_put _ _ _ (kept_wf s h3), rfl, rfl, rfl⟩
  | _ => exact ⟨h1, h2, h3, h4, h5, h6⟩
theorem runGo_wf (a : Act) : ∀ s, s.wf = true → (runGo a s).1.wf = true := by
  induction a with
  | skip => intro s h; exact h
  | eff e => intro s h; exact applyEff_wf e s h
  | seq a b iha ihb =>
    intro s h
    rw [runGo_seq_eq]
    split
    · exact iha s h
    · exact ihb _ (iha s h)
  | ask k ih => intro s h; exact ih s s h
/-- A run keeps the form of the state. -/
theorem runAct_wf (a : Act) {s : State} (h : s.wf = true) : (runAct a s).wf = true := runGo_wf a s h

/-- So does every command. -/
theorem exec_wf {c : Instr} {s t : State} (h : s.wf = true) (he : exec c s = .next t) : t.wf = true := by
  by_cases hc : c = .railsComeDown
  · subst hc
    injection he with he
    subst he
    exact applyEff_wf _ _ (applyEff_wf _ _ h)
  · obtain ⟨a, ha⟩ := ran_exec c s hc
    rw [ha] at he
    injection he with he
    subst he
    exact runAct_wf a h

end Sys2Proof.Machine
end

