-- ==== Sys2Proof/Laws/Access.lean ====
section
/-!
SUPPORT. Laws/Access.lean: what a register write that acts comes to, and the fields of a written word.
-/

namespace Sys2Proof.Machine

/-- A write that acts is the write of its register. -/
theorem writeCommand_lets {s : State} {p : Path} {off size a : Nat} {v : Word} {f : RegFam} {ix : List Nat} (h : s.lets p off size v a)
    (hf : regFind (a / 8 * 8) = some (f, ix)) {ok : Bool} (ho : ok = true) :
    writeCommand ok p off size v s = .next (runAct (registerWrite p f false (a / 8 * 8) size (coverWord a size v) (coverMask a size)) s) := by
  obtain ⟨h1, h2, h3, h4, h5⟩ := h
  rw [writeCommand, live_next h1 ho]
  simp [csrWriteAct, h2, csrWriteNow, h3, h4, hf, gatedWrite, h5]

/-- A command that sets bits is such a write. -/
theorem setCommand_lets {s : State} {p : Path} {off size bits clears a : Nat} {f : RegFam} {ix : List Nat}
    (h : s.lets p off size ((s.rd off &&& ~~~ BitVec.ofNat 64 clears) ||| BitVec.ofNat 64 bits) a)
    (hf : regFind (a / 8 * 8) = some (f, ix)) {ok : Bool} (ho : ok = true) :
    setCommand ok p off size bits clears s = .next (runAct (registerWrite p f false (a / 8 * 8) size
      (coverWord a size ((s.rd off &&& ~~~ BitVec.ofNat 64 clears) ||| BitVec.ofNat 64 bits)) (coverMask a size)) s) := by
  have := writeCommand_lets h hf ho
  rw [writeCommand, live_next h.1 ho] at this
  rw [setCommand, live_next h.1 ho]
  simpa using this

theorem ofNat_mod64 (n : Nat) (h : n < 2 ^ 64) : (BitVec.ofNat 64 n).toNat = n := by
  rw [BitVec.toNat_ofNat, Nat.mod_eq_of_lt h]

/-- A field of the written word in the lower half of its slot, as the write brings it. -/
theorem wBits_cover {a size : Nat} (ha : a % 8 = 0) (hs : size = 4 ∨ size = 8) (v : Word) {lo w : Nat} (hw : lo + w ≤ 32) :
    wBits (coverWord a size v &&& coverMask a size) lo w = wBits v lo w := by
  rcases hs with rfl | rfl
  · apply Nat.eq_of_testBit_eq
    intro i
    simp only [wBits_testBit, BitVec.toNat_and, Nat.testBit_and]
    by_cases h : i < w
    · have e1 : (coverWord a 4 v).toNat = v.toNat % 2 ^ 32 := by
        simp only [coverWord, ha]
        rw [if_neg (by decide)]
        rw [ofNat_mod64] <;> simp; omega
      have e2 : (coverMask a 4).toNat = 2 ^ 32 - 1 := by simp [coverMask, ha]
      rw [e1, e2, Nat.testBit_mod_two_pow, Nat.testBit_two_pow_sub_one]
      simp [h, show lo + i < 32 by omega]
    · simp [h]
  · simp only [coverWord, coverMask, if_true]
    have : v &&& BitVec.ofNat 64 (2 ^ 64 - 1) = v := by
      have : BitVec.ofNat 64 (2 ^ 64 - 1) = BitVec.allOnes 64 := by decide
      rw [this, BitVec.and_allOnes]
    rw [this]
/-- One bit of it. -/
theorem wBit_cover {a size : Nat} (ha : a % 8 = 0) (hs : size = 4 ∨ size = 8) (v : Word) {i : Nat} (hi : i < 32) :
    wBit (coverWord a size v &&& coverMask a size) i = wBit v i := by
  rw [wBit_iff, wBit_iff, wBits_cover ha hs v (by omega)]
/-- A 64-bit write brings its word. -/
theorem cover_whole (a : Nat) (v : Word) : coverWord a 8 v &&& coverMask a 8 = v := by
  simp only [coverWord, coverMask, if_true]
  have : BitVec.ofNat 64 (2 ^ 64 - 1) = BitVec.allOnes 64 := by decide
  rw [this, BitVec.and_allOnes]

end Sys2Proof.Machine
end

