-- ==== Sys2Proof/Laws/Calm.lean ====
section
/-!
SUPPORT. Laws/Calm.lean: states whose reaction masks stand at their reset values are calm (Table 16.3).
-/

namespace Sys2Proof.Machine

/-- No mask of Table 16.3 holds CHIP_RESET, and SAFE stands where `gravest` says. -/
theorem react_table : ∀ st < 256, ∀ src < 32, gravest st src = false →
    nBit (nBits (reactResetOf st (src / 8)) (8 * (src % 8)) 8) 3 = false ∧ nBit (nBits (reactResetOf st (src / 8)) (8 * (src % 8)) 8) 5 = false := by
  decide +kernel

theorem reactResetOf_lt {st j : Nat} (hst : st < 256) (hj : j < 4) : reactResetOf st j < 2 ^ 64 := by
  have : ∀ st < 256, ∀ j < 4, reactResetOf st j < 2 ^ 64 := by decide +kernel
  exact this st hst j hj

/-- A state in which every reaction mask reads its reset value is calm. -/
theorem calm_of_masks {s : State} (h : ∀ st j, st < 256 → j < 4 → s.rd (Reg.fsReact st j) = regDflt (Reg.fsReact st j)) : s.calm := by
  intro st src hst hsrc hg
  have hj : src / 8 < 4 := by omega
  have e : s.react st src = nBits (reactResetOf st (src / 8)) (8 * (src % 8)) 8 := by
    unfold State.react State.fld wBits
    rw [h st (src / 8) hst hj, regDflt, BitVec.toNat_ofNat, regReset_fsReact hst hj]
    by_cases hk : (stKind st).isSome = true
    · rw [if_pos hk, Nat.mod_eq_of_lt (reactResetOf_lt hst hj)]
    · rw [if_neg hk]
      simp only [Option.isSome_iff_ne_none, ne_eq, Classical.not_not] at hk
      simp [reactResetOf, hk]
  rw [e]
  exact react_table st hst src hsrc hg

/-- Registers listed beside the reaction masks leave a state calm. -/
theorem calm_of_csr {s : State} (h : s.csr.all (fun kv => !reactReg kv.1) = true) : s.calm := by
  refine calm_of_masks fun st j hst hj => ?_
  have hr : reactReg (Reg.fsReact st j) = true := by
    simp only [reactReg, Reg.fsReact, Bool.and_eq_true]
    refine ⟨⟨⟨?_, ?_⟩, ?_⟩, ?_⟩ <;> exact decide_eq_true (by omega)
  unfold State.rd
  generalize Reg.fsReact st j = k at *
  generalize s.csr = m at *
  induction m with
  | nil => rfl
  | cons e m ih =>
    obtain ⟨k1, v1⟩ := e
    simp only [List.all_cons, Bool.and_eq_true] at h
    unfold mapGet
    split
    · rename_i h'; subst h'; simp [hr] at h
    · exact ih h.2

end Sys2Proof.Machine
end

