-- ==== Sys2Proof/Laws/FootBase.lean ====
section
/-!
SUPPORT. Laws/FootBase.lean: footprints of the operations over registers, commands, stations, memory and rings. Each says once what its
operation can do; kinds are the bits of `Eff.tag`.
-/

namespace Sys2Proof.Machine

/-! ### Registers and commands -/

@[simp] theorem high_stoEccCtrl : 0x400000 ≤ Reg.stoEccCtrl := by decide
@[simp] theorem high_stoUeHead : 0x400000 ≤ Reg.stoUeHead := by decide
@[simp] theorem high_stoTestAddr : 0x400000 ≤ Reg.stoTestAddr := by decide
@[simp] theorem high_stoTestData : 0x400000 ≤ Reg.stoTestData := by decide
@[simp] theorem high_stoTestCheck : 0x400000 ≤ Reg.stoTestCheck := by decide
@[simp] theorem high_stoTestCmd : 0x400000 ≤ Reg.stoTestCmd := by decide
@[simp] theorem high_stoCeLogAddr (n : Nat) : 0x400000 ≤ Reg.stoCeLogAddr n := by unfold Reg.stoCeLogAddr; omega
@[simp] theorem high_stoCeLogInfo (n : Nat) : 0x400000 ≤ Reg.stoCeLogInfo n := by unfold Reg.stoCeLogInfo; omega
@[simp] theorem high_stoUeLogAddr (n : Nat) : 0x400000 ≤ Reg.stoUeLogAddr n := by unfold Reg.stoUeLogAddr; omega
@[simp] theorem high_stoUeLogInfo (n : Nat) : 0x400000 ≤ Reg.stoUeLogInfo n := by unfold Reg.stoUeLogInfo; omega
@[simp] theorem high_dmcEccCtrl : 0x400000 ≤ Reg.dmcEccCtrl := by decide
@[simp] theorem high_dmcUeHead : 0x400000 ≤ Reg.dmcUeHead := by decide
@[simp] theorem high_dmcTestAddr : 0x400000 ≤ Reg.dmcTestAddr := by decide
@[simp] theorem high_dmcTestData : 0x400000 ≤ Reg.dmcTestData := by decide
@[simp] theorem high_dmcTestCheck : 0x400000 ≤ Reg.dmcTestCheck := by decide
@[simp] theorem high_dmcTestCmd : 0x400000 ≤ Reg.dmcTestCmd := by decide
@[simp] theorem high_dmcCeLogAddr (n : Nat) : 0x400000 ≤ Reg.dmcCeLogAddr n := by unfold Reg.dmcCeLogAddr; omega
@[simp] theorem high_dmcCeLogInfo (n : Nat) : 0x400000 ≤ Reg.dmcCeLogInfo n := by unfold Reg.dmcCeLogInfo; omega
@[simp] theorem high_dmcUeLogAddr (n : Nat) : 0x400000 ≤ Reg.dmcUeLogAddr n := by unfold Reg.dmcUeLogAddr; omega
@[simp] theorem high_dmcUeLogInfo (n : Nat) : 0x400000 ≤ Reg.dmcUeLogInfo n := by unfold Reg.dmcUeLogInfo; omega
@[simp] theorem high_stoCeCount (n : Nat) : 0x400000 ≤ Reg.stoCeCount n := by unfold Reg.stoCeCount; omega
@[simp] theorem high_dmcChErr (n : Nat) : 0x400000 ≤ Reg.dmcChErr n := by unfold Reg.dmcChErr; omega
@[simp] theorem high_dmcCfg : 0x400000 ≤ Reg.dmcCfg := by decide
@[simp] theorem high_dmcTrainStatus : 0x400000 ≤ Reg.dmcTrainStatus := by decide
@[simp] theorem high_dmcRhCfg : 0x400000 ≤ Reg.dmcRhCfg := by decide
@[simp] theorem high_dmcIeccBase (n : Nat) : 0x400000 ≤ Reg.dmcIeccBase n := by unfold Reg.dmcIeccBase; omega
@[simp] theorem high_dmcIeccLimit (n : Nat) : 0x400000 ≤ Reg.dmcIeccLimit n := by unfold Reg.dmcIeccLimit; omega
@[simp] theorem high_dmcIeccCarve (n : Nat) : 0x400000 ≤ Reg.dmcIeccCarve n := by unfold Reg.dmcIeccCarve; omega
@[simp] theorem high_grdBase (n : Nat) (m : Nat) : 0x400000 ≤ Reg.grdBase n m := by unfold Reg.grdBase; omega
@[simp] theorem high_grdLimit (n : Nat) (m : Nat) : 0x400000 ≤ Reg.grdLimit n m := by unfold Reg.grdLimit; omega
@[simp] theorem high_grdAttr (n : Nat) (m : Nat) : 0x400000 ≤ Reg.grdAttr n m := by unfold Reg.grdAttr; omega
@[simp] theorem high_grdCtrl (n : Nat) : 0x400000 ≤ Reg.grdCtrl n := by unfold Reg.grdCtrl; omega
@[simp] theorem high_grdViolAddr (n : Nat) : 0x400000 ≤ Reg.grdViolAddr n := by unfold Reg.grdViolAddr; omega
@[simp] theorem high_grdViolInfo (n : Nat) : 0x400000 ≤ Reg.grdViolInfo n := by unfold Reg.grdViolInfo; omega
@[simp] theorem high_dmaSrc (n : Nat) : 0x400000 ≤ Reg.dmaSrc n := by unfold Reg.dmaSrc; omega
@[simp] theorem high_dmaDst (n : Nat) : 0x400000 ≤ Reg.dmaDst n := by unfold Reg.dmaDst; omega
@[simp] theorem high_dmaPattern (n : Nat) : 0x400000 ≤ Reg.dmaPattern n := by unfold Reg.dmaPattern; omega
@[simp] theorem high_dmaCtrl (n : Nat) : 0x400000 ≤ Reg.dmaCtrl n := by unfold Reg.dmaCtrl; omega
@[simp] theorem high_dmaStatus (n : Nat) : 0x400000 ≤ Reg.dmaStatus n := by unfold Reg.dmaStatus; omega
@[simp] theorem high_dptCfg (n : Nat) : 0x400000 ≤ Reg.dptCfg n := by unfold Reg.dptCfg; omega
@[simp] theorem high_dptStatus (n : Nat) : 0x400000 ≤ Reg.dptStatus n := by unfold Reg.dptStatus; omega
@[simp] theorem high_dptStream (n : Nat) (m : Nat) : 0x400000 ≤ Reg.dptStream n m := by unfold Reg.dptStream; omega
@[simp] theorem high_dptEdid (n : Nat) (m : Nat) (j : Nat) : 0x400000 ≤ Reg.dptEdid n m j := by unfold Reg.dptEdid; omega
@[simp] theorem high_fsStatus (n : Nat) : 0x400000 ≤ Reg.fsStatus n := by unfold Reg.fsStatus; omega
@[simp] theorem high_fsFirst (n : Nat) : 0x400000 ≤ Reg.fsFirst n := by unfold Reg.fsFirst; omega
@[simp] theorem high_fsCount (n : Nat) : 0x400000 ≤ Reg.fsCount n := by unfold Reg.fsCount; omega
@[simp] theorem high_fsCtrl (n : Nat) : 0x400000 ≤ Reg.fsCtrl n := by unfold Reg.fsCtrl; omega
@[simp] theorem high_fsInject (n : Nat) : 0x400000 ≤ Reg.fsInject n := by unfold Reg.fsInject; omega
@[simp] theorem high_fsInjMask (n : Nat) : 0x400000 ≤ Reg.fsInjMask n := by unfold Reg.fsInjMask; omega
@[simp] theorem high_fsReact (n : Nat) (m : Nat) : 0x400000 ≤ Reg.fsReact n m := by unfold Reg.fsReact; omega
@[simp] theorem high_seatId (n : Nat) : 0x400000 ≤ Reg.seatId n := by unfold Reg.seatId; omega
@[simp] theorem high_seatState (n : Nat) : 0x400000 ≤ Reg.seatState n := by unfold Reg.seatState; omega
@[simp] theorem high_irqPend (n : Nat) : 0x400000 ≤ Reg.irqPend n := by unfold Reg.irqPend; omega
@[simp] theorem high_irqMask (n : Nat) : 0x400000 ≤ Reg.irqMask n := by unfold Reg.irqMask; omega
@[simp] theorem high_budgetView (n : Nat) : 0x400000 ≤ Reg.budgetView n := by unfold Reg.budgetView; omega
@[simp] theorem high_dirtyLogBase (n : Nat) : 0x400000 ≤ Reg.dirtyLogBase n := by unfold Reg.dirtyLogBase; omega
@[simp] theorem high_replyBase (n : Nat) : 0x400000 ≤ Reg.replyBase n := by unfold Reg.replyBase; omega
@[simp] theorem high_statusBase (n : Nat) : 0x400000 ≤ Reg.statusBase n := by unfold Reg.statusBase; omega
@[simp] theorem high_ringBase (n : Nat) (m : Nat) : 0x400000 ≤ Reg.ringBase n m := by unfold Reg.ringBase; omega
@[simp] theorem high_ringPtrs (n : Nat) (m : Nat) : 0x400000 ≤ Reg.ringPtrs n m := by unfold Reg.ringPtrs; omega
@[simp] theorem high_doorbell (n : Nat) (m : Nat) : 0x400000 ≤ Reg.doorbell n m := by unfold Reg.doorbell; omega
@[simp] theorem high_ceAddr (d : Bool) (i : Nat) : 0x400000 ≤ ceAddr d i := by cases d <;> simp [ceAddr]
@[simp] theorem high_ceInfo (d : Bool) (i : Nat) : 0x400000 ≤ ceInfo d i := by cases d <;> simp [ceInfo]
@[simp] theorem high_ueAddr (d : Bool) (i : Nat) : 0x400000 ≤ ueAddr d i := by cases d <;> simp [ueAddr]
@[simp] theorem high_ueInfo (d : Bool) (i : Nat) : 0x400000 ≤ ueInfo d i := by cases d <;> simp [ueInfo]
@[simp] theorem high_ueHead (d : Bool) : 0x400000 ≤ ueHead d := by cases d <;> simp [ueHead]
@[simp] theorem high_eccCtrl (d : Bool) : 0x400000 ≤ eccCtrl d := by cases d <;> simp [eccCtrl]
@[simp] theorem high_ceCount (d : Bool) (i : Nat) : 0x400000 ≤ ceCount d i := by cases d <;> simp [ceCount]

@[simp] theorem setReg_high (off : Nat) (v : Word) (ho : 0x400000 ≤ off ∨ off = Reg.fltPin) {T : Nat} (h : 0x1 &&& T = 0x1) : (setReg off v).Foot (In T) :=
  foot_mono (L := 0x1) (by simp [setReg, ho]) h
@[simp] theorem setFld_high (off lo w x : Nat) (ho : 0x400000 ≤ off ∨ off = Reg.fltPin) {T : Nat} (h : 0x1 &&& T = 0x1) : (setFld off lo w x).Foot (In T) :=
  foot_mono (L := 0x1) (by simp [setFld, ho]) h
@[simp] theorem setBits_high (off m : Nat) (ho : 0x400000 ≤ off ∨ off = Reg.fltPin) {T : Nat} (h : 0x1 &&& T = 0x1) : (setBits off m).Foot (In T) :=
  foot_mono (L := 0x1) (by simp [setBits, ho]) h
@[simp] theorem clearBits_high (off m : Nat) (ho : 0x400000 ≤ off ∨ off = Reg.fltPin) {T : Nat} (h : 0x1 &&& T = 0x1) : (clearBits off m).Foot (In T) :=
  foot_mono (L := 0x1) (by simp [clearBits, ho]) h
@[simp] theorem setReg_foot (off : Nat) (v : Word) {T : Nat} (h : 0x20000001 &&& T = 0x20000001) : (setReg off v).Foot (In T) :=
  foot_mono (L := 0x20000001) (by simp [setReg]) h
@[simp] theorem setFld_foot (off lo w x : Nat) {T : Nat} (h : 0x20000001 &&& T = 0x20000001) : (setFld off lo w x).Foot (In T) :=
  foot_mono (L := 0x20000001) (by simp [setFld]) h
@[simp] theorem setBits_foot (off m : Nat) {T : Nat} (h : 0x20000001 &&& T = 0x20000001) : (setBits off m).Foot (In T) :=
  foot_mono (L := 0x20000001) (by simp [setBits]) h
@[simp] theorem clearBits_foot (off m : Nat) {T : Nat} (h : 0x20000001 &&& T = 0x20000001) : (clearBits off m).Foot (In T) :=
  foot_mono (L := 0x20000001) (by simp [clearBits]) h
@[simp] theorem setComFld_foot (off lo w x : Nat) {T : Nat} (h : 0x4 &&& T = 0x4) : (setComFld off lo w x).Foot (In T) :=
  foot_mono (L := 0x4) (by simp [setComFld]) h
@[simp] theorem resetReg_foot (off : Nat) {T : Nat} (h : 0x20000005 &&& T = 0x20000005) : (resetReg off).Foot (In T) :=
  foot_mono (L := 0x20000005) (by simp [resetReg]) h
@[simp] theorem cmdUpd_foot (id : Nat) (f : Cmd → Cmd) (hf : ∀ c : Cmd, c.Goes (f c)) {T : Nat} (h : 0x200 &&& T = 0x200) : (cmdUpd id f).Foot (In T) :=
  foot_mono (L := 0x200) (by simp only [cmdUpd, foot_eff, in_cfe]; exact ⟨by decide, .inr (.inl (cfeKeeps_map hf))⟩) h
theorem cmdUpd_wild (id : Nat) (f : Cmd → Cmd) {T : Nat} (h : 0x800200 &&& T = 0x800200) : (cmdUpd id f).Foot (In T) :=
  foot_mono (L := 0x800200) (by simp [cmdUpd]) h
@[simp] theorem cmdDrop_foot (id : Nat) {T : Nat} (h : 0x1000200 &&& T = 0x1000200) : (cmdDrop id).Foot (In T) :=
  foot_mono (L := 0x1000200) (by simp only [cmdDrop, foot_eff, in_cfe]; exact ⟨by decide, .inr (.inr ⟨by decide, cfeDrops_filter _⟩)⟩) h
@[simp] theorem sharesFree_foot (id : Nat) {T : Nat} (h : 0x400 &&& T = 0x400) : (sharesFree id).Foot (In T) :=
  foot_mono (L := 0x400) (by simp [sharesFree]) h
@[simp] theorem cmdEnd_foot (id : Nat) (f : Cmd → Cmd) (hf : ∀ c : Cmd, c.Goes (f c)) {T : Nat} (h : 0x600 &&& T = 0x600) : (cmdEnd id f).Foot (In T) :=
  foot_mono (L := 0x600) (by
    have hu : ∀ b i : Nat, ∀ c : Cmd, c.Goes { f c with stage := .ended, endBell := b, endId := i } := fun _ _ c =>
      ⟨(hf c).1, (hf c).2.1, (hf c).2.2.1, (hf c).2.2.2.1, fun _ => rfl⟩
    simp only [cmdEnd, foot_onCmd, foot_ite, foot_acts_cons]
    exact fun s _ c _ => ⟨fun _ => .skip, fun _ => ⟨cmdUpd_foot _ _ (hu _ _) rfl, sharesFree_foot _ rfl, .skip⟩⟩) h
@[simp] theorem cmdStart_foot (id : Nat) {T : Nat} (h : 0x200 &&& T = 0x200) : (cmdStart id).Foot (In T) :=
  foot_mono (L := 0x200) (by simp [cmdStart]) h

/-! ### Stations -/

@[simp] theorem msixSend_foot (seat bit : Nat) {T : Nat} (h : 0x800 &&& T = 0x800) : (msixSend seat bit).Foot (In T) :=
  foot_mono (L := 0x800) (by simp [msixSend]) h
@[simp] theorem irqSet_foot (seat bit : Nat) {T : Nat} (h : 0x801 &&& T = 0x801) : (irqSet seat bit).Foot (In T) :=
  foot_mono (L := 0x801) (by simp [irqSet]) h
@[simp] theorem msixRelease_foot (seat : Nat) {T : Nat} (h : 0x800 &&& T = 0x800) : (msixRelease seat).Foot (In T) :=
  foot_mono (L := 0x800) (by simp [msixRelease]) h
@[simp] theorem secIrq_foot (st src : Nat) {T : Nat} (h : 0x1000 &&& T = 0x1000) : (secIrq st src).Foot (In T) :=
  foot_mono (L := 0x1000) (by simp [secIrq]) h
@[simp] theorem irqReact_foot (st src : Nat) (seat : Option Nat) {T : Nat} (h : 0x81801 &&& T = 0x81801) : (irqReact st src seat).Foot (In T) :=
  foot_mono (L := 0x81801) (by
    unfold irqReact
    simp only [foot_ask, foot_ite]
    intro s _
    refine ⟨fun _ => by simp, fun _ => ?_⟩
    split
    · simp
    · split <;> simp) h

@[simp] theorem enterSafe_foot (st src : Nat) (parity : Bool) {T : Nat} (h : 0x3C043481 &&& T = 0x3C043481) : (enterSafe st src parity).Foot (In T) :=
  foot_mono (L := 0x3C043481) (by simp [enterSafe]) h

/-- Stations whose block reset clears no state of an engine: none that Table 4.9 or R542 names. -/
def plainSt (st : Nat) : Bool := (decide (st < 24) && st != 11) || (decide (154 ≤ st) && st != 162)

@[simp] theorem blockMemories_foot (st : Nat) {T : Nat} (h : 0x20078001 &&& T = 0x20078001) : (blockMemories st).Foot (In T) :=
  foot_mono (L := 0x20078001) (by unfold blockMemories; simp) h
@[simp] theorem blockReset_foot (st : Nat) {T : Nat} (h : 0x300FC601 &&& T = 0x300FC601) : (blockReset st).Foot (In T) :=
  foot_mono (L := 0x300FC601) (by unfold blockReset; simp) h
theorem blockReset_plain {st : Nat} (hp : plainSt st = true) {T : Nat} (h : 0x80000 &&& T = 0x80000) : (blockReset st).Foot (In T) := by
  have h1 : engineOfStation st = none := by
    simp only [plainSt, Bool.or_eq_true, Bool.and_eq_true, decide_eq_true_eq, bne_iff_ne] at hp
    unfold engineOfStation
    repeat (first | rw [if_neg (by first | omega | (simp; omega))] | rfl)
  have h2 : blockMemories st = .skip := by
    simp only [plainSt, Bool.or_eq_true, Bool.and_eq_true, decide_eq_true_eq, bne_iff_ne] at hp
    unfold blockMemories
    repeat (first | rw [if_neg (by first | omega | (simp; omega))] | rfl)
  have h3 : ¬ st = 162 := by simp only [plainSt, Bool.or_eq_true, Bool.and_eq_true, decide_eq_true_eq, bne_iff_ne] at hp; omega
  have h4 : ¬ st = 11 := by simp only [plainSt, Bool.or_eq_true, Bool.and_eq_true, decide_eq_true_eq, bne_iff_ne] at hp; omega
  exact foot_mono (L := 0x80000) (by unfold blockReset; simp [h1, h2, h3, h4]) h

theorem stKind_lt {st : Nat} {k : StKind} (h : stKind st = some k) : st < 256 := by
  apply Decidable.byContradiction
  intro hn
  have : stKind st = none := by
    unfold stKind
    repeat (first | rw [if_neg (by first | omega | (simp; omega))] | rfl)
  rw [this] at h
  exact absurd h (by simp)
theorem srcExists_lt {st src : Nat} (h : srcExists st src = true) : st < 256 ∧ src < 32 := by
  unfold srcExists at h
  split at h
  · rename_i k hk
    refine ⟨stKind_lt hk, ?_⟩
    have : (stReacts k).length ≤ 32 := by cases k <;> decide
    simp at h
    omega
  · simp at h

@[simp] theorem raiseSrc_foot (st src cell : Nat) (seat : Option Nat) {T : Nat} (hg : gravest st src = false) (h : 0x300FDE01 &&& T = 0x300FDE01) :
    (raiseSrc st src cell seat).Foot (In T) :=
  foot_mono (L := 0x300FDE01) (by
    unfold raiseSrc
    by_cases hx : srcExists st src = true
    · have hl := srcExists_lt hx
      simp only [hx]
      simp
      intro s hs s' hs'
      have := hs' st src hl.1 hl.2 hg
      simp [this.1, this.2]
    · simp [hx]) h
theorem raiseSrc_plain {st : Nat} (hp : plainSt st = true) (hq : st ≠ 14) {src : Nat} (hg : gravest st src = false) (cell : Nat) (seat : Option Nat) {T : Nat} (h : 0x81801 &&& T = 0x81801) :
    (raiseSrc st src cell seat).Foot (In T) :=
  foot_mono (L := 0x81801) (by
    unfold raiseSrc
    by_cases hx : srcExists st src = true
    · have hl := srcExists_lt hx
      simp only [hx]
      simp
      intro s hs s' hs'
      have := hs' st src hl.1 hl.2 hg
      simp [this.1, this.2, hq, blockReset_plain hp]
    · simp [hx]) h
@[simp] theorem raise_foot (st src : Nat) {T : Nat} (hg : gravest st src = false) (h : 0x300FDE01 &&& T = 0x300FDE01) : (raise st src).Foot (In T) :=
  raiseSrc_foot st src 0 none hg h

/-- Sources 0 to 3 are never of the gravest. -/
@[simp] theorem gravest_low (st : Nat) {src : Nat} (h : src < 4) : gravest st src = false := by
  simp only [gravest, Bool.or_eq_false_iff, Bool.and_eq_false_iff, decide_eq_false_iff_not]
  omega
/-- Stations from 162 up have no source of the gravest. -/
theorem gravest_high {st : Nat} (h : 162 ≤ st) (src : Nat) : gravest st src = false := by
  simp only [gravest, Bool.or_eq_false_iff, Bool.and_eq_false_iff, decide_eq_false_iff_not]
  omega

/-- Instances of blocks have no source of the gravest below 7. -/
theorem gravest_mid {st src : Nat} (h : 19 ≤ st) (hs : src < 7) : gravest st src = false := by
  simp only [gravest, Bool.or_eq_false_iff, Bool.and_eq_false_iff, decide_eq_false_iff_not]
  omega
@[simp] theorem gravest_hd (n : Nat) {src : Nat} (hs : src < 7) : gravest (stHd n) src = false := gravest_mid (by unfold stHd; omega) hs
@[simp] theorem gravest_cap (n : Nat) {src : Nat} (hs : src < 7) : gravest (stCap n) src = false := gravest_mid (by unfold stCap; omega) hs
@[simp] theorem gravest_chk (n : Nat) {src : Nat} (hs : src < 7) : gravest (stChk n) src = false := gravest_mid (by unfold stChk; omega) hs
@[simp] theorem gravest_tch (n : Nat) {src : Nat} (hs : src < 7) : gravest (stTch n) src = false := gravest_mid (by unfold stTch; omega) hs
@[simp] theorem gravest_hap (n : Nat) {src : Nat} (hs : src < 7) : gravest (stHap n) src = false := gravest_mid (by unfold stHap; omega) hs
@[simp] theorem gravest_dpt (n : Nat) {src : Nat} (hs : src < 7) : gravest (stDpt n) src = false := gravest_mid (by unfold stDpt; omega) hs
@[simp] theorem gravest_grd (n : Nat) {src : Nat} (hs : src < 7) : gravest (stGrd n) src = false := gravest_mid (by unfold stGrd; omega) hs

@[simp] theorem secEvent_foot (p : Path) (off : Nat) {T : Nat} (h : 0x300FDE01 &&& T = 0x300FDE01) : (secEvent p off).Foot (In T) :=
  foot_mono (L := 0x300FDE01) (by simp [secEvent]) h

/-! ### Memory -/

theorem plain_grd (n : Nat) : plainSt (stGrd n) = true := by
  have h1 : 154 ≤ 163 + n := by omega
  have h2 : 163 + n ≠ 162 := by omega
  simp [plainSt, stGrd, h1, h2]
@[simp] theorem guardViolation_foot (n : Nat) (q : Req) (a : Nat) {T : Nat} (h : 0x81801 &&& T = 0x81801) : (guardViolation n q a).Foot (In T) :=
  foot_mono (L := 0x81801) (by
    have hs : stGrd n ≠ 14 := by unfold stGrd; omega
    have hg : gravest (stGrd n) 4 = false := gravest_high (by unfold stGrd; omega) 4
    simp [guardViolation, raiseSrc_plain (plain_grd n) hs hg]) h

theorem memStation_cases (w : Nat) : memStation w = stSto ∨ memStation w = stDmc := by
  unfold memStation; split <;> simp
theorem raise_mem (w : Nat) {src : Nat} (hs : src < 7) (u : Nat) (seat : Option Nat) {T : Nat} (h : 0x81801 &&& T = 0x81801) :
    (raiseSrc (memStation w) src u seat).Foot (In T) := by
  have hg : gravest (memStation w) src = false := by
    simp only [gravest, Bool.or_eq_false_iff, Bool.and_eq_false_iff, decide_eq_false_iff_not]
    rcases memStation_cases w with h | h <;> rw [h] <;> simp only [stSto, stDmc] <;> omega
  rcases memStation_cases w with h' | h' <;> rw [h'] at hg ⊢ <;> exact raiseSrc_plain rfl (by decide) hg u seat h

@[simp] theorem ceRecord_foot (w syn : Nat) {T : Nat} (h : 0x83801 &&& T = 0x83801) : (ceRecord w syn).Foot (In T) :=
  foot_mono (L := 0x83801) (by
    unfold ceRecord
    simp only [foot_ask]
    intro s _
    simp [raise_mem]
    split <;> simp) h
@[simp] theorem ueRecord_foot (w syn : Nat) (seat : Option Nat) {T : Nat} (h : 0x81801 &&& T = 0x81801) : (ueRecord w syn seat).Foot (In T) :=
  foot_mono (L := 0x81801) (by
    unfold ueRecord
    simp only [foot_ask]
    intro s _
    simp [raise_mem]
    split <;> simp) h
@[simp] theorem wordChecksAct_foot (s : State) (ws : List Nat) (seat : Option Nat) {T : Nat} (h : 0x83801 &&& T = 0x83801) :
    (wordChecksAct s ws seat).Foot (In T) :=
  foot_mono (L := 0x83801) (by
    unfold wordChecksAct
    simp only [foot_each]
    intro w _
    split <;> simp) h
@[simp] theorem chkFeed_foot (src : Nat) (secure : Bool) (bs : List Byte) {T : Nat} (h : 0x8000 &&& T = 0x8000) : (chkFeed src secure bs).Foot (In T) :=
  foot_mono (L := 0x8000) (by simp [chkFeed]) h
@[simp] theorem devRead_foot (s : State) (q : Req) (a len e : Nat) {T : Nat} (h : 0x83801 &&& T = 0x83801) : (devRead s q a len e).act.Foot (In T) :=
  foot_mono (L := 0x83801) (by
    unfold devRead
    have h1 := raiseSrc_plain (st := stRgnMem) (T := 0x83801) rfl (by decide) (src := 2) rfl 0 q.seat rfl
    have h2 := raiseSrc_plain (st := stDmc) (T := 0x83801) rfl (by decide) (src := 11) rfl (s.dramChannel a) q.seat rfl
    have h3 := raiseSrc_plain (st := stDmc) (T := 0x83801) rfl (by decide) (src := 12) rfl (s.dramChannel a) none rfl
    dsimp only
    repeat' split
    all_goals simp [h1, h2, h3]) h
@[simp] theorem storeWord_foot (s : State) (a : Nat) (bs : List Byte) (w : Nat) (seat : Option Nat) {T : Nat} (h : 0x83819 &&& T = 0x83819) :
    (storeWord s a bs w seat).Foot (In T) :=
  foot_mono (L := 0x83819) (by
    unfold storeWord
    simp only []
    split
    · simp
    · split <;> simp) h
@[simp] theorem devWrite_foot (s : State) (q : Req) (a : Nat) (bs : List Byte) {T : Nat} (h : 0x8B819 &&& T = 0x8B819) :
    (devWrite s q a bs).act.Foot (In T) :=
  foot_mono (L := 0x8B819) (by
    unfold devWrite
    have h1 := raiseSrc_plain (st := stRgnMem) (T := 0x8B819) rfl (by decide) (src := 2) rfl 0 q.seat rfl
    have h2 := raiseSrc_plain (st := stDmc) (T := 0x8B819) rfl (by decide) (src := 11) rfl (s.dramChannel a) q.seat rfl
    simp only []
    repeat' split
    all_goals simp [h1, h2]) h
@[simp] theorem dirtyLog_foot (seat : Nat) (pl : Place) (a len : Nat) {T : Nat} (h : 0x8B819 &&& T = 0x8B819) : (dirtyLog seat pl a len).Foot (In T) :=
  foot_mono (L := 0x8B819) (by simp [dirtyLog]) h

@[simp] theorem missOut_foot (st seat len : Nat) {T : Nat} (h : 0x300FDE01 &&& T = 0x300FDE01) : (missOut st seat len).act.Foot (In T) := by
  simp [missOut, h]
theorem missOut_plain {st : Nat} (hp : plainSt st = true) (hq : st ≠ 14) (seat len : Nat) {T : Nat} (h : 0x81801 &&& T = 0x81801) :
    (missOut st seat len).act.Foot (In T) := by
  simp [missOut, raiseSrc_plain hp hq, h]
@[simp] theorem seatReadE_foot (s : State) (st seat a len : Nat) (k : AccKind) (x : HostAns) (e : Nat) {T : Nat} (h : 0x300FFE01 &&& T = 0x300FFE01) :
    (seatReadE s st seat a len k x e).act.Foot (In T) :=
  foot_mono (L := 0x300FFE01) (by
    unfold seatReadE
    have h1 := raiseSrc_plain (st := stPci) (T := 0x300FFE01) rfl (by decide) (src := 4) rfl 0 (some seat) rfl
    repeat' split
    all_goals simp [h1]) h
theorem seatReadE_plain {st : Nat} (hp : plainSt st = true) (hq : st ≠ 14) (s : State) (seat a len : Nat) (k : AccKind) (x : HostAns) (e : Nat) {T : Nat}
    (h : 0x83801 &&& T = 0x83801) : (seatReadE s st seat a len k x e).act.Foot (In T) :=
  foot_mono (L := 0x83801) (by
    unfold seatReadE
    have h1 := raiseSrc_plain (st := stPci) (T := 0x83801) rfl (by decide) (src := 4) rfl 0 (some seat) rfl
    repeat' split
    all_goals simp [h1, missOut_plain hp hq]) h
@[simp] theorem seatRead_foot (s : State) (st seat a len : Nat) (k : AccKind) (x : HostAns) {T : Nat} (h : 0x300FFE01 &&& T = 0x300FFE01) :
    (seatRead s st seat a len k x).act.Foot (In T) := seatReadE_foot s st seat a len k x 0 h
theorem seatRead_plain {st : Nat} (hp : plainSt st = true) (hq : st ≠ 14) (s : State) (seat a len : Nat) (k : AccKind) (x : HostAns) {T : Nat}
    (h : 0x83801 &&& T = 0x83801) : (seatRead s st seat a len k x).act.Foot (In T) := seatReadE_plain hp hq s seat a len k x 0 h
@[simp] theorem seatWrite_foot (s : State) (st seat a : Nat) (bs : List Byte) (x : HostAns) {T : Nat} (h : 0x300FFE19 &&& T = 0x300FFE19) :
    (seatWrite s st seat a bs x).act.Foot (In T) :=
  foot_mono (L := 0x300FFE19) (by
    unfold seatWrite
    repeat' split
    all_goals simp) h
theorem seatWrite_plain {st : Nat} (hp : plainSt st = true) (hq : st ≠ 14) (s : State) (seat a : Nat) (bs : List Byte) (x : HostAns) {T : Nat}
    (h : 0x8B819 &&& T = 0x8B819) : (seatWrite s st seat a bs x).act.Foot (In T) :=
  foot_mono (L := 0x8B819) (by
    unfold seatWrite
    repeat' split
    all_goals simp [missOut_plain hp hq]) h
@[simp] theorem seatStore_foot (st seat a : Nat) (bs : List Byte) {T : Nat} (h : 0x300FFE19 &&& T = 0x300FFE19) : (seatStore st seat a bs).Foot (In T) :=
  foot_mono (L := 0x300FFE19) (by simp [seatStore]) h
theorem seatStore_plain {st : Nat} (hp : plainSt st = true) (hq : st ≠ 14) (seat a : Nat) (bs : List Byte) {T : Nat} (h : 0x8B819 &&& T = 0x8B819) :
    (seatStore st seat a bs).Foot (In T) :=
  foot_mono (L := 0x8B819) (by simp [seatStore, seatWrite_plain hp hq]) h

/-! ### Rings: what is written to the areas of a seat leaves every engine alone -/

@[simp] theorem areaStore_foot (seat a : Nat) (bs : List Byte) (noHost : Bool) {T : Nat} (h : 0x8B819 &&& T = 0x8B819) :
    (areaStore seat a bs noHost).Foot (In T) :=
  foot_mono (L := 0x8B819) (by
    unfold areaStore
    simp only [foot_ask]
    intro s _
    split
    · simp
    · split
      · simp
      · exact seatStore_plain rfl (by decide) _ _ _ rfl) h
@[simp] theorem mirrorPut_foot (seat ring : Nat) (noHost : Bool) {T : Nat} (h : 0x8B819 &&& T = 0x8B819) : (mirrorPut seat ring noHost).Foot (In T) :=
  foot_mono (L := 0x8B819) (by simp [mirrorPut]) h
@[simp] theorem replyPut_foot (seat ring w0 w1 : Nat) (noHost : Bool) {T : Nat} (h : 0x8B819 &&& T = 0x8B819) :
    (replyPut seat ring w0 w1 noHost).Foot (In T) :=
  foot_mono (L := 0x8B819) (by simp [replyPut]) h
@[simp] theorem statusPut_foot (id state : Nat) {T : Nat} (h : 0x8BA19 &&& T = 0x8BA19) : (statusPut id state).Foot (In T) :=
  foot_mono (L := 0x8BA19) (by simp [statusPut, cfeKeeps_of]) h
@[simp] theorem idleUpdate_foot (seat ring : Nat) {T : Nat} (h : 0x1 &&& T = 0x1) : (idleUpdate seat ring).Foot (In T) :=
  foot_mono (L := 0x1) (by simp [idleUpdate]) h

end Sys2Proof.Machine
end

