-- ==== Sys2Proof/Laws/FootRings.lean ====
section
/-!
SUPPORT. Laws/FootRings.lean: footprints of the operations of Machine/Rings.lean.
-/

namespace Sys2Proof.Machine

@[simp] theorem cmdLastReply_foot (c : Cmd) (status detail bell : Nat) {T : Nat} (hT : 0x108BA19 &&& T = 0x108BA19) : (cmdLastReply c status detail bell).Foot (In T) :=
  foot_mono (L := 0x108BA19) (by simp (decide := true) [cmdLastReply]) hT
@[simp] theorem cmdReject_foot (c : Cmd) (r : Reject) {T : Nat} (hT : 0x108BA19 &&& T = 0x108BA19) : (cmdReject c r).Foot (In T) :=
  foot_mono (L := 0x108BA19) (by simp (decide := true) [cmdReject]) hT
@[simp] theorem cmdFinish_foot (c : Cmd) {T : Nat} (hT : 0x108BA19 &&& T = 0x108BA19) : (cmdFinish c).Foot (In T) :=
  foot_mono (L := 0x108BA19) (by simp (decide := true) [cmdFinish]) hT
@[simp] theorem cmdSingle_foot (c : Cmd) (detail : Nat) {T : Nat} (hT : 0x108BA19 &&& T = 0x108BA19) : (cmdSingle c detail).Foot (In T) :=
  foot_mono (L := 0x108BA19) (by simp (decide := true) [cmdSingle]) hT
@[simp] theorem ringEnableOp_foot (seat ring : Nat) {T : Nat} (hT : 0x1 &&& T = 0x1) : (ringEnableOp seat ring).Foot (In T) :=
  foot_mono (L := 0x1) (by simp (decide := true) [ringEnableOp]) hT
@[simp] theorem ringDisableOp_foot (seat ring : Nat) {T : Nat} (hT : 0x108BA19 &&& T = 0x108BA19) : (ringDisableOp seat ring).Foot (In T) :=
  foot_mono (L := 0x108BA19) (by simp (decide := true) [ringDisableOp]) hT
@[simp] theorem doorbellOp_foot (seat ring : Nat) (v : Word) {T : Nat} (hT : 0x300FDE01 &&& T = 0x300FDE01) : (doorbellOp seat ring v).Foot (In T) :=
  foot_mono (L := 0x300FDE01) (by simp (decide := true) [doorbellOp]) hT
@[simp] theorem cmdAdd_foot (c : Cmd) {T : Nat} (hT : 0x800201 &&& T = 0x800201) : (cmdAdd c).Foot (In T) :=
  foot_mono (L := 0x800201) (by simp (decide := true) [cmdAdd]) hT
@[simp] theorem cmdReceive_foot (id : Nat) {T : Nat} (hT : 0x800200 &&& T = 0x800200) : (cmdReceive id).Foot (In T) :=
  foot_mono (L := 0x800200) (by simp (decide := true) [cmdReceive, cmdUpd_wild]) hT
@[simp] theorem passInterrupt_foot (seat ring : Nat) {T : Nat} (hT : 0x800200 &&& T = 0x800200) : (passInterrupt seat ring).Foot (In T) :=
  foot_mono (L := 0x800200) (by simp (decide := true) [passInterrupt]) hT
@[simp] theorem fetchReply_foot (seat ring : Nat) (h : Word) (sub : Nat) {T : Nat} (hT : 0x8B819 &&& T = 0x8B819) : (fetchReply seat ring h sub).Foot (In T) :=
  foot_mono (L := 0x8B819) (by simp (decide := true) [fetchReply]) hT
@[simp] theorem packetTake_foot (seat ring : Nat) (ws : List Word) {T : Nat} (hT : 0x88BA19 &&& T = 0x88BA19) : (packetTake seat ring ws).Foot (In T) :=
  foot_mono (L := 0x88BA19) (by simp (decide := true) [packetTake]) hT
theorem ringReads_foot {s : State} {seat ring ptr n : Nat} {x : HostAns} {o : MemOut} (ho : o ∈ s.ringReads seat ring ptr n x) {T : Nat}
    (hT : 0x83801 &&& T = 0x83801) : o.act.Foot (In T) := by
  simp only [State.ringReads, List.mem_map] at ho
  obtain ⟨_, _, rfl⟩ := ho
  exact seatRead_plain rfl (by decide) _ _ _ _ _ _ hT
@[simp] theorem fetchOp_foot (x : HostAns) {T : Nat} (hT : 0x188BA19 &&& T = 0x188BA19) : (fetchOp x).Foot (In T) :=
  foot_mono (L := 0x188BA19) (by
    unfold fetchOp
    simp only [foot_ask, foot_actOpt]
    intro s _ r _
    simp only [foot_acts_cons, foot_each]
    refine ⟨fun o ho => ringReads_foot ho rfl, by simp, ?_, by simp⟩
    split
    · simp
    · split
      · simp [raiseSrc_plain (st := stCfe) rfl (by decide) (src := 6) rfl]
      · simp) hT
@[simp] theorem heldClear_foot (seat ring : Nat) {T : Nat} (hT : 0x200 &&& T = 0x200) : (heldClear seat ring).Foot (In T) :=
  foot_mono (L := 0x200) (by simp (decide := true) [heldClear]) hT
@[simp] theorem strayMember_foot (seat ring : Nat) (ws : List Word) {T : Nat} (hT : 0x800201 &&& T = 0x800201) : (strayMember seat ring ws).Foot (In T) :=
  foot_mono (L := 0x800201) (by simp (decide := true) [strayMember]) hT
@[simp] theorem passBeginOp_foot (seat ring : Nat) {T : Nat} (hT : 0x800201 &&& T = 0x800201) : (passBeginOp seat ring).Foot (In T) :=
  foot_mono (L := 0x800201) (by simp (decide := true) [passBeginOp]) hT
@[simp] theorem passDrawOp_foot (seat ring : Nat) {T : Nat} (hT : 0x800201 &&& T = 0x800201) : (passDrawOp seat ring).Foot (In T) :=
  foot_mono (L := 0x800201) (by
    simp (decide := true) [passDrawOp]; intros; repeat' split
    all_goals simp (decide := true)) hT
@[simp] theorem passEndOp_foot (seat ring : Nat) {T : Nat} (hT : 0x800201 &&& T = 0x800201) : (passEndOp seat ring).Foot (In T) :=
  foot_mono (L := 0x800201) (by
    simp (decide := true) [passEndOp]; intros; repeat' split
    all_goals simp (decide := true)) hT

end Sys2Proof.Machine
end

