-- ==== Sys2Proof/Laws/FootLayers.lean ====
section
/-!
SUPPORT. Laws/FootLayers.lean: footprints of the operations of Machine/Layers.lean.
-/

namespace Sys2Proof.Machine

@[simp] theorem layerUpd_foot (l : Nat) (f : Layer → Layer) {T : Nat} (hT : 0x10000 &&& T = 0x10000) : (layerUpd l f).Foot (In T) :=
  foot_mono (L := 0x10000) (by simp (decide := true) [layerUpd]) hT
@[simp] theorem canvasUpd_foot (c : Nat) (f : Canvas → Canvas) {T : Nat} (hT : 0x10000 &&& T = 0x10000) : (canvasUpd c f).Foot (In T) :=
  foot_mono (L := 0x10000) (by simp (decide := true) [canvasUpd]) hT
@[simp] theorem headUpd_foot (h : Nat) (f : HeadSt → HeadSt) {T : Nat} (hT : 0x10000 &&& T = 0x10000) : (headUpd h f).Foot (In T) :=
  foot_mono (L := 0x10000) (by simp (decide := true) [headUpd]) hT
@[simp] theorem portUpd_foot (n : Nat) (f : PortSt → PortSt) {T : Nat} (hT : 0x10000 &&& T = 0x10000) : (portUpd n f).Foot (In T) :=
  foot_mono (L := 0x10000) (by simp (decide := true) [portUpd]) hT

end Sys2Proof.Machine
end

