-- ==== Sys2Proof/Laws/FootLedger.lean ====
section
/-!
SUPPORT. Laws/FootLedger.lean: footprints of the operations of Machine/Ledger.lean.
-/

namespace Sys2Proof.Machine

@[simp] theorem coresNowReg_foot (q : Nat) {T : Nat} (hT : 0x20000001 &&& T = 0x20000001) : (coresNowReg q).Foot (In T) :=
  foot_mono (L := 0x20000001) (by simp (decide := true) [coresNowReg]) hT
@[simp] theorem capRegs_foot {T : Nat} (hT : 0x20000001 &&& T = 0x20000001) : (capRegs).Foot (In T) :=
  foot_mono (L := 0x20000001) (by simp (decide := true) [capRegs]) hT
@[simp] theorem queueReg_foot {T : Nat} (hT : 0x20000001 &&& T = 0x20000001) : (queueReg).Foot (In T) :=
  foot_mono (L := 0x20000001) (by simp (decide := true) [queueReg]) hT

end Sys2Proof.Machine
end

