-- ==== Sys2Proof/Laws/FootJudge.lean ====
section
/-!
SUPPORT. Laws/FootJudge.lean: footprints of the operations of Machine/Judge.lean.
-/

namespace Sys2Proof.Machine

@[simp] theorem overUpdate_foot (seat : Nat) {T : Nat} (hT : 0x1 &&& T = 0x1) : (overUpdate seat).Foot (In T) :=
  foot_mono (L := 0x1) (by simp (decide := true) [overUpdate]) hT
@[simp] theorem budgetSet_foot (seat : Nat) (v : Nat → Nat) {T : Nat} (hT : 0x2000800 &&& T = 0x2000800) : (budgetSet seat v).Foot (In T) :=
  foot_mono (L := 0x2000800) (by simp (decide := true) [budgetSet]) hT

end Sys2Proof.Machine
end

