-- ==== Sys2Proof/Laws/FootOrdering.lean ====
section
/-!
SUPPORT. Laws/FootOrdering.lean: footprints of the operations of Machine/Ordering.lean.
-/

namespace Sys2Proof.Machine

@[simp] theorem syncPut_foot (n : Nat) (v : Word) {T : Nat} (hT : 0x100 &&& T = 0x100) : (syncPut n v).Foot (In T) :=
  foot_mono (L := 0x100) (by simp (decide := true) [syncPut]) hT
@[simp] theorem waitTest_foot (id : Nat) {T : Nat} (hT : 0x600 &&& T = 0x600) : (waitTest id).Foot (In T) :=
  foot_mono (L := 0x600) (by simp (decide := true) [waitTest]) hT
@[simp] theorem signalAct_foot (id : Nat) {T : Nat} (hT : 0x700 &&& T = 0x700) : (signalAct id).Foot (In T) :=
  foot_mono (L := 0x700) (by simp (decide := true) [signalAct]) hT
@[simp] theorem withdraw_foot (id : Nat) {T : Nat} (hT : 0x20078001 &&& T = 0x20078001) : (withdraw id).Foot (In T) :=
  foot_mono (L := 0x20078001) (by simp (decide := true) [withdraw]) hT
theorem timeoutAll_foot (n : Nat) (ids : List Nat) {T : Nat} (hT : 0x20078601 &&& T = 0x20078601) : (timeoutAll n ids).Foot (In T) := by
  induction n generalizing ids with
  | zero => exact .skip
  | succ n ih =>
    simp only [timeoutAll, foot_ask, foot_ite, foot_acts_cons, foot_acts_nil, foot_each]
    exact fun s _ => ⟨fun _ => .skip, fun _ => ⟨fun id _ => ⟨foot_mono (L := 0x20078601) (by simp) hT, foot_mono (L := 0x20078601) (by simp) hT, trivial⟩, fun s _ => ih _, trivial⟩⟩
@[simp] theorem timeoutCmds_foot (ids : List Nat) {T : Nat} (hT : 0x20078601 &&& T = 0x20078601) : (timeoutCmds ids).Foot (In T) :=
  .ask fun _ _ => timeoutAll_foot _ _ hT
theorem times_foot {P : Eff → Prop} (n : Nat) {a : Act} (h : a.Foot P) : (times n a).Foot P := by
  induction n with
  | zero => exact .skip
  | succ n ih => exact .seq h ih
@[simp] theorem fenceTest_foot (id : Nat) {T : Nat} (hT : 0x20078601 &&& T = 0x20078601) : (fenceTest id).Foot (In T) :=
  foot_mono (L := 0x20078601) (by simp (decide := true) [fenceTest]) hT
@[simp] theorem waitStart_foot (c : Cmd) {T : Nat} (hT : 0x8BE19 &&& T = 0x8BE19) : (waitStart c).Foot (In T) :=
  foot_mono (L := 0x8BE19) (by simp (decide := true) [waitStart]) hT
@[simp] theorem resolveOnce_foot {T : Nat} (hT : 0x200FBE19 &&& T = 0x200FBE19) : (resolveOnce).Foot (In T) :=
  foot_mono (L := 0x200FBE19) (by simp (decide := true) [resolveOnce]) hT
@[simp] theorem lateSquash_foot {T : Nat} (hT : 0x20078601 &&& T = 0x20078601) : (lateSquash).Foot (In T) :=
  foot_mono (L := 0x20078601) (by simp (decide := true) [lateSquash]) hT
@[simp] theorem dmaLoad_foot (k id : Nat) {T : Nat} (hT : 0x4041 &&& T = 0x4041) : (dmaLoad k id).Foot (In T) :=
  foot_mono (L := 0x4041) (by simp (decide := true) [dmaLoad]) hT
@[simp] theorem dmaUnload_foot (k outcome : Nat) {T : Nat} (hT : 0x4001 &&& T = 0x4001) : (dmaUnload k outcome).Foot (In T) :=
  foot_mono (L := 0x4001) (by simp (decide := true) [dmaUnload]) hT
@[simp] theorem dmaSuspend_foot (k : Nat) {T : Nat} (hT : 0x4001 &&& T = 0x4001) : (dmaSuspend k).Foot (In T) :=
  foot_mono (L := 0x4001) (by
    simp (decide := true) [dmaSuspend]; intros; repeat' split
    all_goals simp (decide := true)) hT
@[simp] theorem dmaStart_foot (c : Cmd) {T : Nat} (hT : 0x8FA59 &&& T = 0x8FA59) : (dmaStart c).Foot (In T) :=
  foot_mono (L := 0x8FA59) (by
    simp (decide := true) [dmaStart]; intros; repeat' split
    all_goals simp (decide := true)) hT
@[simp] theorem startEntry_foot (id : Nat) {T : Nat} (hT : 0x8FE59 &&& T = 0x8FE59) : (startEntry id).Foot (In T) :=
  foot_mono (L := 0x8FE59) (by simp (decide := true) [startEntry]) hT
@[simp] theorem dispatchAll_foot {T : Nat} (hT : 0x8FE59 &&& T = 0x8FE59) : (dispatchAll).Foot (In T) :=
  foot_mono (L := 0x8FE59) (by simp (decide := true) [dispatchAll]) hT
@[simp] theorem statusAll_foot {T : Nat} (hT : 0x8BA19 &&& T = 0x8BA19) : (statusAll).Foot (In T) :=
  foot_mono (L := 0x8BA19) (by simp (decide := true) [statusAll]) hT

end Sys2Proof.Machine
end

