-- ==== Sys2Proof/Laws/FootCmpJudge.lean ====
section
/-!
SUPPORT. Laws/FootCmpJudge.lean: footprints of the operations of Machine/CmpJudge.lean.
-/

namespace Sys2Proof.Machine

@[simp] theorem poolFree_foot {T : Nat} (hT : 0x20000001 &&& T = 0x20000001) : (poolFree).Foot (In T) :=
  foot_mono (L := 0x20000001) (by simp (decide := true) [poolFree]) hT
@[simp] theorem bufTake_foot (plan : List (Nat × Nat × Nat)) {T : Nat} (hT : 0x9B819 &&& T = 0x9B819) : (bufTake plan).Foot (In T) :=
  foot_mono (L := 0x9B819) (by simp (decide := true) [bufTake]) hT
@[simp] theorem chainSquash_foot (ring : Nat) {T : Nat} (hT : 0x10600 &&& T = 0x10600) : (chainSquash ring).Foot (In T) :=
  foot_mono (L := 0x10600) (by simp (decide := true) [chainSquash]) hT
@[simp] theorem setAccept_foot (c : Cmd) (canvas : Bool) (idx : Nat) (chain : Bool) (curves : List (List Nat)) {T : Nat} (hT : 0x10000 &&& T = 0x10000) : (setAccept c canvas idx chain curves).Foot (In T) :=
  foot_mono (L := 0x10000) (by simp (decide := true) [setAccept]) hT
@[simp] theorem flipsSquash_foot (layers : List Nat) {T : Nat} (hT : 0x10600 &&& T = 0x10600) : (flipsSquash layers).Foot (In T) :=
  foot_mono (L := 0x10600) (by simp (decide := true) [flipsSquash]) hT

end Sys2Proof.Machine
end

