-- ==== Sys2Proof/Laws/FootRndJudge.lean ====
section
/-!
SUPPORT. Laws/FootRndJudge.lean: footprints of the operations of Machine/RndJudge.lean.
-/

namespace Sys2Proof.Machine

@[simp] theorem rndPools_foot {T : Nat} (hT : 0x20000001 &&& T = 0x20000001) : (rndPools).Foot (In T) :=
  foot_mono (L := 0x20000001) (by simp (decide := true) [rndPools]) hT

end Sys2Proof.Machine
end

