-- ==== Sys2Proof/Laws/FootVdcJudge.lean ====
section
/-!
SUPPORT. Laws/FootVdcJudge.lean: footprints of the operations of Machine/VdcJudge.lean.
-/

namespace Sys2Proof.Machine

@[simp] theorem ownerStore_foot (st : Nat) (owner : Option Nat) (a : Nat) (bs : List Byte) {T : Nat} (hT : 0x300FFE19 &&& T = 0x300FFE19) : (ownerStore st owner a bs).Foot (In T) :=
  foot_mono (L := 0x300FFE19) (by
    simp (decide := true) [ownerStore]; intros; repeat' split
    all_goals simp (decide := true)) hT
@[simp] theorem ownerRead_foot (s : State) (st : Nat) (owner : Option Nat) (a n : Nat) (h : HostAns) {T : Nat} (hT : 0x300FFE01 &&& T = 0x300FFE01) : (ownerRead s st owner a n h).act.Foot (In T) :=
  foot_mono (L := 0x300FFE01) (by
    simp (decide := true) [ownerRead]; intros; repeat' split
    all_goals simp (decide := true)) hT
@[simp] theorem stampPut_foot (st : Nat) (owner : Option Nat) (a bell : Nat) (degraded : Bool) (concealed : Nat) {T : Nat} (hT : 0x300FFE19 &&& T = 0x300FFE19) : (stampPut st owner a bell degraded concealed).Foot (In T) :=
  foot_mono (L := 0x300FFE19) (by simp (decide := true) [stampPut]) hT
@[simp] theorem publishWrites_foot (st : Nat) (r : SurfRing) (slot seq number bell : Nat) (degraded : Bool) (concealed : Nat) {T : Nat} (hT : 0x300FFE19 &&& T = 0x300FFE19) : (publishWrites st r slot seq number bell degraded concealed).Foot (In T) :=
  foot_mono (L := 0x300FFE19) (by simp (decide := true) [publishWrites]) hT
@[simp] theorem sessOpenAct_foot (c : Cmd) (pipe : Nat) (ring : Option SurfRing) (block : List Word) {T : Nat} (hT : 0x20040 &&& T = 0x20040) : (sessOpenAct c pipe ring block).Foot (In T) :=
  foot_mono (L := 0x20040) (by simp (decide := true) [sessOpenAct]) hT
@[simp] theorem sessUpd_foot (id : Nat) (f : Session → Session) {T : Nat} (hT : 0x20000 &&& T = 0x20000) : (sessUpd id f).Foot (In T) :=
  foot_mono (L := 0x20000) (by simp (decide := true) [sessUpd]) hT

end Sys2Proof.Machine
end

