-- ==== Sys2Proof/Laws/FootMedJudge.lean ====
section
/-!
SUPPORT. Laws/FootMedJudge.lean: footprints of the operations of Machine/MedJudge.lean.
-/

namespace Sys2Proof.Machine

@[simp] theorem streamOpenAct_foot (c : Cmd) {T : Nat} (hT : 0x40240 &&& T = 0x40240) : (streamOpenAct c).Foot (In T) :=
  foot_mono (L := 0x40240) (by simp (decide := true) [streamOpenAct]) hT
@[simp] theorem streamUpd_foot (id : Nat) (f : AudStream → AudStream) {T : Nat} (hT : 0x40000 &&& T = 0x40000) : (streamUpd id f).Foot (In T) :=
  foot_mono (L := 0x40000) (by simp (decide := true) [streamUpd]) hT
@[simp] theorem tchUpd_foot (n : Nat) (f : Tch → Tch) {T : Nat} (hT : 0x40000 &&& T = 0x40000) : (tchUpd n f).Foot (In T) :=
  foot_mono (L := 0x40000) (by simp (decide := true) [tchUpd]) hT
@[simp] theorem tchPend_foot (c : Cmd) (panel : List Word) {T : Nat} (hT : 0x40000 &&& T = 0x40000) : (tchPend c panel).Foot (In T) :=
  foot_mono (L := 0x40000) (by simp (decide := true) [tchPend]) hT

end Sys2Proof.Machine
end

