-- ==== Sys2Proof/Laws/FootJudged.lean ====
section
/-!
SUPPORT. Laws/FootJudged.lean: footprints of what a decision reads and of what its acceptance does.
-/

namespace Sys2Proof.Machine

/-- The footprint of what a verdict does. -/
def Verdict.Foot (P : Eff → Prop) : Verdict → Prop
  | .reject _ => True
  | .single _ a => a.Foot P
  | .later a => a.Foot P
  | .hold a => a.Foot P
  | .book _ _ _ a => a.Foot P
  | .fixed _ _ a => a.Foot P

/-- The footprint of a judged command: its reads and its verdict. -/
def Judged.Foot (P : Eff → Prop) (j : Judged) : Prop := j.reads.Foot P ∧ j.v.Foot P

variable {P : Eff → Prop}

@[simp] theorem judged_mk (a : Act) (v : Verdict) : Judged.Foot P { reads := a, v := v } ↔ a.Foot P ∧ v.Foot P := Iff.rfl
@[simp] theorem verdict_reject (r : Reject) : (Verdict.reject r).Foot P := trivial
@[simp] theorem verdict_single (d : Nat) (a : Act) : (Verdict.single d a).Foot P ↔ a.Foot P := Iff.rfl
@[simp] theorem verdict_later (a : Act) : (Verdict.later a).Foot P ↔ a.Foot P := Iff.rfl
@[simp] theorem verdict_hold (a : Act) : (Verdict.hold a).Foot P ↔ a.Foot P := Iff.rfl
@[simp] theorem verdict_book (c : Cost) (n : Nat) (k : Option (Nat × Nat)) (a : Act) : (Verdict.book c n k a).Foot P ↔ a.Foot P := Iff.rfl
@[simp] theorem verdict_fixed (x : List Share) (n : Nat) (a : Act) : (Verdict.fixed x n a).Foot P ↔ a.Foot P := Iff.rfl
@[simp] theorem rej_judged (a b c : Nat) : (rej a b c).Foot P := ⟨.skip, trivial⟩
@[simp] theorem rejParam_judged : rejParam.Foot P := ⟨.skip, trivial⟩
@[simp] theorem rejLength_judged : rejLength.Foot P := ⟨.skip, trivial⟩
@[simp] theorem rejEnvelope_judged : rejEnvelope.Foot P := ⟨.skip, trivial⟩
@[simp] theorem rejWindow_judged : rejWindow.Foot P := ⟨.skip, trivial⟩
@[simp] theorem ok_judged (v : Verdict) : (ok v).Foot P ↔ v.Foot P := ⟨fun h => h.2, fun h => ⟨.skip, h⟩⟩
@[simp] theorem check_judged (c : Bool) (r k : Judged) : (check c r k).Foot P ↔ (c = true → k.Foot P) ∧ (c = false → r.Foot P) := by
  cases c <;> simp [check]
@[simp] theorem ite_judged (c : Prop) [Decidable c] (a b : Judged) : (if c then a else b).Foot P ↔ (c → a.Foot P) ∧ (¬c → b.Foot P) := by
  by_cases h : c <;> simp [h]
@[simp] theorem engineCheck_judged (s : State) (c : Cmd) (k : Judged) :
    (engineCheck s c k).Foot P ↔ (s.engineOk c.seat c.engine = true → k.Foot P) := by simp [engineCheck]
@[simp] theorem ownCheck_judged (a b : Bool) (k : Judged) : (ownCheck a b k).Foot P ↔ (b = false → a = true → k.Foot P) := by simp [ownCheck]
@[simp] theorem quotaCheck_judged (s : State) (seat : Nat) (l : List (Nat × Nat)) (k : Judged) :
    (quotaCheck s seat l k).Foot P ↔ (s.overQuota seat = false →
      (l.all fun x => decide (s.useOf seat x.1 + s.allocOf seat x.1 + x.2 ≤ s.quotaOf seat x.1)) = true → k.Foot P) := by
  simp [quotaCheck]
theorem readThen_judged (s : State) (seat a len : Nat) (x : HostAns) (k : List Byte → Judged) {T : Nat} (hT : 0x83801 &&& T = 0x83801)
    (h : ∀ bs, (k bs).Foot (In T)) : (readThen s seat a len x k).Foot (In T) := by
  have hr : (seatRead s 9 seat a len .read x).act.Foot (In T) := seatRead_plain rfl (by decide) _ _ _ _ _ _ hT
  unfold readThen
  split
  · simp
  · dsimp only
    split
    · exact ⟨hr, trivial⟩
    · split
      · exact ⟨hr, trivial⟩
      · exact ⟨by simp [hr, (h _).1], (h _).2⟩
theorem readCurves_judged (s : State) (c : Cmd) (x : HostAns) (k : List (List Nat) → Judged) {T : Nat} (hT : 0x83801 &&& T = 0x83801)
    (h : ∀ l, (k l).Foot (In T)) (is : List Nat) (acc : List (List Nat)) : (readCurves s c x is acc k).Foot (In T) := by
  induction is generalizing acc with
  | nil => exact h _
  | cons i is ih =>
    unfold readCurves
    split
    · exact ih _
    · exact readThen_judged _ _ _ _ _ _ hT fun bs => ih _
theorem readStates_judged (s : State) (seat : Nat) (x : HostAns) (k : List (List Word) → Judged) {T : Nat} (hT : 0x83801 &&& T = 0x83801)
    (h : ∀ l, (k l).Foot (In T)) (ds acc : List (List Word)) : (readStates s seat x ds acc k).Foot (In T) := by
  induction ds generalizing acc with
  | nil => exact h _
  | cons d ds ih => exact readThen_judged _ _ _ _ _ _ hT fun bs => ih _

end Sys2Proof.Machine
end

