-- ==== Sys2Proof/Laws/FootJudges.lean ====
section
/-!
SUPPORT. Laws/FootJudges.lean: what a decision does, for each opcode, is in one class: registers, memory, free values, commands, bookings, seats,
the worlds' interrupts, memory logs, check-value units, the picture path, rendering and codec, audio to haptics, faults.
-/

namespace Sys2Proof.Machine

theorem judgeQueryCaps_judged (s : State) (c : Cmd) : (judgeQueryCaps s c).Foot (In 0x330FBE59) := by
  simp (decide := true) [judgeQueryCaps, seatStore_plain]
theorem judgeSetBudget_judged (s : State) (c : Cmd) : (judgeSetBudget s c).Foot (In 0x330FBE59) := by
  simp (decide := true) [judgeSetBudget]
theorem judgeSetQuota_judged (s : State) (c : Cmd) : (judgeSetQuota s c).Foot (In 0x330FBE59) := by
  simp (decide := true) [judgeSetQuota]
theorem judgeCommit_judged (s : State) (c : Cmd) : (judgeCommit s c).Foot (In 0x330FBE59) := by
  simp (decide := true) [judgeCommit]
theorem judgeFence_judged (c : Cmd) : (judgeFence c).Foot (In 0x330FBE59) := by
  simp (decide := true) [judgeFence]
theorem judgeSignal_judged (s : State) (c : Cmd) : (judgeSignal s c).Foot (In 0x330FBE59) := by
  simp (decide := true) [judgeSignal]
theorem judgeWait_judged (s : State) (c : Cmd) : (judgeWait s c).Foot (In 0x330FBE59) := by
  simp (decide := true) [judgeWait]
theorem judgeQueryStatus_judged (s : State) (c : Cmd) : (judgeQueryStatus s c).Foot (In 0x330FBE59) := by
  simp (decide := true) [judgeQueryStatus]
theorem judgeQueryBudget_judged (s : State) (c : Cmd) : (judgeQueryBudget s c).Foot (In 0x330FBE59) := by
  simp (decide := true) [judgeQueryBudget]
theorem judgeDma_judged (s : State) (c : Cmd) : (judgeDma s c).Foot (In 0x330FBE59) := by
  simp (decide := true) [judgeDma]
theorem judgeCanvas_judged (s : State) (c : Cmd) (x : HostAns) : (judgeCanvas s c x).Foot (In 0x330FBE59) := by
  simp (decide := true) only [judgeCanvas, check_judged, engineCheck_judged, ownCheck_judged, rejLength_judged, rejParam_judged, implies_true, and_true]
  intros
  refine readCurves_judged _ _ _ _ rfl (fun curves => ?_) _ _
  simp only [check_judged, rejParam_judged, implies_true, and_true]
  intro _
  split
  · simp
  · simp only [check_judged, rej_judged, implies_true, and_true]
    intro _
    split <;> simp
theorem judgeLayer_judged (s : State) (c : Cmd) : (judgeLayer s c).Foot (In 0x330FBE59) := by
  simp (decide := true) only [judgeLayer, check_judged, engineCheck_judged, ownCheck_judged, rejWindow_judged, rejParam_judged, implies_true, and_true]
  intros
  split <;> simp
theorem judgeFlip_judged (s : State) (c : Cmd) : (judgeFlip s c).Foot (In 0x330FBE59) := by
  simp (decide := true) [judgeFlip]
theorem judgeAttach_judged (s : State) (c : Cmd) : (judgeAttach s c).Foot (In 0x330FBE59) := by
  simp (decide := true) [judgeAttach]
theorem judgeDetach_judged (s : State) (c : Cmd) : (judgeDetach s c).Foot (In 0x330FBE59) := by
  simp (decide := true) [judgeDetach]
theorem judgeChk_judged (s : State) (c : Cmd) : (judgeChk s c).Foot (In 0x330FBE59) := by
  simp [judgeChk, judgeAttach_judged, judgeDetach_judged]
theorem judgeProgLoad_judged (s : State) (c : Cmd) (x : HostAns) : (judgeProgLoad s c x).Foot (In 0x330FBE59) := by
  simp only [judgeProgLoad, check_judged, engineCheck_judged, rejParam_judged, implies_true, and_true]
  intros
  refine readThen_judged _ _ _ _ _ _ rfl fun bs => ?_
  simp only [check_judged, quotaCheck_judged, rejParam_judged, implies_true, and_true]
  intros
  split <;> simp
theorem judgeProgUnload_judged (s : State) (c : Cmd) : (judgeProgUnload s c).Foot (In 0x330FBE59) := by
  simp [judgeProgUnload]
theorem judgeProg_judged (s : State) (c : Cmd) (x : HostAns) : (judgeProg s c x).Foot (In 0x330FBE59) := by
  simp [judgeProg, judgeProgLoad_judged, judgeProgUnload_judged]
theorem judgePass_judged (s : State) (c : Cmd) (x : HostAns) : (judgePass s c x).Foot (In 0x330FBE59) := by
  simp only [judgePass, check_judged, engineCheck_judged, rejParam_judged, rejLength_judged, rejEnvelope_judged, rej_judged, implies_true, and_true]
  intros
  refine readThen_judged _ _ _ _ _ _ rfl fun bs => readStates_judged _ _ _ _ rfl (fun states => ?_) _ _
  simp only [check_judged, rejParam_judged, rejWindow_judged, rej_judged, implies_true, and_true]
  intros
  split <;> simp
theorem judgeStray_judged : judgeStray.Foot (In 0x330FBE59) := rejParam_judged
theorem judgeDispatch_judged (s : State) (c : Cmd) : (judgeDispatch s c).Foot (In 0x330FBE59) := by
  simp [judgeDispatch]
theorem judgeSessOpen_judged (s : State) (c : Cmd) (x : HostAns) : (judgeSessOpen s c x).Foot (In 0x330FBE59) := by
  simp only [judgeSessOpen, check_judged, engineCheck_judged, quotaCheck_judged, rejParam_judged, implies_true, and_true]
  intros
  refine readThen_judged _ _ _ _ _ _ rfl fun bs => ?_
  simp only [check_judged, rejParam_judged, rejWindow_judged, implies_true, and_true]
  intros
  split <;> simp
theorem judgeSessClose_judged (s : State) (c : Cmd) : (judgeSessClose s c).Foot (In 0x330FBE59) := by
  simp only [judgeSessClose, check_judged, engineCheck_judged, rejParam_judged, implies_true, and_true]
  intros
  split <;> simp
theorem judgeSession_judged (s : State) (c : Cmd) (x : HostAns) : (judgeSession s c x).Foot (In 0x330FBE59) := by
  unfold judgeSession
  split
  · exact judgeSessClose_judged s c
  · exact judgeSessOpen_judged s c x
theorem decodeBook_judged (s : State) (c : Cmd) (x : Session) (d : List Word) : (s.decodeBook c x d).Foot (In 0x330FBE59) := by
  simp [State.decodeBook]
theorem encodeBook_judged (s : State) (c : Cmd) (x : Session) : (s.encodeBook c x).Foot (In 0x330FBE59) := by
  unfold State.encodeBook
  dsimp only
  repeat' split
  all_goals simp
theorem judgeDecode_judged (s : State) (c : Cmd) (x : HostAns) : (judgeDecode s c x).Foot (In 0x330FBE59) := by
  simp only [judgeDecode, check_judged, engineCheck_judged, rejParam_judged, implies_true, and_true]
  intros
  split
  · simp
  · simp only [check_judged, ite_judged, rejParam_judged, rejWindow_judged, implies_true, and_true]
    intros
    refine ⟨fun _ => decodeBook_judged _ _ _ _, fun _ => readThen_judged _ _ _ _ _ _ rfl fun bs => ?_⟩
    simp [decodeBook_judged]
theorem judgeEncode_judged (s : State) (c : Cmd) : (judgeEncode s c).Foot (In 0x330FBE59) := by
  simp only [judgeEncode, check_judged, engineCheck_judged, rejParam_judged, implies_true, and_true]
  intros
  split
  · simp
  · simp [encodeBook_judged]
theorem judgeKey_judged (s : State) (c : Cmd) : (judgeKey s c).Foot (In 0x330FBE59) := by
  simp only [judgeKey, check_judged, engineCheck_judged, rejParam_judged, implies_true, and_true]
  intros
  split <;> simp
theorem judgeRoute_judged (s : State) (c : Cmd) : (judgeRoute s c).Foot (In 0x330FBE59) := by
  simp [judgeRoute]
theorem judgeStreamOpen_judged (s : State) (c : Cmd) : (judgeStreamOpen s c).Foot (In 0x330FBE59) := by
  simp only [judgeStreamOpen, check_judged, engineCheck_judged, quotaCheck_judged, ownCheck_judged, rejParam_judged, rejWindow_judged, implies_true, and_true]
  intros
  split <;> simp
theorem judgeStreamClose_judged (s : State) (c : Cmd) : (judgeStreamClose s c).Foot (In 0x330FBE59) := by
  simp only [judgeStreamClose, check_judged, engineCheck_judged, rejParam_judged, implies_true, and_true]
  intros
  split <;> simp
theorem judgeStream_judged (s : State) (c : Cmd) : (judgeStream s c).Foot (In 0x330FBE59) := by
  unfold judgeStream
  split
  · exact judgeStreamClose_judged s c
  · exact judgeStreamOpen_judged s c
theorem judgeEffect_judged (s : State) (c : Cmd) : (judgeEffect s c).Foot (In 0x330FBE59) := by
  simp only [judgeEffect, check_judged, engineCheck_judged, ownCheck_judged, rejParam_judged, rejLength_judged, implies_true, and_true]
  intros
  split <;> simp
theorem judgeApply_judged (s : State) (c : Cmd) (x : HostAns) : (judgeApply s c x).Foot (In 0x330FBE59) := by
  refine readThen_judged _ _ _ _ _ _ rfl fun bs => ?_
  simp
theorem judgeTch_judged (s : State) (c : Cmd) (x : HostAns) : (judgeTch s c x).Foot (In 0x330FBE59) := by
  simp only [judgeTch, check_judged, engineCheck_judged, ownCheck_judged, rejParam_judged, rejLength_judged, implies_true, and_true]
  intros
  split
  · exact judgeApply_judged s c x
  · simp
  · simp
theorem judgeHapLoad_judged (s : State) (c : Cmd) (x : HostAns) : (judgeHapLoad s c x).Foot (In 0x330FBE59) := by
  simp only [judgeHapLoad, check_judged, engineCheck_judged, ownCheck_judged, ite_judged, rejParam_judged, implies_true, and_true]
  intros
  refine ⟨fun _ => by simp, fun _ => readThen_judged _ _ _ _ _ _ rfl fun bs => ?_⟩
  simp
theorem judgePlay_judged (s : State) (c : Cmd) : (judgePlay s c).Foot (In 0x330FBE59) := by
  simp [judgePlay]
theorem judge_judged (s : State) (c : Cmd) (x : HostAns) : (judge s c x).Foot (In 0x330FBE59) := by
  unfold judge
  split
  · simp [judgeNop]
  · exact judgeQueryCaps_judged s c
  · exact judgeSetBudget_judged s c
  · exact judgeSetQuota_judged s c
  · exact judgeCommit_judged s c
  · exact judgeDma_judged s c
  · exact judgeDma_judged s c
  · exact judgeChk_judged s c
  · exact judgeProg_judged s c x
  · exact judgePass_judged s c x
  · exact judgeStray_judged
  · exact judgeDispatch_judged s c
  · exact judgeStray_judged
  · exact judgeCanvas_judged s c x
  · exact judgeLayer_judged s c
  · exact judgeFlip_judged s c
  · exact judgeFlip_judged s c
  · exact judgeSession_judged s c x
  · exact judgeDecode_judged s c x
  · exact judgeEncode_judged s c
  · exact judgeKey_judged s c
  · exact judgeRoute_judged s c
  · exact judgeStream_judged s c
  · exact judgeEffect_judged s c
  · exact judgeTch_judged s c x
  · exact judgeHapLoad_judged s c x
  · exact judgePlay_judged s c
  · exact judgeFence_judged c
  · exact judgeSignal_judged s c
  · exact judgeWait_judged s c
  · exact judgeQueryStatus_judged s c
  · exact judgeQueryBudget_judged s c

end Sys2Proof.Machine
end

