-- ==== Sys2Proof/Laws/FootAdmission.lean ====
section
/-!
SUPPORT. Laws/FootAdmission.lean: footprints of the operations of Machine/Admission.lean.
-/

namespace Sys2Proof.Machine

@[simp] theorem rejectAct_foot (c : Cmd) (r : Reject) {T : Nat} (hT : 0x109BE19 &&& T = 0x109BE19) : (rejectAct c r).Foot (In T) :=
  foot_mono (L := 0x109BE19) (by simp (decide := true) [rejectAct]) hT
theorem bookAct_foot (c : Cmd) (shares : List Share) (latest : Nat) (act : Act) (h : act.Foot (In 0x330FBE59)) :
    (bookAct c shares latest act).Foot (In 0x330FBE59) := by
  unfold bookAct
  simp only [foot_ask]
  intro s _
  split
  · simp
  · simp [acceptAct, h]
theorem verdictAct_foot (c : Cmd) (v : Verdict) (hv : v.Foot (In 0x330FBE59)) {T : Nat} (hT : 0x330FBE59 &&& T = 0x330FBE59) : (verdictAct c v).Foot (In T) :=
  foot_mono (L := 0x330FBE59) (by
    cases v with
    | reject r => simp [verdictAct]
    | single d a => simp [verdictAct, show a.Foot (In 0x330FBE59) from hv]
    | later a => simp [verdictAct, show a.Foot (In 0x330FBE59) from hv]
    | hold a => simp [verdictAct, acceptAct, show a.Foot (In 0x330FBE59) from hv]
    | book k n p a =>
      have hb : ∀ sh l, (bookAct c sh l a).Foot (In 0x330FBE59) := fun sh l => bookAct_foot c sh l a hv
      simp [verdictAct, acceptAct, planAct, hb, show a.Foot (In 0x330FBE59) from hv]
    | fixed sh n a => simp [verdictAct, bookAct_foot c sh n a hv]) hT
@[simp] theorem sessDrop_foot (id : Nat) {T : Nat} (hT : 0x20000 &&& T = 0x20000) : (sessDrop id).Foot (In T) :=
  foot_mono (L := 0x20000) (by simp (decide := true) [sessDrop]) hT
@[simp] theorem sessSettle_foot (x : Session) {T : Nat} (hT : 0x20601 &&& T = 0x20601) : (sessSettle x).Foot (In T) :=
  foot_mono (L := 0x20601) (by simp (decide := true) [sessSettle]) hT
@[simp] theorem progSettle_foot (p : Prog) {T : Nat} (hT : 0x20020601 &&& T = 0x20020601) : (progSettle p).Foot (In T) :=
  foot_mono (L := 0x20020601) (by simp (decide := true) [progSettle]) hT
@[simp] theorem settleAll_foot {T : Nat} (hT : 0x20020601 &&& T = 0x20020601) : (settleAll).Foot (In T) :=
  foot_mono (L := 0x20020601) (by simp (decide := true) [settleAll]) hT
@[simp] theorem resolveAll_foot {T : Nat} (hT : 0x200FBE19 &&& T = 0x200FBE19) : (resolveAll).Foot (In T) :=
  foot_mono (L := 0x200FBE19) (.ask fun _ _ => times_foot _ (by simp)) hT
@[simp] theorem afterDecision_foot (seat : Nat) {T : Nat} (hT : 0x20020601 &&& T = 0x20020601) : (afterDecision seat).Foot (In T) :=
  foot_mono (L := 0x20020601) (by simp (decide := true) [afterDecision]) hT
@[simp] theorem decideCmd_foot (c : Cmd) (x : HostAns) {T : Nat} (hT : 0x330FBE59 &&& T = 0x330FBE59) : (decideCmd c x).Foot (In T) :=
  foot_mono (L := 0x330FBE59) (by
    unfold decideCmd
    simp only [foot_ask]
    intro s _
    have := judge_judged s c x
    simp [this.1, verdictAct_foot c _ this.2]) hT
@[simp] theorem decideOp_foot (p : Cmd → Bool) (h : HostAns) {T : Nat} (hT : 0x330FBE59 &&& T = 0x330FBE59) : (decideOp p h).Foot (In T) :=
  foot_mono (L := 0x330FBE59) (by simp (decide := true) [decideOp]) hT
@[simp] theorem decideOpcode_foot (op : Nat) {T : Nat} (hT : 0x330FBE59 &&& T = 0x330FBE59) : (decideOpcode op).Foot (In T) :=
  foot_mono (L := 0x330FBE59) (by simp (decide := true) [decideOpcode]) hT
@[simp] theorem decideTch_foot (op : Nat) {T : Nat} (hT : 0x330FBE59 &&& T = 0x330FBE59) : (decideTch op).Foot (In T) :=
  foot_mono (L := 0x330FBE59) (by simp (decide := true) [decideTch]) hT
@[simp] theorem cmdFinishAny_foot (c : Cmd) {T : Nat} (hT : 0x210ABE19 &&& T = 0x210ABE19) : (cmdFinishAny c).Foot (In T) :=
  foot_mono (L := 0x210ABE19) (by simp (decide := true) [cmdFinishAny]) hT
@[simp] theorem passStamp_foot (c : Cmd) {T : Nat} (hT : 0x300FFE19 &&& T = 0x300FFE19) : (passStamp c).Foot (In T) :=
  foot_mono (L := 0x300FFE19) (by simp (decide := true) [passStamp]) hT

end Sys2Proof.Machine
end

