-- ==== Sys2Proof/Laws/FootSeats.lean ====
section
/-!
SUPPORT. Laws/FootSeats.lean: footprints of the operations of Machine/Seats.lean.
-/

namespace Sys2Proof.Machine

@[simp] theorem pinRelease_foot {T : Nat} (hT : 0x1 &&& T = 0x1) : (pinRelease).Foot (In T) :=
  foot_mono (L := 0x1) (by simp (decide := true) [pinRelease]) hT
@[simp] theorem tblLoad_foot (w : Nat → Word) {T : Nat} (hT : 0x20000001 &&& T = 0x20000001) : (tblLoad w).Foot (In T) :=
  foot_mono (L := 0x20000001) (by simp (decide := true) [tblLoad]) hT
@[simp] theorem seatTblOp_foot (op : Nat) {T : Nat} (hT : 0x22000801 &&& T = 0x22000801) : (seatTblOp op).Foot (In T) :=
  foot_mono (L := 0x22000801) (by simp (decide := true) [seatTblOp]) hT
@[simp] theorem tblCommit_foot {T : Nat} (hT : 0x2000800 &&& T = 0x2000800) : (tblCommit).Foot (In T) :=
  foot_mono (L := 0x2000800) (by simp (decide := true) [tblCommit]) hT
@[simp] theorem vfmapApply_foot {T : Nat} (hT : 0x22000801 &&& T = 0x22000801) : (vfmapApply).Foot (In T) :=
  foot_mono (L := 0x22000801) (by simp (decide := true) [vfmapApply]) hT
@[simp] theorem msixApply_foot (seat : Nat) {T : Nat} (hT : 0x2000800 &&& T = 0x2000800) : (msixApply seat).Foot (In T) :=
  foot_mono (L := 0x2000800) (by simp (decide := true) [msixApply]) hT
@[simp] theorem seatStatePut_foot (seat v : Nat) {T : Nat} (hT : 0x1 &&& T = 0x1) : (seatStatePut seat v).Foot (In T) :=
  foot_mono (L := 0x1) (by simp (decide := true) [seatStatePut]) hT
@[simp] theorem vfEnableOp_foot (p : Nat) {T : Nat} (hT : 0x2000801 &&& T = 0x2000801) : (vfEnableOp p).Foot (In T) :=
  foot_mono (L := 0x2000801) (by simp (decide := true) [vfEnableOp]) hT
@[simp] theorem vfDisableOp_foot (p : Nat) {T : Nat} (hT : 0x2000801 &&& T = 0x2000801) : (vfDisableOp p).Foot (In T) :=
  foot_mono (L := 0x2000801) (by simp (decide := true) [vfDisableOp]) hT
@[simp] theorem supervisorMake_foot (sup : Nat) {T : Nat} (hT : 0x2000801 &&& T = 0x2000801) : (supervisorMake sup).Foot (In T) :=
  foot_mono (L := 0x2000801) (by simp (decide := true) [supervisorMake]) hT
@[simp] theorem handshake_foot {T : Nat} (hT : 0x22200801 &&& T = 0x22200801) : (handshake).Foot (In T) :=
  foot_mono (L := 0x22200801) (by simp (decide := true) [handshake]) hT
@[simp] theorem squashNow_foot (id : Nat) {T : Nat} (hT : 0x20078601 &&& T = 0x20078601) : (squashNow id).Foot (In T) :=
  foot_mono (L := 0x20078601) (by simp (decide := true) [squashNow]) hT
@[simp] theorem squashCmd_foot (c : Cmd) {T : Nat} (hT : 0x2007C601 &&& T = 0x2007C601) : (squashCmd c).Foot (In T) :=
  foot_mono (L := 0x2007C601) (by simp (decide := true) [squashCmd]) hT
@[simp] theorem drainOrSquash_foot (seat : Nat) {T : Nat} (hT : 0x210FFE19 &&& T = 0x210FFE19) : (drainOrSquash seat).Foot (In T) :=
  foot_mono (L := 0x210FFE19) (by simp (decide := true) [drainOrSquash]) hT
@[simp] theorem muteSeat_foot (seat : Nat) {T : Nat} (hT : 0x200 &&& T = 0x200) : (muteSeat seat).Foot (In T) :=
  foot_mono (L := 0x200) (by simp (decide := true) [muteSeat]) hT
@[simp] theorem seatResetOp_foot (seat cause : Nat) (toDisabled : Bool) {T : Nat} (hT : 0x230FFE19 &&& T = 0x230FFE19) : (seatResetOp seat cause toDisabled).Foot (In T) :=
  foot_mono (L := 0x230FFE19) (by simp (decide := true) [seatResetOp]) hT
@[simp] theorem flrOp_foot (seat : Nat) {T : Nat} (hT : 0x230FFE19 &&& T = 0x230FFE19) : (flrOp seat).Foot (In T) :=
  foot_mono (L := 0x230FFE19) (by simp (decide := true) [flrOp]) hT
@[simp] theorem seatResetGoOp_foot (w : Word) {T : Nat} (hT : 0x230FFE19 &&& T = 0x230FFE19) : (seatResetGoOp w).Foot (In T) :=
  foot_mono (L := 0x230FFE19) (by simp (decide := true) [seatResetGoOp]) hT
@[simp] theorem releaseHoldings_foot (seat : Nat) {T : Nat} (hT : 0x20068001 &&& T = 0x20068001) : (releaseHoldings seat).Foot (In T) :=
  foot_mono (L := 0x20068001) (by simp (decide := true) [releaseHoldings]) hT
@[simp] theorem ringsReset_foot (seat : Nat) (noHost : Bool) {T : Nat} (hT : 0x8B819 &&& T = 0x8B819) : (ringsReset seat noHost).Foot (In T) :=
  foot_mono (L := 0x8B819) (by simp (decide := true) [ringsReset]) hT
@[simp] theorem unmaskSend_foot (seat : Nat) (old new : Word) {T : Nat} (hT : 0x800 &&& T = 0x800) : (unmaskSend seat old new).Foot (In T) :=
  foot_mono (L := 0x800) (by simp (decide := true) [unmaskSend]) hT
@[simp] theorem dirtySwap_foot (seat : Nat) {T : Nat} (hT : 0x1 &&& T = 0x1) : (dirtySwap seat).Foot (In T) :=
  foot_mono (L := 0x1) (by simp (decide := true) [dirtySwap]) hT

end Sys2Proof.Machine
end

