-- ==== Sys2Proof/Laws/FootClockGate.lean ====
section
/-!
SUPPORT. Laws/FootClockGate.lean: footprints of the operations of Machine/ClockGate.lean.
-/

namespace Sys2Proof.Machine

@[simp] theorem ungate_foot (b : Nat) {T : Nat} (hT : 0x20100001 &&& T = 0x20100001) : (ungate b).Foot (In T) :=
  foot_mono (L := 0x20100001) (by simp (decide := true) [ungate]) hT
@[simp] theorem gateReview_foot (trans : Bool) (b : Nat) {T : Nat} (hT : 0x20100001 &&& T = 0x20100001) : (gateReview trans b).Foot (In T) :=
  foot_mono (L := 0x20100001) (by simp (decide := true) [gateReview]) hT
@[simp] theorem gateAll_foot {T : Nat} (hT : 0x20100001 &&& T = 0x20100001) : (gateAll).Foot (In T) :=
  foot_mono (L := 0x20100001) (by simp (decide := true) [gateAll]) hT
@[simp] theorem gateRefuse_foot (b : Nat) {T : Nat} (hT : 0x301FDE01 &&& T = 0x301FDE01) : (gateRefuse b).Foot (In T) :=
  foot_mono (L := 0x301FDE01) (by simp (decide := true) [gateRefuse]) hT

end Sys2Proof.Machine
end

