-- ==== Sys2Proof/Laws/FootWorlds.lean ====
section
/-!
SUPPORT. Laws/FootWorlds.lean: footprints of the operations of Machine/Worlds.lean.
-/

namespace Sys2Proof.Machine

@[simp] theorem seatsNotify_foot (p : Nat → Bool) (bit : Nat) {T : Nat} (hT : 0x801 &&& T = 0x801) : (seatsNotify p bit).Foot (In T) := by
  unfold seatsNotify
  simp only [foot_ask, foot_each]
  exact fun _ _ n _ => irqSet_foot n bit hT
@[simp] theorem handoverNotice_foot (moving : List Nat) {T : Nat} (hT : 0x801 &&& T = 0x801) : (handoverNotice moving).Foot (In T) :=
  .ask fun _ _ => seatsNotify_foot _ 11 hT
@[simp] theorem secHoGoOp_foot {T : Nat} (hT : 0x24101801 &&& T = 0x24101801) : (secHoGoOp).Foot (In T) :=
  foot_mono (L := 0x24101801) (by simp (decide := true) [secHoGoOp]) hT
@[simp] theorem handoverQuiesce_foot {T : Nat} (hT : 0x20054001 &&& T = 0x20054001) : (handoverQuiesce).Foot (In T) :=
  foot_mono (L := 0x20054001) (by
    simp (decide := true) [handoverQuiesce]; intros; repeat' split
    all_goals simp (decide := true)) hT
@[simp] theorem windowReset_foot (first size : Nat) {T : Nat} (hT : 0x20000005 &&& T = 0x20000005) : (windowReset first size).Foot (In T) :=
  foot_mono (L := 0x20000005) (by simp (decide := true) [windowReset]) hT
@[simp] theorem headLeave_foot (h : Nat) {T : Nat} (hT : 0x20010001 &&& T = 0x20010001) : (headLeave h).Foot (In T) :=
  foot_mono (L := 0x20010001) (by simp (decide := true) [headLeave]) hT
@[simp] theorem chkUnserve_foot {T : Nat} (hT : 0x20008001 &&& T = 0x20008001) : (chkUnserve).Foot (In T) :=
  foot_mono (L := 0x20008001) (by simp (decide := true) [chkUnserve]) hT
@[simp] theorem unitClear_foot (u : Nat) {T : Nat} (hT : 0x2007C601 &&& T = 0x2007C601) : (unitClear u).Foot (In T) :=
  foot_mono (L := 0x2007C601) (by simp (decide := true) [unitClear]) hT
@[simp] theorem unitReset_foot (u : Nat) {T : Nat} (hT : 0x2007C605 &&& T = 0x2007C605) : (unitReset u).Foot (In T) :=
  foot_mono (L := 0x2007C605) (by simp (decide := true) [unitReset]) hT
@[simp] theorem reserveOp_foot (store : Bool) (v : Nat) {T : Nat} (hT : 0x24001001 &&& T = 0x24001001) : (reserveOp store v).Foot (In T) :=
  foot_mono (L := 0x24001001) (by simp (decide := true) [reserveOp]) hT
@[simp] theorem reserveEdge_foot {T : Nat} (hT : 0x24001001 &&& T = 0x24001001) : (reserveEdge).Foot (In T) :=
  foot_mono (L := 0x24001001) (by simp (decide := true) [reserveEdge]) hT
@[simp] theorem grdApplyOp_foot (n : Nat) (secure : Bool) {T : Nat} (hT : 0x8002001 &&& T = 0x8002001) : (grdApplyOp n secure).Foot (In T) :=
  foot_mono (L := 0x8002001) (by simp (decide := true) [grdApplyOp]) hT
@[simp] theorem secureNotice_foot (v : Nat) {T : Nat} (hT : 0x801 &&& T = 0x801) : (secureNotice v).Foot (In T) :=
  foot_mono (L := 0x801) (by simp (decide := true) [secureNotice]) hT
@[simp] theorem restartTrigger_foot (byGo : Bool) {T : Nat} (hT : 0x3C043C81 &&& T = 0x3C043C81) : (restartTrigger byGo).Foot (In T) :=
  foot_mono (L := 0x3C043C81) (by simp (decide := true) [restartTrigger]) hT
@[simp] theorem secRestartGoOp_foot {T : Nat} (hT : 0x3C043C81 &&& T = 0x3C043C81) : (secRestartGoOp).Foot (In T) :=
  foot_mono (L := 0x3C043C81) (by simp (decide := true) [secRestartGoOp]) hT
@[simp] theorem secRestartReadyOp_foot {T : Nat} (hT : 0x24001801 &&& T = 0x24001801) : (secRestartReadyOp).Foot (In T) :=
  foot_mono (L := 0x24001801) (by simp (decide := true) [secRestartReadyOp]) hT

end Sys2Proof.Machine
end

