-- ==== Sys2Proof/Laws/FootMemCtl.lean ====
section
/-!
SUPPORT. Laws/FootMemCtl.lean: footprints of the operations of Machine/MemCtl.lean.
-/

namespace Sys2Proof.Machine

@[simp] theorem rowActivate_foot (ch bank row : Nat) {T : Nat} (hT : 0x8002000 &&& T = 0x8002000) : (rowActivate ch bank row).Foot (In T) :=
  foot_mono (L := 0x8002000) (by simp (decide := true) [rowActivate]) hT
@[simp] theorem neighbourRefresh_foot (ch bank row : Nat) {T : Nat} (hT : 0x8002000 &&& T = 0x8002000) : (neighbourRefresh ch bank row).Foot (In T) :=
  foot_mono (L := 0x8002000) (by simp (decide := true) [neighbourRefresh]) hT
@[simp] theorem bankRefreshes_foot (ch bank : Nat) {T : Nat} (hT : 0x8002000 &&& T = 0x8002000) : (bankRefreshes ch bank).Foot (In T) :=
  foot_mono (L := 0x8002000) (by simp (decide := true) [bankRefreshes]) hT
@[simp] theorem State_txnRead_foot (s : State) (t : Txn) {T : Nat} (hT : 0x300FFE01 &&& T = 0x300FFE01) : (State.txnRead s t).act.Foot (In T) :=
  foot_mono (L := 0x300FFE01) (by
    simp (decide := true) [State.txnRead]; intros; repeat' split
    all_goals simp (decide := true)) hT
@[simp] theorem State_txnWrite_foot (s : State) (t : Txn) {T : Nat} (hT : 0x300FFE19 &&& T = 0x300FFE19) : (State.txnWrite s t).act.Foot (In T) :=
  foot_mono (L := 0x300FFE19) (by
    simp (decide := true) [State.txnWrite]; intros; repeat' split
    all_goals simp (decide := true)) hT
@[simp] theorem txnFailed_foot (t : Txn) (o : MemOut) {T : Nat} (hT : 0x300FDE01 &&& T = 0x300FDE01) : (txnFailed t o).Foot (In T) :=
  foot_mono (L := 0x300FDE01) (by simp (decide := true) [txnFailed]) hT
theorem txnAccess_foot (t : Txn) (o : State → MemOut) (rd : Bool) (ho : ∀ s, (o s).act.Foot (In 0x380FFE39)) {T : Nat} (hT : 0x380FFE39 &&& T = 0x380FFE39) :
    (txnAccess t o rd).Foot (In T) :=
  foot_mono (L := 0x380FFE39) (by simp (decide := true) [txnAccess, ho]) hT
@[simp] theorem txnOp_foot (t : Txn) {T : Nat} (hT : 0x380FFE39 &&& T = 0x380FFE39) : (txnOp t).Foot (In T) :=
  foot_mono (L := 0x380FFE39) (by simp (decide := true) [txnOp, txnAccess_foot]) hT
@[simp] theorem eccClears_foot (dmc : Bool) (w : Word) {T : Nat} (hT : 0x8002001 &&& T = 0x8002001) : (eccClears dmc w).Foot (In T) :=
  foot_mono (L := 0x8002001) (by simp (decide := true) [eccClears]) hT
@[simp] theorem testPend_foot (dmc : Bool) (r : Option Nat) {T : Nat} (hT : 0x8002000 &&& T = 0x8002000) : (testPend dmc r).Foot (In T) :=
  foot_mono (L := 0x8002000) (by simp (decide := true) [testPend]) hT
@[simp] theorem testEffect_foot (dmc : Bool) (op : Nat) {T : Nat} (hT : 0x20000019 &&& T = 0x20000019) : (testEffect dmc op).Foot (In T) :=
  foot_mono (L := 0x20000019) (by simp (decide := true) [testEffect]) hT
@[simp] theorem testOp_foot (dmc secure : Bool) (op : Nat) {T : Nat} (hT : 0x28083819 &&& T = 0x28083819) : (testOp dmc secure op).Foot (In T) :=
  foot_mono (L := 0x28083819) (by
    unfold testOp
    simp only [foot_ask]
    intro s _
    simp only [foot_ite, foot_skip, foot_acts_cons, foot_acts_nil, foot_actOpt, implies_true, true_and, and_true]
    simp (decide := true)) hT

end Sys2Proof.Machine
end

