-- ==== Sys2Proof/Laws/FootDma.lean ====
section
/-!
SUPPORT. Laws/FootDma.lean: footprints of the operations of Machine/Dma.lean.
-/

namespace Sys2Proof.Machine

@[simp] theorem dmaIssue_foot (k : Nat) {T : Nat} (hT : 0x4601 &&& T = 0x4601) : (dmaIssue k).Foot (In T) :=
  foot_mono (L := 0x4601) (by simp (decide := true) [dmaIssue]) hT
@[simp] theorem dmaFinish_foot (k : Nat) {T : Nat} (hT : 0x4601 &&& T = 0x4601) : (dmaFinish k).Foot (In T) :=
  foot_mono (L := 0x4601) (by simp (decide := true) [dmaFinish]) hT
@[simp] theorem dmaFail_foot (k : Nat) {T : Nat} (hT : 0x4601 &&& T = 0x4601) : (dmaFail k).Foot (In T) :=
  foot_mono (L := 0x4601) (by simp (decide := true) [dmaFail]) hT
@[simp] theorem State_xRead_foot (s : State) (k a len : Nat) (h : HostAns) {T : Nat} (hT : 0x300FFE01 &&& T = 0x300FFE01) : (State.xRead s k a len h).act.Foot (In T) :=
  foot_mono (L := 0x300FFE01) (by
    simp (decide := true) [State.xRead]; intros; repeat' split
    all_goals simp (decide := true)) hT
@[simp] theorem State_xWrite_foot (s : State) (k a : Nat) (bs : List Byte) (h : HostAns) {T : Nat} (hT : 0x300FFE19 &&& T = 0x300FFE19) : (State.xWrite s k a bs h).act.Foot (In T) :=
  foot_mono (L := 0x300FFE19) (by
    simp (decide := true) [State.xWrite]; intros; repeat' split
    all_goals simp (decide := true)) hT
@[simp] theorem dmaAdvance_foot (k len : Nat) {T : Nat} (hT : 0x4601 &&& T = 0x4601) : (dmaAdvance k len).Foot (In T) :=
  foot_mono (L := 0x4601) (by simp (decide := true) [dmaAdvance]) hT
@[simp] theorem dmaBurst_foot (k : Nat) (h : HostAns) {T : Nat} (hT : 0x300FFE19 &&& T = 0x300FFE19) : (dmaBurst k h).Foot (In T) :=
  foot_mono (L := 0x300FFE19) (by
    simp (decide := true) [dmaBurst]; intros; repeat' split
    all_goals simp (decide := true)) hT
@[simp] theorem dmaWork_foot (op cmd : Nat) {T : Nat} (hT : 0x4601 &&& T = 0x4601) : (dmaWork op cmd).Foot (In T) :=
  foot_mono (L := 0x4601) (by simp (decide := true) [dmaWork]) hT
@[simp] theorem dmaGoOp_foot (k : Nat) {T : Nat} (hT : 0x4641 &&& T = 0x4641) : (dmaGoOp k).Foot (In T) :=
  foot_mono (L := 0x4641) (by simp (decide := true) [dmaGoOp]) hT
@[simp] theorem dmaAbortOp_foot (k : Nat) {T : Nat} (hT : 0x4601 &&& T = 0x4601) : (dmaAbortOp k).Foot (In T) :=
  foot_mono (L := 0x4601) (by simp (decide := true) [dmaAbortOp]) hT

end Sys2Proof.Machine
end

