-- ==== Sys2Proof/Laws/FootClock.lean ====
section
/-!
SUPPORT. Laws/FootClock.lean: footprints of the operations of Machine/Clock.lean.
-/

namespace Sys2Proof.Machine

@[simp] theorem pllPut_foot (p locked coasting refNow held : Nat) {T : Nat} (hT : 0x20000001 &&& T = 0x20000001) : (pllPut p locked coasting refNow held).Foot (In T) :=
  foot_mono (L := 0x20000001) (by simp (decide := true) [pllPut]) hT
@[simp] theorem pllLock_foot (p src : Nat) {T : Nat} (hT : 0x20000001 &&& T = 0x20000001) : (pllLock p src).Foot (In T) :=
  foot_mono (L := 0x20000001) (by simp (decide := true) [pllLock]) hT
@[simp] theorem sourceReadyOp_foot (src : Nat) {T : Nat} (hT : 0x20300101 &&& T = 0x20300101) : (sourceReadyOp src).Foot (In T) :=
  foot_mono (L := 0x20300101) (by simp (decide := true) [sourceReadyOp]) hT
@[simp] theorem pllTrip_foot (src p : Nat) {T : Nat} (hT : 0x20000001 &&& T = 0x20000001) : (pllTrip src p).Foot (In T) :=
  foot_mono (L := 0x20000001) (by simp (decide := true) [pllTrip]) hT
@[simp] theorem pllRefOp_foot (p ref : Nat) {T : Nat} (hT : 0x300FDE01 &&& T = 0x300FDE01) : (pllRefOp p ref).Foot (In T) :=
  foot_mono (L := 0x300FDE01) (by simp (decide := true) [pllRefOp]) hT
@[simp] theorem pllWake_foot {T : Nat} (hT : 0x20100001 &&& T = 0x20100001) : (pllWake).Foot (In T) :=
  foot_mono (L := 0x20100001) (by simp (decide := true) [pllWake]) hT
@[simp] theorem hoscStart_foot {T : Nat} (hT : 0x20000001 &&& T = 0x20000001) : (hoscStart).Foot (In T) :=
  foot_mono (L := 0x20000001) (by simp (decide := true) [hoscStart]) hT
@[simp] theorem hoscWriteOp_foot (old m : Word) {T : Nat} (hT : 0x20000001 &&& T = 0x20000001) : (hoscWriteOp old m).Foot (In T) :=
  foot_mono (L := 0x20000001) (by simp (decide := true) [hoscWriteOp]) hT
@[simp] theorem trimOp_foot (counted : Nat) {T : Nat} (hT : 0x20100001 &&& T = 0x20100001) : (trimOp counted).Foot (In T) :=
  foot_mono (L := 0x20100001) (by simp (decide := true) [trimOp]) hT

end Sys2Proof.Machine
end

