-- ==== Sys2Proof/Laws/FootPower.lean ====
section
/-!
SUPPORT. Laws/FootPower.lean: footprints of the operations of Machine/Power.lean.
-/

namespace Sys2Proof.Machine

@[simp] theorem chipResetOp_foot (st : Straps) (kind by_ : Nat) {T : Nat} (hT : 0x80 &&& T = 0x80) : (chipResetOp st kind by_).Foot (In T) :=
  foot_mono (L := 0x80) (by simp (decide := true) [chipResetOp]) hT
@[simp] theorem rstChipOp_foot (p : Path) (w : Word) {T : Nat} (hT : 0x80 &&& T = 0x80) : (rstChipOp p w).Foot (In T) :=
  foot_mono (L := 0x80) (by simp (decide := true) [rstChipOp]) hT
@[simp] theorem dramInit_foot {T : Nat} (hT : 0x380FFE01 &&& T = 0x380FFE01) : (dramInit).Foot (In T) :=
  foot_mono (L := 0x380FFE01) (by simp (decide := true) [dramInit]) hT
@[simp] theorem pwrState_foot (v : Nat) {T : Nat} (hT : 0x20000001 &&& T = 0x20000001) : (pwrState v).Foot (In T) :=
  foot_mono (L := 0x20000001) (by simp (decide := true) [pwrState]) hT
@[simp] theorem pwrResult_foot (v : Nat) {T : Nat} (hT : 0x20000001 &&& T = 0x20000001) : (pwrResult v).Foot (In T) :=
  foot_mono (L := 0x20000001) (by simp (decide := true) [pwrResult]) hT
@[simp] theorem deepBegin_foot {T : Nat} (hT : 0x20000001 &&& T = 0x20000001) : (deepBegin).Foot (In T) :=
  foot_mono (L := 0x20000001) (by simp (decide := true) [deepBegin]) hT
@[simp] theorem wakeOp_foot (cause : Nat) {T : Nat} (hT : 0x20200001 &&& T = 0x20200001) : (wakeOp cause).Foot (In T) :=
  foot_mono (L := 0x20200001) (by simp (decide := true) [wakeOp]) hT
@[simp] theorem pwrRequestOp_foot (p : Path) (req : Nat) {T : Nat} (hT : 0x20200001 &&& T = 0x20200001) : (pwrRequestOp p req).Foot (In T) :=
  foot_mono (L := 0x20200001) (by simp (decide := true) [pwrRequestOp]) hT

end Sys2Proof.Machine
end

