-- ==== Sys2Proof/Laws/FootPorts.lean ====
section
/-!
SUPPORT. Laws/FootPorts.lean: footprints of the operations of Machine/Ports.lean.
-/

namespace Sys2Proof.Machine

@[simp] theorem bringUp_foot (n : Nat) {T : Nat} (hT : 0x10001 &&& T = 0x10001) : (bringUp n).Foot (In T) :=
  foot_mono (L := 0x10001) (by simp (decide := true) [bringUp]) hT
@[simp] theorem portApply_foot (chg : Changed) (n : Nat) {T : Nat} (hT : 0x10001 &&& T = 0x10001) : (portApply chg n).Foot (In T) :=
  foot_mono (L := 0x10001) (by simp (decide := true) [portApply]) hT
@[simp] theorem headApply_foot (chg : Changed) (h : Nat) {T : Nat} (hT : 0x20010001 &&& T = 0x20010001) : (headApply chg h).Foot (In T) :=
  foot_mono (L := 0x20010001) (by simp (decide := true) [headApply]) hT
@[simp] theorem headStatePut_foot (h : Nat) {T : Nat} (hT : 0x20000001 &&& T = 0x20000001) : (headStatePut h).Foot (In T) :=
  foot_mono (L := 0x20000001) (by simp (decide := true) [headStatePut]) hT

end Sys2Proof.Machine
end

