-- ==== Sys2Proof/Laws/FootRollCall.lean ====
section
/-!
SUPPORT. Laws/FootRollCall.lean: footprints of the operations of Machine/RollCall.lean.
-/

namespace Sys2Proof.Machine

@[simp] theorem markTiles_foot (h : Nat) (ts : List Nat) {T : Nat} (hT : 0x10000 &&& T = 0x10000) : (markTiles h ts).Foot (In T) :=
  foot_mono (L := 0x10000) (by simp (decide := true) [markTiles]) hT
@[simp] theorem markHead_foot (h : Nat) {T : Nat} (hT : 0x10000 &&& T = 0x10000) : (markHead h).Foot (In T) :=
  foot_mono (L := 0x10000) (by simp (decide := true) [markHead]) hT
@[simp] theorem markFoot_foot (p : List Word) {T : Nat} (hT : 0x10000 &&& T = 0x10000) : (markFoot p).Foot (In T) :=
  foot_mono (L := 0x10000) (by simp (decide := true) [markFoot]) hT
@[simp] theorem layerChanged_foot (l : Nat) {T : Nat} (hT : 0x10000 &&& T = 0x10000) : (layerChanged l).Foot (In T) :=
  foot_mono (L := 0x10000) (by simp (decide := true) [layerChanged]) hT
@[simp] theorem layerCommit_foot (x : PendSet) {T : Nat} (hT : 0x10000 &&& T = 0x10000) : (layerCommit x).Foot (In T) :=
  foot_mono (L := 0x10000) (by simp (decide := true) [layerCommit]) hT
@[simp] theorem buffersLeave_foot (h : Nat) {T : Nat} (hT : 0x10000 &&& T = 0x10000) : (buffersLeave h).Foot (In T) :=
  foot_mono (L := 0x10000) (by simp (decide := true) [buffersLeave]) hT
@[simp] theorem buffersJoin_foot (h : Nat) {T : Nat} (hT : 0x10000 &&& T = 0x10000) : (buffersJoin h).Foot (In T) :=
  foot_mono (L := 0x10000) (by simp (decide := true) [buffersJoin]) hT
@[simp] theorem canvasCommit_foot (x : PendSet) {T : Nat} (hT : 0x20010001 &&& T = 0x20010001) : (canvasCommit x).Foot (In T) :=
  foot_mono (L := 0x20010001) (by simp (decide := true) [canvasCommit]) hT
@[simp] theorem commitSets_foot {T : Nat} (hT : 0x20010601 &&& T = 0x20010601) : (commitSets).Foot (In T) :=
  foot_mono (L := 0x20010601) (by simp (decide := true) [commitSets]) hT
@[simp] theorem surfaceLatch_foot (l seat surf seq : Nat) {T : Nat} (hT : 0x10000 &&& T = 0x10000) : (surfaceLatch l seat surf seq).Foot (In T) :=
  foot_mono (L := 0x10000) (by simp (decide := true) [surfaceLatch]) hT
@[simp] theorem flipLatch_foot {T : Nat} (hT : 0x10600 &&& T = 0x10600) : (flipLatch).Foot (In T) :=
  foot_mono (L := 0x10600) (by simp (decide := true) [flipLatch]) hT
@[simp] theorem ringLatch_foot {T : Nat} (hT : 0x10000 &&& T = 0x10000) : (ringLatch).Foot (In T) :=
  foot_mono (L := 0x10000) (by
    simp (decide := true) [ringLatch]; intros; repeat' split
    all_goals simp (decide := true)) hT
@[simp] theorem stampSample_foot (l : Nat) {T : Nat} (hT : 0x300FFE41 &&& T = 0x300FFE41) : (stampSample l).Foot (In T) :=
  foot_mono (L := 0x300FFE41) (by simp (decide := true) [stampSample]) hT
@[simp] theorem State_prfRead_foot (s : State) (st a n : Nat) {T : Nat} (hT : 0x300FFE01 &&& T = 0x300FFE01) : (State.prfRead s st a n).act.Foot (In T) :=
  foot_mono (L := 0x300FFE01) (by
    simp (decide := true) [State.prfRead]; intros; repeat' split
    all_goals simp (decide := true)) hT
@[simp] theorem critSample_foot (h : Nat) {T : Nat} (hT : 0x300FFE41 &&& T = 0x300FFE41) : (critSample h).Foot (In T) :=
  foot_mono (L := 0x300FFE41) (by simp (decide := true) [critSample]) hT
@[simp] theorem stampsSample_foot {T : Nat} (hT : 0x300FFE41 &&& T = 0x300FFE41) : (stampsSample).Foot (In T) :=
  foot_mono (L := 0x300FFE41) (by simp (decide := true) [stampsSample]) hT
@[simp] theorem layerJudge_foot (n l : Nat) {T : Nat} (hT : 0x300FDE01 &&& T = 0x300FDE01) : (layerJudge n l).Foot (In T) :=
  foot_mono (L := 0x300FDE01) (by simp (decide := true) [layerJudge]) hT
@[simp] theorem altJudge_foot (l : Nat) {T : Nat} (hT : 0x20010001 &&& T = 0x20010001) : (altJudge l).Foot (In T) :=
  foot_mono (L := 0x20010001) (by simp (decide := true) [altJudge]) hT
@[simp] theorem critJudge_foot (n h i : Nat) {T : Nat} (hT : 0x300FDE01 &&& T = 0x300FDE01) : (critJudge n h i).Foot (In T) :=
  foot_mono (L := 0x300FDE01) (by simp (decide := true) [critJudge]) hT
@[simp] theorem rollCall_foot (n : Nat) {T : Nat} (hT : 0x300FDE01 &&& T = 0x300FDE01) : (rollCall n).Foot (In T) :=
  foot_mono (L := 0x300FDE01) (by simp (decide := true) [rollCall]) hT
@[simp] theorem edgeMarks_foot (c h : Nat) {T : Nat} (hT : 0x10000 &&& T = 0x10000) : (edgeMarks c h).Foot (In T) :=
  foot_mono (L := 0x10000) (by simp (decide := true) [edgeMarks]) hT
@[simp] theorem idleCount_foot (n h : Nat) {T : Nat} (hT : 0x10000 &&& T = 0x10000) : (idleCount n h).Foot (In T) :=
  foot_mono (L := 0x10000) (by
    simp (decide := true) [idleCount]; intros; repeat' split
    all_goals simp (decide := true)) hT
@[simp] theorem srExit_foot (n h : Nat) (sel : Bool) {T : Nat} (hT : 0x20010001 &&& T = 0x20010001) : (srExit n h sel).Foot (In T) :=
  foot_mono (L := 0x20010001) (by simp (decide := true) [srExit]) hT
@[simp] theorem srDecide_foot (n : Nat) (jolt : Bool) (h : Nat) {T : Nat} (hT : 0x20010001 &&& T = 0x20010001) : (srDecide n jolt h).Foot (In T) :=
  foot_mono (L := 0x20010001) (by
    simp (decide := true) [srDecide]; intros; repeat' split
    all_goals simp (decide := true)) hT
@[simp] theorem edgeForget_foot {T : Nat} (hT : 0x10000 &&& T = 0x10000) : (edgeForget).Foot (In T) :=
  foot_mono (L := 0x10000) (by simp (decide := true) [edgeForget]) hT

end Sys2Proof.Machine
end

