-- ==== Sys2Proof/Laws/FootCompose.lean ====
section
/-!
SUPPORT. Laws/FootCompose.lean: footprints of the operations of Machine/Compose.lean.
-/

namespace Sys2Proof.Machine

@[simp] theorem compUpd_foot (h edge : Nat) (f : Comp → Comp) {T : Nat} (hT : 0x10000 &&& T = 0x10000) : (compUpd h edge f).Foot (In T) :=
  foot_mono (L := 0x10000) (by simp (decide := true) [compUpd]) hT
@[simp] theorem tileCut_foot (h : Nat) (c : Comp) (t : Nat) {T : Nat} (hT : 0x10000 &&& T = 0x10000) : (tileCut h c t).Foot (In T) :=
  foot_mono (L := 0x10000) (by simp (decide := true) [tileCut]) hT
@[simp] theorem tileWrite_foot (h : Nat) (c : Comp) (t : Nat) (rows : List (Nat × List Byte)) {T : Nat} (hT : 0x9B819 &&& T = 0x9B819) : (tileWrite h c t rows).Foot (In T) :=
  foot_mono (L := 0x9B819) (by simp (decide := true) [tileWrite]) hT
theorem itemReads_foot {s : State} {i : Item} {tile : Rect} {o : Nat × MemOut} (ho : o ∈ s.itemReads i tile) {T : Nat}
    (hT : 0x300FFE01 &&& T = 0x300FFE01) : o.2.act.Foot (In T) := by
  unfold State.itemReads at ho
  split at ho
  · simp at ho
  · simp only [List.mem_map] at ho
    obtain ⟨_, _, rfl⟩ := ho
    exact seatRead_foot _ _ _ _ _ _ _ hT
@[simp] theorem tileCompose_foot (h : Nat) (c : Comp) (t : Nat) {T : Nat} (hT : 0x300FFE19 &&& T = 0x300FFE19) : (tileCompose h c t).Foot (In T) :=
  foot_mono (L := 0x300FFE19) (by
    unfold tileCompose
    simp only [foot_ask, foot_acts_cons, foot_acts_nil, foot_each]
    refine fun s _ => ⟨fun o ho => ?_, ?_, trivial⟩
    · simp only [List.mem_flatten, List.mem_map] at ho
      obtain ⟨l, ⟨r, ⟨i, _, rfl⟩, rfl⟩, hol⟩ := ho
      exact itemReads_foot hol rfl
    · split <;> simp (decide := true)) hT
@[simp] theorem planBegin_foot (n h : Nat) {T : Nat} (hT : 0x10000 &&& T = 0x10000) : (planBegin n h).Foot (In T) :=
  foot_mono (L := 0x10000) (by
    simp (decide := true) [planBegin]; intros; repeat' split
    all_goals simp (decide := true)) hT
@[simp] theorem compEnd_foot (h : Nat) (c : Comp) {T : Nat} (hT : 0x20010001 &&& T = 0x20010001) : (compEnd h c).Foot (In T) :=
  foot_mono (L := 0x20010001) (by simp (decide := true) [compEnd]) hT
@[simp] theorem compsEnd_foot {T : Nat} (hT : 0x20010001 &&& T = 0x20010001) : (compsEnd).Foot (In T) :=
  foot_mono (L := 0x20010001) (by simp (decide := true) [compsEnd]) hT
theorem eachTile_foot (pick : HeadSt → Comp → Nat → Bool) (f : Nat → Comp → Nat → Act) {P : Eff → Prop} (h : ∀ a b c, (f a b c).Foot P) :
    (eachTile pick f).Foot P := by
  simp only [eachTile, foot_ask, foot_each]
  intros
  exact h _ _ _
@[simp] theorem composeNormal_foot (late : List (Nat × Nat)) {T : Nat} (hT : 0x300FFE19 &&& T = 0x300FFE19) : (composeNormal late).Foot (In T) :=
  foot_mono (L := 0x300FFE19) (by simp (decide := true) [composeNormal]) hT
@[simp] theorem composeCutoff_foot {T : Nat} (hT : 0x300FDE01 &&& T = 0x300FDE01) : composeCutoff.Foot (In T) :=
  foot_mono (L := 0x300FDE01) (eachTile_foot _ _ fun _ _ _ => by simp (decide := true)) hT
@[simp] theorem composeSlices_foot (late : List (Nat × Nat)) {T : Nat} (hT : 0x300FFE19 &&& T = 0x300FFE19) : (composeSlices late).Foot (In T) :=
  foot_mono (L := 0x300FFE19) (by simp (decide := true) [composeSlices]) hT
@[simp] theorem sliceCutoff_foot (h edge row : Nat) {T : Nat} (hT : 0x300FDE01 &&& T = 0x300FDE01) : (sliceCutoff h edge row).Foot (In T) :=
  foot_mono (L := 0x300FDE01) (by simp (decide := true) [sliceCutoff]) hT
@[simp] theorem composePeriod_foot (p : Nat) (late : List (Nat × Nat)) {T : Nat} (hT : 0x300FFE19 &&& T = 0x300FFE19) : (composePeriod p late).Foot (In T) :=
  foot_mono (L := 0x300FFE19) (by simp (decide := true) [composePeriod]) hT

end Sys2Proof.Machine
end

