-- ==== Sys2Proof/Laws/FootHeads.lean ====
section
/-!
SUPPORT. Laws/FootHeads.lean: footprints of the operations of Machine/Heads.lean.
-/

namespace Sys2Proof.Machine

@[simp] theorem hdStatePut_foot (h v : Nat) {T : Nat} (hT : 0x20000001 &&& T = 0x20000001) : (hdStatePut h v).Foot (In T) :=
  foot_mono (L := 0x20000001) (by simp (decide := true) [hdStatePut]) hT
@[simp] theorem prefectStart_foot (h : Nat) {T : Nat} (hT : 0x300FDE01 &&& T = 0x300FDE01) : (prefectStart h).Foot (In T) :=
  foot_mono (L := 0x300FDE01) (by simp (decide := true) [prefectStart]) hT
@[simp] theorem chkFrameStart_foot (src : Nat) {T : Nat} (hT : 0x8000 &&& T = 0x8000) : (chkFrameStart src).Foot (In T) :=
  foot_mono (L := 0x8000) (by simp (decide := true) [chkFrameStart]) hT
@[simp] theorem chkFrameEnd_foot (src : Nat) {T : Nat} (hT : 0x8000 &&& T = 0x8000) : (chkFrameEnd src).Foot (In T) :=
  foot_mono (L := 0x8000) (by simp (decide := true) [chkFrameEnd]) hT
@[simp] theorem oldFree_foot (h : Nat) {T : Nat} (hT : 0x20010001 &&& T = 0x20010001) : (oldFree h).Foot (In T) :=
  foot_mono (L := 0x20010001) (by simp (decide := true) [oldFree]) hT
@[simp] theorem frameBegin_foot (h b : Nat) {T : Nat} (hT : 0x300FDE01 &&& T = 0x300FDE01) : (frameBegin h b).Foot (In T) :=
  foot_mono (L := 0x300FDE01) (by simp (decide := true) [frameBegin]) hT
@[simp] theorem frameStartOp_foot (h : Nat) {T : Nat} (hT : 0x300FDE01 &&& T = 0x300FDE01) : (frameStartOp h).Foot (In T) :=
  foot_mono (L := 0x300FDE01) (by simp (decide := true) [frameStartOp]) hT
@[simp] theorem headEvent_foot (h bit : Nat) {T : Nat} (hT : 0x20011801 &&& T = 0x20011801) : (headEvent h bit).Foot (In T) :=
  foot_mono (L := 0x20011801) (by simp (decide := true) [headEvent]) hT
@[simp] theorem underrunRecord_foot (h line : Nat) {T : Nat} (hT : 0x300FDE01 &&& T = 0x300FDE01) : (underrunRecord h line).Foot (In T) :=
  foot_mono (L := 0x300FDE01) (by simp (decide := true) [underrunRecord]) hT
theorem lineReads_foot {s : State} {h y : Nat} {o : Nat × MemOut} (ho : o ∈ s.lineReads h y) {T : Nat} (hT : 0x83801 &&& T = 0x83801) :
    o.2.act.Foot (In T) := by
  simp only [State.lineReads, List.mem_map] at ho
  obtain ⟨_, _, rfl⟩ := ho
  exact devRead_foot _ _ _ _ _ hT
@[simp] theorem pairFetch_foot (h y : Nat) (late : Bool) {T : Nat} (hT : 0x300FFE01 &&& T = 0x300FFE01) : (pairFetch h y late).Foot (In T) :=
  foot_mono (L := 0x300FFE01) (by
    unfold pairFetch
    simp only [foot_ask, foot_acts_cons, foot_acts_nil, foot_each]
    refine fun s _ => ⟨fun o ho => ?_, ?_, trivial⟩
    · rcases List.mem_append.1 ho with h1 | h1 <;> exact lineReads_foot h1 rfl
    · split <;> simp (decide := true)) hT
@[simp] theorem sentMap_foot (h : Nat) (f : List Nat → List Nat) {T : Nat} (hT : 0x10000 &&& T = 0x10000) : (sentMap h f).Foot (In T) :=
  foot_mono (L := 0x10000) (by simp (decide := true) [sentMap]) hT
@[simp] theorem critLine_foot (h y i : Nat) {T : Nat} (hT : 0x300FFE01 &&& T = 0x300FFE01) : (critLine h y i).Foot (In T) :=
  foot_mono (L := 0x300FFE01) (by simp (decide := true) [critLine]) hT
@[simp] theorem overlayLine_foot (h y : Nat) {T : Nat} (hT : 0x300FFE01 &&& T = 0x300FFE01) : (overlayLine h y).Foot (In T) :=
  foot_mono (L := 0x300FFE01) (by simp (decide := true) [overlayLine]) hT
@[simp] theorem regionLine_foot (h y : Nat) (odd : Bool) {T : Nat} (hT : 0x10001 &&& T = 0x10001) : (regionLine h y odd).Foot (In T) :=
  foot_mono (L := 0x10001) (by simp (decide := true) [regionLine]) hT
@[simp] theorem lockstepRaise_foot (h : Nat) {T : Nat} (hT : 0x300FDE41 &&& T = 0x300FDE41) : (lockstepRaise h).Foot (In T) :=
  foot_mono (L := 0x300FDE41) (by simp (decide := true) [lockstepRaise]) hT
@[simp] theorem lineSend_foot (h y : Nat) (odd : Bool) {T : Nat} (hT : 0x18001 &&& T = 0x18001) : (lineSend h y odd).Foot (In T) :=
  foot_mono (L := 0x18001) (by simp (decide := true) [lineSend]) hT
@[simp] theorem activeLine_foot (h y : Nat) (late odd : Bool) {T : Nat} (hT : 0x300FFE41 &&& T = 0x300FFE41) : (activeLine h y late odd).Foot (In T) :=
  foot_mono (L := 0x300FFE41) (by simp (decide := true) [activeLine]) hT
@[simp] theorem srEnter_foot (h : Nat) {T : Nat} (hT : 0x20010001 &&& T = 0x20010001) : (srEnter h).Foot (In T) :=
  foot_mono (L := 0x20010001) (by simp (decide := true) [srEnter]) hT
@[simp] theorem activeEnd_foot (h : Nat) {T : Nat} (hT : 0x20019801 &&& T = 0x20019801) : (activeEnd h).Foot (In T) :=
  foot_mono (L := 0x20019801) (by simp (decide := true) [activeEnd]) hT
@[simp] theorem lineStartOp_foot (h line : Nat) (late odd : Bool) {T : Nat} (hT : 0x300FFE41 &&& T = 0x300FFE41) : (lineStartOp h line late odd).Foot (In T) :=
  foot_mono (L := 0x300FFE41) (by simp (decide := true) [lineStartOp]) hT
@[simp] theorem safeLine_foot (h line : Nat) {T : Nat} (hT : 0x10000 &&& T = 0x10000) : (safeLine h line).Foot (In T) :=
  foot_mono (L := 0x10000) (by simp (decide := true) [safeLine]) hT

end Sys2Proof.Machine
end

