-- ==== Sys2Proof/Laws/FootCheck.lean ====
section
/-!
SUPPORT. Laws/FootCheck.lean: footprints of the operations of Machine/Check.lean.
-/

namespace Sys2Proof.Machine

@[simp] theorem entryPut_foot (u seat a : Nat) (w : Word) {T : Nat} (hT : 0x300FFE19 &&& T = 0x300FFE19) : (entryPut u seat a w).Foot (In T) :=
  foot_mono (L := 0x300FFE19) (by simp (decide := true) [entryPut]) hT
@[simp] theorem chkLatch_foot (n u : Nat) {T : Nat} (hT : 0x300FFE59 &&& T = 0x300FFE59) : (chkLatch n u).Foot (In T) :=
  foot_mono (L := 0x300FFE59) (by simp (decide := true) [chkLatch]) hT
@[simp] theorem chkLatchAll_foot (n : Nat) {T : Nat} (hT : 0x300FFE59 &&& T = 0x300FFE59) : (chkLatchAll n).Foot (In T) :=
  foot_mono (L := 0x300FFE59) (by simp (decide := true) [chkLatchAll]) hT
@[simp] theorem chkCommands_foot (n : Nat) {T : Nat} (hT : 0x20008601 &&& T = 0x20008601) : (chkCommands n).Foot (In T) :=
  foot_mono (L := 0x20008601) (by
    simp (decide := true) [chkCommands]; intros; repeat' split
    all_goals simp (decide := true)) hT
@[simp] theorem chkRegisters_foot {T : Nat} (hT : 0x8000 &&& T = 0x8000) : (chkRegisters).Foot (In T) :=
  foot_mono (L := 0x8000) (by simp (decide := true) [chkRegisters]) hT
@[simp] theorem prefectUnits_foot {T : Nat} (hT : 0x300FDE01 &&& T = 0x300FDE01) : (prefectUnits).Foot (In T) :=
  foot_mono (L := 0x300FDE01) (by simp (decide := true) [prefectUnits]) hT
@[simp] theorem mismReport_foot {T : Nat} (hT : 0x300FDE01 &&& T = 0x300FDE01) : (mismReport).Foot (In T) :=
  foot_mono (L := 0x300FDE01) (by simp (decide := true) [mismReport]) hT
@[simp] theorem checkEdge_foot (n : Nat) {T : Nat} (hT : 0x300FFE59 &&& T = 0x300FFE59) : (checkEdge n).Foot (In T) :=
  foot_mono (L := 0x300FFE59) (by simp (decide := true) [checkEdge]) hT

end Sys2Proof.Machine
end

