-- ==== Sys2Proof/Laws/FootBellGen.lean ====
section
/-!
SUPPORT. Laws/FootBellGen.lean: footprints of the operations of Machine/BellGen.lean.
-/

namespace Sys2Proof.Machine

@[simp] theorem bellRegs_foot {T : Nat} (hT : 0x20000001 &&& T = 0x20000001) : (bellRegs).Foot (In T) :=
  foot_mono (L := 0x20000001) (by simp (decide := true) [bellRegs]) hT
@[simp] theorem align_time (t : Tts) (at_ : Nat) (first jumpMode : Bool) : (t.align at_ first jumpMode).bell = t.bell ∧ (t.align at_ first jumpMode).period = t.period := by
  unfold Tts.align
  dsimp only
  repeat' split
  all_goals exact ⟨rfl, rfl⟩
@[simp] theorem validPulse_time (t : Tts) (at_ d : Nat) (jumpMode : Bool) :
    (t.validPulse at_ d jumpMode).bell = t.bell ∧ (t.validPulse at_ d jumpMode).period = t.period := by
  unfold Tts.validPulse
  dsimp only
  repeat' split
  all_goals first | exact ⟨rfl, rfl⟩ | exact align_time _ _ _ _
@[simp] theorem pulseOp_foot (at_ : Nat) {T : Nat} (hT : 0x300FDF01 &&& T = 0x300FDF01) : (pulseOp at_).Foot (In T) :=
  foot_mono (L := 0x300FDF01) (by
    unfold pulseOp
    simp only [foot_ask]
    intro s _
    split
    · simp
    · repeat' split
      all_goals simp (decide := true)) hT
@[simp] theorem bellChangeOp_foot {T : Nat} (hT : 0x20000101 &&& T = 0x20000101) : (bellChangeOp).Foot (In T) :=
  foot_mono (L := 0x20000101) (by simp (decide := true) [bellChangeOp]) hT
@[simp] theorem portSlots_foot {T : Nat} (hT : 0x1 &&& T = 0x1) : (portSlots).Foot (In T) :=
  foot_mono (L := 0x1) (by simp (decide := true) [portSlots]) hT
@[simp] theorem changeDone_foot {T : Nat} (hT : 0x20000001 &&& T = 0x20000001) : (changeDone).Foot (In T) :=
  foot_mono (L := 0x20000001) (by simp (decide := true) [changeDone]) hT

end Sys2Proof.Machine
end

