-- ==== Sys2Proof/Laws/FootCapture.lean ====
section
/-!
SUPPORT. Laws/FootCapture.lean: footprints of the operations of Machine/Capture.lean.
-/

namespace Sys2Proof.Machine

@[simp] theorem capUpd_foot (n : Nat) (f : CapSt → CapSt) {T : Nat} (hT : 0x20000 &&& T = 0x20000) : (capUpd n f).Foot (In T) :=
  foot_mono (L := 0x20000) (by simp (decide := true) [capUpd]) hT
@[simp] theorem capStatePut_foot (n v : Nat) {T : Nat} (hT : 0x20000001 &&& T = 0x20000001) : (capStatePut n v).Foot (In T) :=
  foot_mono (L := 0x20000001) (by simp (decide := true) [capStatePut]) hT
@[simp] theorem capCount_foot (n lo : Nat) {T : Nat} (hT : 0x20000001 &&& T = 0x20000001) : (capCount n lo).Foot (In T) :=
  foot_mono (L := 0x20000001) (by simp (decide := true) [capCount]) hT
@[simp] theorem capApply_foot (chg : Changed) (n : Nat) {T : Nat} (hT : 0x300FDE01 &&& T = 0x300FDE01) : (capApply chg n).Foot (In T) :=
  foot_mono (L := 0x300FDE01) (by simp (decide := true) [capApply]) hT
@[simp] theorem capEdge_foot (n : Nat) {T : Nat} (hT : 0x20020001 &&& T = 0x20020001) : (capEdge n).Foot (In T) :=
  foot_mono (L := 0x20020001) (by simp (decide := true) [capEdge]) hT
@[simp] theorem capWrite_foot (n : Nat) (f : CapIn) {T : Nat} (hT : 0x20028001 &&& T = 0x20028001) : (capWrite n f).Foot (In T) :=
  foot_mono (L := 0x20028001) (by
    simp (decide := true) [capWrite]; intros; repeat' split
    all_goals simp (decide := true)) hT
@[simp] theorem capFrameStart_foot (n : Nat) (f : CapIn) {T : Nat} (hT : 0x300FDF01 &&& T = 0x300FDF01) : (capFrameStart n f).Foot (In T) :=
  foot_mono (L := 0x300FDF01) (by simp (decide := true) [capFrameStart]) hT
@[simp] theorem rowStore_foot (st : Nat) (owner : Option Nat) (a : Nat) (bs : List Byte) {T : Nat} (hT : 0x300FFE19 &&& T = 0x300FFE19) : (rowStore st owner a bs).Foot (In T) :=
  foot_mono (L := 0x300FFE19) (by simp (decide := true) [rowStore]) hT
@[simp] theorem capFrameComplete_foot (n : Nat) (f : CapFrame) {T : Nat} (hT : 0x300FFE59 &&& T = 0x300FFE59) : (capFrameComplete n f).Foot (In T) :=
  foot_mono (L := 0x300FFE59) (by
    simp (decide := true) [capFrameComplete]; intros; repeat' split
    all_goals simp (decide := true)) hT

end Sys2Proof.Machine
end

