-- ==== Sys2Proof/Laws/FootRender.lean ====
section
/-!
SUPPORT. Laws/FootRender.lean: footprints of the operations of Machine/Render.lean.
-/

namespace Sys2Proof.Machine

@[simp] theorem runUpd_foot (k : Option Nat) (f : RndRun → RndRun) {T : Nat} (hT : 0x20000 &&& T = 0x20000) : (runUpd k f).Foot (In T) :=
  foot_mono (L := 0x20000) (by simp (decide := true) [runUpd]) hT
@[simp] theorem onRun_foot {P : Eff → Prop} (k : Option Nat) (g : State → RndRun → Act) :
    (onRun k g).Foot P ↔ ∀ s : State, s.calm → ∀ r, s.run? k = some r → (g s r).Foot P := by
  unfold onRun
  rw [foot_ask]
  refine forall_congr' fun s => forall_congr' fun _ => ?_
  cases s.run? k <;> simp
@[simp] theorem runFault_foot (k : Option Nat) {T : Nat} (hT : 0x20000 &&& T = 0x20000) : (runFault k).Foot (In T) :=
  foot_mono (L := 0x20000) (by simp (decide := true) [runFault]) hT
@[simp] theorem runMeter_foot (k : Option Nat) (n : Nat) {T : Nat} (hT : 0x20000 &&& T = 0x20000) : (runMeter k n).Foot (In T) :=
  foot_mono (L := 0x20000) (by simp (decide := true) [runMeter]) hT
@[simp] theorem State_runWrite_foot (s : State) (owner : Option Nat) (a : Nat) (bs : List Byte) (h : HostAns) {T : Nat} (hT : 0x300FFE19 &&& T = 0x300FFE19) : (State.runWrite s owner a bs h).act.Foot (In T) :=
  foot_mono (L := 0x300FFE19) (by
    simp (decide := true) [State.runWrite]; intros; repeat' split
    all_goals simp (decide := true)) hT
@[simp] theorem runStore_foot (r : RndRun) (a : Nat) (bs : List Byte) (h : HostAns) {T : Nat} (hT : 0x300FFE19 &&& T = 0x300FFE19) : (runStore r a bs h).Foot (In T) :=
  foot_mono (L := 0x300FFE19) (by simp (decide := true) [runStore]) hT
theorem readsAct_foot {P : Eff → Prop} (os : List MemOut) : (readsAct os).Foot P ↔ ∀ o ∈ os, o.act.Foot P := by simp [readsAct]
theorem runReads_foot {s : State} {r : RndRun} {a n : Nat} {h : HostAns} {o : MemOut} (ho : o ∈ s.runReads r a n h) {T : Nat}
    (hT : 0x300FFE01 &&& T = 0x300FFE01) : o.act.Foot (In T) := by
  simp only [State.runReads, List.mem_map] at ho
  obtain ⟨_, _, rfl⟩ := ho
  exact ownerRead_foot _ _ _ _ _ _ hT
@[simp] theorem readsAct_runReads (s : State) (r : RndRun) (a n : Nat) (h : HostAns) {T : Nat} (hT : 0x300FFE01 &&& T = 0x300FFE01) :
    (readsAct (s.runReads r a n h)).Foot (In T) := (readsAct_foot _).2 fun _ ho => runReads_foot ho hT
@[simp] theorem readsAct_map {P : Eff → Prop} {α : Type} (xs : List α) (f : α → MemOut) : (readsAct (xs.map f)).Foot P ↔ ∀ x ∈ xs, (f x).act.Foot P := by
  simp [readsAct]
@[simp] theorem readsAct_nil {P : Eff → Prop} : (readsAct []).Foot P := .skip
@[simp] theorem runReadAct_foot (k : Option Nat) (n : Nat) (s : State) (r : RndRun) (a m : Nat) (h : HostAns) {T : Nat}
    (hT : 0x300FFE01 &&& T = 0x300FFE01) : (runReadAct k n (s.runReads r a m h)).Foot (In T) :=
  foot_mono (L := 0x300FFE01) (by simp (decide := true) [runReadAct]) hT
@[simp] theorem readTable_foot (k : Option Nat) (x : Nat × Nat × Nat) (h : HostAns) {T : Nat} (hT : 0x300FFE01 &&& T = 0x300FFE01) : (readTable k x h).Foot (In T) :=
  foot_mono (L := 0x300FFE01) (by simp (decide := true) [readTable]) hT
@[simp] theorem runBegin_foot (r : RndRun) (params : List Word) (h : HostAns) {T : Nat} (hT : 0x300FFE01 &&& T = 0x300FFE01) : (runBegin r params h).Foot (In T) :=
  foot_mono (L := 0x300FFE01) (by simp (decide := true) [runBegin]) hT
@[simp] theorem accAct_foot (k : Option Nat) (h : HostAns) (x : ProgAcc) {T : Nat} (hT : 0x300FFE19 &&& T = 0x300FFE19) : (accAct k h x).Foot (In T) :=
  foot_mono (L := 0x300FFE19) (by
    simp (decide := true) [accAct]; intros; repeat' split
    all_goals simp (decide := true)) hT
@[simp] theorem drawTurn_foot (r : RndRun) (d : Nat) (t : TurnIn) {T : Nat} (hT : 0x20000 &&& T = 0x20000) : (drawTurn r d t).Foot (In T) :=
  foot_mono (L := 0x20000) (by simp (decide := true) [drawTurn]) hT
@[simp] theorem runBin_foot (r : RndRun) {T : Nat} (hT : 0x20000 &&& T = 0x20000) : (runBin r).Foot (In T) :=
  foot_mono (L := 0x20000) (by simp (decide := true) [runBin]) hT
theorem loadReads_foot {s : State} {r : RndRun} {x : Nat × Bool} {id : Nat} {h : HostAns} {os : List MemOut} (ho : os ∈ s.loadReads r x id h) {T : Nat}
    (hT : 0x300FFE01 &&& T = 0x300FFE01) : (readsAct os).Foot (In T) := by
  unfold State.loadReads at ho
  split at ho
  · simp at ho
  · simp only [List.mem_map] at ho
    obtain ⟨_, _, rfl⟩ := ho
    exact readsAct_runReads _ _ _ _ _ hT
theorem recStore_foot (s : State) (r : RndRun) (id : Nat) (h : HostAns) (px : List (List (List Sample))) (i : Nat) (x : Nat × Bool) {T : Nat}
    (hT : 0x300FFE19 &&& T = 0x300FFE19) : (s.recStore r id h px i x).2.Foot (In T) :=
  foot_mono (L := 0x300FFE19) (by
    unfold State.recStore
    dsimp only
    repeat' split
    all_goals simp (decide := true)) hT
@[simp] theorem tileTurn_foot (r : RndRun) (id : Nat) (t : TurnIn) {T : Nat} (hT : 0x300FFE59 &&& T = 0x300FFE59) : (tileTurn r id t).Foot (In T) :=
  foot_mono (L := 0x300FFE59) (by
    unfold tileTurn
    simp only [foot_ask, foot_acts_cons, foot_acts_nil, foot_each]
    refine fun s _ => ⟨fun rows hr os ho => ?_, by simp, by simp, ?_, trivial⟩
    · simp only [List.mem_map] at hr
      obtain ⟨_, _, rfl⟩ := hr
      exact loadReads_foot ho rfl
    · split
      · simp (decide := true)
      · simp only [foot_acts_cons, foot_acts_nil, foot_each]
        refine ⟨fun o ho => ?_, by simp, trivial⟩
        simp only [List.mem_map] at ho
        obtain ⟨_, _, rfl⟩ := ho
        exact recStore_foot _ _ _ _ _ _ _ rfl) hT
@[simp] theorem runProgress_foot (r : RndRun) {T : Nat} (hT : 0x20000201 &&& T = 0x20000201) : (runProgress r).Foot (In T) :=
  foot_mono (L := 0x20000201) (by
    simp (decide := true) [runProgress]; intros; repeat' split
    all_goals simp (decide := true)) hT
@[simp] theorem secqEnd_foot (r : RndRun) {T : Nat} (hT : 0x300FFE19 &&& T = 0x300FFE19) : (secqEnd r).Foot (In T) :=
  foot_mono (L := 0x300FFE19) (by simp (decide := true) [secqEnd]) hT
@[simp] theorem runSettle_foot (k : Option Nat) {T : Nat} (hT : 0x300FFE19 &&& T = 0x300FFE19) : (runSettle k).Foot (In T) :=
  foot_mono (L := 0x300FFE19) (by
    simp (decide := true) [runSettle]; intros; repeat' split
    all_goals simp (decide := true)) hT
@[simp] theorem coreTake_foot (c : Nat) {T : Nat} (hT : 0x20000 &&& T = 0x20000) : (coreTake c).Foot (In T) :=
  foot_mono (L := 0x20000) (by
    simp (decide := true) [coreTake]; intros; repeat' split
    all_goals simp (decide := true)) hT
@[simp] theorem coresTake_foot {T : Nat} (hT : 0x300FFE19 &&& T = 0x300FFE19) : (coresTake).Foot (In T) :=
  foot_mono (L := 0x300FFE19) (by simp (decide := true) [coresTake]) hT
@[simp] theorem turnTraffic_foot (k : Option Nat) (t : TurnIn) {T : Nat} (hT : 0x300FFE19 &&& T = 0x300FFE19) : (turnTraffic k t).Foot (In T) :=
  foot_mono (L := 0x300FFE19) (by simp (decide := true) [turnTraffic]) hT
@[simp] theorem turnLeave_foot (c : Nat) (k : Option Nat) {T : Nat} (hT : 0x300FFE19 &&& T = 0x300FFE19) : (turnLeave c k).Foot (In T) :=
  foot_mono (L := 0x300FFE19) (by simp (decide := true) [turnLeave]) hT
@[simp] theorem turnEndOp_foot (t : TurnIn) {T : Nat} (hT : 0x300FFE59 &&& T = 0x300FFE59) : (turnEndOp t).Foot (In T) :=
  foot_mono (L := 0x300FFE59) (by
    simp (decide := true) [turnEndOp]; intros; repeat' split
    all_goals simp (decide := true)) hT
@[simp] theorem turnCutOp_foot (t : TurnIn) {T : Nat} (hT : 0x300FFE19 &&& T = 0x300FFE19) : (turnCutOp t).Foot (In T) :=
  foot_mono (L := 0x300FFE19) (by
    simp (decide := true) [turnCutOp]; intros; repeat' split
    all_goals simp (decide := true)) hT
@[simp] theorem rndLimit_foot (id : Nat) (memory : Bool) {T : Nat} (hT : 0x20000 &&& T = 0x20000) : (rndLimit id memory).Foot (In T) :=
  foot_mono (L := 0x20000) (by simp (decide := true) [rndLimit]) hT
@[simp] theorem dispatchOp_foot (id : Nat) (h : HostAns) {T : Nat} (hT : 0x300FFE19 &&& T = 0x300FFE19) : (dispatchOp id h).Foot (In T) :=
  foot_mono (L := 0x300FFE19) (by simp (decide := true) [dispatchOp]) hT
@[simp] theorem compileOp_foot (id : Nat) (models : List Nat) (kib cause : Nat) {T : Nat} (hT : 0x20020601 &&& T = 0x20020601) : (compileOp id models kib cause).Foot (In T) :=
  foot_mono (L := 0x20020601) (by simp (decide := true) [compileOp]) hT
@[simp] theorem maskEdge_foot (chg : Bool) (q : Nat) {T : Nat} (hT : 0x20000 &&& T = 0x20000) : (maskEdge chg q).Foot (In T) :=
  foot_mono (L := 0x20000) (by simp (decide := true) [maskEdge]) hT
@[simp] theorem clkEdge_foot {T : Nat} (hT : 0x20020001 &&& T = 0x20020001) : (clkEdge).Foot (In T) :=
  foot_mono (L := 0x20020001) (by simp (decide := true) [clkEdge]) hT
@[simp] theorem rndEdge_foot (chg : Nat → Bool) {T : Nat} (hT : 0x20020001 &&& T = 0x20020001) : (rndEdge chg).Foot (In T) :=
  foot_mono (L := 0x20020001) (by simp (decide := true) [rndEdge]) hT
@[simp] theorem State_secqRead_foot (s : State) (a n : Nat) {T : Nat} (hT : 0x300FFE01 &&& T = 0x300FFE01) : (State.secqRead s a n).act.Foot (In T) :=
  foot_mono (L := 0x300FFE01) (by simp (decide := true) [State.secqRead]) hT
@[simp] theorem secqGoOp_foot {T : Nat} (hT : 0x300FFE19 &&& T = 0x300FFE19) : (secqGoOp).Foot (In T) :=
  foot_mono (L := 0x300FFE19) (by
    simp (decide := true) [secqGoOp]; (repeat' (first | apply And.intro | intro _)) <;> (repeat' split) <;> simp (decide := true)) hT
@[simp] theorem secqAbortOp_foot {T : Nat} (hT : 0x300FFE19 &&& T = 0x300FFE19) : (secqAbortOp).Foot (In T) :=
  foot_mono (L := 0x300FFE19) (by simp (decide := true) [secqAbortOp]) hT

end Sys2Proof.Machine
end

