-- ==== Sys2Proof/Laws/FootCodec.lean ====
section
/-!
SUPPORT. Laws/FootCodec.lean: footprints of the operations of Machine/Codec.lean.
-/

namespace Sys2Proof.Machine

@[simp] theorem codecUpd_foot (k : Option Nat) (p : Nat) (f : CodecRun → CodecRun) {T : Nat} (hT : 0x20000 &&& T = 0x20000) : (codecUpd k p f).Foot (In T) :=
  foot_mono (L := 0x20000) (by simp (decide := true) [codecUpd]) hT
@[simp] theorem onCodec_foot {P : Eff → Prop} (k : Option Nat) (p : Nat) (g : State → CodecRun → Session → Act) :
    (onCodec k p g).Foot P ↔ ∀ s : State, s.calm → ∀ r, s.codecRun? k p = some r → ∀ x, (s.vid.sess.find? fun x => x.id = r.sess) = some x → (g s r x).Foot P := by
  unfold onCodec
  rw [foot_ask]
  refine forall_congr' fun s => forall_congr' fun _ => ?_
  cases s.codecRun? k p with
  | none => simp
  | some r =>
    cases h : s.vid.sess.find? fun x => x.id = r.sess <;> simp [h]
theorem vdcReads_foot {s : State} {owner : Option Nat} {a n : Nat} {o : MemOut} (ho : o ∈ s.vdcReads owner a n) {T : Nat}
    (hT : 0x300FFE01 &&& T = 0x300FFE01) : o.act.Foot (In T) := by
  simp only [State.vdcReads, List.mem_map] at ho
  obtain ⟨_, _, rfl⟩ := ho
  exact ownerRead_foot _ _ _ _ _ _ hT
@[simp] theorem readsAct_vdcReads (s : State) (owner : Option Nat) (a n : Nat) {T : Nat} (hT : 0x300FFE01 &&& T = 0x300FFE01) :
    (readsAct (s.vdcReads owner a n)).Foot (In T) := (readsAct_foot _).2 fun _ ho => vdcReads_foot ho hT
@[simp] theorem picStart_foot (r : CodecRun) {T : Nat} (hT : 0x300FDE01 &&& T = 0x300FDE01) : (picStart r).Foot (In T) :=
  foot_mono (L := 0x300FDE01) (by simp (decide := true) [picStart]) hT
@[simp] theorem codecTake_foot (p : Nat) {T : Nat} (hT : 0x300FDE01 &&& T = 0x300FDE01) : (codecTake p).Foot (In T) :=
  foot_mono (L := 0x300FDE01) (by simp (decide := true) [codecTake]) hT
@[simp] theorem picOutput_foot (k : Option Nat) (p number : Nat) {T : Nat} (hT : 0x300FFE19 &&& T = 0x300FFE19) : (picOutput k p number).Foot (In T) :=
  foot_mono (L := 0x300FFE19) (by
    simp (decide := true) [picOutput]; intros; repeat' split
    all_goals simp (decide := true)) hT
@[simp] theorem heldTrim_foot (id : Nat) {T : Nat} (hT : 0x20000 &&& T = 0x20000) : (heldTrim id).Foot (In T) :=
  foot_mono (L := 0x20000) (by simp (decide := true) [heldTrim]) hT
@[simp] theorem picFlush_foot (k : Option Nat) (p : Nat) {T : Nat} (hT : 0x300FFE19 &&& T = 0x300FFE19) : (picFlush k p).Foot (In T) :=
  foot_mono (L := 0x300FFE19) (by simp (decide := true) [picFlush]) hT
@[simp] theorem picStore_foot (x : Session) (q : SurfRing) (slot : Nat) (pic : PicIn) (cut : Option Nat) {T : Nat} (hT : 0x300FFE59 &&& T = 0x300FFE59) :
    (picStore x q slot pic cut).Foot (In T) :=
  foot_mono (L := 0x300FFE59) (by
    unfold picStore
    simp only [foot_ask, foot_acts_cons, foot_acts_nil, foot_each, foot_actIf, foot_actOpt]
    have hr : ∀ (s : State) (chroma : Bool) (y : Nat) (os : List MemOut),
        ((nearestRef x pic.order).map fun h => s.vdcReads x.seat (slotRow q h.slot chroma y) (roundUp x.w 64 * sampleBytes x.ten)) = some os →
        (readsAct os).Foot (In 0x300FFE59) := by
      intro s chroma y os ho
      rw [Option.map_eq_some_iff] at ho
      obtain ⟨h, _, rfl⟩ := ho
      exact readsAct_vdcReads _ _ _ _ rfl
    exact ⟨fun y _ s _ => ⟨fun _ os ho => hr _ _ _ _ ho, by simp (decide := true), trivial⟩,
      fun y _ s _ => ⟨fun _ os ho => hr _ _ _ _ ho, by simp (decide := true), trivial⟩, by simp, trivial⟩) hT
@[simp] theorem picDecoded_foot (r : CodecRun) (x : Session) (pic : PicIn) {T : Nat} (hT : 0x300FFE59 &&& T = 0x300FFE59) : (picDecoded r x pic).Foot (In T) :=
  foot_mono (L := 0x300FFE59) (by
    unfold picDecoded; dsimp only; repeat' split
    all_goals simp (decide := true)) hT
theorem encSource_foot (s : State) (r : CodecRun) (x : Session) {T : Nat} (hT : 0x300FFE01 &&& T = 0x300FFE01) :
    (readsAct (s.encSource r x).1).Foot (In T) := by
  rw [readsAct_foot]
  intro o ho
  unfold State.encSource at ho
  dsimp only at ho
  split at ho
  · split at ho
    · simp at ho
    · simp only [List.mem_flatten, List.mem_map] at ho
      obtain ⟨l, ⟨y, _, rfl⟩, hol⟩ := ho
      simp only [List.mem_map] at hol
      obtain ⟨q, hq, rfl⟩ := hol
      exact foot_mono (lineReads_foot hq (T := 0x83801) rfl) (by
        have h : 0x83801 &&& 0x300FFE01 = 0x83801 := rfl
        rw [← h, Nat.and_assoc, hT])
  · split at ho
    · simp at ho
    · simp only [List.mem_flatten, List.mem_append, State.surfReads] at ho
      obtain ⟨l, hl, hol⟩ := ho
      rcases hl with hl | hl
      · simp only [List.mem_map] at hl
        obtain ⟨_, _, rfl⟩ := hl
        exact vdcReads_foot hol hT
      · split at hl
        · simp only [List.mem_map] at hl
          obtain ⟨_, _, rfl⟩ := hl
          exact vdcReads_foot hol hT
        · simp at hl
@[simp] theorem picCoded_foot (r : CodecRun) (x : Session) (pic : PicIn) {T : Nat} (hT : 0x310FFE19 &&& T = 0x310FFE19) : (picCoded r x pic).Foot (In T) :=
  foot_mono (L := 0x310FFE19) (by
    simp only [picCoded, foot_ask]
    exact fun s _ => by simp (decide := true) [encSource_foot]) hT
@[simp] theorem codecProgress_foot (r : CodecRun) (x : Session) {T : Nat} (hT : 0x20000201 &&& T = 0x20000201) : (codecProgress r x).Foot (In T) :=
  foot_mono (L := 0x20000201) (by
    simp (decide := true) [codecProgress]; intros; repeat' split
    all_goals simp (decide := true)) hT
@[simp] theorem codecSettle_foot (k : Option Nat) (p : Nat) {T : Nat} (hT : 0x300FFE19 &&& T = 0x300FFE19) : (codecSettle k p).Foot (In T) :=
  foot_mono (L := 0x300FFE19) (by
    simp (decide := true) [codecSettle]; intros; repeat' split
    all_goals simp (decide := true)) hT
@[simp] theorem codecAll_foot {T : Nat} (hT : 0x300FFE19 &&& T = 0x300FFE19) : (codecAll).Foot (In T) :=
  foot_mono (L := 0x300FFE19) (by simp (decide := true) [codecAll]) hT
@[simp] theorem codecBegin_foot (id op : Nat) {T : Nat} (hT : 0x300FDE01 &&& T = 0x300FDE01) : (codecBegin id op).Foot (In T) :=
  foot_mono (L := 0x300FDE01) (by simp (decide := true) [codecBegin]) hT
@[simp] theorem boundaryOp_foot (pic : PicIn) {T : Nat} (hT : 0x310FFE59 &&& T = 0x310FFE59) : (boundaryOp pic).Foot (In T) :=
  foot_mono (L := 0x310FFE59) (by simp (decide := true) [boundaryOp]) hT
@[simp] theorem limitOp_foot (id which : Nat) {T : Nat} (hT : 0x20000 &&& T = 0x20000) : (limitOp id which).Foot (In T) :=
  foot_mono (L := 0x20000) (by
    simp (decide := true) [limitOp]; intros; repeat' split
    all_goals simp (decide := true)) hT
@[simp] theorem secpRefuse_foot (p code : Nat) {T : Nat} (hT : 0x20000001 &&& T = 0x20000001) : (secpRefuse p code).Foot (In T) :=
  foot_mono (L := 0x20000001) (by simp (decide := true) [secpRefuse]) hT
@[simp] theorem secpOpen_foot (p : Nat) (ws : List Word) {T : Nat} (hT : 0x300FFE41 &&& T = 0x300FFE41) : (secpOpen p ws).Foot (In T) :=
  foot_mono (L := 0x300FFE41) (by simp (decide := true) [secpOpen]) hT
@[simp] theorem secpStart_foot (p : Nat) (x : Session) (ws : List Word) {T : Nat} (hT : 0x300FDE01 &&& T = 0x300FDE01) : (secpStart p x ws).Foot (In T) :=
  foot_mono (L := 0x300FDE01) (by simp (decide := true) [secpStart]) hT
@[simp] theorem secpDecode_foot (p : Nat) (ws : List Word) {T : Nat} (hT : 0x300FFE01 &&& T = 0x300FFE01) : (secpDecode p ws).Foot (In T) :=
  foot_mono (L := 0x300FFE01) (by
    simp (decide := true) [secpDecode]; intros; repeat' split
    all_goals simp (decide := true)) hT
@[simp] theorem secpEncode_foot (p : Nat) (ws : List Word) {T : Nat} (hT : 0x300FDE01 &&& T = 0x300FDE01) : (secpEncode p ws).Foot (In T) :=
  foot_mono (L := 0x300FDE01) (by
    simp (decide := true) [secpEncode]; intros; repeat' split
    all_goals simp (decide := true)) hT
@[simp] theorem secpClose_foot (p : Nat) (ws : List Word) {T : Nat} (hT : 0x20020001 &&& T = 0x20020001) : (secpClose p ws).Foot (In T) :=
  foot_mono (L := 0x20020001) (by
    simp (decide := true) [secpClose]; intros; repeat' split
    all_goals simp (decide := true)) hT
@[simp] theorem secpKey_foot (p : Nat) (ws : List Word) {T : Nat} (hT : 0x20020001 &&& T = 0x20020001) : (secpKey p ws).Foot (In T) :=
  foot_mono (L := 0x20020001) (by
    simp (decide := true) [secpKey]; intros; repeat' split
    all_goals simp (decide := true)) hT
@[simp] theorem secpGoOp_foot (p : Nat) {T : Nat} (hT : 0x300FFE41 &&& T = 0x300FFE41) : (secpGoOp p).Foot (In T) :=
  foot_mono (L := 0x300FFE41) (by
    simp (decide := true) [secpGoOp]; intros; repeat' split
    all_goals simp (decide := true)) hT
@[simp] theorem secpAbortOp_foot (p : Nat) {T : Nat} (hT : 0x300FFE19 &&& T = 0x300FFE19) : (secpAbortOp p).Foot (In T) :=
  foot_mono (L := 0x300FFE19) (by simp (decide := true) [secpAbortOp]) hT

end Sys2Proof.Machine
end

