-- ==== Sys2Proof/Laws/FootAudio.lean ====
section
/-!
SUPPORT. Laws/FootAudio.lean: footprints of the operations of Machine/Audio.lean.
-/

namespace Sys2Proof.Machine

@[simp] theorem audUpd_foot (f : Aud → Aud) {T : Nat} (hT : 0x40000 &&& T = 0x40000) : (audUpd f).Foot (In T) :=
  foot_mono (L := 0x40000) (by simp (decide := true) [audUpd]) hT
@[simp] theorem audInUpd_foot (i : Nat) (f : AudIn → AudIn) {T : Nat} (hT : 0x40000 &&& T = 0x40000) : (audInUpd i f).Foot (In T) :=
  foot_mono (L := 0x40000) (by simp (decide := true) [audInUpd]) hT
@[simp] theorem tdmApply_foot (chg : Changed) (p : Nat) {T : Nat} (hT : 0x300FDE01 &&& T = 0x300FDE01) : (tdmApply chg p).Foot (In T) :=
  foot_mono (L := 0x300FDE01) (by simp (decide := true) [tdmApply]) hT
@[simp] theorem clkApply_foot (chg : Changed) {T : Nat} (hT : 0x20040001 &&& T = 0x20040001) : (clkApply chg).Foot (In T) :=
  foot_mono (L := 0x20040001) (by simp (decide := true) [clkApply]) hT
@[simp] theorem effectApply_foot (id : Nat) (ws : List Word) {T : Nat} (hT : 0x40640 &&& T = 0x40640) : (effectApply id ws).Foot (In T) :=
  foot_mono (L := 0x40640) (by simp (decide := true) [effectApply]) hT
@[simp] theorem audEdge_foot (chg : Changed) {T : Nat} (hT : 0x300FDE41 &&& T = 0x300FDE41) : (audEdge chg).Foot (In T) :=
  foot_mono (L := 0x300FDE41) (by simp (decide := true) [audEdge]) hT
@[simp] theorem tdmFrameOp_foot (p rate : Nat) (slots : List Nat) {T : Nat} (hT : 0x20040001 &&& T = 0x20040001) : (tdmFrameOp p rate slots).Foot (In T) :=
  foot_mono (L := 0x20040001) (by simp (decide := true) [tdmFrameOp]) hT
@[simp] theorem inputStatus_foot (i : Nat) {T : Nat} (hT : 0x20040001 &&& T = 0x20040001) : (inputStatus i).Foot (In T) :=
  foot_mono (L := 0x20040001) (by simp (decide := true) [inputStatus]) hT
@[simp] theorem inputLost_foot (i : Nat) {T : Nat} (hT : 0x20040001 &&& T = 0x20040001) : (inputLost i).Foot (In T) :=
  foot_mono (L := 0x20040001) (by simp (decide := true) [inputLost]) hT
@[simp] theorem inputBlock_foot (b : AudIo) {T : Nat} (hT : 0x20040001 &&& T = 0x20040001) : (inputBlock b).Foot (In T) :=
  foot_mono (L := 0x20040001) (by simp (decide := true) [inputBlock]) hT
@[simp] theorem routeOp_foot (id : Nat) {T : Nat} (hT : 0x40000 &&& T = 0x40000) : (routeOp id).Foot (In T) :=
  foot_mono (L := 0x40000) (by simp (decide := true) [routeOp]) hT
@[simp] theorem secRouteOp_foot (p : Path) (v : Word) {T : Nat} (hT : 0x300FDE01 &&& T = 0x300FDE01) : (secRouteOp p v).Foot (In T) :=
  foot_mono (L := 0x300FDE01) (by simp (decide := true) [secRouteOp]) hT
@[simp] theorem routesStart_foot {T : Nat} (hT : 0x40600 &&& T = 0x40600) : (routesStart).Foot (In T) :=
  foot_mono (L := 0x40600) (by simp (decide := true) [routesStart]) hT
@[simp] theorem nodeErrors_foot (ks : List Nat) {T : Nat} (hT : 0x300FDE01 &&& T = 0x300FDE01) : (nodeErrors ks).Foot (In T) :=
  foot_mono (L := 0x300FDE01) (by simp (decide := true) [nodeErrors]) hT
@[simp] theorem streamMoved_foot (x : AudStream) (n : Nat) (good : Bool) {T : Nat} (hT : 0x40200 &&& T = 0x40200) : (streamMoved x n good).Foot (In T) :=
  foot_mono (L := 0x40200) (by simp (decide := true) [streamMoved]) hT
theorem playReads_foot {s : State} {x : AudStream} {n : Nat} {h : HostAns} {o : MemOut} (ho : o ∈ s.playReads x n h) {T : Nat}
    (hT : 0x300FFE01 &&& T = 0x300FFE01) : o.act.Foot (In T) := by
  unfold State.playReads at ho
  obtain ⟨_, _, rfl⟩ := List.mem_map.1 ho
  exact seatRead_foot _ _ _ _ _ _ _ hT
@[simp] theorem captureMove_foot (x : AudStream) (h : HostAns) {T : Nat} (hT : 0x300FFE19 &&& T = 0x300FFE19) : (captureMove x h).Foot (In T) :=
  foot_mono (L := 0x300FFE19) (by
    unfold captureMove
    simp only [foot_ask, foot_actIf, foot_acts_cons, foot_acts_nil, foot_each]
    refine fun s _ _ => ⟨fun o ho => ?_, by simp, trivial⟩
    simp only [List.mem_map] at ho
    obtain ⟨_, _, rfl⟩ := ho
    simp (decide := true)) hT
@[simp] theorem streamEnd_foot (x : AudStream) {T : Nat} (hT : 0x20040601 &&& T = 0x20040601) : (streamEnd x).Foot (In T) :=
  foot_mono (L := 0x20040601) (by simp (decide := true) [streamEnd]) hT
@[simp] theorem streamsStop_foot {T : Nat} (hT : 0x20040601 &&& T = 0x20040601) : (streamsStop).Foot (In T) :=
  foot_mono (L := 0x20040601) (by simp (decide := true) [streamsStop]) hT
@[simp] theorem streamsDone_foot (ids : List Nat) (n : Nat) {T : Nat} (hT : 0x20040601 &&& T = 0x20040601) : (streamsDone ids n).Foot (In T) :=
  foot_mono (L := 0x20040601) (by simp (decide := true) [streamsDone]) hT
@[simp] theorem sinksPut_foot {T : Nat} (hT : 0x40000 &&& T = 0x40000) : (sinksPut).Foot (In T) :=
  foot_mono (L := 0x40000) (by simp (decide := true) [sinksPut]) hT
@[simp] theorem clockBlock_foot (n : Nat) {T : Nat} (hT : 0x20040001 &&& T = 0x20040001) : (clockBlock n).Foot (In T) :=
  foot_mono (L := 0x20040001) (by simp (decide := true) [clockBlock]) hT
@[simp] theorem audioBlockOp_foot (b : AudIo) {T : Nat} (hT : 0x300FFE19 &&& T = 0x300FFE19) : (audioBlockOp b).Foot (In T) :=
  foot_mono (L := 0x300FFE19) (by
    unfold audioBlockOp
    simp only [foot_whenS, foot_ask, foot_acts_cons, foot_acts_nil, foot_each]
    refine fun s _ _ => ⟨by simp, by simp, by simp, by simp, fun _ _ _ _ => by simp, fun s _ => ⟨fun r hr => ⟨?_, by simp, trivial⟩, by simp, by simp, by simp, by simp, trivial⟩, trivial⟩
    simp only [List.mem_map] at hr
    obtain ⟨_, _, rfl⟩ := hr
    exact (readsAct_foot _).2 fun o ho => playReads_foot ho rfl) hT

end Sys2Proof.Machine
end

