-- ==== Sys2Proof/Laws/FootHaptic.lean ====
section
/-!
SUPPORT. Laws/FootHaptic.lean: footprints of the operations of Machine/Haptic.lean.
-/

namespace Sys2Proof.Machine

@[simp] theorem hapUpd_foot (ch : Nat) (f : Hap → Hap) {T : Nat} (hT : 0x40000 &&& T = 0x40000) : (hapUpd ch f).Foot (In T) :=
  foot_mono (L := 0x40000) (by simp (decide := true) [hapUpd]) hT
@[simp] theorem hapCountUp_foot (ch lo : Nat) {T : Nat} (hT : 0x20000001 &&& T = 0x20000001) : (hapCountUp ch lo).Foot (In T) :=
  foot_mono (L := 0x20000001) (by simp (decide := true) [hapCountUp]) hT
@[simp] theorem hapStatusPut_foot (ch : Nat) {T : Nat} (hT : 0x20000001 &&& T = 0x20000001) : (hapStatusPut ch).Foot (In T) :=
  foot_mono (L := 0x20000001) (by simp (decide := true) [hapStatusPut]) hT
@[simp] theorem playEnd_foot (ch : Nat) (cmd : Option Nat) (sec : Bool) (onset : Nat) (f : Cmd → Cmd) (hf : ∀ c : Cmd, c.Goes (f c)) {T : Nat}
    (hT : 0x20000601 &&& T = 0x20000601) : (playEnd ch cmd sec onset f).Foot (In T) :=
  foot_mono (L := 0x20000601) (by
    have hu : ∀ n : Nat, ∀ c : Cmd, c.Goes { f c with unitsDone := 1000, detail := n } := fun _ c =>
      ⟨(hf c).1, (hf c).2.1, (hf c).2.2.1, (hf c).2.2.2.1, (hf c).2.2.2.2⟩
    simp only [playEnd, foot_acts_cons, foot_acts_nil, foot_actOpt, foot_actIf]
    exact ⟨fun _ _ => cmdEnd_foot _ _ (hu _) rfl, fun _ => by simp (decide := true), trivial⟩) hT
@[simp] theorem waitDrop_foot (ch : Nat) {T : Nat} (hT : 0x20040601 &&& T = 0x20040601) : (waitDrop ch).Foot (In T) :=
  foot_mono (L := 0x20040601) (by simp (decide := true) [waitDrop]) hT
@[simp] theorem hapRequest_foot (ch : Nat) (q : HapReq) {T : Nat} (hT : 0x20040601 &&& T = 0x20040601) : (hapRequest ch q).Foot (In T) :=
  foot_mono (L := 0x20040601) (by simp (decide := true) [hapRequest]) hT
@[simp] theorem hapFinish_foot (ch : Nat) {T : Nat} (hT : 0x20040601 &&& T = 0x20040601) : (hapFinish ch).Foot (In T) :=
  foot_mono (L := 0x20040601) (by simp (decide := true) [hapFinish]) hT
@[simp] theorem hapStart_foot (ch : Nat) {T : Nat} (hT : 0x300FDE01 &&& T = 0x300FDE01) : (hapStart ch).Foot (In T) :=
  foot_mono (L := 0x300FDE01) (by simp (decide := true) [hapStart]) hT
@[simp] theorem driveEnd_foot (ch : Nat) (p : HapPlay) {T : Nat} (hT : 0x20040001 &&& T = 0x20040001) : (driveEnd ch p).Foot (In T) :=
  foot_mono (L := 0x20040001) (by simp (decide := true) [driveEnd]) hT
@[simp] theorem brakeEnd_foot (ch : Nat) (p : HapPlay) {T : Nat} (hT : 0x20040601 &&& T = 0x20040601) : (brakeEnd ch p).Foot (In T) :=
  foot_mono (L := 0x20040601) (by simp (decide := true) [brakeEnd]) hT
@[simp] theorem hapAdvance_foot (ch : Nat) (p : HapPlay) (volt : Int) {T : Nat} (hT : 0x20040601 &&& T = 0x20040601) : (hapAdvance ch p volt).Foot (In T) :=
  foot_mono (L := 0x20040601) (by
    unfold hapAdvance; dsimp only; repeat' split
    all_goals simp (decide := true)) hT
@[simp] theorem hapPhases_foot (ch : Nat) {T : Nat} (hT : 0x20040601 &&& T = 0x20040601) : (hapPhases ch).Foot (In T) :=
  foot_mono (L := 0x20040601) (by simp (decide := true) [hapPhases]) hT
@[simp] theorem hapticFrameOp_foot (ch volt : Nat) {T : Nat} (hT : 0x300FDE01 &&& T = 0x300FDE01) : (hapticFrameOp ch volt).Foot (In T) :=
  foot_mono (L := 0x300FDE01) (by simp (decide := true) [hapticFrameOp]) hT
@[simp] theorem slotPut_foot (ch slot : Nat) (e : List Word) {T : Nat} (hT : 0x40000 &&& T = 0x40000) : (slotPut ch slot e).Foot (In T) :=
  foot_mono (L := 0x40000) (by simp (decide := true) [slotPut]) hT
@[simp] theorem effectRun_foot (id n : Nat) {T : Nat} (hT : 0x40601 &&& T = 0x40601) : (effectRun id n).Foot (In T) :=
  foot_mono (L := 0x40601) (by simp (decide := true) [effectRun]) hT
theorem secPacket_foot (s : State) (st a : Nat) {T : Nat} (hT : 0x300FFE01 &&& T = 0x300FFE01) : (readsAct (secPacket s st a).1).Foot (In T) := by
  unfold secPacket
  dsimp only
  rw [readsAct_foot]
  split
  · simp [hT]
  · simp [hT]
@[simp] theorem hapSecqOp_foot (ch : Nat) {T : Nat} (hT : 0x300FFE01 &&& T = 0x300FFE01) : (hapSecqOp ch).Foot (In T) :=
  foot_mono (L := 0x300FFE01) (by
    unfold hapSecqOp
    simp only [foot_ask, foot_ite, foot_acts_cons, foot_acts_nil]
    refine fun s _ => ⟨fun _ => .skip, fun _ => ⟨secPacket_foot _ _ _ rfl, ?_, trivial⟩⟩
    split
    · simp
    · simp (decide := true)) hT

end Sys2Proof.Machine
end

