-- ==== Sys2Proof/Laws/FootTouch.lean ====
section
/-!
SUPPORT. Laws/FootTouch.lean: footprints of the operations of Machine/Touch.lean.
-/

namespace Sys2Proof.Machine

@[simp] theorem tchStore_foot (n : Nat) (seat : Option Nat) (a : Nat) (bs : List Byte) {T : Nat} (hT : 0x300FFE19 &&& T = 0x300FFE19) : (tchStore n seat a bs).Foot (In T) :=
  foot_mono (L := 0x300FFE19) (by
    simp (decide := true) [tchStore]; intros; repeat' split
    all_goals simp (decide := true)
    all_goals
      intros
      split <;> simp (decide := true)) hT
@[simp] theorem reportPut_foot (n : Nat) (ws : List Nat) (seq : Nat) {T : Nat} (hT : 0x300FFE19 &&& T = 0x300FFE19) : (reportPut n ws seq).Foot (In T) :=
  foot_mono (L := 0x300FFE19) (by simp (decide := true) [reportPut]) hT
@[simp] theorem passHits_foot (hs : List (Nat × Nat × Nat)) {T : Nat} (hT : 0x20040601 &&& T = 0x20040601) : (passHits hs).Foot (In T) :=
  foot_mono (L := 0x20040601) (by simp (decide := true) [passHits]) hT
@[simp] theorem tchStatePut_foot (n v : Nat) {T : Nat} (hT : 0x20000001 &&& T = 0x20000001) : (tchStatePut n v).Foot (In T) :=
  foot_mono (L := 0x20000001) (by simp (decide := true) [tchStatePut]) hT
@[simp] theorem tchCountUp_foot (n lo k : Nat) {T : Nat} (hT : 0x20000001 &&& T = 0x20000001) : (tchCountUp n lo k).Foot (In T) :=
  foot_mono (L := 0x20000001) (by simp (decide := true) [tchCountUp]) hT
@[simp] theorem bringResult_foot (n id : Nat) (ok : Bool) {T : Nat} (hT : 0x300FDE01 &&& T = 0x300FDE01) : (bringResult n id ok).Foot (In T) :=
  foot_mono (L := 0x300FDE01) (by simp (decide := true) [bringResult]) hT
@[simp] theorem tchEnd_foot (n : Nat) (cmd : Option Nat) {T : Nat} (hT : 0x20000601 &&& T = 0x20000601) : (tchEnd n cmd).Foot (In T) :=
  foot_mono (L := 0x20000601) (by
    simp (decide := true) [tchEnd]; intros; repeat' split
    all_goals simp (decide := true)) hT
@[simp] theorem tchConfig_foot (n : Nat) (x : Option Nat × List Word × List Word) {T : Nat} (hT : 0x20040601 &&& T = 0x20040601) : (tchConfig n x).Foot (In T) :=
  foot_mono (L := 0x20040601) (by
    unfold tchConfig; dsimp only; repeat' split
    all_goals simp (decide := true)) hT
@[simp] theorem tchEdge_foot (n : Nat) {T : Nat} (hT : 0x20040601 &&& T = 0x20040601) : (tchEdge n).Foot (In T) :=
  foot_mono (L := 0x20040601) (by simp (decide := true) [tchEdge]) hT
@[simp] theorem scanStartOp_foot (n : Nat) {T : Nat} (hT : 0x20040001 &&& T = 0x20040001) : (scanStartOp n).Foot (In T) :=
  foot_mono (L := 0x20040001) (by
    simp (decide := true) [scanStartOp]; intros; repeat' split
    all_goals simp (decide := true)) hT
@[simp] theorem scanDiscard_foot (n : Nat) {T : Nat} (hT : 0x300FDE01 &&& T = 0x300FDE01) : (scanDiscard n).Foot (In T) :=
  foot_mono (L := 0x300FDE01) (by simp (decide := true) [scanDiscard]) hT
@[simp] theorem scanTest_foot (n : Nat) (cmd : Option Nat) (ws : List Word) (counts : List Nat) {T : Nat} (hT : 0x300FFE19 &&& T = 0x300FFE19) : (scanTest n cmd ws counts).Foot (In T) :=
  foot_mono (L := 0x300FFE19) (by simp (decide := true) [scanTest]) hT
@[simp] theorem scanGood_foot (n : Nat) (counts : List Nat) {T : Nat} (hT : 0x300FFE59 &&& T = 0x300FFE59) : (scanGood n counts).Foot (In T) :=
  foot_mono (L := 0x300FFE59) (by simp (decide := true) [scanGood]) hT
@[simp] theorem scanEndOp_foot (n : Nat) (ok : Bool) (counts : List Nat) {T : Nat} (hT : 0x300FFE59 &&& T = 0x300FFE59) : (scanEndOp n ok counts).Foot (In T) :=
  foot_mono (L := 0x300FFE59) (by
    simp (decide := true) [scanEndOp]; intros; repeat' split
    all_goals simp (decide := true)) hT
@[simp] theorem tchSecqOp_foot (n : Nat) {T : Nat} (hT : 0x300FFE01 &&& T = 0x300FFE01) : (tchSecqOp n).Foot (In T) :=
  foot_mono (L := 0x300FFE01) (by
    unfold tchSecqOp
    simp only [foot_ask, foot_ite, foot_acts_cons, foot_acts_nil]
    refine fun s _ => ⟨fun _ => .skip, fun _ => ⟨secPacket_foot _ _ _ rfl, ?_, trivial⟩⟩
    split
    · simp
    · simp (decide := true)) hT

end Sys2Proof.Machine
end

