-- ==== Sys2Proof/Laws/FootBell.lean ====
section
/-!
SUPPORT. Laws/FootBell.lean: footprints of the operations of Machine/Bell.lean.
-/

namespace Sys2Proof.Machine

@[simp] theorem steps_foot {P : Eff → Prop} (xs : List Act) : (steps xs).Foot P ↔ ∀ a ∈ xs, ∀ s : State, s.calm → (!s.flt.safe && s.tts.running) = true → a.Foot P := by
  simp [steps]
@[simp] theorem timetableBuild_foot {T : Nat} (hT : 0x100 &&& T = 0x100) : (timetableBuild).Foot (In T) :=
  foot_mono (L := 0x100) (by simp (decide := true) [timetableBuild]) hT
@[simp] theorem timetableSwap_foot {T : Nat} (hT : 0x100 &&& T = 0x100) : (timetableSwap).Foot (In T) :=
  foot_mono (L := 0x100) (by simp (decide := true) [timetableSwap]) hT
@[simp] theorem bellClose_foot {T : Nat} (hT : 0x300FFF19 &&& T = 0x300FFF19) : (bellClose).Foot (In T) :=
  foot_mono (L := 0x300FFF19) (by simp (decide := true) [bellClose]) hT
@[simp] theorem missStop_foot (c : Cmd) {T : Nat} (hT : 0x300FDE01 &&& T = 0x300FDE01) : (missStop c).Foot (In T) :=
  foot_mono (L := 0x300FDE01) (by simp (decide := true) [missStop]) hT
@[simp] theorem missAll_foot (n : Nat) {T : Nat} (hT : 0x300FDE01 &&& T = 0x300FDE01) : (missAll n).Foot (In T) :=
  foot_mono (L := 0x300FDE01) (by simp (decide := true) [missAll]) hT
@[simp] theorem mgtLoad_foot (busy : Nat) {T : Nat} (hT : 0x30000401 &&& T = 0x30000401) : (mgtLoad busy).Foot (In T) :=
  foot_mono (L := 0x30000401) (by simp (decide := true) [mgtLoad]) hT
@[simp] theorem edgeBegin_foot (n : Nat) (change : Bool) (e : EdgeIn) {T : Nat} (hT : 0x30400501 &&& T = 0x30400501) : (edgeBegin n change e).Foot (In T) :=
  foot_mono (L := 0x30400501) (by simp (decide := true) [edgeBegin]) hT
@[simp] theorem ringsLost_foot {T : Nat} (hT : 0x310FFE19 &&& T = 0x310FFE19) : (ringsLost).Foot (In T) :=
  foot_mono (L := 0x310FFE19) (by simp (decide := true) [ringsLost]) hT
@[simp] theorem registersCommit_foot (list : List (Nat × Word)) {T : Nat} (hT : 0x330FFE1D &&& T = 0x330FFE1D) : (registersCommit list).Foot (In T) :=
  foot_mono (L := 0x330FFE1D) (by simp (decide := true) [registersCommit]) hT
@[simp] theorem setsApply_foot (chg : Changed) {T : Nat} (hT : 0x300FDE01 &&& T = 0x300FDE01) : (setsApply chg).Foot (In T) :=
  foot_mono (L := 0x300FDE01) (by simp (decide := true) [setsApply]) hT
@[simp] theorem commitPoint_foot (n : Nat) {T : Nat} (hT : 0x370FFF5D &&& T = 0x370FFF5D) : (commitPoint n).Foot (In T) :=
  foot_mono (L := 0x370FFF5D) (by simp (decide := true) [commitPoint]) hT
@[simp] theorem latchPoint_foot {T : Nat} (hT : 0x30600 &&& T = 0x30600) : (latchPoint).Foot (In T) :=
  foot_mono (L := 0x30600) (by simp (decide := true) [latchPoint]) hT
@[simp] theorem sleepExit_foot (n : Nat) {T : Nat} (hT : 0x20310001 &&& T = 0x20310001) : (sleepExit n).Foot (In T) :=
  foot_mono (L := 0x20310001) (by simp (decide := true) [sleepExit]) hT
@[simp] theorem sleepEntry_foot (n : Nat) {T : Nat} (hT : 0x20110001 &&& T = 0x20110001) : (sleepEntry n).Foot (In T) :=
  foot_mono (L := 0x20110001) (by simp (decide := true) [sleepEntry]) hT
@[simp] theorem verdictPoint_foot (n : Nat) (jolt : Bool) {T : Nat} (hT : 0x303FDE01 &&& T = 0x303FDE01) : (verdictPoint n jolt).Foot (In T) :=
  foot_mono (L := 0x303FDE01) (by simp (decide := true) [verdictPoint]) hT
@[simp] theorem periodWork_foot (elapsed : Nat) {T : Nat} (hT : 0x300FFE59 &&& T = 0x300FFE59) : (periodWork elapsed).Foot (In T) :=
  foot_mono (L := 0x300FFE59) (by simp (decide := true) [periodWork]) hT
@[simp] theorem timetableActivate_foot {T : Nat} (hT : 0x100 &&& T = 0x100) : (timetableActivate).Foot (In T) :=
  foot_mono (L := 0x100) (by simp (decide := true) [timetableActivate]) hT
@[simp] theorem quietPut_foot (n h : Nat) {T : Nat} (hT : 0x20000001 &&& T = 0x20000001) : (quietPut n h).Foot (In T) :=
  foot_mono (L := 0x20000001) (by simp (decide := true) [quietPut]) hT
@[simp] theorem edgeRegs_foot (n : Nat) {T : Nat} (hT : 0x20000001 &&& T = 0x20000001) : (edgeRegs n).Foot (In T) :=
  foot_mono (L := 0x20000001) (by simp (decide := true) [edgeRegs]) hT
@[simp] theorem edgeSequence_foot (e : EdgeIn) {T : Nat} (hT : 0x377FFF5D &&& T = 0x377FFF5D) : (edgeSequence e).Foot (In T) :=
  foot_mono (L := 0x377FFF5D) (by simp (decide := true) [edgeSequence]) hT
@[simp] theorem periodNext_foot (e : PeriodIn) {T : Nat} (hT : 0x304FFF59 &&& T = 0x304FFF59) : (periodNext e).Foot (In T) :=
  foot_mono (L := 0x304FFF59) (by simp (decide := true) [periodNext]) hT
@[simp] theorem bellRequestOp_foot (v : Word) {T : Nat} (hT : 0x20000101 &&& T = 0x20000101) : (bellRequestOp v).Foot (In T) :=
  foot_mono (L := 0x20000101) (by simp (decide := true) [bellRequestOp]) hT

end Sys2Proof.Machine
end

