-- ==== Sys2Proof/Laws/FootCsr.lean ====
section
/-!
SUPPORT. Laws/FootCsr.lean: footprints of the operations of Machine/Csr.lean.
-/

namespace Sys2Proof.Machine

@[simp] theorem slotWrite_foot (f : RegFam) (lock : Bool) (off : Nat) (w m : Word) {T : Nat} (hT : 0x20000003 &&& T = 0x20000003) : (slotWrite f lock off w m).Foot (In T) :=
  foot_mono (L := 0x20000003) (by simp (decide := true) [slotWrite]) hT
@[simp] theorem ringBaseWrite_foot (f : RegFam) (seat ring : Nat) (w : Word) {T : Nat} (hT : 0x2108BA1B &&& T = 0x2108BA1B) : (ringBaseWrite f seat ring w).Foot (In T) :=
  foot_mono (L := 0x2108BA1B) (by simp (decide := true) [ringBaseWrite]) hT
@[simp] theorem seatPageWrite_foot (p : Path) (f : RegFam) (seat o size : Nat) (w m : Word) {T : Nat} (hT : 0x310FFE1B &&& T = 0x310FFE1B) : (seatPageWrite p f seat o size w m).Foot (In T) :=
  foot_mono (L := 0x310FFE1B) (by simp (decide := true) [seatPageWrite]) hT
@[simp] theorem irqMaskWriteAct_foot (f : RegFam) (seat : Nat) (w m : Word) {T : Nat} (hT : 0x801 &&& T = 0x801) : (irqMaskWriteAct f seat w m).Foot (In T) :=
  foot_mono (L := 0x801) (by simp (decide := true) [irqMaskWriteAct]) hT
@[simp] theorem globalCtrlWrite_foot (f : RegFam) (w m : Word) {T : Nat} (hT : 0x22000803 &&& T = 0x22000803) : (globalCtrlWrite f w m).Foot (In T) :=
  foot_mono (L := 0x22000803) (by simp (decide := true) [globalCtrlWrite]) hT
@[simp] theorem hostReadyWrite_foot (p : Path) (w : Word) {T : Nat} (hT : 0x22200801 &&& T = 0x22200801) : (hostReadyWrite p w).Foot (In T) :=
  foot_mono (L := 0x22200801) (by simp (decide := true) [hostReadyWrite]) hT
@[simp] theorem grdCtrlWrite_foot (p : Path) (f : RegFam) (off : Nat) (w m : Word) {T : Nat} (hT : 0x380FFE03 &&& T = 0x380FFE03) : (grdCtrlWrite p f off w m).Foot (In T) :=
  foot_mono (L := 0x380FFE03) (by simp (decide := true) [grdCtrlWrite]) hT
@[simp] theorem parityInject_foot (i : Nat) {T : Nat} (hT : 0x3C0C34C1 &&& T = 0x3C0C34C1) : (parityInject i).Foot (In T) :=
  foot_mono (L := 0x3C0C34C1) (by simp (decide := true) [parityInject]) hT
@[simp] theorem busOwnerWrite_foot (p : Path) (f : RegFam) (off : Nat) (w m : Word) {T : Nat} (hT : 0x20000003 &&& T = 0x20000003) : (busOwnerWrite p f off w m).Foot (In T) :=
  foot_mono (L := 0x20000003) (by simp (decide := true) [busOwnerWrite]) hT
@[simp] theorem secureGo_foot {P : Eff → Prop} (u : Nat) (a : Act) : (secureGo u a).Foot P ↔ ∀ s : State, s.calm → s.unitSec u = true → a.Foot P := by
  simp [secureGo]
@[simp] theorem controlWrite_foot (p : Path) (f : RegFam) (lock : Bool) (off : Nat) (w m : Word) {T : Nat} (hT : 0x3F3FFF9B &&& T = 0x3F3FFF9B) : (controlWrite p f lock off w m).Foot (In T) :=
  foot_mono (L := 0x3F3FFF9B) (by simp (decide := true) [controlWrite]) hT
@[simp] theorem mediaWrite_foot (p : Path) (f : RegFam) (lock : Bool) (off : Nat) (w m : Word) {T : Nat} (hT : 0x300FFE5B &&& T = 0x300FFE5B) : (mediaWrite p f lock off w m).Foot (In T) :=
  foot_mono (L := 0x300FFE5B) (by simp (decide := true) [mediaWrite]) hT
@[simp] theorem memoryWrite_foot (p : Path) (f : RegFam) (lock : Bool) (off : Nat) (w m : Word) {T : Nat} (hT : 0x3C0FFEDB &&& T = 0x3C0FFEDB) : (memoryWrite p f lock off w m).Foot (In T) :=
  foot_mono (L := 0x3C0FFEDB) (by simp (decide := true) [memoryWrite]) hT
@[simp] theorem registerWrite_foot (p : Path) (f : RegFam) (lock : Bool) (off size : Nat) (w m : Word) {T : Nat} (hT : 0x3F3FFFDB &&& T = 0x3F3FFFDB) : (registerWrite p f lock off size w m).Foot (In T) :=
  foot_mono (L := 0x3F3FFFDB) (by simp (decide := true) [registerWrite]) hT
@[simp] theorem gatedWrite_foot (p : Path) (f : RegFam) (at_ size : Nat) (v : Word) {T : Nat} (hT : 0x3F3FFFDB &&& T = 0x3F3FFFDB) : (gatedWrite p f at_ size v).Foot (In T) :=
  foot_mono (L := 0x3F3FFFDB) (by
    simp (decide := true) [gatedWrite]; intros; repeat' split
    all_goals simp (decide := true)) hT
@[simp] theorem csrWriteNow_foot (p : Path) (off size : Nat) (v : Word) {T : Nat} (hT : 0x3F3FFFDB &&& T = 0x3F3FFFDB) : (csrWriteNow p off size v).Foot (In T) :=
  foot_mono (L := 0x3F3FFFDB) (by
    simp (decide := true) [csrWriteNow]; intros; repeat' split
    all_goals simp (decide := true)) hT
@[simp] theorem holdReq_foot (r : HeldReq) {T : Nat} (hT : 0x20200001 &&& T = 0x20200001) : (holdReq r).Foot (In T) :=
  foot_mono (L := 0x20200001) (by simp (decide := true) [holdReq]) hT
@[simp] theorem csrWriteAct_foot (p : Path) (off size : Nat) (v : Word) {T : Nat} (hT : 0x3F3FFFDB &&& T = 0x3F3FFFDB) : (csrWriteAct p off size v).Foot (In T) :=
  foot_mono (L := 0x3F3FFFDB) (by simp (decide := true) [csrWriteAct]) hT
@[simp] theorem readEffect_foot (p : Path) (f : RegFam) (a size : Nat) {T : Nat} (hT : 0x20000101 &&& T = 0x20000101) : (readEffect p f a size).Foot (In T) :=
  foot_mono (L := 0x20000101) (by simp (decide := true) [readEffect]) hT
@[simp] theorem csrReadNow_foot (p : Path) (off size : Nat) {T : Nat} (hT : 0x20000121 &&& T = 0x20000121) : (csrReadNow p off size).Foot (In T) :=
  foot_mono (L := 0x20000121) (by simp (decide := true) [csrReadNow]) hT
@[simp] theorem csrReadAct_foot (p : Path) (off size : Nat) {T : Nat} (hT : 0x20200121 &&& T = 0x20200121) : (csrReadAct p off size).Foot (In T) :=
  foot_mono (L := 0x20200121) (by simp (decide := true) [csrReadAct]) hT

end Sys2Proof.Machine
end

