-- ==== Sys2Proof/Laws/FootRegs.lean ====
section
/-!
SUPPORT. Laws/FootRegs.lean: footprints of the operations of Machine/Regs.lean.
-/

namespace Sys2Proof.Machine

@[simp] theorem configAct_foot (r : HeldReq) (a : Act) {T : Nat} (ha : a.Foot (In T)) (hT : 0x20200001 &&& T = 0x20200001) : (configAct r a).Foot (In T) := by
  simp only [configAct, foot_ask, foot_ite]
  exact fun s _ => ⟨fun _ => holdReq_foot r hT, fun _ => ha⟩
@[simp] theorem heldServe_foot (r : HeldReq) {T : Nat} (hT : 0x3F3FFFFB &&& T = 0x3F3FFFFB) : (heldServe r).Foot (In T) :=
  foot_mono (L := 0x3F3FFFFB) (by
    cases r with
    | vfEnable p on => cases on <;> simp (decide := true) [heldServe]
    | _ => simp (decide := true) [heldServe]) hT
theorem wake_time (t : Tts) : (Tts.wake t).bell = t.bell ∧ (Tts.wake t).period = t.period := ⟨rfl, rfl⟩
@[simp] theorem wakeDone_foot {T : Nat} (hT : 0x3F3FFFFB &&& T = 0x3F3FFFFB) : wakeDone.Foot (In T) :=
  foot_mono (L := 0x3F3FFFFB) (by simp (decide := true) [wakeDone, wake_time]) hT

end Sys2Proof.Machine
end

