-- ==== Sys2Proof/Laws/Commands.lean ====
section
/-!
SUPPORT. Laws/Commands.lean: the footprint of every command for which `commandParts` lists what it can touch: its meaning is a program whose
effects, run from calm states, lie in a class that the bits of a number give (Laws/Act.lean).
-/

namespace Sys2Proof.Machine

/-- The meaning of a command as a program in a class of effects. -/
def Within (T : Nat) (s : State) (o : Host.Outcome State Fault Refusal) : Prop :=
  ∃ ok a, o = live ok a s ∧ softClass T = true ∧ a.Foot (In T)

/-- What such a command leaves: it stays calm and out of the safe state, and every part that the class spares is the same. -/
theorem Within.spares {T : Nat} {s t : State} {o : Host.Outcome State Fault Refusal} (hw : Within T s o) (hs : s.calm) (h : o = .next t) :
    t.calm ∧ ∀ p : Part, p.spared T = true → p.same s t := by
  obtain ⟨ok, a, rfl, hT, ha⟩ := hw
  unfold live at h
  injection h with h
  subst h
  split
  · exact ⟨hs, fun p _ => p.same_refl s⟩
  · exact runAct_same hT ha hs

set_option maxHeartbeats 400000
theorem execLinkReset_within link {s : State} (hl : s.live) : Within 0x232ffe19 s (execLinkReset link s) := by
  unfold execLinkReset
  try simp only [decideOpcode, decideTch, readCommand]
  exact ⟨_, _, rfl, rfl, by simp (decide := true)⟩
theorem execPerstRelease_within link {s : State} (hl : s.live) : Within 0x200000 s (execPerstRelease link s) := by
  unfold execPerstRelease
  try simp only [decideOpcode, decideTch, readCommand]
  exact ⟨_, _, rfl, rfl, by simp (decide := true)⟩
theorem execSecBootRomStart_within  {s : State} (hl : s.live) : Within 0x4001000 s (execSecBootRomStart  s) := by
  unfold execSecBootRomStart
  try simp only [decideOpcode, decideTch, readCommand]
  exact ⟨_, _, rfl, rfl, by simp (decide := true)⟩
theorem execClockSourceReady_within src {s : State} (hl : s.live) : Within 0x20300101 s (execClockSourceReady src s) := by
  unfold execClockSourceReady
  try simp only [decideOpcode, decideTch, readCommand]
  exact ⟨_, _, rfl, rfl, by simp (decide := true)⟩
theorem execClockMonitorTrip_within src {s : State} (hl : s.live) : Within 0x300fde01 s (execClockMonitorTrip src s) := by
  unfold execClockMonitorTrip
  try simp only [decideOpcode, decideTch, readCommand]
  exact ⟨_, _, rfl, rfl, by simp (decide := true)⟩
theorem execHoscTrimWindow_within counted {s : State} (hl : s.live) : Within 0x20100001 s (execHoscTrimWindow counted s) := by
  unfold execHoscTrimWindow
  try simp only [decideOpcode, decideTch, readCommand]
  exact ⟨_, _, rfl, rfl, by simp (decide := true)⟩
theorem execGateAckTimeout_within b {s : State} (hl : s.live) : Within 0x301fde01 s (execGateAckTimeout b s) := by
  unfold execGateAckTimeout
  try simp only [decideOpcode, decideTch, readCommand]
  exact ⟨_, _, rfl, rfl, by simp (decide := true)⟩
theorem execBellEdge_within e {s : State} (hl : s.live) : Within 0x377fff5d s (execBellEdge e s) := by
  unfold execBellEdge
  try simp only [decideOpcode, decideTch, readCommand]
  exact ⟨_, _, rfl, rfl, by simp (decide := true)⟩
theorem execPeriodStart_within e {s : State} (hl : s.live) : Within 0x304fff59 s (execPeriodStart e s) := by
  unfold execPeriodStart
  try simp only [decideOpcode, decideTch, readCommand]
  exact ⟨_, _, rfl, rfl, by simp (decide := true)⟩
theorem execDecisionTimeout_within  {s : State} (hl : s.live) : Within 0x2109be19 s (execDecisionTimeout  s) := by
  unfold execDecisionTimeout
  try simp only [decideOpcode, decideTch, readCommand]
  exact ⟨_, _, rfl, rfl, by simp (decide := true)⟩
theorem execGenlockPulse_within at_ high {s : State} (hl : s.live) : Within 0x300fdf01 s (execGenlockPulse at_ high s) := by
  unfold execGenlockPulse
  try simp only [decideOpcode, decideTch, readCommand]
  exact ⟨_, _, rfl, rfl, by simp (decide := true)⟩
theorem execBellRefLost_within at_ {s : State} (hl : s.live) : Within 0x300fdf01 s (execBellRefLost at_ s) := by
  unfold execBellRefLost
  try simp only [decideOpcode, decideTch, readCommand]
  exact ⟨_, _, rfl, rfl, by simp (decide := true)⟩
theorem execTtsBellCountLoRead_within p {s : State} (hl : s.live) : Within 0x20200121 s (execTtsBellCountLoRead p s) := by
  unfold execTtsBellCountLoRead
  try simp only [decideOpcode, decideTch, readCommand]
  rw [if_neg (by simp [hl.1])]
  exact ⟨_, _, rfl, rfl, by simp (decide := true)⟩
theorem execAdmBusyCountRead_within p {s : State} (hl : s.live) : Within 0x20200121 s (execAdmBusyCountRead p s) := by
  unfold execAdmBusyCountRead
  try simp only [decideOpcode, decideTch, readCommand]
  rw [if_neg (by simp [hl.1])]
  exact ⟨_, _, rfl, rfl, by simp (decide := true)⟩
theorem execPacketFetch_within host {s : State} (hl : s.live) : Within 0x188ba19 s (execPacketFetch host s) := by
  unfold execPacketFetch
  try simp only [decideOpcode, decideTch, readCommand]
  exact ⟨_, _, rfl, rfl, by simp (decide := true)⟩
theorem execAdmissionDecision_within host {s : State} (hl : s.live) : Within 0x330fbe59 s (execAdmissionDecision host s) := by
  unfold execAdmissionDecision
  try simp only [decideOpcode, decideTch, readCommand]
  exact ⟨_, _, rfl, rfl, by simp (decide := true)⟩
theorem execTurnEnd_within t {s : State} (hl : s.live) : Within 0x300ffe59 s (execTurnEnd t s) := by
  unfold execTurnEnd
  try simp only [decideOpcode, decideTch, readCommand]
  exact ⟨_, _, rfl, rfl, by simp (decide := true)⟩
theorem execTurnCycleLimit_within t {s : State} (hl : s.live) : Within 0x300ffe19 s (execTurnCycleLimit t s) := by
  unfold execTurnCycleLimit
  try simp only [decideOpcode, decideTch, readCommand]
  exact ⟨_, _, rfl, rfl, by simp (decide := true)⟩
theorem execEnvelopeLimitReached_within cmd which {s : State} (hl : s.live) : Within 0x20000 s (execEnvelopeLimitReached cmd which s) := by
  unfold execEnvelopeLimitReached
  try simp only [decideOpcode, decideTch, readCommand]
  exact ⟨_, _, rfl, rfl, by simp (decide := true)⟩
theorem execMemoryTransactionResponse_within t {s : State} (hl : s.live) : Within 0x380ffe39 s (execMemoryTransactionResponse t s) := by
  unfold execMemoryTransactionResponse
  try simp only [decideOpcode, decideTch, readCommand]
  exact ⟨_, _, rfl, rfl, by simp (decide := true)⟩
theorem execArbTimeout_within st {s : State} (hl : s.live) : Within 0x300fde01 s (execArbTimeout st s) := by
  unfold execArbTimeout
  try simp only [decideOpcode, decideTch, readCommand]
  exact ⟨_, _, rfl, rfl, by simp (decide := true)⟩
theorem execPcieCompletionTimeout_within st seat cmd {s : State} (hl : s.live) : Within 0x300fde01 s (execPcieCompletionTimeout st seat cmd s) := by
  unfold execPcieCompletionTimeout
  try simp only [decideOpcode, decideTch, readCommand]
  exact ⟨_, _, rfl, rfl, by simp (decide := true)⟩
theorem execCommandComplete_within cmd {s : State} (hl : s.live) : Within 0x310ffe19 s (execCommandComplete cmd s) := by
  unfold execCommandComplete
  try simp only [decideOpcode, decideTch, readCommand]
  exact ⟨_, _, rfl, rfl, by simp (decide := true)⟩
theorem execNop_within  {s : State} (hl : s.live) : Within 0x330fbe59 s (execNop  s) := by
  unfold execNop
  try simp only [decideOpcode, decideTch, readCommand]
  exact ⟨_, _, rfl, rfl, by simp (decide := true)⟩
theorem execQueryCaps_within  {s : State} (hl : s.live) : Within 0x330fbe59 s (execQueryCaps  s) := by
  unfold execQueryCaps
  try simp only [decideOpcode, decideTch, readCommand]
  exact ⟨_, _, rfl, rfl, by simp (decide := true)⟩
theorem execSetBudget_within  {s : State} (hl : s.live) : Within 0x330fbe59 s (execSetBudget  s) := by
  unfold execSetBudget
  try simp only [decideOpcode, decideTch, readCommand]
  exact ⟨_, _, rfl, rfl, by simp (decide := true)⟩
theorem execSetQuota_within  {s : State} (hl : s.live) : Within 0x330fbe59 s (execSetQuota  s) := by
  unfold execSetQuota
  try simp only [decideOpcode, decideTch, readCommand]
  exact ⟨_, _, rfl, rfl, by simp (decide := true)⟩
theorem execQuotaReclaim_within seat {s : State} (hl : s.live) : Within 0x230ffe19 s (execQuotaReclaim seat s) := by
  unfold execQuotaReclaim
  try simp only [decideOpcode, decideTch, readCommand]
  exact ⟨_, _, rfl, rfl, by simp (decide := true)⟩
theorem execCommit_within  {s : State} (hl : s.live) : Within 0x330fbe59 s (execCommit  s) := by
  unfold execCommit
  try simp only [decideOpcode, decideTch, readCommand]
  exact ⟨_, _, rfl, rfl, by simp (decide := true)⟩
theorem execDmaCopy_within cmd {s : State} (hl : s.live) : Within 0x4601 s (execDmaCopy cmd s) := by
  unfold execDmaCopy
  try simp only [decideOpcode, decideTch, readCommand]
  exact ⟨_, _, rfl, rfl, by simp (decide := true)⟩
theorem execDmaFill_within cmd {s : State} (hl : s.live) : Within 0x4601 s (execDmaFill cmd s) := by
  unfold execDmaFill
  try simp only [decideOpcode, decideTch, readCommand]
  exact ⟨_, _, rfl, rfl, by simp (decide := true)⟩
theorem execDmaBurstResponse_within ch host {s : State} (hl : s.live) : Within 0x300ffe19 s (execDmaBurstResponse ch host s) := by
  unfold execDmaBurstResponse
  try simp only [decideOpcode, decideTch, readCommand]
  exact ⟨_, _, rfl, rfl, by simp (decide := true)⟩
theorem execChkAttach_within  {s : State} (hl : s.live) : Within 0x330fbe59 s (execChkAttach  s) := by
  unfold execChkAttach
  try simp only [decideOpcode, decideTch, readCommand]
  exact ⟨_, _, rfl, rfl, by simp (decide := true)⟩
theorem execChkDetach_within  {s : State} (hl : s.live) : Within 0x330fbe59 s (execChkDetach  s) := by
  unfold execChkDetach
  try simp only [decideOpcode, decideTch, readCommand]
  exact ⟨_, _, rfl, rfl, by simp (decide := true)⟩
theorem execRndProgramLoad_within  {s : State} (hl : s.live) : Within 0x330fbe59 s (execRndProgramLoad  s) := by
  unfold execRndProgramLoad
  try simp only [decideOpcode, decideTch, readCommand]
  exact ⟨_, _, rfl, rfl, by simp (decide := true)⟩
theorem execRndProgramUnload_within  {s : State} (hl : s.live) : Within 0x330fbe59 s (execRndProgramUnload  s) := by
  unfold execRndProgramUnload
  try simp only [decideOpcode, decideTch, readCommand]
  exact ⟨_, _, rfl, rfl, by simp (decide := true)⟩
theorem execProgramCompileDone_within cmd models kib cause {s : State} (hl : s.live) : Within 0x20020601 s (execProgramCompileDone cmd models kib cause s) := by
  unfold execProgramCompileDone
  try simp only [decideOpcode, decideTch, readCommand]
  exact ⟨_, _, rfl, rfl, by simp (decide := true)⟩
theorem execRndPassBegin_within seat ring {s : State} (hl : s.live) : Within 0x800201 s (execRndPassBegin seat ring s) := by
  unfold execRndPassBegin
  try simp only [decideOpcode, decideTch, readCommand]
  exact ⟨_, _, rfl, rfl, by simp (decide := true)⟩
theorem execRndDraw_within seat ring {s : State} (hl : s.live) : Within 0x800201 s (execRndDraw seat ring s) := by
  unfold execRndDraw
  try simp only [decideOpcode, decideTch, readCommand]
  exact ⟨_, _, rfl, rfl, by simp (decide := true)⟩
theorem execRndPassEnd_within seat ring {s : State} (hl : s.live) : Within 0x800201 s (execRndPassEnd seat ring s) := by
  unfold execRndPassEnd
  try simp only [decideOpcode, decideTch, readCommand]
  exact ⟨_, _, rfl, rfl, by simp (decide := true)⟩
theorem execRndDispatch_within cmd host {s : State} (hl : s.live) : Within 0x300ffe19 s (execRndDispatch cmd host s) := by
  unfold execRndDispatch
  try simp only [decideOpcode, decideTch, readCommand]
  exact ⟨_, _, rfl, rfl, by simp (decide := true)⟩
theorem execCmpCanvasSet_within  {s : State} (hl : s.live) : Within 0x330fbe59 s (execCmpCanvasSet  s) := by
  unfold execCmpCanvasSet
  try simp only [decideOpcode, decideTch, readCommand]
  exact ⟨_, _, rfl, rfl, by simp (decide := true)⟩
theorem execCmpLayerSet_within  {s : State} (hl : s.live) : Within 0x330fbe59 s (execCmpLayerSet  s) := by
  unfold execCmpLayerSet
  try simp only [decideOpcode, decideTch, readCommand]
  exact ⟨_, _, rfl, rfl, by simp (decide := true)⟩
theorem execCmpFlip_within  {s : State} (hl : s.live) : Within 0x330fbe59 s (execCmpFlip  s) := by
  unfold execCmpFlip
  try simp only [decideOpcode, decideTch, readCommand]
  exact ⟨_, _, rfl, rfl, by simp (decide := true)⟩
theorem execCmpFlipGroup_within  {s : State} (hl : s.live) : Within 0x330fbe59 s (execCmpFlipGroup  s) := by
  unfold execCmpFlipGroup
  try simp only [decideOpcode, decideTch, readCommand]
  exact ⟨_, _, rfl, rfl, by simp (decide := true)⟩
theorem execVdcSessionOpen_within  {s : State} (hl : s.live) : Within 0x330fbe59 s (execVdcSessionOpen  s) := by
  unfold execVdcSessionOpen
  try simp only [decideOpcode, decideTch, readCommand]
  exact ⟨_, _, rfl, rfl, by simp (decide := true)⟩
theorem execVdcSessionClose_within  {s : State} (hl : s.live) : Within 0x330fbe59 s (execVdcSessionClose  s) := by
  unfold execVdcSessionClose
  try simp only [decideOpcode, decideTch, readCommand]
  exact ⟨_, _, rfl, rfl, by simp (decide := true)⟩
theorem execVdcDecode_within cmd {s : State} (hl : s.live) : Within 0x300fde01 s (execVdcDecode cmd s) := by
  unfold execVdcDecode
  try simp only [decideOpcode, decideTch, readCommand]
  exact ⟨_, _, rfl, rfl, by simp (decide := true)⟩
theorem execVdcEncode_within cmd {s : State} (hl : s.live) : Within 0x300fde01 s (execVdcEncode cmd s) := by
  unfold execVdcEncode
  try simp only [decideOpcode, decideTch, readCommand]
  exact ⟨_, _, rfl, rfl, by simp (decide := true)⟩
theorem execVdcKeyRequest_within  {s : State} (hl : s.live) : Within 0x330fbe59 s (execVdcKeyRequest  s) := by
  unfold execVdcKeyRequest
  try simp only [decideOpcode, decideTch, readCommand]
  exact ⟨_, _, rfl, rfl, by simp (decide := true)⟩
theorem execCodecPictureBoundary_within pic {s : State} (hl : s.live) : Within 0x310ffe59 s (execCodecPictureBoundary pic s) := by
  unfold execCodecPictureBoundary
  try simp only [decideOpcode, decideTch, readCommand]
  exact ⟨_, _, rfl, rfl, by simp (decide := true)⟩
theorem execAudRoute_within cmd {s : State} (hl : s.live) : Within 0x40000 s (execAudRoute cmd s) := by
  unfold execAudRoute
  try simp only [decideOpcode, decideTch, readCommand]
  exact ⟨_, _, rfl, rfl, by simp (decide := true)⟩
theorem execAudStreamOpen_within  {s : State} (hl : s.live) : Within 0x330fbe59 s (execAudStreamOpen  s) := by
  unfold execAudStreamOpen
  try simp only [decideOpcode, decideTch, readCommand]
  exact ⟨_, _, rfl, rfl, by simp (decide := true)⟩
theorem execAudStreamClose_within  {s : State} (hl : s.live) : Within 0x330fbe59 s (execAudStreamClose  s) := by
  unfold execAudStreamClose
  try simp only [decideOpcode, decideTch, readCommand]
  exact ⟨_, _, rfl, rfl, by simp (decide := true)⟩
theorem execAudEffect_within  {s : State} (hl : s.live) : Within 0x330fbe59 s (execAudEffect  s) := by
  unfold execAudEffect
  try simp only [decideOpcode, decideTch, readCommand]
  exact ⟨_, _, rfl, rfl, by simp (decide := true)⟩
theorem execAudioBlock_within b {s : State} (hl : s.live) : Within 0x300ffe19 s (execAudioBlock b s) := by
  unfold execAudioBlock
  try simp only [decideOpcode, decideTch, readCommand]
  exact ⟨_, _, rfl, rfl, by simp (decide := true)⟩
theorem execTdmFrameReceived_within port rate slots {s : State} (hl : s.live) : Within 0x20040001 s (execTdmFrameReceived port rate slots s) := by
  unfold execTdmFrameReceived
  try simp only [decideOpcode, decideTch, readCommand]
  exact ⟨_, _, rfl, rfl, by simp (decide := true)⟩
theorem execTdmClockLost_within  {s : State} (hl : s.live) : Within 0x300fde01 s (execTdmClockLost  s) := by
  unfold execTdmClockLost
  try simp only [decideOpcode, decideTch, readCommand]
  exact ⟨_, _, rfl, rfl, by simp (decide := true)⟩
theorem execAudInputLost_within n {s : State} (hl : s.live) : Within 0x20040001 s (execAudInputLost n s) := by
  unfold execAudInputLost
  try simp only [decideOpcode, decideTch, readCommand]
  exact ⟨_, _, rfl, rfl, by simp (decide := true)⟩
theorem execTchConfigApply_within  {s : State} (hl : s.live) : Within 0x330fbe59 s (execTchConfigApply  s) := by
  unfold execTchConfigApply
  try simp only [decideOpcode, decideTch, readCommand]
  exact ⟨_, _, rfl, rfl, by simp (decide := true)⟩
theorem execTchConfigSelftest_within  {s : State} (hl : s.live) : Within 0x330fbe59 s (execTchConfigSelftest  s) := by
  unfold execTchConfigSelftest
  try simp only [decideOpcode, decideTch, readCommand]
  exact ⟨_, _, rfl, rfl, by simp (decide := true)⟩
theorem execTchConfigRecalibrate_within  {s : State} (hl : s.live) : Within 0x330fbe59 s (execTchConfigRecalibrate  s) := by
  unfold execTchConfigRecalibrate
  try simp only [decideOpcode, decideTch, readCommand]
  exact ⟨_, _, rfl, rfl, by simp (decide := true)⟩
theorem execTchConfigDisable_within  {s : State} (hl : s.live) : Within 0x330fbe59 s (execTchConfigDisable  s) := by
  unfold execTchConfigDisable
  try simp only [decideOpcode, decideTch, readCommand]
  exact ⟨_, _, rfl, rfl, by simp (decide := true)⟩
theorem execTouchLinkBringup_within port id ok {s : State} (hl : s.live) : Within 0x300fde01 s (execTouchLinkBringup port id ok s) := by
  unfold execTouchLinkBringup
  try simp only [decideOpcode, decideTch, readCommand]
  exact ⟨_, _, rfl, rfl, by simp (decide := true)⟩
theorem execTouchScanStart_within port {s : State} (hl : s.live) : Within 0x20040001 s (execTouchScanStart port s) := by
  unfold execTouchScanStart
  try simp only [decideOpcode, decideTch, readCommand]
  exact ⟨_, _, rfl, rfl, by simp (decide := true)⟩
theorem execTouchScanEnd_within port ok counts {s : State} (hl : s.live) : Within 0x300ffe59 s (execTouchScanEnd port ok counts s) := by
  unfold execTouchScanEnd
  try simp only [decideOpcode, decideTch, readCommand]
  exact ⟨_, _, rfl, rfl, by simp (decide := true)⟩
theorem execKeyForcedRelease_within port key {s : State} (hl : s.live) : Within 0x20040001 s (execKeyForcedRelease port key s) := by
  unfold execKeyForcedRelease
  try simp only [decideOpcode, decideTch, readCommand]
  exact ⟨_, _, rfl, rfl, by simp (decide := true)⟩
theorem execDozeEntry_within port {s : State} (hl : s.live) : Within 0x20000001 s (execDozeEntry port s) := by
  unfold execDozeEntry
  try simp only [decideOpcode, decideTch, readCommand]
  exact ⟨_, _, rfl, rfl, by simp (decide := true)⟩
theorem execDozeApproach_within port {s : State} (hl : s.live) : Within 0x20240001 s (execDozeApproach port s) := by
  unfold execDozeApproach
  try simp only [decideOpcode, decideTch, readCommand]
  exact ⟨_, _, rfl, rfl, by simp (decide := true)⟩
theorem execTouchLinkRetry_within port id ok {s : State} (hl : s.live) : Within 0x300fde01 s (execTouchLinkRetry port id ok s) := by
  unfold execTouchLinkRetry
  try simp only [decideOpcode, decideTch, readCommand]
  exact ⟨_, _, rfl, rfl, by simp (decide := true)⟩
theorem execHapEffectLoad_within cmd {s : State} (hl : s.live) : Within 0x40601 s (execHapEffectLoad cmd s) := by
  unfold execHapEffectLoad
  try simp only [decideOpcode, decideTch, readCommand]
  exact ⟨_, _, rfl, rfl, by simp (decide := true)⟩
theorem execHapEffectClear_within cmd {s : State} (hl : s.live) : Within 0x40601 s (execHapEffectClear cmd s) := by
  unfold execHapEffectClear
  try simp only [decideOpcode, decideTch, readCommand]
  exact ⟨_, _, rfl, rfl, by simp (decide := true)⟩
theorem execHapPlay_within cmd {s : State} (hl : s.live) : Within 0x20040601 s (execHapPlay cmd s) := by
  unfold execHapPlay
  try simp only [decideOpcode, decideTch, readCommand]
  exact ⟨_, _, rfl, rfl, by simp (decide := true)⟩
theorem execHapticFrame_within ch volt {s : State} (hl : s.live) : Within 0x300fde01 s (execHapticFrame ch volt s) := by
  unfold execHapticFrame
  try simp only [decideOpcode, decideTch, readCommand]
  exact ⟨_, _, rfl, rfl, by simp (decide := true)⟩
theorem execFence_within cmd {s : State} (hl : s.live) : Within 0x20078601 s (execFence cmd s) := by
  unfold execFence
  try simp only [decideOpcode, decideTch, readCommand]
  exact ⟨_, _, rfl, rfl, by simp (decide := true)⟩
theorem execSignal_within cmd {s : State} (hl : s.live) : Within 0x700 s (execSignal cmd s) := by
  unfold execSignal
  try simp only [decideOpcode, decideTch, readCommand]
  exact ⟨_, _, rfl, rfl, by simp (decide := true)⟩
theorem execWait_within cmd {s : State} (hl : s.live) : Within 0x600 s (execWait cmd s) := by
  unfold execWait
  try simp only [decideOpcode, decideTch, readCommand]
  exact ⟨_, _, rfl, rfl, by simp (decide := true)⟩
theorem execQueryStatus_within  {s : State} (hl : s.live) : Within 0x330fbe59 s (execQueryStatus  s) := by
  unfold execQueryStatus
  try simp only [decideOpcode, decideTch, readCommand]
  exact ⟨_, _, rfl, rfl, by simp (decide := true)⟩
theorem execQueryStatusByTag_within  {s : State} (hl : s.live) : Within 0x330fbe59 s (execQueryStatusByTag  s) := by
  unfold execQueryStatusByTag
  try simp only [decideOpcode, decideTch, readCommand]
  exact ⟨_, _, rfl, rfl, by simp (decide := true)⟩
theorem execQueryBudget_within  {s : State} (hl : s.live) : Within 0x330fbe59 s (execQueryBudget  s) := by
  unfold execQueryBudget
  try simp only [decideOpcode, decideTch, readCommand]
  exact ⟨_, _, rfl, rfl, by simp (decide := true)⟩
theorem execFlr_within seat {s : State} (hl : s.live) : Within 0x232ffe19 s (execFlr seat s) := by
  unfold execFlr
  try simp only [decideOpcode, decideTch, readCommand]
  exact ⟨_, _, rfl, rfl, by simp (decide := true)⟩
theorem execVfEnableSet_within pf {s : State} (hl : s.live) : Within 0x22200801 s (execVfEnableSet pf s) := by
  unfold execVfEnableSet
  try simp only [decideOpcode, decideTch, readCommand]
  exact ⟨_, _, rfl, rfl, by simp (decide := true)⟩
theorem execVfEnableClear_within pf {s : State} (hl : s.live) : Within 0x22200801 s (execVfEnableClear pf s) := by
  unfold execVfEnableClear
  try simp only [decideOpcode, decideTch, readCommand]
  exact ⟨_, _, rfl, rfl, by simp (decide := true)⟩
theorem execSeatResetSettle_within seat {s : State} (hl : s.live) : Within 0x1 s (execSeatResetSettle seat s) := by
  unfold execSeatResetSettle
  try simp only [decideOpcode, decideTch, readCommand]
  exact ⟨_, _, rfl, rfl, by simp (decide := true)⟩
theorem execSeatResetComplete_within seat {s : State} (hl : s.live) : Within 0x220eb819 s (execSeatResetComplete seat s) := by
  unfold execSeatResetComplete
  try simp only [decideOpcode, decideTch, readCommand]
  exact ⟨_, _, rfl, rfl, by simp (decide := true)⟩
theorem execTransferAbandoned_within st seat cmd {s : State} (hl : s.live) : Within 0x300fde01 s (execTransferAbandoned st seat cmd s) := by
  unfold execTransferAbandoned
  try simp only [decideOpcode, decideTch, readCommand]
  exact ⟨_, _, rfl, rfl, by simp (decide := true)⟩
theorem execDirtyLogSwapDone_within seat {s : State} (hl : s.live) : Within 0x1 s (execDirtyLogSwapDone seat s) := by
  unfold execDirtyLogSwapDone
  try simp only [decideOpcode, decideTch, readCommand]
  exact ⟨_, _, rfl, rfl, by simp (decide := true)⟩
theorem execHandoverReset_within  {s : State} (hl : s.live) : Within 0x2417de05 s (execHandoverReset  s) := by
  unfold execHandoverReset
  try simp only [decideOpcode, decideTch, readCommand]
  exact ⟨_, _, rfl, rfl, by simp (decide := true)⟩
theorem execMgtExpired_within  {s : State} (hl : s.live) : Within 0x300fde01 s (execMgtExpired  s) := by
  unfold execMgtExpired
  try simp only [decideOpcode, decideTch, readCommand]
  exact ⟨_, _, rfl, rfl, by simp (decide := true)⟩
theorem execHmnMgtLoadRead_within p {s : State} (hl : s.live) : Within 0x20200121 s (execHmnMgtLoadRead p s) := by
  unfold execHmnMgtLoadRead
  try simp only [decideOpcode, decideTch, readCommand]
  rw [if_neg (by simp [hl.1])]
  exact ⟨_, _, rfl, rfl, by simp (decide := true)⟩
theorem execGrdViolInfoRead_within p n {s : State} (hl : s.live) : Within 0x20200121 s (execGrdViolInfoRead p n s) := by
  unfold execGrdViolInfoRead
  try simp only [decideOpcode, decideTch, readCommand]
  rw [if_neg (by simp [hl.1])]
  exact ⟨_, _, rfl, rfl, by simp (decide := true)⟩
theorem execDramRefresh_within channel bank allRows {s : State} (hl : s.live) : Within 0x8002000 s (execDramRefresh channel bank allRows s) := by
  unfold execDramRefresh
  try simp only [decideOpcode, decideTch, readCommand]
  exact ⟨_, _, rfl, rfl, by simp (decide := true)⟩
theorem execRowHammerRefresh_within channel bank row {s : State} (hl : s.live) : Within 0x8002000 s (execRowHammerRefresh channel bank row s) := by
  unfold execRowHammerRefresh
  try simp only [decideOpcode, decideTch, readCommand]
  exact ⟨_, _, rfl, rfl, by simp (decide := true)⟩
theorem execHeadFrameStart_within hd {s : State} (hl : s.live) : Within 0x300fde01 s (execHeadFrameStart hd s) := by
  unfold execHeadFrameStart
  try simp only [decideOpcode, decideTch, readCommand]
  exact ⟨_, _, rfl, rfl, by simp (decide := true)⟩
theorem execHeadLineStart_within hd line late lockstep {s : State} (hl : s.live) : Within 0x300ffe41 s (execHeadLineStart hd line late lockstep s) := by
  unfold execHeadLineStart
  try simp only [decideOpcode, decideTch, readCommand]
  rw [if_neg (by simp [hl.1])]
  exact ⟨_, _, rfl, rfl, by simp (decide := true)⟩
theorem execLinkWakeDone_within port {s : State} (hl : s.live) : Within 0x1 s (execLinkWakeDone port s) := by
  unfold execLinkWakeDone
  try simp only [decideOpcode, decideTch, readCommand]
  exact ⟨_, _, rfl, rfl, by simp (decide := true)⟩
theorem execHpdRise_within port {s : State} (hl : s.live) : Within 0x300fde01 s (execHpdRise port s) := by
  unfold execHpdRise
  try simp only [decideOpcode, decideTch, readCommand]
  exact ⟨_, _, rfl, rfl, by simp (decide := true)⟩
theorem execHpdFall_within port {s : State} (hl : s.live) : Within 0x300fde01 s (execHpdFall port s) := by
  unfold execHpdFall
  try simp only [decideOpcode, decideTch, readCommand]
  exact ⟨_, _, rfl, rfl, by simp (decide := true)⟩
theorem execIrqHpd_within port {s : State} (hl : s.live) : Within 0x0 s (execIrqHpd port s) := by
  unfold execIrqHpd
  try simp only [decideOpcode, decideTch, readCommand]
  exact ⟨_, _, rfl, rfl, by simp (decide := true)⟩
theorem execSinkLockLoss_within port {s : State} (hl : s.live) : Within 0x10001 s (execSinkLockLoss port s) := by
  unfold execSinkLockLoss
  try simp only [decideOpcode, decideTch, readCommand]
  exact ⟨_, _, rfl, rfl, by simp (decide := true)⟩
theorem execLinkBringupDone_within port sink {s : State} (hl : s.live) : Within 0x300fde01 s (execLinkBringupDone port sink s) := by
  unfold execLinkBringupDone
  try simp only [decideOpcode, decideTch, readCommand]
  exact ⟨_, _, rfl, rfl, by simp (decide := true)⟩
theorem execCaptureFrameStart_within port f {s : State} (hl : s.live) : Within 0x300fdf01 s (execCaptureFrameStart port f s) := by
  unfold execCaptureFrameStart
  try simp only [decideOpcode, decideTch, readCommand]
  exact ⟨_, _, rfl, rfl, by simp (decide := true)⟩
theorem execCaptureFrameComplete_within port rows damaged {s : State} (hl : s.live) : Within 0x300ffe59 s (execCaptureFrameComplete port rows damaged s) := by
  unfold execCaptureFrameComplete
  try simp only [decideOpcode, decideTch, readCommand]
  exact ⟨_, _, rfl, rfl, by simp (decide := true)⟩
theorem execCaptureLinkLost_within port {s : State} (hl : s.live) : Within 0x20020001 s (execCaptureLinkLost port s) := by
  unfold execCaptureLinkLost
  try simp only [decideOpcode, decideTch, readCommand]
  exact ⟨_, _, rfl, rfl, by simp (decide := true)⟩
theorem execCaptureHpdPulseEnd_within port {s : State} (hl : s.live) : Within 0x20000 s (execCaptureHpdPulseEnd port s) := by
  unfold execCaptureHpdPulseEnd
  try simp only [decideOpcode, decideTch, readCommand]
  exact ⟨_, _, rfl, rfl, by simp (decide := true)⟩
theorem execCapnFramesRead_within p port {s : State} (hl : s.live) : Within 0x20200121 s (execCapnFramesRead p port s) := by
  unfold execCapnFramesRead
  try simp only [decideOpcode, decideTch, readCommand]
  rw [if_neg (by simp [hl.1])]
  exact ⟨_, _, rfl, rfl, by simp (decide := true)⟩
theorem execHdhUnderrunRead_within p hd {s : State} (hl : s.live) : Within 0x20200121 s (execHdhUnderrunRead p hd s) := by
  unfold execHdhUnderrunRead
  try simp only [decideOpcode, decideTch, readCommand]
  rw [if_neg (by simp [hl.1])]
  exact ⟨_, _, rfl, rfl, by simp (decide := true)⟩
theorem execTchnCountRead_within p port {s : State} (hl : s.live) : Within 0x20200121 s (execTchnCountRead p port s) := by
  unfold execTchnCountRead
  try simp only [decideOpcode, decideTch, readCommand]
  rw [if_neg (by simp [hl.1])]
  exact ⟨_, _, rfl, rfl, by simp (decide := true)⟩
theorem execHapnCountRead_within p ch {s : State} (hl : s.live) : Within 0x20200121 s (execHapnCountRead p ch s) := by
  unfold execHapnCountRead
  try simp only [decideOpcode, decideTch, readCommand]
  rw [if_neg (by simp [hl.1])]
  exact ⟨_, _, rfl, rfl, by simp (decide := true)⟩
theorem execFsCountRead_within p st {s : State} (hl : s.live) : Within 0x20200121 s (execFsCountRead p st s) := by
  unfold execFsCountRead
  try simp only [decideOpcode, decideTch, readCommand]
  rw [if_neg (by simp [hl.1])]
  exact ⟨_, _, rfl, rfl, by simp (decide := true)⟩
theorem execDeepSleepEntry_within  {s : State} (hl : s.live) : Within 0x28372101 s (execDeepSleepEntry  s) := by
  unfold execDeepSleepEntry
  try simp only [decideOpcode, decideTch, readCommand]
  exact ⟨_, _, rfl, rfl, by simp (decide := true)⟩
theorem execPcieWakeRequest_within  {s : State} (hl : s.live) : Within 0x20200001 s (execPcieWakeRequest  s) := by
  unfold execPcieWakeRequest
  try simp only [decideOpcode, decideTch, readCommand]
  exact ⟨_, _, rfl, rfl, by simp (decide := true)⟩
theorem execCaptureLinkTraining_within port rate lanes done {s : State} (hl : s.live) : Within 0x20020001 s (execCaptureLinkTraining port rate lanes done s) := by
  unfold execCaptureLinkTraining
  try simp only [decideOpcode, decideTch, readCommand]
  exact ⟨_, _, rfl, rfl, by simp (decide := true)⟩
theorem execCaptureAuxTransaction_within port edid addr {s : State} (hl : s.live) : Within 0x20 s (execCaptureAuxTransaction port edid addr s) := by
  unfold execCaptureAuxTransaction
  try simp only [decideOpcode, decideTch, readCommand]
  exact ⟨_, _, rfl, rfl, by simp (decide := true)⟩
theorem execPendingVectorRelease_within seat {s : State} (hl : s.live) : Within 0x2000800 s (execPendingVectorRelease seat s) := by
  unfold execPendingVectorRelease
  try simp only [decideOpcode, decideTch, readCommand]
  exact ⟨_, _, rfl, rfl, by simp (decide := true)⟩
theorem execBusIdleAcknowledgement_within b {s : State} (hl : s.live) : Within 0x24101001 s (execBusIdleAcknowledgement b s) := by
  unfold execBusIdleAcknowledgement
  try simp only [decideOpcode, decideTch, readCommand]
  exact ⟨_, _, rfl, rfl, by simp (decide := true)⟩
theorem execGrdApplyDone_within n {s : State} (hl : s.live) : Within 0x8002005 s (execGrdApplyDone n s) := by
  unfold execGrdApplyDone
  try simp only [decideOpcode, decideTch, readCommand]
  exact ⟨_, _, rfl, rfl, by simp (decide := true)⟩
theorem execSeatTblCmdDone_within  {s : State} (hl : s.live) : Within 0x22000801 s (execSeatTblCmdDone  s) := by
  unfold execSeatTblCmdDone
  try simp only [decideOpcode, decideTch, readCommand]
  exact ⟨_, _, rfl, rfl, by simp (decide := true)⟩
theorem execTestCmdDone_within dmc {s : State} (hl : s.live) : Within 0x28002001 s (execTestCmdDone dmc s) := by
  unfold execTestCmdDone
  try simp only [decideOpcode, decideTch, readCommand]
  exact ⟨_, _, rfl, rfl, by simp (decide := true)⟩
theorem execInternalParityError_within st cell {s : State} (hl : s.live) : Within 0x300fde01 s (execInternalParityError st cell s) := by
  have hg : gravest st (if stIsRegion st = true then 0 else 3) = false := by split <;> simp [gravest]
  unfold execInternalParityError
  try simp only [decideOpcode, decideTch, readCommand]
  exact ⟨_, _, rfl, rfl, by simp (decide := true) [hg]⟩
theorem execKarcenFirmwareStart_within  {s : State} (hl : s.live) : Within 0x10200400 s (execKarcenFirmwareStart  s) := by
  unfold execKarcenFirmwareStart
  try simp only [decideOpcode, decideTch, readCommand]
  exact ⟨_, _, rfl, rfl, by simp (decide := true)⟩
theorem execPcieLinkTrained_within link {s : State} (hl : s.live) : Within 0x200000 s (execPcieLinkTrained link s) := by
  unfold execPcieLinkTrained
  try simp only [decideOpcode, decideTch, readCommand]
  exact ⟨_, _, rfl, rfl, by simp (decide := true)⟩

end Sys2Proof.Machine
end

