-- ==== Sys2Proof/Laws/Detect.lean ====
section
/-!
SUPPORT. Laws/Detect.lean: what the detection of a fault leaves in its station (R537 to R543), and the entry into the safe state (R548).
-/

namespace Sys2Proof.Machine

/-! ### Registers that a run leaves alone -/

/-- An effect that ends nothing and leaves the registers of a set alone. -/
def Leaves (K : Nat → Prop) (e : Eff) : Prop :=
  match e with
  | .csr off _ => ¬ K off
  | .react _ _ | .safe | .powerOn _ | .chipReset _ _ => False
  | _ => True

theorem leaves_soft {K : Nat → Prop} {e : Eff} (h : Leaves K e) : e.soft = true := by
  cases e <;> first | rfl | exact absurd h id

theorem leaves_rd {K : Nat → Prop} {e : Eff} (h : Leaves K e) {off : Nat} (ho : K off) (s : State) : (applyEff e s).rd off = s.rd off := by
  cases e with
  | csr off' v => exact rd_put_ne s (by rintro rfl; exact h ho) v
  | react _ _ => exact absurd h id
  | powerOn _ => exact absurd h id
  | chipReset _ _ => exact absurd h id
  | _ => rfl

/-- A run of a program that leaves registers alone is whole, and they read what they read. -/
theorem runGo_leaves {K : Nat → Prop} {a : Act} (ha : a.Foot (Leaves K)) {s : State} (hs : s.calm) :
    (runGo a s).2 = false ∧ (runGo a s).1.calm ∧ ∀ off, K off → (runGo a s).1.rd off = s.rd off :=
  runGo_foot (P := Leaves K) (R := fun s t => ∀ off, K off → t.rd off = s.rd off) (fun _ _ _ => rfl) (fun h k off ho => (k off ho).trans (h off ho))
    (fun _ he => leaves_soft he) (fun _ s he _ ho => leaves_rd he ho s) a s ha hs

variable {K : Nat → Prop}

@[simp] theorem leaves_csr (off : Nat) (v : Word) : Leaves K (.csr off v) ↔ ¬ K off := Iff.rfl
@[simp] theorem leaves_cfe (f : Cfe → Cfe) : Leaves K (.cfe f) := trivial
@[simp] theorem leaves_adm (f : Adm → Adm) : Leaves K (.adm f) := trivial
@[simp] theorem leaves_seats (f : Seats → Seats) : Leaves K (.seats f) := trivial
@[simp] theorem leaves_worlds (f : Worlds → Worlds) : Leaves K (.worlds f) := trivial
@[simp] theorem leaves_memc (f : MemCtl → MemCtl) : Leaves K (.memc f) := trivial
@[simp] theorem leaves_dma (k : Nat) (v : DmaCh) : Leaves K (.dma k v) := trivial
@[simp] theorem leaves_chk (k : Nat) (v : ChkUnit) : Leaves K (.chk k v) := trivial
@[simp] theorem leaves_pic (f : Pic → Pic) : Leaves K (.pic f) := trivial
@[simp] theorem leaves_vid (f : Vid → Vid) : Leaves K (.vid f) := trivial
@[simp] theorem leaves_med (f : Med → Med) : Leaves K (.med f) := trivial
@[simp] theorem leaves_flt (f : Flt → Flt) : Leaves K (.flt f) := trivial
@[simp] theorem leaves_tts (f : Tts → Tts) : Leaves K (.tts f) := trivial
@[simp] theorem leaves_clk (f : Clk → Clk) : Leaves K (.clk f) := trivial
@[simp] theorem leaves_pwr (f : Pwr → Pwr) : Leaves K (.pwr f) := trivial
@[simp] theorem leaves_mem (k : Nat) (bs : List Byte) : Leaves K (.mem k bs) := trivial
@[simp] theorem leaves_ecc (k : Nat) (b : Byte) : Leaves K (.ecc k b) := trivial
@[simp] theorem leaves_com (k : Nat) (v : Word) : Leaves K (.com k v) := trivial
@[simp] theorem leaves_rdata (v : Word) : Leaves K (.rdata v) := trivial
@[simp] theorem leaves_tick : Leaves K .tick := trivial

/-! ### Registers of a station's detection -/

/-- FS_STATUS, FS_FIRST, FS_COUNT of a station. -/
def stationRegs (st off : Nat) : Prop := off = Reg.fsStatus st ∨ off = Reg.fsFirst st ∨ off = Reg.fsCount st

theorem stationRegs_range {st off : Nat} (h : stationRegs st off) : 0x600000 + 0x100 * st ≤ off ∧ off ≤ 0x600010 + 0x100 * st := by
  rcases h with rfl | rfl | rfl <;> simp only [Reg.fsStatus, Reg.fsFirst, Reg.fsCount] <;> omega

theorem not_station_low {st off : Nat} (h : off < 0x600000) : ¬ stationRegs st off := fun k => by have := stationRegs_range k; omega
theorem not_station_page {st off : Nat} (hs : st < 256) (h : 0x610000 ≤ off) : ¬ stationRegs st off := fun k => by have := stationRegs_range k; omega

theorem setFld_leaves {off : Nat} (h : ¬ K off) (lo w x : Nat) : (setFld off lo w x).Foot (Leaves K) := by
  unfold setFld; simp [h]
theorem setReg_leaves {off : Nat} (h : ¬ K off) (v : Word) : (setReg off v).Foot (Leaves K) := by
  unfold setReg; simp [h]
theorem setBits_leaves {off : Nat} (h : ¬ K off) (m : Nat) : (setBits off m).Foot (Leaves K) := by
  unfold setBits; simp [h]
theorem cmdEnd_leaves (id : Nat) (f : Cmd → Cmd) : (cmdEnd id f).Foot (Leaves K) := by
  unfold cmdEnd cmdUpd sharesFree; simp

/-- The registers that a set names lie in station pages. -/
def InStations (K : Nat → Prop) : Prop := ∀ off, K off → 0x600000 ≤ off ∧ off < 0x610000

theorem InStations.low (h : InStations K) {off : Nat} (ho : off < 0x600000) : ¬ K off := fun k => by have := h off k; omega
theorem InStations.page (h : InStations K) {off : Nat} (ho : 0x610000 ≤ off) : ¬ K off := fun k => by have := h off k; omega
theorem stationRegs_in {st : Nat} (hs : st < 256) : InStations (stationRegs st) := fun off h => by have := stationRegs_range h; omega

/-- A fault reset of a block touches no register of a station. -/
theorem blockReset_leaves (h : InStations K) (b : Nat) : (blockReset b).Foot (Leaves K) := by
  have d : ∀ k, k < 64 → ∀ lo w x, (setFld (Reg.dmaStatus k) lo w x).Foot (Leaves K) := fun k hk lo w x =>
    setFld_leaves (h.low (by unfold Reg.dmaStatus; omega)) lo w x
  have q : ∀ lo w x, (setFld Reg.rndSecqStatus lo w x).Foot (Leaves K) := fun lo w x => setFld_leaves (h.low (by decide)) lo w x
  have v : ∀ k, k < 10 → ∀ lo w x, (setFld (Reg.vdcStatus k) lo w x).Foot (Leaves K) := fun k hk lo w x =>
    setFld_leaves (h.low (by unfold Reg.vdcStatus; omega)) lo w x
  have m : (blockMemories b).Foot (Leaves K) := by
    unfold blockMemories
    simp only [foot_ite, foot_acts_cons, foot_acts_nil, foot_eff, foot_ask, foot_actIf, foot_each, leaves_vid, leaves_pic, leaves_med, leaves_chk, foot_skip,
      true_and, and_true, implies_true]
    refine ⟨fun _ _ _ _ => q 0 10 _, fun _ _ _ _ _ _ _ s _ x hx => v x ?_ 0 10 _⟩
    simp only [List.mem_filter, List.mem_range] at hx
    exact hx.1
  unfold blockReset
  simp only [foot_acts_cons, foot_acts_nil, foot_eff, foot_ask, foot_actIf, foot_each, leaves_flt, leaves_adm, leaves_dma, foot_actOpt, m, cmdEnd_leaves,
    true_and, and_true, implies_true, decide_eq_true_eq]
  exact fun s _ _ x _ hk => ⟨d x hk _ _ _, d x hk _ _ _, d x hk _ _ _⟩

theorem msixSend_leaves (seat bit : Nat) : (msixSend seat bit).Foot (Leaves K) := by
  unfold msixSend; simp
theorem irqSet_leaves (h : InStations K) (seat bit : Nat) : (irqSet seat bit).Foot (Leaves K) := by
  have e : ¬ K (Reg.irqPend seat) := h.page (by unfold Reg.irqPend; omega)
  unfold irqSet; simp [setBits_leaves e, msixSend_leaves]
theorem irqReact_leaves (h : InStations K) (st src : Nat) (seat : Option Nat) : (irqReact st src seat).Foot (Leaves K) := by
  unfold irqReact secIrq
  simp only [foot_ask, foot_ite]
  intro s _
  refine ⟨fun _ s _ => ⟨fun _ => by simp, fun _ => by simp⟩, fun _ => ?_⟩
  split
  · exact irqSet_leaves h _ _
  · split
    · exact irqSet_leaves h _ _
    · simp

/-! ### Detection -/

/-- What detection records before its reactions. -/
def stationRecord (st src cell : Nat) : Act :=
  .ask fun s => acts [
    setBits (Reg.fsStatus st) (2 ^ src),
    setFld (Reg.fsCount st) 0 16 (satAdd (s.fld (Reg.fsCount st) 0 16) 1 0xFFFF),
    actIf (!s.bitAt (Reg.fsFirst st) 12) (setReg (Reg.fsFirst st)
      (BitVec.ofNat 64 (src + (cell % 64) * 2 ^ 6 + 2 ^ 12 + (s.tts.bell % 2 ^ 48) * 2 ^ 16)))]

/-- The reactions that neither enter the safe state nor reset the chip. -/
def milder (st src : Nat) (seat : Option Nat) (m : Nat) : Act :=
  acts [
    actIf (nBit m 4) (setFld Reg.fltPin 0 1 1),
    actIf (nBit m 2) (blockReset (if st = 14 && src = 4 then 11 else st)),
    actIf (nBit m 1) (.eff (.flt fun f => { f with mgtNmi := (st, src) :: f.mgtNmi })),
    actIf (nBit m 0) (irqReact st src seat)]

theorem milder_leaves (h : InStations K) (st src : Nat) (seat : Option Nat) (m : Nat) : (milder st src seat m).Foot (Leaves K) := by
  have e : ¬ K Reg.fltPin := h.low (by decide)
  unfold milder
  simp [setFld_leaves e, blockReset_leaves h, irqReact_leaves h]

/-- The state once a station has recorded a source (R537, R539): its bit of FS_STATUS, one more detection in FS_COUNT up to 65,535, and FS_FIRST where
it held nothing; nothing else. -/
def State.recorded (s : State) (st src cell : Nat) : State :=
  let s1 := s.putReg (Reg.fsStatus st) (s.rd (Reg.fsStatus st) ||| BitVec.ofNat 64 (2 ^ src))
  let s2 := s1.putFld (Reg.fsCount st) 0 16 (satAdd (s.fld (Reg.fsCount st) 0 16) 1 0xFFFF)
  if s.bitAt (Reg.fsFirst st) 12 then s2
  else s2.putReg (Reg.fsFirst st) (BitVec.ofNat 64 (src + (cell % 64) * 2 ^ 6 + 2 ^ 12 + (s.tts.bell % 2 ^ 48) * 2 ^ 16))

theorem react_fsStatus (st : Nat) : reactReg (Reg.fsStatus st) = false := by
  have := reactReg_station (st := st) (o := 0) (by decide)
  simpa [Reg.fsStatus] using this
theorem react_fsFirst (st : Nat) : reactReg (Reg.fsFirst st) = false := by
  have := reactReg_station (st := st) (o := 8) (by decide)
  rwa [show 0x600000 + 0x100 * st + 8 = Reg.fsFirst st by unfold Reg.fsFirst; omega] at this
theorem react_fsCount (st : Nat) : reactReg (Reg.fsCount st) = false := by
  have := reactReg_station (st := st) (o := 16) (by decide)
  rwa [show 0x600000 + 0x100 * st + 16 = Reg.fsCount st by unfold Reg.fsCount; omega] at this

/-- Detection, run: the record, then the reaction that the mask asks for. -/
theorem raiseSrc_run {st src : Nat} (hx : srcExists st src = true) (cell : Nat) (seat : Option Nat) (s : State) :
    runGo (raiseSrc st src cell seat) s = runGo
      (if nBit (s.react st src) 5 then enterSafe st src false
       else if nBit (s.react st src) 3 then faultChipReset st src else milder st src seat (s.react st src)) (s.recorded st src cell) := by
  have hr : ∀ t : State, t = s.recorded st src cell → t.react st src = s.react st src := by
    intro t ht
    have hk : ∀ off, off ≠ Reg.fsStatus st → off ≠ Reg.fsCount st → off ≠ Reg.fsFirst st → t.rd off = s.rd off := by
      intro off h1 h2 h3
      rw [ht, State.recorded]
      split
      · rw [State.putFld, rd_putReg_ne _ h2, rd_putReg_ne _ h1]
      · rw [rd_putReg_ne _ h3, State.putFld, rd_putReg_ne _ h2, rd_putReg_ne _ h1]
    unfold State.react State.fld
    rw [hk] <;> simp only [Reg.fsReact, Reg.fsStatus, Reg.fsCount, Reg.fsFirst] <;> omega
  unfold raiseSrc
  rw [hx]
  simp only [Bool.not_true, Bool.false_eq_true, if_false, runGo_ask, setBits, setFld, setReg]
  rw [runGo_acts_cons, runGo_seq_eq, runGo_ask, runGo_eff, applyEff_csr (react_fsStatus st)]
  simp only [Eff.halts, Bool.false_eq_true, if_false]
  rw [runGo_acts_cons, runGo_seq_eq, runGo_ask, runGo_eff, applyEff_csr (react_fsCount st)]
  simp only [Eff.halts, Bool.false_eq_true, if_false]
  rw [runGo_acts_cons, runGo_seq_eq]
  have e : ∀ t : State, runGo (actIf (!s.bitAt (Reg.fsFirst st) 12) (.eff (.csr (Reg.fsFirst st)
      (BitVec.ofNat 64 (src + (cell % 64) * 2 ^ 6 + 2 ^ 12 + (s.tts.bell % 2 ^ 48) * 2 ^ 16))))) t =
      (if s.bitAt (Reg.fsFirst st) 12 then t else t.putReg (Reg.fsFirst st)
        (BitVec.ofNat 64 (src + (cell % 64) * 2 ^ 6 + 2 ^ 12 + (s.tts.bell % 2 ^ 48) * 2 ^ 16)), false) := by
    intro t
    unfold actIf
    cases s.bitAt (Reg.fsFirst st) 12
    · simp [applyEff_csr (react_fsFirst st), Eff.halts]
    · simp
  rw [e]
  simp only [Bool.false_eq_true, if_false, acts_one, runGo_ask]
  have hs : (if s.bitAt (Reg.fsFirst st) 12 then _ else _) = s.recorded st src cell := rfl
  rw [State.putFld] at *
  generalize ht : (if s.bitAt (Reg.fsFirst st) 12 = true then _ else _ : State) = t at *
  rw [hr t (by rw [← ht]; rfl)]
  rw [show t = s.recorded st src cell by rw [← ht]; rfl]
  rfl

/-! ### The entry into the safe state (R548) -/

theorem runGo_acts_append (as bs : List Act) (s : State) : runGo (acts (as ++ bs)) s = runGo (.seq (acts as) (acts bs)) s := by
  induction as generalizing s with
  | nil => simp [runGo_seq_eq]
  | cons a as ih =>
    rw [List.cons_append, runGo_acts_cons, runGo_seq_eq, runGo_seq_eq (acts (a :: as)), runGo_acts_cons, runGo_seq_eq a]
    split
    · rename_i h; simp [h]
    · rw [ih, runGo_seq_eq]

/-- What the entry does before the state is frozen, FLT_CAUSE apart. -/
def safeSteps : List Act :=
  [
    setFld Reg.fltPin 0 1 1,
    each (List.range 32) fun h => setFld (Reg.hdStatus h) 0 3 5,
    each (List.range 8) fun n => setFld (Reg.hapStatus n) 0 3 0,
    .eff (.med fun m => { m with
      aud := { m.aud with tdm := m.aud.tdm.map fun p => (p.1, { p.2 with out := p.2.out.map fun _ => 0 }), dp := [] }
      hap := m.hap.map fun h => (h.1, { h.2 with play := none, sent := (0, false, false) }) }),
    .eff (.memc fun m => { m with selfRefresh := true }),
    .eff (.adm fun a => { a with mgtUp := false }),
    .eff (.worlds fun w => { w with beyloth := false })]

/-- The same as one action. -/
def safeWork : Act := acts safeSteps

/-- The cause that an entry records (Table 16.6). -/
def safeCause (st src : Nat) (parity : Bool) (bell : Nat) : Word :=
  BitVec.ofNat 64 (st + src * 2 ^ 8 + b2n parity * 2 ^ 13 + 2 ^ 14 + (bell % 2 ^ 48) * 2 ^ 16)

/-- Whether an offset is one of the registers that the entry writes. -/
def safeRegs (off : Nat) : Prop := off = Reg.fltCause ∨ off = Reg.fltPin ∨ (∃ h, h < 32 ∧ off = Reg.hdStatus h) ∨ ∃ n, n < 8 ∧ off = Reg.hapStatus n

theorem safeWork_leaves (hK : ∀ off, K off → ¬ safeRegs off ∨ off = Reg.fltCause) : safeWork.Foot (Leaves K) := by
  have e : ∀ off, off ≠ Reg.fltCause → safeRegs off → ¬ K off := fun off h1 h2 h3 => (hK off h3).elim (fun h => h h2) h1
  unfold safeWork safeSteps
  simp only [foot_acts_cons, foot_acts_nil, foot_eff, foot_each, leaves_med, leaves_memc, leaves_adm, leaves_worlds, and_true, List.mem_range]
  refine ⟨setFld_leaves (e _ (by decide) (.inr (.inl rfl))) _ _ _, fun h hh => setFld_leaves (e _ ?_ (.inr (.inr (.inl ⟨h, hh, rfl⟩)))) _ _ _,
    fun n hn => setFld_leaves (e _ ?_ (.inr (.inr (.inr ⟨n, hn, rfl⟩)))) _ _ _⟩
  · unfold Reg.hdStatus Reg.fltCause; omega
  · unfold Reg.hapStatus Reg.fltCause; omega

theorem safeWork_foot : safeWork.Foot (In 0x3C043401) := by
  unfold safeWork safeSteps; simp (decide := true)

theorem rd_flt (u : State) (f : Flt) (off : Nat) : ({ u with flt := f } : State).rd off = u.rd off := rfl

/-- A change of the safe state's record alone is seen by no other part. -/
theorem Part.same_flt {p : Part} (hp : p ≠ .flt) {s u : State} (f : Flt) (h : p.same s u) : p.same s { u with flt := f } := by
  cases p with
  | registers => exact fun off ho => (rd_flt u f off).trans (h off ho)
  | lowRegisters => exact fun off ho hf => (rd_flt u f off).trans (h off ho hf)
  | reactions => exact fun off ho => (rd_flt u f off).trans (h off ho)
  | flt => exact absurd rfl hp
  | _ => exact h

theorem enterSafe_eq (st src : Nat) (parity : Bool) : enterSafe st src parity =
    .ask fun s => acts (setReg Reg.fltCause (safeCause st src parity s.tts.bell) :: (safeSteps ++ [.eff .safe])) := by
  simp only [enterSafe, safeSteps, safeCause, List.cons_append, List.nil_append]

/-- The state after the entry into the safe state: FLT_CAUSE holds the cause, the state is safe, registers that the entry does not write and the parts
of the state that it does not touch are as they were. -/
theorem enterSafe_run {s : State} (hs : s.calm) (st src : Nat) (parity : Bool) :
    ∃ t, runGo (enterSafe st src parity) s = (t, true) ∧ t.flt.safe = true ∧ (s.wf = true → t.rd Reg.fltCause = regMask Reg.fltCause (safeCause st src parity s.tts.bell))
      ∧ (∀ off, ¬ safeRegs off → t.rd off = s.rd off) ∧ (∀ p : Part, p.spared 0x3C043401 = true → p ≠ .flt → p.same s t) := by
  have h0 : runGo (enterSafe st src parity) s = runGo (.seq safeWork (.eff .safe)) (s.putReg Reg.fltCause (safeCause st src parity s.tts.bell)) := by
    rw [enterSafe_eq]
    rw [runGo_ask, runGo_acts_cons, setReg, runGo_seq_eq, runGo_eff, applyEff_csr (by decide), if_neg (by simp [Eff.halts])]
    rw [runGo_acts_append]; rw [safeWork]; rw [runGo_seq_eq, runGo_seq_eq (acts safeSteps)]; rfl
  have hc : (s.putReg Reg.fltCause (safeCause st src parity s.tts.bell)).calm :=
    applyEff_csr (off := Reg.fltCause) (by decide) (safeCause st src parity s.tts.bell) s ▸ calm_soft rfl hs
  have hsame := runAct_same (T := 0x3C043401) rfl safeWork_foot hc
  have hw := runGo_leaves (safeWork_leaves (K := fun off => ¬ safeRegs off ∨ off = Reg.fltCause) fun _ h => h) hc
  have hgo : runGo safeWork (s.putReg Reg.fltCause (safeCause st src parity s.tts.bell)) =
      (runAct safeWork (s.putReg Reg.fltCause (safeCause st src parity s.tts.bell)), false) := by
    rw [← hw.1]; rfl
  have hrd : ∀ off, (¬ safeRegs off ∨ off = Reg.fltCause) →
      (runAct safeWork (s.putReg Reg.fltCause (safeCause st src parity s.tts.bell))).rd off = (s.putReg Reg.fltCause (safeCause st src parity s.tts.bell)).rd off :=
    hw.2.2
  clear hw
  have hp1 : ∀ p : Part, p.spared 0x3C043401 = true → p.same s (s.putReg Reg.fltCause (safeCause st src parity s.tts.bell)) := by
    intro p hp
    have h2 := eff_same (T := 0x3C043401) (e := .csr Reg.fltCause (safeCause st src parity s.tts.bell)) (by simp (decide := true)) rfl hp s
    rwa [applyEff_csr (by decide)] at h2
  have hcause : s.wf = true → (s.putReg Reg.fltCause (safeCause st src parity s.tts.bell)).rd Reg.fltCause =
      regMask Reg.fltCause (safeCause st src parity s.tts.bell) := fun hwf => rd_putReg hwf _ _
  have hother : ∀ off, off ≠ Reg.fltCause → (s.putReg Reg.fltCause (safeCause st src parity s.tts.bell)).rd off = s.rd off := fun off h => rd_putReg_ne _ h _
  generalize s.putReg Reg.fltCause (safeCause st src parity s.tts.bell) = s1 at *
  generalize runAct safeWork s1 = u at *
  refine ⟨{ u with flt := { u.flt with safe := true } }, by rw [h0, runGo_seq_eq, hgo]; rfl, rfl, fun hwf => ?_, fun off ho => ?_, fun p hp hf => ?_⟩
  · rw [rd_flt]; exact (hrd Reg.fltCause (.inr rfl)).trans (hcause hwf)
  · rw [rd_flt]; exact (hrd off (.inl ho)).trans (hother off fun h => ho (.inl h))
  · have h3 := p.same_trans (hp1 p hp) (hsame.2 p hp)
    exact Part.same_flt hf _ h3

/-! ### What is seen of it -/

theorem ofNat_fld (n lo w : Nat) (h : lo + w ≤ 64) : wBits (BitVec.ofNat 64 n) lo w = n / 2 ^ lo % 2 ^ w := by
  rw [wBits, nBits, BitVec.toNat_ofNat, Nat.shiftRight_eq_div_pow]
  apply Nat.eq_of_testBit_eq
  intro i
  simp only [Nat.testBit_mod_two_pow, Nat.testBit_div_two_pow]
  by_cases hi : i < w
  · have : i + lo < 64 := by omega
    simp [hi, this]
  · simp [hi]

theorem safeCause_fields {st src : Nat} (h1 : st < 256) (h2 : src < 32) (bell : Nat) :
    wBits (safeCause st src false bell) 0 8 = st ∧ wBits (safeCause st src false bell) 8 5 = src ∧ wBits (safeCause st src false bell) 13 1 = 0
      ∧ wBits (safeCause st src false bell) 14 1 = 1 ∧ wBits (safeCause st src false bell) 16 48 = bell % 2 ^ 48 := by
  unfold safeCause
  rw [ofNat_fld _ _ _ (by decide), ofNat_fld _ _ _ (by decide), ofNat_fld _ _ _ (by decide), ofNat_fld _ _ _ (by decide), ofNat_fld _ _ _ (by decide)]
  have hb : b2n false = 0 := rfl
  rw [hb]
  refine ⟨?_, ?_, ?_, ?_, ?_⟩ <;> omega

/-- After the entry, from a calm state in its form. -/
theorem enterSafe_goes {s : State} (hs : s.calm) (hw : s.wf = true) {st src : Nat} (h1 : st < 256) (h2 : src < 32) :
    s.goesSafe (runAct (enterSafe st src false) s) st src := by
  obtain ⟨t, ht, hsafe, hc, -, -⟩ := enterSafe_run hs st src false
  have e : runAct (enterSafe st src false) s = t := by rw [runAct, ht]
  have hc := hc hw
  have hm := safeCause_fields h1 h2 s.tts.bell
  have f : ∀ lo w, nBits (regImpl Reg.fltCause % 2 ^ 64) lo w = 2 ^ w - 1 → t.fld Reg.fltCause lo w = wBits (safeCause st src false s.tts.bell) lo w := fun lo w h => by
    rw [State.fld, hc, regMask, wBits_mask _ _ _ _ h]
  rw [e]
  refine ⟨hsafe, ?_, ?_, ?_, ?_, ?_⟩
  · rw [f _ _ (by decide)]; exact hm.1
  · rw [f _ _ (by decide)]; exact hm.2.1
  · rw [bitAt_iff, f _ _ (by decide), hm.2.2.1]; rfl
  · rw [bitAt_iff, f _ _ (by decide), hm.2.2.2.1]; rfl
  · rw [f _ _ (by decide)]; exact hm.2.2.2.2

theorem stKind_of {st src : Nat} (hx : srcExists st src = true) : (stKind st).isSome = true := by
  unfold srcExists at hx
  cases h : stKind st with
  | none => rw [h] at hx; cases hx
  | some k => rfl

theorem stRegs_ne (st : Nat) : Reg.fsStatus st ≠ Reg.fsCount st ∧ Reg.fsStatus st ≠ Reg.fsFirst st ∧ Reg.fsCount st ≠ Reg.fsFirst st := by
  simp only [Reg.fsStatus, Reg.fsCount, Reg.fsFirst]; omega

theorem or_and_mask (a b m : Word) : (a ||| b) &&& m = (a &&& m) ||| (b &&& m) := by
  ext i
  simp only [BitVec.getElem_and, BitVec.getElem_or, Bool.and_or_distrib_right]

/-- The record of a detection. -/
theorem recorded_logs {s : State} (hw : s.wf = true) {st src : Nat} (cell : Nat) (h1 : st < 256) (h2 : src < 32) (hk : (stKind st).isSome = true) :
    s.logs (s.recorded st src cell) st src cell := by
  obtain ⟨n1, n2, n3⟩ := stRegs_ne st
  have i1 := regImpl_fsStatus h1 hk
  have i2 := regImpl_fsCount h1 hk
  have i3 := regImpl_fsFirst h1 hk
  have w1 : (s.putReg (Reg.fsStatus st) (s.rd (Reg.fsStatus st) ||| BitVec.ofNat 64 (2 ^ src))).wf = true := by
    have := applyEff_wf (.csr (Reg.fsStatus st) (s.rd (Reg.fsStatus st) ||| BitVec.ofNat 64 (2 ^ src))) s hw
    rwa [applyEff_csr (react_fsStatus st)] at this
  have r1 := rd_putReg hw (Reg.fsStatus st) (s.rd (Reg.fsStatus st) ||| BitVec.ofNat 64 (2 ^ src))
  have d1 : ∀ o, o ≠ Reg.fsStatus st → (s.putReg (Reg.fsStatus st) (s.rd (Reg.fsStatus st) ||| BitVec.ofNat 64 (2 ^ src))).rd o = s.rd o :=
    fun o ho => rd_putReg_ne _ ho _
  have hm1 : regMask (Reg.fsStatus st) (s.rd (Reg.fsStatus st) ||| BitVec.ofNat 64 (2 ^ src)) = s.rd (Reg.fsStatus st) ||| BitVec.ofNat 64 (2 ^ src) := by
    have hd : regMask (Reg.fsStatus st) (regDflt (Reg.fsStatus st)) = regDflt (Reg.fsStatus st) := by
      rw [regMask, i1]
      have hr : regReset (Reg.fsStatus st) = 0 := by unfold regReset; rw [regFind_fsStatus h1 hk]; rfl
      rw [regDflt, hr]; rfl
    have h := rd_mask hw (Reg.fsStatus st) hd
    have hb : BitVec.ofNat 64 (2 ^ src) &&& BitVec.ofNat 64 0xffffffff = BitVec.ofNat 64 (2 ^ src) := by
      have : ∀ k < 32, BitVec.ofNat 64 (2 ^ k) &&& BitVec.ofNat 64 0xffffffff = BitVec.ofNat 64 (2 ^ k) := by decide
      exact this src h2
    rw [regMask, i1] at h ⊢
    rw [or_and_mask, h, hb]
  have hrec : s.recorded st src cell =
      if s.bitAt (Reg.fsFirst st) 12 then
        (s.putReg (Reg.fsStatus st) (s.rd (Reg.fsStatus st) ||| BitVec.ofNat 64 (2 ^ src))).putFld (Reg.fsCount st) 0 16 (satAdd (s.fld (Reg.fsCount st) 0 16) 1 0xFFFF)
      else ((s.putReg (Reg.fsStatus st) (s.rd (Reg.fsStatus st) ||| BitVec.ofNat 64 (2 ^ src))).putFld (Reg.fsCount st) 0 16
        (satAdd (s.fld (Reg.fsCount st) 0 16) 1 0xFFFF)).putReg (Reg.fsFirst st) (BitVec.ofNat 64 (src + (cell % 64) * 2 ^ 6 + 2 ^ 12 + (s.tts.bell % 2 ^ 48) * 2 ^ 16)) := rfl
  rw [hrec]
  generalize s.putReg (Reg.fsStatus st) (s.rd (Reg.fsStatus st) ||| BitVec.ofNat 64 (2 ^ src)) = s1 at *
  have w2 : (s1.putFld (Reg.fsCount st) 0 16 (satAdd (s.fld (Reg.fsCount st) 0 16) 1 0xFFFF)).wf = true := by
    have := applyEff_wf (.csr (Reg.fsCount st) (wSet (s1.rd (Reg.fsCount st)) 0 16 (satAdd (s.fld (Reg.fsCount st) 0 16) 1 0xFFFF))) s1 w1
    rwa [applyEff_csr (react_fsCount st)] at this
  have r2 := fld_putFld w1 (off := Reg.fsCount st) (lo := 0) (w := 16) (by decide) (by rw [i2]; decide) (satAdd (s.fld (Reg.fsCount st) 0 16) 1 0xFFFF)
  have d2 : ∀ o, o ≠ Reg.fsCount st → (s1.putFld (Reg.fsCount st) 0 16 (satAdd (s.fld (Reg.fsCount st) 0 16) 1 0xFFFF)).rd o = s1.rd o :=
    fun o ho => rd_putReg_ne _ ho _
  have r2' : (s1.putFld (Reg.fsCount st) 0 16 (satAdd (s.fld (Reg.fsCount st) 0 16) 1 0xFFFF)).fld (Reg.fsCount st) 0 16 = min (s.fld (Reg.fsCount st) 0 16 + 1) 0xFFFF := by
    rw [r2]; unfold satAdd; omega
  generalize s1.putFld (Reg.fsCount st) 0 16 (satAdd (s.fld (Reg.fsCount st) 0 16) 1 0xFFFF) = s2 at *
  by_cases hv : s.bitAt (Reg.fsFirst st) 12 = true
  · rw [if_pos hv]
    refine ⟨(d2 _ n1).trans (r1.trans hm1), r2', ?_⟩
    rw [if_pos hv]
    exact (d2 _ n3.symm).trans (d1 _ n2.symm)
  · rw [if_neg hv]
    have d3 : ∀ v o, o ≠ Reg.fsFirst st → (s2.putReg (Reg.fsFirst st) v).rd o = s2.rd o := fun v o ho => rd_putReg_ne _ ho _
    have f : ∀ v lo w, nBits (0xffffffffffff1fdf % 2 ^ 64) lo w = 2 ^ w - 1 → (s2.putReg (Reg.fsFirst st) v).fld (Reg.fsFirst st) lo w = wBits v lo w :=
      fun v lo w h => fld_putReg w2 (by rw [i3]; exact h) v
    refine ⟨(d3 _ _ n2).trans ((d2 _ n1).trans (r1.trans hm1)), ?_, ?_⟩
    · rw [← r2']; exact congrArg (fun x => wBits x 0 16) (d3 _ _ n3)
    · rw [if_neg hv]
      refine ⟨?_, ?_, ?_, ?_⟩
      · rw [f _ _ _ (by decide), ofNat_fld _ _ _ (by decide)]; omega
      · rw [f _ _ _ (by decide), ofNat_fld _ _ _ (by decide)]; omega
      · rw [bitAt_iff, f _ _ _ (by decide), ofNat_fld _ _ _ (by decide), decide_eq_true_eq]; omega
      · rw [f _ _ _ (by decide), ofNat_fld _ _ _ (by decide)]; omega

/-- A detection by a source whose mask holds neither SAFE nor CHIP_RESET leaves its record; the rest of what it does is outside the station. -/
theorem raiseSrc_logs {s : State} (hs : s.calm) (hw : s.wf = true) {st src : Nat} (cell : Nat) (seat : Option Nat) (h1 : st < 256) (h2 : src < 32)
    (hx : srcExists st src = true) (hg : gravest st src = false) : s.logs (runAct (raiseSrc st src cell seat) s) st src cell := by
  have hk := stKind_of hx
  have hl := recorded_logs hw (st := st) (src := src) cell h1 h2 hk
  obtain ⟨m1, m2⟩ := hs st src h1 h2 hg
  have hc : (s.recorded st src cell).calm := by
    have hp : ∀ (u : State) (o : Nat) (v : Word), reactReg o = false → u.calm → (u.putReg o v).calm := fun u o v ho hu => by
      rw [← applyEff_csr ho v u]; exact calm_soft rfl hu
    unfold State.recorded
    have c1 := hp s _ (s.rd (Reg.fsStatus st) ||| BitVec.ofNat 64 (2 ^ src)) (react_fsStatus st) hs
    have c2 := hp _ _ (wSet ((s.putReg (Reg.fsStatus st) (s.rd (Reg.fsStatus st) ||| BitVec.ofNat 64 (2 ^ src))).rd (Reg.fsCount st)) 0 16
      (satAdd (s.fld (Reg.fsCount st) 0 16) 1 0xFFFF)) (react_fsCount st) c1
    by_cases hv : s.bitAt (Reg.fsFirst st) 12 = true
    · rw [if_pos hv]; exact c2
    · rw [if_neg hv]; exact hp _ _ _ (react_fsFirst st) c2
  have hr := raiseSrc_run hx cell seat s
  rw [m2, m1] at hr
  simp only [if_neg (by decide : ¬ (false = true))] at hr
  have hm := runGo_leaves (milder_leaves (stationRegs_in h1) st src seat (s.react st src)) hc
  rw [runAct, hr]
  have e1 := hm.2.2 _ (.inl rfl)
  have e2 := hm.2.2 _ (.inr (.inr rfl))
  have e3 := hm.2.2 _ (.inr (.inl rfl))
  simp only [State.logs, State.fld, State.bitAt, e1, e2, e3] at hl ⊢
  exact hl

/-- A detection by a source whose mask holds SAFE ends in the safe state. -/
theorem raiseSrc_goes {s : State} (hs : s.calm) (hw : s.wf = true) {st src : Nat} (cell : Nat) (seat : Option Nat) (h1 : st < 256) (h2 : src < 32)
    (hx : srcExists st src = true) (hm : nBit (s.react st src) 5 = true) : s.goesSafe (runAct (raiseSrc st src cell seat) s) st src := by
  have hr := raiseSrc_run hx cell seat s
  rw [if_pos hm] at hr
  have hp : ∀ (u : State) (o : Nat) (v : Word), reactReg o = false → u.calm ∧ u.wf = true → (u.putReg o v).calm ∧ (u.putReg o v).wf = true := fun u o v ho hu => by
    rw [← applyEff_csr ho v u]; exact ⟨calm_soft rfl hu.1, applyEff_wf _ _ hu.2⟩
  have c1 := hp s _ (s.rd (Reg.fsStatus st) ||| BitVec.ofNat 64 (2 ^ src)) (react_fsStatus st) ⟨hs, hw⟩
  have c2 := hp _ _ (wSet ((s.putReg (Reg.fsStatus st) (s.rd (Reg.fsStatus st) ||| BitVec.ofNat 64 (2 ^ src))).rd (Reg.fsCount st)) 0 16
    (satAdd (s.fld (Reg.fsCount st) 0 16) 1 0xFFFF)) (react_fsCount st) c1
  have hc : (s.recorded st src cell).calm ∧ (s.recorded st src cell).wf = true := by
    unfold State.recorded
    by_cases hv : s.bitAt (Reg.fsFirst st) 12 = true
    · rw [if_pos hv]; exact c2
    · rw [if_neg hv]; exact hp _ _ _ (react_fsFirst st) c2
  have hb : (s.recorded st src cell).tts = s.tts := by
    unfold State.recorded; split <;> rfl
  have := enterSafe_goes hc.1 hc.2 h1 h2
  rw [runAct, hr]
  simp only [State.goesSafe, hb] at this ⊢
  exact this

end Sys2Proof.Machine
end

