-- ==== Sys2Proof/Laws/State.lean ====
section
/-!
SUPPORT. Laws/State.lean: one lemma per field of State and per update of it: an update changes the field that it names and no other.
-/

namespace Sys2Proof.Machine

/-! ### One register set, one field set -/

@[simp] theorem putReg_pending (s : State) (off : Nat) (v : Word) : (s.putReg off v).pending = s.pending := rfl
@[simp] theorem putReg_com (s : State) (off : Nat) (v : Word) : (s.putReg off v).com = s.com := rfl
@[simp] theorem putReg_mem (s : State) (off : Nat) (v : Word) : (s.putReg off v).mem = s.mem := rfl
@[simp] theorem putReg_ecc (s : State) (off : Nat) (v : Word) : (s.putReg off v).ecc = s.ecc := rfl
@[simp] theorem putReg_rdata (s : State) (off : Nat) (v : Word) : (s.putReg off v).rdata = s.rdata := rfl
@[simp] theorem putReg_fv (s : State) (off : Nat) (v : Word) : (s.putReg off v).fv = s.fv := rfl
@[simp] theorem putReg_tts (s : State) (off : Nat) (v : Word) : (s.putReg off v).tts = s.tts := rfl
@[simp] theorem putReg_cfe (s : State) (off : Nat) (v : Word) : (s.putReg off v).cfe = s.cfe := rfl
@[simp] theorem putReg_adm (s : State) (off : Nat) (v : Word) : (s.putReg off v).adm = s.adm := rfl
@[simp] theorem putReg_seats (s : State) (off : Nat) (v : Word) : (s.putReg off v).seats = s.seats := rfl
@[simp] theorem putReg_worlds (s : State) (off : Nat) (v : Word) : (s.putReg off v).worlds = s.worlds := rfl
@[simp] theorem putReg_memc (s : State) (off : Nat) (v : Word) : (s.putReg off v).memc = s.memc := rfl
@[simp] theorem putReg_dma (s : State) (off : Nat) (v : Word) : (s.putReg off v).dma = s.dma := rfl
@[simp] theorem putReg_chk (s : State) (off : Nat) (v : Word) : (s.putReg off v).chk = s.chk := rfl
@[simp] theorem putReg_pic (s : State) (off : Nat) (v : Word) : (s.putReg off v).pic = s.pic := rfl
@[simp] theorem putReg_vid (s : State) (off : Nat) (v : Word) : (s.putReg off v).vid = s.vid := rfl
@[simp] theorem putReg_med (s : State) (off : Nat) (v : Word) : (s.putReg off v).med = s.med := rfl
@[simp] theorem putReg_flt (s : State) (off : Nat) (v : Word) : (s.putReg off v).flt = s.flt := rfl
@[simp] theorem putReg_clk (s : State) (off : Nat) (v : Word) : (s.putReg off v).clk = s.clk := rfl
@[simp] theorem putReg_pwr (s : State) (off : Nat) (v : Word) : (s.putReg off v).pwr = s.pwr := rfl
@[simp] theorem putReg_csr (s : State) (off : Nat) (v : Word) : (s.putReg off v).csr = regPut off v s.csr := rfl
@[simp] theorem putFld_pending (s : State) (off lo w x : Nat) : (s.putFld off lo w x).pending = s.pending := rfl
@[simp] theorem putFld_com (s : State) (off lo w x : Nat) : (s.putFld off lo w x).com = s.com := rfl
@[simp] theorem putFld_mem (s : State) (off lo w x : Nat) : (s.putFld off lo w x).mem = s.mem := rfl
@[simp] theorem putFld_ecc (s : State) (off lo w x : Nat) : (s.putFld off lo w x).ecc = s.ecc := rfl
@[simp] theorem putFld_rdata (s : State) (off lo w x : Nat) : (s.putFld off lo w x).rdata = s.rdata := rfl
@[simp] theorem putFld_fv (s : State) (off lo w x : Nat) : (s.putFld off lo w x).fv = s.fv := rfl
@[simp] theorem putFld_tts (s : State) (off lo w x : Nat) : (s.putFld off lo w x).tts = s.tts := rfl
@[simp] theorem putFld_cfe (s : State) (off lo w x : Nat) : (s.putFld off lo w x).cfe = s.cfe := rfl
@[simp] theorem putFld_adm (s : State) (off lo w x : Nat) : (s.putFld off lo w x).adm = s.adm := rfl
@[simp] theorem putFld_seats (s : State) (off lo w x : Nat) : (s.putFld off lo w x).seats = s.seats := rfl
@[simp] theorem putFld_worlds (s : State) (off lo w x : Nat) : (s.putFld off lo w x).worlds = s.worlds := rfl
@[simp] theorem putFld_memc (s : State) (off lo w x : Nat) : (s.putFld off lo w x).memc = s.memc := rfl
@[simp] theorem putFld_dma (s : State) (off lo w x : Nat) : (s.putFld off lo w x).dma = s.dma := rfl
@[simp] theorem putFld_chk (s : State) (off lo w x : Nat) : (s.putFld off lo w x).chk = s.chk := rfl
@[simp] theorem putFld_pic (s : State) (off lo w x : Nat) : (s.putFld off lo w x).pic = s.pic := rfl
@[simp] theorem putFld_vid (s : State) (off lo w x : Nat) : (s.putFld off lo w x).vid = s.vid := rfl
@[simp] theorem putFld_med (s : State) (off lo w x : Nat) : (s.putFld off lo w x).med = s.med := rfl
@[simp] theorem putFld_flt (s : State) (off lo w x : Nat) : (s.putFld off lo w x).flt = s.flt := rfl
@[simp] theorem putFld_clk (s : State) (off lo w x : Nat) : (s.putFld off lo w x).clk = s.clk := rfl
@[simp] theorem putFld_pwr (s : State) (off lo w x : Nat) : (s.putFld off lo w x).pwr = s.pwr := rfl
@[simp] theorem putFld_csr (s : State) (off lo w x : Nat) : (s.putFld off lo w x).csr = regPut off (wSet (s.rd off) lo w x) s.csr := rfl
@[simp] theorem putReg_cm (s : State) (off : Nat) (v : Word) (o : Nat) : (s.putReg off v).cm o = s.cm o := rfl
@[simp] theorem putFld_cm (s : State) (off lo w x o : Nat) : (s.putFld off lo w x).cm o = s.cm o := rfl

/-! ### Effect csr -/

@[simp] theorem eff_csr_pending (off : Nat) (v : Word) (s : State) : (applyEff (.csr off v) s).pending = s.pending := rfl
@[simp] theorem eff_csr_csr (off : Nat) (v : Word) (s : State) : (applyEff (.csr off v) s).csr = if reactReg off then s.csr else regPut off v s.csr := rfl
@[simp] theorem eff_csr_com (off : Nat) (v : Word) (s : State) : (applyEff (.csr off v) s).com = s.com := rfl
@[simp] theorem eff_csr_mem (off : Nat) (v : Word) (s : State) : (applyEff (.csr off v) s).mem = s.mem := rfl
@[simp] theorem eff_csr_ecc (off : Nat) (v : Word) (s : State) : (applyEff (.csr off v) s).ecc = s.ecc := rfl
@[simp] theorem eff_csr_rdata (off : Nat) (v : Word) (s : State) : (applyEff (.csr off v) s).rdata = s.rdata := rfl
@[simp] theorem eff_csr_fv (off : Nat) (v : Word) (s : State) : (applyEff (.csr off v) s).fv = s.fv := rfl
@[simp] theorem eff_csr_tts (off : Nat) (v : Word) (s : State) : (applyEff (.csr off v) s).tts = s.tts := rfl
@[simp] theorem eff_csr_cfe (off : Nat) (v : Word) (s : State) : (applyEff (.csr off v) s).cfe = s.cfe := rfl
@[simp] theorem eff_csr_adm (off : Nat) (v : Word) (s : State) : (applyEff (.csr off v) s).adm = s.adm := rfl
@[simp] theorem eff_csr_seats (off : Nat) (v : Word) (s : State) : (applyEff (.csr off v) s).seats = s.seats := rfl
@[simp] theorem eff_csr_worlds (off : Nat) (v : Word) (s : State) : (applyEff (.csr off v) s).worlds = s.worlds := rfl
@[simp] theorem eff_csr_memc (off : Nat) (v : Word) (s : State) : (applyEff (.csr off v) s).memc = s.memc := rfl
@[simp] theorem eff_csr_dma (off : Nat) (v : Word) (s : State) : (applyEff (.csr off v) s).dma = s.dma := rfl
@[simp] theorem eff_csr_chk (off : Nat) (v : Word) (s : State) : (applyEff (.csr off v) s).chk = s.chk := rfl
@[simp] theorem eff_csr_pic (off : Nat) (v : Word) (s : State) : (applyEff (.csr off v) s).pic = s.pic := rfl
@[simp] theorem eff_csr_vid (off : Nat) (v : Word) (s : State) : (applyEff (.csr off v) s).vid = s.vid := rfl
@[simp] theorem eff_csr_med (off : Nat) (v : Word) (s : State) : (applyEff (.csr off v) s).med = s.med := rfl
@[simp] theorem eff_csr_flt (off : Nat) (v : Word) (s : State) : (applyEff (.csr off v) s).flt = s.flt := rfl
@[simp] theorem eff_csr_clk (off : Nat) (v : Word) (s : State) : (applyEff (.csr off v) s).clk = s.clk := rfl
@[simp] theorem eff_csr_pwr (off : Nat) (v : Word) (s : State) : (applyEff (.csr off v) s).pwr = s.pwr := rfl
@[simp] theorem eff_csr_cm (off : Nat) (v : Word) (s : State) (o : Nat) : (applyEff (.csr off v) s).cm o = s.cm o := rfl

/-! ### Effect react -/

@[simp] theorem eff_react_pending (off : Nat) (v : Word) (s : State) : (applyEff (.react off v) s).pending = s.pending := rfl
@[simp] theorem eff_react_csr (off : Nat) (v : Word) (s : State) : (applyEff (.react off v) s).csr = if reactReg off then regPut off v s.csr else s.csr := rfl
@[simp] theorem eff_react_com (off : Nat) (v : Word) (s : State) : (applyEff (.react off v) s).com = s.com := rfl
@[simp] theorem eff_react_mem (off : Nat) (v : Word) (s : State) : (applyEff (.react off v) s).mem = s.mem := rfl
@[simp] theorem eff_react_ecc (off : Nat) (v : Word) (s : State) : (applyEff (.react off v) s).ecc = s.ecc := rfl
@[simp] theorem eff_react_rdata (off : Nat) (v : Word) (s : State) : (applyEff (.react off v) s).rdata = s.rdata := rfl
@[simp] theorem eff_react_fv (off : Nat) (v : Word) (s : State) : (applyEff (.react off v) s).fv = s.fv := rfl
@[simp] theorem eff_react_tts (off : Nat) (v : Word) (s : State) : (applyEff (.react off v) s).tts = s.tts := rfl
@[simp] theorem eff_react_cfe (off : Nat) (v : Word) (s : State) : (applyEff (.react off v) s).cfe = s.cfe := rfl
@[simp] theorem eff_react_adm (off : Nat) (v : Word) (s : State) : (applyEff (.react off v) s).adm = s.adm := rfl
@[simp] theorem eff_react_seats (off : Nat) (v : Word) (s : State) : (applyEff (.react off v) s).seats = s.seats := rfl
@[simp] theorem eff_react_worlds (off : Nat) (v : Word) (s : State) : (applyEff (.react off v) s).worlds = s.worlds := rfl
@[simp] theorem eff_react_memc (off : Nat) (v : Word) (s : State) : (applyEff (.react off v) s).memc = s.memc := rfl
@[simp] theorem eff_react_dma (off : Nat) (v : Word) (s : State) : (applyEff (.react off v) s).dma = s.dma := rfl
@[simp] theorem eff_react_chk (off : Nat) (v : Word) (s : State) : (applyEff (.react off v) s).chk = s.chk := rfl
@[simp] theorem eff_react_pic (off : Nat) (v : Word) (s : State) : (applyEff (.react off v) s).pic = s.pic := rfl
@[simp] theorem eff_react_vid (off : Nat) (v : Word) (s : State) : (applyEff (.react off v) s).vid = s.vid := rfl
@[simp] theorem eff_react_med (off : Nat) (v : Word) (s : State) : (applyEff (.react off v) s).med = s.med := rfl
@[simp] theorem eff_react_flt (off : Nat) (v : Word) (s : State) : (applyEff (.react off v) s).flt = s.flt := rfl
@[simp] theorem eff_react_clk (off : Nat) (v : Word) (s : State) : (applyEff (.react off v) s).clk = s.clk := rfl
@[simp] theorem eff_react_pwr (off : Nat) (v : Word) (s : State) : (applyEff (.react off v) s).pwr = s.pwr := rfl
@[simp] theorem eff_react_cm (off : Nat) (v : Word) (s : State) (o : Nat) : (applyEff (.react off v) s).cm o = s.cm o := rfl

/-! ### Effect com -/

@[simp] theorem eff_com_pending (off : Nat) (v : Word) (s : State) : (applyEff (.com off v) s).pending = s.pending := rfl
@[simp] theorem eff_com_csr (off : Nat) (v : Word) (s : State) : (applyEff (.com off v) s).csr = s.csr := rfl
@[simp] theorem eff_com_com (off : Nat) (v : Word) (s : State) : (applyEff (.com off v) s).com = regPut off v s.com := rfl
@[simp] theorem eff_com_mem (off : Nat) (v : Word) (s : State) : (applyEff (.com off v) s).mem = s.mem := rfl
@[simp] theorem eff_com_ecc (off : Nat) (v : Word) (s : State) : (applyEff (.com off v) s).ecc = s.ecc := rfl
@[simp] theorem eff_com_rdata (off : Nat) (v : Word) (s : State) : (applyEff (.com off v) s).rdata = s.rdata := rfl
@[simp] theorem eff_com_fv (off : Nat) (v : Word) (s : State) : (applyEff (.com off v) s).fv = s.fv := rfl
@[simp] theorem eff_com_tts (off : Nat) (v : Word) (s : State) : (applyEff (.com off v) s).tts = s.tts := rfl
@[simp] theorem eff_com_cfe (off : Nat) (v : Word) (s : State) : (applyEff (.com off v) s).cfe = s.cfe := rfl
@[simp] theorem eff_com_adm (off : Nat) (v : Word) (s : State) : (applyEff (.com off v) s).adm = s.adm := rfl
@[simp] theorem eff_com_seats (off : Nat) (v : Word) (s : State) : (applyEff (.com off v) s).seats = s.seats := rfl
@[simp] theorem eff_com_worlds (off : Nat) (v : Word) (s : State) : (applyEff (.com off v) s).worlds = s.worlds := rfl
@[simp] theorem eff_com_memc (off : Nat) (v : Word) (s : State) : (applyEff (.com off v) s).memc = s.memc := rfl
@[simp] theorem eff_com_dma (off : Nat) (v : Word) (s : State) : (applyEff (.com off v) s).dma = s.dma := rfl
@[simp] theorem eff_com_chk (off : Nat) (v : Word) (s : State) : (applyEff (.com off v) s).chk = s.chk := rfl
@[simp] theorem eff_com_pic (off : Nat) (v : Word) (s : State) : (applyEff (.com off v) s).pic = s.pic := rfl
@[simp] theorem eff_com_vid (off : Nat) (v : Word) (s : State) : (applyEff (.com off v) s).vid = s.vid := rfl
@[simp] theorem eff_com_med (off : Nat) (v : Word) (s : State) : (applyEff (.com off v) s).med = s.med := rfl
@[simp] theorem eff_com_flt (off : Nat) (v : Word) (s : State) : (applyEff (.com off v) s).flt = s.flt := rfl
@[simp] theorem eff_com_clk (off : Nat) (v : Word) (s : State) : (applyEff (.com off v) s).clk = s.clk := rfl
@[simp] theorem eff_com_pwr (off : Nat) (v : Word) (s : State) : (applyEff (.com off v) s).pwr = s.pwr := rfl
@[simp] theorem eff_com_rd (off : Nat) (v : Word) (s : State) (o : Nat) : (applyEff (.com off v) s).rd o = s.rd o := rfl
@[simp] theorem eff_com_fld (off : Nat) (v : Word) (s : State) (o lo w : Nat) : (applyEff (.com off v) s).fld o lo w = s.fld o lo w := rfl
@[simp] theorem eff_com_bitAt (off : Nat) (v : Word) (s : State) (o i : Nat) : (applyEff (.com off v) s).bitAt o i = s.bitAt o i := rfl

/-! ### Effect mem -/

@[simp] theorem eff_mem_pending (k : Nat) (bs : List Byte) (s : State) : (applyEff (.mem k bs) s).pending = s.pending := rfl
@[simp] theorem eff_mem_csr (k : Nat) (bs : List Byte) (s : State) : (applyEff (.mem k bs) s).csr = s.csr := rfl
@[simp] theorem eff_mem_com (k : Nat) (bs : List Byte) (s : State) : (applyEff (.mem k bs) s).com = s.com := rfl
@[simp] theorem eff_mem_mem (k : Nat) (bs : List Byte) (s : State) : (applyEff (.mem k bs) s).mem = memPut k bs s.mem := rfl
@[simp] theorem eff_mem_ecc (k : Nat) (bs : List Byte) (s : State) : (applyEff (.mem k bs) s).ecc = s.ecc := rfl
@[simp] theorem eff_mem_rdata (k : Nat) (bs : List Byte) (s : State) : (applyEff (.mem k bs) s).rdata = s.rdata := rfl
@[simp] theorem eff_mem_fv (k : Nat) (bs : List Byte) (s : State) : (applyEff (.mem k bs) s).fv = s.fv := rfl
@[simp] theorem eff_mem_tts (k : Nat) (bs : List Byte) (s : State) : (applyEff (.mem k bs) s).tts = s.tts := rfl
@[simp] theorem eff_mem_cfe (k : Nat) (bs : List Byte) (s : State) : (applyEff (.mem k bs) s).cfe = s.cfe := rfl
@[simp] theorem eff_mem_adm (k : Nat) (bs : List Byte) (s : State) : (applyEff (.mem k bs) s).adm = s.adm := rfl
@[simp] theorem eff_mem_seats (k : Nat) (bs : List Byte) (s : State) : (applyEff (.mem k bs) s).seats = s.seats := rfl
@[simp] theorem eff_mem_worlds (k : Nat) (bs : List Byte) (s : State) : (applyEff (.mem k bs) s).worlds = s.worlds := rfl
@[simp] theorem eff_mem_memc (k : Nat) (bs : List Byte) (s : State) : (applyEff (.mem k bs) s).memc = s.memc := rfl
@[simp] theorem eff_mem_dma (k : Nat) (bs : List Byte) (s : State) : (applyEff (.mem k bs) s).dma = s.dma := rfl
@[simp] theorem eff_mem_chk (k : Nat) (bs : List Byte) (s : State) : (applyEff (.mem k bs) s).chk = s.chk := rfl
@[simp] theorem eff_mem_pic (k : Nat) (bs : List Byte) (s : State) : (applyEff (.mem k bs) s).pic = s.pic := rfl
@[simp] theorem eff_mem_vid (k : Nat) (bs : List Byte) (s : State) : (applyEff (.mem k bs) s).vid = s.vid := rfl
@[simp] theorem eff_mem_med (k : Nat) (bs : List Byte) (s : State) : (applyEff (.mem k bs) s).med = s.med := rfl
@[simp] theorem eff_mem_flt (k : Nat) (bs : List Byte) (s : State) : (applyEff (.mem k bs) s).flt = s.flt := rfl
@[simp] theorem eff_mem_clk (k : Nat) (bs : List Byte) (s : State) : (applyEff (.mem k bs) s).clk = s.clk := rfl
@[simp] theorem eff_mem_pwr (k : Nat) (bs : List Byte) (s : State) : (applyEff (.mem k bs) s).pwr = s.pwr := rfl
@[simp] theorem eff_mem_rd (k : Nat) (bs : List Byte) (s : State) (o : Nat) : (applyEff (.mem k bs) s).rd o = s.rd o := rfl
@[simp] theorem eff_mem_fld (k : Nat) (bs : List Byte) (s : State) (o lo w : Nat) : (applyEff (.mem k bs) s).fld o lo w = s.fld o lo w := rfl
@[simp] theorem eff_mem_bitAt (k : Nat) (bs : List Byte) (s : State) (o i : Nat) : (applyEff (.mem k bs) s).bitAt o i = s.bitAt o i := rfl
@[simp] theorem eff_mem_cm (k : Nat) (bs : List Byte) (s : State) (o : Nat) : (applyEff (.mem k bs) s).cm o = s.cm o := rfl

/-! ### Effect ecc -/

@[simp] theorem eff_ecc_pending (w : Nat) (d : Byte) (s : State) : (applyEff (.ecc w d) s).pending = s.pending := rfl
@[simp] theorem eff_ecc_csr (w : Nat) (d : Byte) (s : State) : (applyEff (.ecc w d) s).csr = s.csr := rfl
@[simp] theorem eff_ecc_com (w : Nat) (d : Byte) (s : State) : (applyEff (.ecc w d) s).com = s.com := rfl
@[simp] theorem eff_ecc_mem (w : Nat) (d : Byte) (s : State) : (applyEff (.ecc w d) s).mem = s.mem := rfl
@[simp] theorem eff_ecc_ecc (w : Nat) (d : Byte) (s : State) : (applyEff (.ecc w d) s).ecc = mapPut (fun _ => 0) w d s.ecc := rfl
@[simp] theorem eff_ecc_rdata (w : Nat) (d : Byte) (s : State) : (applyEff (.ecc w d) s).rdata = s.rdata := rfl
@[simp] theorem eff_ecc_fv (w : Nat) (d : Byte) (s : State) : (applyEff (.ecc w d) s).fv = s.fv := rfl
@[simp] theorem eff_ecc_tts (w : Nat) (d : Byte) (s : State) : (applyEff (.ecc w d) s).tts = s.tts := rfl
@[simp] theorem eff_ecc_cfe (w : Nat) (d : Byte) (s : State) : (applyEff (.ecc w d) s).cfe = s.cfe := rfl
@[simp] theorem eff_ecc_adm (w : Nat) (d : Byte) (s : State) : (applyEff (.ecc w d) s).adm = s.adm := rfl
@[simp] theorem eff_ecc_seats (w : Nat) (d : Byte) (s : State) : (applyEff (.ecc w d) s).seats = s.seats := rfl
@[simp] theorem eff_ecc_worlds (w : Nat) (d : Byte) (s : State) : (applyEff (.ecc w d) s).worlds = s.worlds := rfl
@[simp] theorem eff_ecc_memc (w : Nat) (d : Byte) (s : State) : (applyEff (.ecc w d) s).memc = s.memc := rfl
@[simp] theorem eff_ecc_dma (w : Nat) (d : Byte) (s : State) : (applyEff (.ecc w d) s).dma = s.dma := rfl
@[simp] theorem eff_ecc_chk (w : Nat) (d : Byte) (s : State) : (applyEff (.ecc w d) s).chk = s.chk := rfl
@[simp] theorem eff_ecc_pic (w : Nat) (d : Byte) (s : State) : (applyEff (.ecc w d) s).pic = s.pic := rfl
@[simp] theorem eff_ecc_vid (w : Nat) (d : Byte) (s : State) : (applyEff (.ecc w d) s).vid = s.vid := rfl
@[simp] theorem eff_ecc_med (w : Nat) (d : Byte) (s : State) : (applyEff (.ecc w d) s).med = s.med := rfl
@[simp] theorem eff_ecc_flt (w : Nat) (d : Byte) (s : State) : (applyEff (.ecc w d) s).flt = s.flt := rfl
@[simp] theorem eff_ecc_clk (w : Nat) (d : Byte) (s : State) : (applyEff (.ecc w d) s).clk = s.clk := rfl
@[simp] theorem eff_ecc_pwr (w : Nat) (d : Byte) (s : State) : (applyEff (.ecc w d) s).pwr = s.pwr := rfl
@[simp] theorem eff_ecc_rd (w : Nat) (d : Byte) (s : State) (o : Nat) : (applyEff (.ecc w d) s).rd o = s.rd o := rfl
@[simp] theorem eff_ecc_fld (w : Nat) (d : Byte) (s : State) (o lo w : Nat) : (applyEff (.ecc w d) s).fld o lo w = s.fld o lo w := rfl
@[simp] theorem eff_ecc_bitAt (w : Nat) (d : Byte) (s : State) (o i : Nat) : (applyEff (.ecc w d) s).bitAt o i = s.bitAt o i := rfl
@[simp] theorem eff_ecc_cm (w : Nat) (d : Byte) (s : State) (o : Nat) : (applyEff (.ecc w d) s).cm o = s.cm o := rfl

/-! ### Effect rdata -/

@[simp] theorem eff_rdata_pending (v : Word) (s : State) : (applyEff (.rdata v) s).pending = s.pending := rfl
@[simp] theorem eff_rdata_csr (v : Word) (s : State) : (applyEff (.rdata v) s).csr = s.csr := rfl
@[simp] theorem eff_rdata_com (v : Word) (s : State) : (applyEff (.rdata v) s).com = s.com := rfl
@[simp] theorem eff_rdata_mem (v : Word) (s : State) : (applyEff (.rdata v) s).mem = s.mem := rfl
@[simp] theorem eff_rdata_ecc (v : Word) (s : State) : (applyEff (.rdata v) s).ecc = s.ecc := rfl
@[simp] theorem eff_rdata_rdata (v : Word) (s : State) : (applyEff (.rdata v) s).rdata = v := rfl
@[simp] theorem eff_rdata_fv (v : Word) (s : State) : (applyEff (.rdata v) s).fv = s.fv := rfl
@[simp] theorem eff_rdata_tts (v : Word) (s : State) : (applyEff (.rdata v) s).tts = s.tts := rfl
@[simp] theorem eff_rdata_cfe (v : Word) (s : State) : (applyEff (.rdata v) s).cfe = s.cfe := rfl
@[simp] theorem eff_rdata_adm (v : Word) (s : State) : (applyEff (.rdata v) s).adm = s.adm := rfl
@[simp] theorem eff_rdata_seats (v : Word) (s : State) : (applyEff (.rdata v) s).seats = s.seats := rfl
@[simp] theorem eff_rdata_worlds (v : Word) (s : State) : (applyEff (.rdata v) s).worlds = s.worlds := rfl
@[simp] theorem eff_rdata_memc (v : Word) (s : State) : (applyEff (.rdata v) s).memc = s.memc := rfl
@[simp] theorem eff_rdata_dma (v : Word) (s : State) : (applyEff (.rdata v) s).dma = s.dma := rfl
@[simp] theorem eff_rdata_chk (v : Word) (s : State) : (applyEff (.rdata v) s).chk = s.chk := rfl
@[simp] theorem eff_rdata_pic (v : Word) (s : State) : (applyEff (.rdata v) s).pic = s.pic := rfl
@[simp] theorem eff_rdata_vid (v : Word) (s : State) : (applyEff (.rdata v) s).vid = s.vid := rfl
@[simp] theorem eff_rdata_med (v : Word) (s : State) : (applyEff (.rdata v) s).med = s.med := rfl
@[simp] theorem eff_rdata_flt (v : Word) (s : State) : (applyEff (.rdata v) s).flt = s.flt := rfl
@[simp] theorem eff_rdata_clk (v : Word) (s : State) : (applyEff (.rdata v) s).clk = s.clk := rfl
@[simp] theorem eff_rdata_pwr (v : Word) (s : State) : (applyEff (.rdata v) s).pwr = s.pwr := rfl
@[simp] theorem eff_rdata_rd (v : Word) (s : State) (o : Nat) : (applyEff (.rdata v) s).rd o = s.rd o := rfl
@[simp] theorem eff_rdata_fld (v : Word) (s : State) (o lo w : Nat) : (applyEff (.rdata v) s).fld o lo w = s.fld o lo w := rfl
@[simp] theorem eff_rdata_bitAt (v : Word) (s : State) (o i : Nat) : (applyEff (.rdata v) s).bitAt o i = s.bitAt o i := rfl
@[simp] theorem eff_rdata_cm (v : Word) (s : State) (o : Nat) : (applyEff (.rdata v) s).cm o = s.cm o := rfl

/-! ### Effect tick -/

@[simp] theorem eff_tick_pending (s : State) : (applyEff .tick s).pending = s.pending := rfl
@[simp] theorem eff_tick_csr (s : State) : (applyEff .tick s).csr = s.csr := rfl
@[simp] theorem eff_tick_com (s : State) : (applyEff .tick s).com = s.com := rfl
@[simp] theorem eff_tick_mem (s : State) : (applyEff .tick s).mem = s.mem := rfl
@[simp] theorem eff_tick_ecc (s : State) : (applyEff .tick s).ecc = s.ecc := rfl
@[simp] theorem eff_tick_rdata (s : State) : (applyEff .tick s).rdata = s.rdata := rfl
@[simp] theorem eff_tick_fv (s : State) : (applyEff .tick s).fv = s.fv + 1 := rfl
@[simp] theorem eff_tick_tts (s : State) : (applyEff .tick s).tts = s.tts := rfl
@[simp] theorem eff_tick_cfe (s : State) : (applyEff .tick s).cfe = s.cfe := rfl
@[simp] theorem eff_tick_adm (s : State) : (applyEff .tick s).adm = s.adm := rfl
@[simp] theorem eff_tick_seats (s : State) : (applyEff .tick s).seats = s.seats := rfl
@[simp] theorem eff_tick_worlds (s : State) : (applyEff .tick s).worlds = s.worlds := rfl
@[simp] theorem eff_tick_memc (s : State) : (applyEff .tick s).memc = s.memc := rfl
@[simp] theorem eff_tick_dma (s : State) : (applyEff .tick s).dma = s.dma := rfl
@[simp] theorem eff_tick_chk (s : State) : (applyEff .tick s).chk = s.chk := rfl
@[simp] theorem eff_tick_pic (s : State) : (applyEff .tick s).pic = s.pic := rfl
@[simp] theorem eff_tick_vid (s : State) : (applyEff .tick s).vid = s.vid := rfl
@[simp] theorem eff_tick_med (s : State) : (applyEff .tick s).med = s.med := rfl
@[simp] theorem eff_tick_flt (s : State) : (applyEff .tick s).flt = s.flt := rfl
@[simp] theorem eff_tick_clk (s : State) : (applyEff .tick s).clk = s.clk := rfl
@[simp] theorem eff_tick_pwr (s : State) : (applyEff .tick s).pwr = s.pwr := rfl
@[simp] theorem eff_tick_rd (s : State) (o : Nat) : (applyEff .tick s).rd o = s.rd o := rfl
@[simp] theorem eff_tick_fld (s : State) (o lo w : Nat) : (applyEff .tick s).fld o lo w = s.fld o lo w := rfl
@[simp] theorem eff_tick_bitAt (s : State) (o i : Nat) : (applyEff .tick s).bitAt o i = s.bitAt o i := rfl
@[simp] theorem eff_tick_cm (s : State) (o : Nat) : (applyEff .tick s).cm o = s.cm o := rfl

/-! ### Effect tts -/

@[simp] theorem eff_tts_pending (f : Tts → Tts) (s : State) : (applyEff (.tts f) s).pending = s.pending := rfl
@[simp] theorem eff_tts_csr (f : Tts → Tts) (s : State) : (applyEff (.tts f) s).csr = s.csr := rfl
@[simp] theorem eff_tts_com (f : Tts → Tts) (s : State) : (applyEff (.tts f) s).com = s.com := rfl
@[simp] theorem eff_tts_mem (f : Tts → Tts) (s : State) : (applyEff (.tts f) s).mem = s.mem := rfl
@[simp] theorem eff_tts_ecc (f : Tts → Tts) (s : State) : (applyEff (.tts f) s).ecc = s.ecc := rfl
@[simp] theorem eff_tts_rdata (f : Tts → Tts) (s : State) : (applyEff (.tts f) s).rdata = s.rdata := rfl
@[simp] theorem eff_tts_fv (f : Tts → Tts) (s : State) : (applyEff (.tts f) s).fv = s.fv := rfl
@[simp] theorem eff_tts_tts (f : Tts → Tts) (s : State) : (applyEff (.tts f) s).tts = f s.tts := rfl
@[simp] theorem eff_tts_cfe (f : Tts → Tts) (s : State) : (applyEff (.tts f) s).cfe = s.cfe := rfl
@[simp] theorem eff_tts_adm (f : Tts → Tts) (s : State) : (applyEff (.tts f) s).adm = s.adm := rfl
@[simp] theorem eff_tts_seats (f : Tts → Tts) (s : State) : (applyEff (.tts f) s).seats = s.seats := rfl
@[simp] theorem eff_tts_worlds (f : Tts → Tts) (s : State) : (applyEff (.tts f) s).worlds = s.worlds := rfl
@[simp] theorem eff_tts_memc (f : Tts → Tts) (s : State) : (applyEff (.tts f) s).memc = s.memc := rfl
@[simp] theorem eff_tts_dma (f : Tts → Tts) (s : State) : (applyEff (.tts f) s).dma = s.dma := rfl
@[simp] theorem eff_tts_chk (f : Tts → Tts) (s : State) : (applyEff (.tts f) s).chk = s.chk := rfl
@[simp] theorem eff_tts_pic (f : Tts → Tts) (s : State) : (applyEff (.tts f) s).pic = s.pic := rfl
@[simp] theorem eff_tts_vid (f : Tts → Tts) (s : State) : (applyEff (.tts f) s).vid = s.vid := rfl
@[simp] theorem eff_tts_med (f : Tts → Tts) (s : State) : (applyEff (.tts f) s).med = s.med := rfl
@[simp] theorem eff_tts_flt (f : Tts → Tts) (s : State) : (applyEff (.tts f) s).flt = s.flt := rfl
@[simp] theorem eff_tts_clk (f : Tts → Tts) (s : State) : (applyEff (.tts f) s).clk = s.clk := rfl
@[simp] theorem eff_tts_pwr (f : Tts → Tts) (s : State) : (applyEff (.tts f) s).pwr = s.pwr := rfl
@[simp] theorem eff_tts_rd (f : Tts → Tts) (s : State) (o : Nat) : (applyEff (.tts f) s).rd o = s.rd o := rfl
@[simp] theorem eff_tts_fld (f : Tts → Tts) (s : State) (o lo w : Nat) : (applyEff (.tts f) s).fld o lo w = s.fld o lo w := rfl
@[simp] theorem eff_tts_bitAt (f : Tts → Tts) (s : State) (o i : Nat) : (applyEff (.tts f) s).bitAt o i = s.bitAt o i := rfl
@[simp] theorem eff_tts_cm (f : Tts → Tts) (s : State) (o : Nat) : (applyEff (.tts f) s).cm o = s.cm o := rfl

/-! ### Effect cfe -/

@[simp] theorem eff_cfe_pending (f : Cfe → Cfe) (s : State) : (applyEff (.cfe f) s).pending = s.pending := rfl
@[simp] theorem eff_cfe_csr (f : Cfe → Cfe) (s : State) : (applyEff (.cfe f) s).csr = s.csr := rfl
@[simp] theorem eff_cfe_com (f : Cfe → Cfe) (s : State) : (applyEff (.cfe f) s).com = s.com := rfl
@[simp] theorem eff_cfe_mem (f : Cfe → Cfe) (s : State) : (applyEff (.cfe f) s).mem = s.mem := rfl
@[simp] theorem eff_cfe_ecc (f : Cfe → Cfe) (s : State) : (applyEff (.cfe f) s).ecc = s.ecc := rfl
@[simp] theorem eff_cfe_rdata (f : Cfe → Cfe) (s : State) : (applyEff (.cfe f) s).rdata = s.rdata := rfl
@[simp] theorem eff_cfe_fv (f : Cfe → Cfe) (s : State) : (applyEff (.cfe f) s).fv = s.fv := rfl
@[simp] theorem eff_cfe_tts (f : Cfe → Cfe) (s : State) : (applyEff (.cfe f) s).tts = s.tts := rfl
@[simp] theorem eff_cfe_cfe (f : Cfe → Cfe) (s : State) : (applyEff (.cfe f) s).cfe = f s.cfe := rfl
@[simp] theorem eff_cfe_adm (f : Cfe → Cfe) (s : State) : (applyEff (.cfe f) s).adm = s.adm := rfl
@[simp] theorem eff_cfe_seats (f : Cfe → Cfe) (s : State) : (applyEff (.cfe f) s).seats = s.seats := rfl
@[simp] theorem eff_cfe_worlds (f : Cfe → Cfe) (s : State) : (applyEff (.cfe f) s).worlds = s.worlds := rfl
@[simp] theorem eff_cfe_memc (f : Cfe → Cfe) (s : State) : (applyEff (.cfe f) s).memc = s.memc := rfl
@[simp] theorem eff_cfe_dma (f : Cfe → Cfe) (s : State) : (applyEff (.cfe f) s).dma = s.dma := rfl
@[simp] theorem eff_cfe_chk (f : Cfe → Cfe) (s : State) : (applyEff (.cfe f) s).chk = s.chk := rfl
@[simp] theorem eff_cfe_pic (f : Cfe → Cfe) (s : State) : (applyEff (.cfe f) s).pic = s.pic := rfl
@[simp] theorem eff_cfe_vid (f : Cfe → Cfe) (s : State) : (applyEff (.cfe f) s).vid = s.vid := rfl
@[simp] theorem eff_cfe_med (f : Cfe → Cfe) (s : State) : (applyEff (.cfe f) s).med = s.med := rfl
@[simp] theorem eff_cfe_flt (f : Cfe → Cfe) (s : State) : (applyEff (.cfe f) s).flt = s.flt := rfl
@[simp] theorem eff_cfe_clk (f : Cfe → Cfe) (s : State) : (applyEff (.cfe f) s).clk = s.clk := rfl
@[simp] theorem eff_cfe_pwr (f : Cfe → Cfe) (s : State) : (applyEff (.cfe f) s).pwr = s.pwr := rfl
@[simp] theorem eff_cfe_rd (f : Cfe → Cfe) (s : State) (o : Nat) : (applyEff (.cfe f) s).rd o = s.rd o := rfl
@[simp] theorem eff_cfe_fld (f : Cfe → Cfe) (s : State) (o lo w : Nat) : (applyEff (.cfe f) s).fld o lo w = s.fld o lo w := rfl
@[simp] theorem eff_cfe_bitAt (f : Cfe → Cfe) (s : State) (o i : Nat) : (applyEff (.cfe f) s).bitAt o i = s.bitAt o i := rfl
@[simp] theorem eff_cfe_cm (f : Cfe → Cfe) (s : State) (o : Nat) : (applyEff (.cfe f) s).cm o = s.cm o := rfl

/-! ### Effect adm -/

@[simp] theorem eff_adm_pending (f : Adm → Adm) (s : State) : (applyEff (.adm f) s).pending = s.pending := rfl
@[simp] theorem eff_adm_csr (f : Adm → Adm) (s : State) : (applyEff (.adm f) s).csr = s.csr := rfl
@[simp] theorem eff_adm_com (f : Adm → Adm) (s : State) : (applyEff (.adm f) s).com = s.com := rfl
@[simp] theorem eff_adm_mem (f : Adm → Adm) (s : State) : (applyEff (.adm f) s).mem = s.mem := rfl
@[simp] theorem eff_adm_ecc (f : Adm → Adm) (s : State) : (applyEff (.adm f) s).ecc = s.ecc := rfl
@[simp] theorem eff_adm_rdata (f : Adm → Adm) (s : State) : (applyEff (.adm f) s).rdata = s.rdata := rfl
@[simp] theorem eff_adm_fv (f : Adm → Adm) (s : State) : (applyEff (.adm f) s).fv = s.fv := rfl
@[simp] theorem eff_adm_tts (f : Adm → Adm) (s : State) : (applyEff (.adm f) s).tts = s.tts := rfl
@[simp] theorem eff_adm_cfe (f : Adm → Adm) (s : State) : (applyEff (.adm f) s).cfe = s.cfe := rfl
@[simp] theorem eff_adm_adm (f : Adm → Adm) (s : State) : (applyEff (.adm f) s).adm = f s.adm := rfl
@[simp] theorem eff_adm_seats (f : Adm → Adm) (s : State) : (applyEff (.adm f) s).seats = s.seats := rfl
@[simp] theorem eff_adm_worlds (f : Adm → Adm) (s : State) : (applyEff (.adm f) s).worlds = s.worlds := rfl
@[simp] theorem eff_adm_memc (f : Adm → Adm) (s : State) : (applyEff (.adm f) s).memc = s.memc := rfl
@[simp] theorem eff_adm_dma (f : Adm → Adm) (s : State) : (applyEff (.adm f) s).dma = s.dma := rfl
@[simp] theorem eff_adm_chk (f : Adm → Adm) (s : State) : (applyEff (.adm f) s).chk = s.chk := rfl
@[simp] theorem eff_adm_pic (f : Adm → Adm) (s : State) : (applyEff (.adm f) s).pic = s.pic := rfl
@[simp] theorem eff_adm_vid (f : Adm → Adm) (s : State) : (applyEff (.adm f) s).vid = s.vid := rfl
@[simp] theorem eff_adm_med (f : Adm → Adm) (s : State) : (applyEff (.adm f) s).med = s.med := rfl
@[simp] theorem eff_adm_flt (f : Adm → Adm) (s : State) : (applyEff (.adm f) s).flt = s.flt := rfl
@[simp] theorem eff_adm_clk (f : Adm → Adm) (s : State) : (applyEff (.adm f) s).clk = s.clk := rfl
@[simp] theorem eff_adm_pwr (f : Adm → Adm) (s : State) : (applyEff (.adm f) s).pwr = s.pwr := rfl
@[simp] theorem eff_adm_rd (f : Adm → Adm) (s : State) (o : Nat) : (applyEff (.adm f) s).rd o = s.rd o := rfl
@[simp] theorem eff_adm_fld (f : Adm → Adm) (s : State) (o lo w : Nat) : (applyEff (.adm f) s).fld o lo w = s.fld o lo w := rfl
@[simp] theorem eff_adm_bitAt (f : Adm → Adm) (s : State) (o i : Nat) : (applyEff (.adm f) s).bitAt o i = s.bitAt o i := rfl
@[simp] theorem eff_adm_cm (f : Adm → Adm) (s : State) (o : Nat) : (applyEff (.adm f) s).cm o = s.cm o := rfl

/-! ### Effect seats -/

@[simp] theorem eff_seats_pending (f : Seats → Seats) (s : State) : (applyEff (.seats f) s).pending = s.pending := rfl
@[simp] theorem eff_seats_csr (f : Seats → Seats) (s : State) : (applyEff (.seats f) s).csr = s.csr := rfl
@[simp] theorem eff_seats_com (f : Seats → Seats) (s : State) : (applyEff (.seats f) s).com = s.com := rfl
@[simp] theorem eff_seats_mem (f : Seats → Seats) (s : State) : (applyEff (.seats f) s).mem = s.mem := rfl
@[simp] theorem eff_seats_ecc (f : Seats → Seats) (s : State) : (applyEff (.seats f) s).ecc = s.ecc := rfl
@[simp] theorem eff_seats_rdata (f : Seats → Seats) (s : State) : (applyEff (.seats f) s).rdata = s.rdata := rfl
@[simp] theorem eff_seats_fv (f : Seats → Seats) (s : State) : (applyEff (.seats f) s).fv = s.fv := rfl
@[simp] theorem eff_seats_tts (f : Seats → Seats) (s : State) : (applyEff (.seats f) s).tts = s.tts := rfl
@[simp] theorem eff_seats_cfe (f : Seats → Seats) (s : State) : (applyEff (.seats f) s).cfe = s.cfe := rfl
@[simp] theorem eff_seats_adm (f : Seats → Seats) (s : State) : (applyEff (.seats f) s).adm = s.adm := rfl
@[simp] theorem eff_seats_seats (f : Seats → Seats) (s : State) : (applyEff (.seats f) s).seats = f s.seats := rfl
@[simp] theorem eff_seats_worlds (f : Seats → Seats) (s : State) : (applyEff (.seats f) s).worlds = s.worlds := rfl
@[simp] theorem eff_seats_memc (f : Seats → Seats) (s : State) : (applyEff (.seats f) s).memc = s.memc := rfl
@[simp] theorem eff_seats_dma (f : Seats → Seats) (s : State) : (applyEff (.seats f) s).dma = s.dma := rfl
@[simp] theorem eff_seats_chk (f : Seats → Seats) (s : State) : (applyEff (.seats f) s).chk = s.chk := rfl
@[simp] theorem eff_seats_pic (f : Seats → Seats) (s : State) : (applyEff (.seats f) s).pic = s.pic := rfl
@[simp] theorem eff_seats_vid (f : Seats → Seats) (s : State) : (applyEff (.seats f) s).vid = s.vid := rfl
@[simp] theorem eff_seats_med (f : Seats → Seats) (s : State) : (applyEff (.seats f) s).med = s.med := rfl
@[simp] theorem eff_seats_flt (f : Seats → Seats) (s : State) : (applyEff (.seats f) s).flt = s.flt := rfl
@[simp] theorem eff_seats_clk (f : Seats → Seats) (s : State) : (applyEff (.seats f) s).clk = s.clk := rfl
@[simp] theorem eff_seats_pwr (f : Seats → Seats) (s : State) : (applyEff (.seats f) s).pwr = s.pwr := rfl
@[simp] theorem eff_seats_rd (f : Seats → Seats) (s : State) (o : Nat) : (applyEff (.seats f) s).rd o = s.rd o := rfl
@[simp] theorem eff_seats_fld (f : Seats → Seats) (s : State) (o lo w : Nat) : (applyEff (.seats f) s).fld o lo w = s.fld o lo w := rfl
@[simp] theorem eff_seats_bitAt (f : Seats → Seats) (s : State) (o i : Nat) : (applyEff (.seats f) s).bitAt o i = s.bitAt o i := rfl
@[simp] theorem eff_seats_cm (f : Seats → Seats) (s : State) (o : Nat) : (applyEff (.seats f) s).cm o = s.cm o := rfl

/-! ### Effect worlds -/

@[simp] theorem eff_worlds_pending (f : Worlds → Worlds) (s : State) : (applyEff (.worlds f) s).pending = s.pending := rfl
@[simp] theorem eff_worlds_csr (f : Worlds → Worlds) (s : State) : (applyEff (.worlds f) s).csr = s.csr := rfl
@[simp] theorem eff_worlds_com (f : Worlds → Worlds) (s : State) : (applyEff (.worlds f) s).com = s.com := rfl
@[simp] theorem eff_worlds_mem (f : Worlds → Worlds) (s : State) : (applyEff (.worlds f) s).mem = s.mem := rfl
@[simp] theorem eff_worlds_ecc (f : Worlds → Worlds) (s : State) : (applyEff (.worlds f) s).ecc = s.ecc := rfl
@[simp] theorem eff_worlds_rdata (f : Worlds → Worlds) (s : State) : (applyEff (.worlds f) s).rdata = s.rdata := rfl
@[simp] theorem eff_worlds_fv (f : Worlds → Worlds) (s : State) : (applyEff (.worlds f) s).fv = s.fv := rfl
@[simp] theorem eff_worlds_tts (f : Worlds → Worlds) (s : State) : (applyEff (.worlds f) s).tts = s.tts := rfl
@[simp] theorem eff_worlds_cfe (f : Worlds → Worlds) (s : State) : (applyEff (.worlds f) s).cfe = s.cfe := rfl
@[simp] theorem eff_worlds_adm (f : Worlds → Worlds) (s : State) : (applyEff (.worlds f) s).adm = s.adm := rfl
@[simp] theorem eff_worlds_seats (f : Worlds → Worlds) (s : State) : (applyEff (.worlds f) s).seats = s.seats := rfl
@[simp] theorem eff_worlds_worlds (f : Worlds → Worlds) (s : State) : (applyEff (.worlds f) s).worlds = f s.worlds := rfl
@[simp] theorem eff_worlds_memc (f : Worlds → Worlds) (s : State) : (applyEff (.worlds f) s).memc = s.memc := rfl
@[simp] theorem eff_worlds_dma (f : Worlds → Worlds) (s : State) : (applyEff (.worlds f) s).dma = s.dma := rfl
@[simp] theorem eff_worlds_chk (f : Worlds → Worlds) (s : State) : (applyEff (.worlds f) s).chk = s.chk := rfl
@[simp] theorem eff_worlds_pic (f : Worlds → Worlds) (s : State) : (applyEff (.worlds f) s).pic = s.pic := rfl
@[simp] theorem eff_worlds_vid (f : Worlds → Worlds) (s : State) : (applyEff (.worlds f) s).vid = s.vid := rfl
@[simp] theorem eff_worlds_med (f : Worlds → Worlds) (s : State) : (applyEff (.worlds f) s).med = s.med := rfl
@[simp] theorem eff_worlds_flt (f : Worlds → Worlds) (s : State) : (applyEff (.worlds f) s).flt = s.flt := rfl
@[simp] theorem eff_worlds_clk (f : Worlds → Worlds) (s : State) : (applyEff (.worlds f) s).clk = s.clk := rfl
@[simp] theorem eff_worlds_pwr (f : Worlds → Worlds) (s : State) : (applyEff (.worlds f) s).pwr = s.pwr := rfl
@[simp] theorem eff_worlds_rd (f : Worlds → Worlds) (s : State) (o : Nat) : (applyEff (.worlds f) s).rd o = s.rd o := rfl
@[simp] theorem eff_worlds_fld (f : Worlds → Worlds) (s : State) (o lo w : Nat) : (applyEff (.worlds f) s).fld o lo w = s.fld o lo w := rfl
@[simp] theorem eff_worlds_bitAt (f : Worlds → Worlds) (s : State) (o i : Nat) : (applyEff (.worlds f) s).bitAt o i = s.bitAt o i := rfl
@[simp] theorem eff_worlds_cm (f : Worlds → Worlds) (s : State) (o : Nat) : (applyEff (.worlds f) s).cm o = s.cm o := rfl

/-! ### Effect memc -/

@[simp] theorem eff_memc_pending (f : MemCtl → MemCtl) (s : State) : (applyEff (.memc f) s).pending = s.pending := rfl
@[simp] theorem eff_memc_csr (f : MemCtl → MemCtl) (s : State) : (applyEff (.memc f) s).csr = s.csr := rfl
@[simp] theorem eff_memc_com (f : MemCtl → MemCtl) (s : State) : (applyEff (.memc f) s).com = s.com := rfl
@[simp] theorem eff_memc_mem (f : MemCtl → MemCtl) (s : State) : (applyEff (.memc f) s).mem = s.mem := rfl
@[simp] theorem eff_memc_ecc (f : MemCtl → MemCtl) (s : State) : (applyEff (.memc f) s).ecc = s.ecc := rfl
@[simp] theorem eff_memc_rdata (f : MemCtl → MemCtl) (s : State) : (applyEff (.memc f) s).rdata = s.rdata := rfl
@[simp] theorem eff_memc_fv (f : MemCtl → MemCtl) (s : State) : (applyEff (.memc f) s).fv = s.fv := rfl
@[simp] theorem eff_memc_tts (f : MemCtl → MemCtl) (s : State) : (applyEff (.memc f) s).tts = s.tts := rfl
@[simp] theorem eff_memc_cfe (f : MemCtl → MemCtl) (s : State) : (applyEff (.memc f) s).cfe = s.cfe := rfl
@[simp] theorem eff_memc_adm (f : MemCtl → MemCtl) (s : State) : (applyEff (.memc f) s).adm = s.adm := rfl
@[simp] theorem eff_memc_seats (f : MemCtl → MemCtl) (s : State) : (applyEff (.memc f) s).seats = s.seats := rfl
@[simp] theorem eff_memc_worlds (f : MemCtl → MemCtl) (s : State) : (applyEff (.memc f) s).worlds = s.worlds := rfl
@[simp] theorem eff_memc_memc (f : MemCtl → MemCtl) (s : State) : (applyEff (.memc f) s).memc = f s.memc := rfl
@[simp] theorem eff_memc_dma (f : MemCtl → MemCtl) (s : State) : (applyEff (.memc f) s).dma = s.dma := rfl
@[simp] theorem eff_memc_chk (f : MemCtl → MemCtl) (s : State) : (applyEff (.memc f) s).chk = s.chk := rfl
@[simp] theorem eff_memc_pic (f : MemCtl → MemCtl) (s : State) : (applyEff (.memc f) s).pic = s.pic := rfl
@[simp] theorem eff_memc_vid (f : MemCtl → MemCtl) (s : State) : (applyEff (.memc f) s).vid = s.vid := rfl
@[simp] theorem eff_memc_med (f : MemCtl → MemCtl) (s : State) : (applyEff (.memc f) s).med = s.med := rfl
@[simp] theorem eff_memc_flt (f : MemCtl → MemCtl) (s : State) : (applyEff (.memc f) s).flt = s.flt := rfl
@[simp] theorem eff_memc_clk (f : MemCtl → MemCtl) (s : State) : (applyEff (.memc f) s).clk = s.clk := rfl
@[simp] theorem eff_memc_pwr (f : MemCtl → MemCtl) (s : State) : (applyEff (.memc f) s).pwr = s.pwr := rfl
@[simp] theorem eff_memc_rd (f : MemCtl → MemCtl) (s : State) (o : Nat) : (applyEff (.memc f) s).rd o = s.rd o := rfl
@[simp] theorem eff_memc_fld (f : MemCtl → MemCtl) (s : State) (o lo w : Nat) : (applyEff (.memc f) s).fld o lo w = s.fld o lo w := rfl
@[simp] theorem eff_memc_bitAt (f : MemCtl → MemCtl) (s : State) (o i : Nat) : (applyEff (.memc f) s).bitAt o i = s.bitAt o i := rfl
@[simp] theorem eff_memc_cm (f : MemCtl → MemCtl) (s : State) (o : Nat) : (applyEff (.memc f) s).cm o = s.cm o := rfl

/-! ### Effect dma -/

@[simp] theorem eff_dma_pending (k : Nat) (v : DmaCh) (s : State) : (applyEff (.dma k v) s).pending = s.pending := rfl
@[simp] theorem eff_dma_csr (k : Nat) (v : DmaCh) (s : State) : (applyEff (.dma k v) s).csr = s.csr := rfl
@[simp] theorem eff_dma_com (k : Nat) (v : DmaCh) (s : State) : (applyEff (.dma k v) s).com = s.com := rfl
@[simp] theorem eff_dma_mem (k : Nat) (v : DmaCh) (s : State) : (applyEff (.dma k v) s).mem = s.mem := rfl
@[simp] theorem eff_dma_ecc (k : Nat) (v : DmaCh) (s : State) : (applyEff (.dma k v) s).ecc = s.ecc := rfl
@[simp] theorem eff_dma_rdata (k : Nat) (v : DmaCh) (s : State) : (applyEff (.dma k v) s).rdata = s.rdata := rfl
@[simp] theorem eff_dma_fv (k : Nat) (v : DmaCh) (s : State) : (applyEff (.dma k v) s).fv = s.fv := rfl
@[simp] theorem eff_dma_tts (k : Nat) (v : DmaCh) (s : State) : (applyEff (.dma k v) s).tts = s.tts := rfl
@[simp] theorem eff_dma_cfe (k : Nat) (v : DmaCh) (s : State) : (applyEff (.dma k v) s).cfe = s.cfe := rfl
@[simp] theorem eff_dma_adm (k : Nat) (v : DmaCh) (s : State) : (applyEff (.dma k v) s).adm = s.adm := rfl
@[simp] theorem eff_dma_seats (k : Nat) (v : DmaCh) (s : State) : (applyEff (.dma k v) s).seats = s.seats := rfl
@[simp] theorem eff_dma_worlds (k : Nat) (v : DmaCh) (s : State) : (applyEff (.dma k v) s).worlds = s.worlds := rfl
@[simp] theorem eff_dma_memc (k : Nat) (v : DmaCh) (s : State) : (applyEff (.dma k v) s).memc = s.memc := rfl
@[simp] theorem eff_dma_dma (k : Nat) (v : DmaCh) (s : State) : (applyEff (.dma k v) s).dma = mapPut dmaIdle k v s.dma := rfl
@[simp] theorem eff_dma_chk (k : Nat) (v : DmaCh) (s : State) : (applyEff (.dma k v) s).chk = s.chk := rfl
@[simp] theorem eff_dma_pic (k : Nat) (v : DmaCh) (s : State) : (applyEff (.dma k v) s).pic = s.pic := rfl
@[simp] theorem eff_dma_vid (k : Nat) (v : DmaCh) (s : State) : (applyEff (.dma k v) s).vid = s.vid := rfl
@[simp] theorem eff_dma_med (k : Nat) (v : DmaCh) (s : State) : (applyEff (.dma k v) s).med = s.med := rfl
@[simp] theorem eff_dma_flt (k : Nat) (v : DmaCh) (s : State) : (applyEff (.dma k v) s).flt = s.flt := rfl
@[simp] theorem eff_dma_clk (k : Nat) (v : DmaCh) (s : State) : (applyEff (.dma k v) s).clk = s.clk := rfl
@[simp] theorem eff_dma_pwr (k : Nat) (v : DmaCh) (s : State) : (applyEff (.dma k v) s).pwr = s.pwr := rfl
@[simp] theorem eff_dma_rd (k : Nat) (v : DmaCh) (s : State) (o : Nat) : (applyEff (.dma k v) s).rd o = s.rd o := rfl
@[simp] theorem eff_dma_fld (k : Nat) (v : DmaCh) (s : State) (o lo w : Nat) : (applyEff (.dma k v) s).fld o lo w = s.fld o lo w := rfl
@[simp] theorem eff_dma_bitAt (k : Nat) (v : DmaCh) (s : State) (o i : Nat) : (applyEff (.dma k v) s).bitAt o i = s.bitAt o i := rfl
@[simp] theorem eff_dma_cm (k : Nat) (v : DmaCh) (s : State) (o : Nat) : (applyEff (.dma k v) s).cm o = s.cm o := rfl

/-! ### Effect chk -/

@[simp] theorem eff_chk_pending (u : Nat) (v : ChkUnit) (s : State) : (applyEff (.chk u v) s).pending = s.pending := rfl
@[simp] theorem eff_chk_csr (u : Nat) (v : ChkUnit) (s : State) : (applyEff (.chk u v) s).csr = s.csr := rfl
@[simp] theorem eff_chk_com (u : Nat) (v : ChkUnit) (s : State) : (applyEff (.chk u v) s).com = s.com := rfl
@[simp] theorem eff_chk_mem (u : Nat) (v : ChkUnit) (s : State) : (applyEff (.chk u v) s).mem = s.mem := rfl
@[simp] theorem eff_chk_ecc (u : Nat) (v : ChkUnit) (s : State) : (applyEff (.chk u v) s).ecc = s.ecc := rfl
@[simp] theorem eff_chk_rdata (u : Nat) (v : ChkUnit) (s : State) : (applyEff (.chk u v) s).rdata = s.rdata := rfl
@[simp] theorem eff_chk_fv (u : Nat) (v : ChkUnit) (s : State) : (applyEff (.chk u v) s).fv = s.fv := rfl
@[simp] theorem eff_chk_tts (u : Nat) (v : ChkUnit) (s : State) : (applyEff (.chk u v) s).tts = s.tts := rfl
@[simp] theorem eff_chk_cfe (u : Nat) (v : ChkUnit) (s : State) : (applyEff (.chk u v) s).cfe = s.cfe := rfl
@[simp] theorem eff_chk_adm (u : Nat) (v : ChkUnit) (s : State) : (applyEff (.chk u v) s).adm = s.adm := rfl
@[simp] theorem eff_chk_seats (u : Nat) (v : ChkUnit) (s : State) : (applyEff (.chk u v) s).seats = s.seats := rfl
@[simp] theorem eff_chk_worlds (u : Nat) (v : ChkUnit) (s : State) : (applyEff (.chk u v) s).worlds = s.worlds := rfl
@[simp] theorem eff_chk_memc (u : Nat) (v : ChkUnit) (s : State) : (applyEff (.chk u v) s).memc = s.memc := rfl
@[simp] theorem eff_chk_dma (u : Nat) (v : ChkUnit) (s : State) : (applyEff (.chk u v) s).dma = s.dma := rfl
@[simp] theorem eff_chk_chk (u : Nat) (v : ChkUnit) (s : State) : (applyEff (.chk u v) s).chk = mapPut chkIdle u v s.chk := rfl
@[simp] theorem eff_chk_pic (u : Nat) (v : ChkUnit) (s : State) : (applyEff (.chk u v) s).pic = s.pic := rfl
@[simp] theorem eff_chk_vid (u : Nat) (v : ChkUnit) (s : State) : (applyEff (.chk u v) s).vid = s.vid := rfl
@[simp] theorem eff_chk_med (u : Nat) (v : ChkUnit) (s : State) : (applyEff (.chk u v) s).med = s.med := rfl
@[simp] theorem eff_chk_flt (u : Nat) (v : ChkUnit) (s : State) : (applyEff (.chk u v) s).flt = s.flt := rfl
@[simp] theorem eff_chk_clk (u : Nat) (v : ChkUnit) (s : State) : (applyEff (.chk u v) s).clk = s.clk := rfl
@[simp] theorem eff_chk_pwr (u : Nat) (v : ChkUnit) (s : State) : (applyEff (.chk u v) s).pwr = s.pwr := rfl
@[simp] theorem eff_chk_rd (u : Nat) (v : ChkUnit) (s : State) (o : Nat) : (applyEff (.chk u v) s).rd o = s.rd o := rfl
@[simp] theorem eff_chk_fld (u : Nat) (v : ChkUnit) (s : State) (o lo w : Nat) : (applyEff (.chk u v) s).fld o lo w = s.fld o lo w := rfl
@[simp] theorem eff_chk_bitAt (u : Nat) (v : ChkUnit) (s : State) (o i : Nat) : (applyEff (.chk u v) s).bitAt o i = s.bitAt o i := rfl
@[simp] theorem eff_chk_cm (u : Nat) (v : ChkUnit) (s : State) (o : Nat) : (applyEff (.chk u v) s).cm o = s.cm o := rfl

/-! ### Effect pic -/

@[simp] theorem eff_pic_pending (f : Pic → Pic) (s : State) : (applyEff (.pic f) s).pending = s.pending := rfl
@[simp] theorem eff_pic_csr (f : Pic → Pic) (s : State) : (applyEff (.pic f) s).csr = s.csr := rfl
@[simp] theorem eff_pic_com (f : Pic → Pic) (s : State) : (applyEff (.pic f) s).com = s.com := rfl
@[simp] theorem eff_pic_mem (f : Pic → Pic) (s : State) : (applyEff (.pic f) s).mem = s.mem := rfl
@[simp] theorem eff_pic_ecc (f : Pic → Pic) (s : State) : (applyEff (.pic f) s).ecc = s.ecc := rfl
@[simp] theorem eff_pic_rdata (f : Pic → Pic) (s : State) : (applyEff (.pic f) s).rdata = s.rdata := rfl
@[simp] theorem eff_pic_fv (f : Pic → Pic) (s : State) : (applyEff (.pic f) s).fv = s.fv := rfl
@[simp] theorem eff_pic_tts (f : Pic → Pic) (s : State) : (applyEff (.pic f) s).tts = s.tts := rfl
@[simp] theorem eff_pic_cfe (f : Pic → Pic) (s : State) : (applyEff (.pic f) s).cfe = s.cfe := rfl
@[simp] theorem eff_pic_adm (f : Pic → Pic) (s : State) : (applyEff (.pic f) s).adm = s.adm := rfl
@[simp] theorem eff_pic_seats (f : Pic → Pic) (s : State) : (applyEff (.pic f) s).seats = s.seats := rfl
@[simp] theorem eff_pic_worlds (f : Pic → Pic) (s : State) : (applyEff (.pic f) s).worlds = s.worlds := rfl
@[simp] theorem eff_pic_memc (f : Pic → Pic) (s : State) : (applyEff (.pic f) s).memc = s.memc := rfl
@[simp] theorem eff_pic_dma (f : Pic → Pic) (s : State) : (applyEff (.pic f) s).dma = s.dma := rfl
@[simp] theorem eff_pic_chk (f : Pic → Pic) (s : State) : (applyEff (.pic f) s).chk = s.chk := rfl
@[simp] theorem eff_pic_pic (f : Pic → Pic) (s : State) : (applyEff (.pic f) s).pic = f s.pic := rfl
@[simp] theorem eff_pic_vid (f : Pic → Pic) (s : State) : (applyEff (.pic f) s).vid = s.vid := rfl
@[simp] theorem eff_pic_med (f : Pic → Pic) (s : State) : (applyEff (.pic f) s).med = s.med := rfl
@[simp] theorem eff_pic_flt (f : Pic → Pic) (s : State) : (applyEff (.pic f) s).flt = s.flt := rfl
@[simp] theorem eff_pic_clk (f : Pic → Pic) (s : State) : (applyEff (.pic f) s).clk = s.clk := rfl
@[simp] theorem eff_pic_pwr (f : Pic → Pic) (s : State) : (applyEff (.pic f) s).pwr = s.pwr := rfl
@[simp] theorem eff_pic_rd (f : Pic → Pic) (s : State) (o : Nat) : (applyEff (.pic f) s).rd o = s.rd o := rfl
@[simp] theorem eff_pic_fld (f : Pic → Pic) (s : State) (o lo w : Nat) : (applyEff (.pic f) s).fld o lo w = s.fld o lo w := rfl
@[simp] theorem eff_pic_bitAt (f : Pic → Pic) (s : State) (o i : Nat) : (applyEff (.pic f) s).bitAt o i = s.bitAt o i := rfl
@[simp] theorem eff_pic_cm (f : Pic → Pic) (s : State) (o : Nat) : (applyEff (.pic f) s).cm o = s.cm o := rfl

/-! ### Effect vid -/

@[simp] theorem eff_vid_pending (f : Vid → Vid) (s : State) : (applyEff (.vid f) s).pending = s.pending := rfl
@[simp] theorem eff_vid_csr (f : Vid → Vid) (s : State) : (applyEff (.vid f) s).csr = s.csr := rfl
@[simp] theorem eff_vid_com (f : Vid → Vid) (s : State) : (applyEff (.vid f) s).com = s.com := rfl
@[simp] theorem eff_vid_mem (f : Vid → Vid) (s : State) : (applyEff (.vid f) s).mem = s.mem := rfl
@[simp] theorem eff_vid_ecc (f : Vid → Vid) (s : State) : (applyEff (.vid f) s).ecc = s.ecc := rfl
@[simp] theorem eff_vid_rdata (f : Vid → Vid) (s : State) : (applyEff (.vid f) s).rdata = s.rdata := rfl
@[simp] theorem eff_vid_fv (f : Vid → Vid) (s : State) : (applyEff (.vid f) s).fv = s.fv := rfl
@[simp] theorem eff_vid_tts (f : Vid → Vid) (s : State) : (applyEff (.vid f) s).tts = s.tts := rfl
@[simp] theorem eff_vid_cfe (f : Vid → Vid) (s : State) : (applyEff (.vid f) s).cfe = s.cfe := rfl
@[simp] theorem eff_vid_adm (f : Vid → Vid) (s : State) : (applyEff (.vid f) s).adm = s.adm := rfl
@[simp] theorem eff_vid_seats (f : Vid → Vid) (s : State) : (applyEff (.vid f) s).seats = s.seats := rfl
@[simp] theorem eff_vid_worlds (f : Vid → Vid) (s : State) : (applyEff (.vid f) s).worlds = s.worlds := rfl
@[simp] theorem eff_vid_memc (f : Vid → Vid) (s : State) : (applyEff (.vid f) s).memc = s.memc := rfl
@[simp] theorem eff_vid_dma (f : Vid → Vid) (s : State) : (applyEff (.vid f) s).dma = s.dma := rfl
@[simp] theorem eff_vid_chk (f : Vid → Vid) (s : State) : (applyEff (.vid f) s).chk = s.chk := rfl
@[simp] theorem eff_vid_pic (f : Vid → Vid) (s : State) : (applyEff (.vid f) s).pic = s.pic := rfl
@[simp] theorem eff_vid_vid (f : Vid → Vid) (s : State) : (applyEff (.vid f) s).vid = f s.vid := rfl
@[simp] theorem eff_vid_med (f : Vid → Vid) (s : State) : (applyEff (.vid f) s).med = s.med := rfl
@[simp] theorem eff_vid_flt (f : Vid → Vid) (s : State) : (applyEff (.vid f) s).flt = s.flt := rfl
@[simp] theorem eff_vid_clk (f : Vid → Vid) (s : State) : (applyEff (.vid f) s).clk = s.clk := rfl
@[simp] theorem eff_vid_pwr (f : Vid → Vid) (s : State) : (applyEff (.vid f) s).pwr = s.pwr := rfl
@[simp] theorem eff_vid_rd (f : Vid → Vid) (s : State) (o : Nat) : (applyEff (.vid f) s).rd o = s.rd o := rfl
@[simp] theorem eff_vid_fld (f : Vid → Vid) (s : State) (o lo w : Nat) : (applyEff (.vid f) s).fld o lo w = s.fld o lo w := rfl
@[simp] theorem eff_vid_bitAt (f : Vid → Vid) (s : State) (o i : Nat) : (applyEff (.vid f) s).bitAt o i = s.bitAt o i := rfl
@[simp] theorem eff_vid_cm (f : Vid → Vid) (s : State) (o : Nat) : (applyEff (.vid f) s).cm o = s.cm o := rfl

/-! ### Effect med -/

@[simp] theorem eff_med_pending (f : Med → Med) (s : State) : (applyEff (.med f) s).pending = s.pending := rfl
@[simp] theorem eff_med_csr (f : Med → Med) (s : State) : (applyEff (.med f) s).csr = s.csr := rfl
@[simp] theorem eff_med_com (f : Med → Med) (s : State) : (applyEff (.med f) s).com = s.com := rfl
@[simp] theorem eff_med_mem (f : Med → Med) (s : State) : (applyEff (.med f) s).mem = s.mem := rfl
@[simp] theorem eff_med_ecc (f : Med → Med) (s : State) : (applyEff (.med f) s).ecc = s.ecc := rfl
@[simp] theorem eff_med_rdata (f : Med → Med) (s : State) : (applyEff (.med f) s).rdata = s.rdata := rfl
@[simp] theorem eff_med_fv (f : Med → Med) (s : State) : (applyEff (.med f) s).fv = s.fv := rfl
@[simp] theorem eff_med_tts (f : Med → Med) (s : State) : (applyEff (.med f) s).tts = s.tts := rfl
@[simp] theorem eff_med_cfe (f : Med → Med) (s : State) : (applyEff (.med f) s).cfe = s.cfe := rfl
@[simp] theorem eff_med_adm (f : Med → Med) (s : State) : (applyEff (.med f) s).adm = s.adm := rfl
@[simp] theorem eff_med_seats (f : Med → Med) (s : State) : (applyEff (.med f) s).seats = s.seats := rfl
@[simp] theorem eff_med_worlds (f : Med → Med) (s : State) : (applyEff (.med f) s).worlds = s.worlds := rfl
@[simp] theorem eff_med_memc (f : Med → Med) (s : State) : (applyEff (.med f) s).memc = s.memc := rfl
@[simp] theorem eff_med_dma (f : Med → Med) (s : State) : (applyEff (.med f) s).dma = s.dma := rfl
@[simp] theorem eff_med_chk (f : Med → Med) (s : State) : (applyEff (.med f) s).chk = s.chk := rfl
@[simp] theorem eff_med_pic (f : Med → Med) (s : State) : (applyEff (.med f) s).pic = s.pic := rfl
@[simp] theorem eff_med_vid (f : Med → Med) (s : State) : (applyEff (.med f) s).vid = s.vid := rfl
@[simp] theorem eff_med_med (f : Med → Med) (s : State) : (applyEff (.med f) s).med = f s.med := rfl
@[simp] theorem eff_med_flt (f : Med → Med) (s : State) : (applyEff (.med f) s).flt = s.flt := rfl
@[simp] theorem eff_med_clk (f : Med → Med) (s : State) : (applyEff (.med f) s).clk = s.clk := rfl
@[simp] theorem eff_med_pwr (f : Med → Med) (s : State) : (applyEff (.med f) s).pwr = s.pwr := rfl
@[simp] theorem eff_med_rd (f : Med → Med) (s : State) (o : Nat) : (applyEff (.med f) s).rd o = s.rd o := rfl
@[simp] theorem eff_med_fld (f : Med → Med) (s : State) (o lo w : Nat) : (applyEff (.med f) s).fld o lo w = s.fld o lo w := rfl
@[simp] theorem eff_med_bitAt (f : Med → Med) (s : State) (o i : Nat) : (applyEff (.med f) s).bitAt o i = s.bitAt o i := rfl
@[simp] theorem eff_med_cm (f : Med → Med) (s : State) (o : Nat) : (applyEff (.med f) s).cm o = s.cm o := rfl

/-! ### Effect flt -/

@[simp] theorem eff_flt_pending (f : Flt → Flt) (s : State) : (applyEff (.flt f) s).pending = s.pending := rfl
@[simp] theorem eff_flt_csr (f : Flt → Flt) (s : State) : (applyEff (.flt f) s).csr = s.csr := rfl
@[simp] theorem eff_flt_com (f : Flt → Flt) (s : State) : (applyEff (.flt f) s).com = s.com := rfl
@[simp] theorem eff_flt_mem (f : Flt → Flt) (s : State) : (applyEff (.flt f) s).mem = s.mem := rfl
@[simp] theorem eff_flt_ecc (f : Flt → Flt) (s : State) : (applyEff (.flt f) s).ecc = s.ecc := rfl
@[simp] theorem eff_flt_rdata (f : Flt → Flt) (s : State) : (applyEff (.flt f) s).rdata = s.rdata := rfl
@[simp] theorem eff_flt_fv (f : Flt → Flt) (s : State) : (applyEff (.flt f) s).fv = s.fv := rfl
@[simp] theorem eff_flt_tts (f : Flt → Flt) (s : State) : (applyEff (.flt f) s).tts = s.tts := rfl
@[simp] theorem eff_flt_cfe (f : Flt → Flt) (s : State) : (applyEff (.flt f) s).cfe = s.cfe := rfl
@[simp] theorem eff_flt_adm (f : Flt → Flt) (s : State) : (applyEff (.flt f) s).adm = s.adm := rfl
@[simp] theorem eff_flt_seats (f : Flt → Flt) (s : State) : (applyEff (.flt f) s).seats = s.seats := rfl
@[simp] theorem eff_flt_worlds (f : Flt → Flt) (s : State) : (applyEff (.flt f) s).worlds = s.worlds := rfl
@[simp] theorem eff_flt_memc (f : Flt → Flt) (s : State) : (applyEff (.flt f) s).memc = s.memc := rfl
@[simp] theorem eff_flt_dma (f : Flt → Flt) (s : State) : (applyEff (.flt f) s).dma = s.dma := rfl
@[simp] theorem eff_flt_chk (f : Flt → Flt) (s : State) : (applyEff (.flt f) s).chk = s.chk := rfl
@[simp] theorem eff_flt_pic (f : Flt → Flt) (s : State) : (applyEff (.flt f) s).pic = s.pic := rfl
@[simp] theorem eff_flt_vid (f : Flt → Flt) (s : State) : (applyEff (.flt f) s).vid = s.vid := rfl
@[simp] theorem eff_flt_med (f : Flt → Flt) (s : State) : (applyEff (.flt f) s).med = s.med := rfl
@[simp] theorem eff_flt_flt (f : Flt → Flt) (s : State) : (applyEff (.flt f) s).flt = { f s.flt with safe := s.flt.safe } := rfl
@[simp] theorem eff_flt_clk (f : Flt → Flt) (s : State) : (applyEff (.flt f) s).clk = s.clk := rfl
@[simp] theorem eff_flt_pwr (f : Flt → Flt) (s : State) : (applyEff (.flt f) s).pwr = s.pwr := rfl
@[simp] theorem eff_flt_rd (f : Flt → Flt) (s : State) (o : Nat) : (applyEff (.flt f) s).rd o = s.rd o := rfl
@[simp] theorem eff_flt_fld (f : Flt → Flt) (s : State) (o lo w : Nat) : (applyEff (.flt f) s).fld o lo w = s.fld o lo w := rfl
@[simp] theorem eff_flt_bitAt (f : Flt → Flt) (s : State) (o i : Nat) : (applyEff (.flt f) s).bitAt o i = s.bitAt o i := rfl
@[simp] theorem eff_flt_cm (f : Flt → Flt) (s : State) (o : Nat) : (applyEff (.flt f) s).cm o = s.cm o := rfl

/-! ### Effect clk -/

@[simp] theorem eff_clk_pending (f : Clk → Clk) (s : State) : (applyEff (.clk f) s).pending = s.pending := rfl
@[simp] theorem eff_clk_csr (f : Clk → Clk) (s : State) : (applyEff (.clk f) s).csr = s.csr := rfl
@[simp] theorem eff_clk_com (f : Clk → Clk) (s : State) : (applyEff (.clk f) s).com = s.com := rfl
@[simp] theorem eff_clk_mem (f : Clk → Clk) (s : State) : (applyEff (.clk f) s).mem = s.mem := rfl
@[simp] theorem eff_clk_ecc (f : Clk → Clk) (s : State) : (applyEff (.clk f) s).ecc = s.ecc := rfl
@[simp] theorem eff_clk_rdata (f : Clk → Clk) (s : State) : (applyEff (.clk f) s).rdata = s.rdata := rfl
@[simp] theorem eff_clk_fv (f : Clk → Clk) (s : State) : (applyEff (.clk f) s).fv = s.fv := rfl
@[simp] theorem eff_clk_tts (f : Clk → Clk) (s : State) : (applyEff (.clk f) s).tts = s.tts := rfl
@[simp] theorem eff_clk_cfe (f : Clk → Clk) (s : State) : (applyEff (.clk f) s).cfe = s.cfe := rfl
@[simp] theorem eff_clk_adm (f : Clk → Clk) (s : State) : (applyEff (.clk f) s).adm = s.adm := rfl
@[simp] theorem eff_clk_seats (f : Clk → Clk) (s : State) : (applyEff (.clk f) s).seats = s.seats := rfl
@[simp] theorem eff_clk_worlds (f : Clk → Clk) (s : State) : (applyEff (.clk f) s).worlds = s.worlds := rfl
@[simp] theorem eff_clk_memc (f : Clk → Clk) (s : State) : (applyEff (.clk f) s).memc = s.memc := rfl
@[simp] theorem eff_clk_dma (f : Clk → Clk) (s : State) : (applyEff (.clk f) s).dma = s.dma := rfl
@[simp] theorem eff_clk_chk (f : Clk → Clk) (s : State) : (applyEff (.clk f) s).chk = s.chk := rfl
@[simp] theorem eff_clk_pic (f : Clk → Clk) (s : State) : (applyEff (.clk f) s).pic = s.pic := rfl
@[simp] theorem eff_clk_vid (f : Clk → Clk) (s : State) : (applyEff (.clk f) s).vid = s.vid := rfl
@[simp] theorem eff_clk_med (f : Clk → Clk) (s : State) : (applyEff (.clk f) s).med = s.med := rfl
@[simp] theorem eff_clk_flt (f : Clk → Clk) (s : State) : (applyEff (.clk f) s).flt = s.flt := rfl
@[simp] theorem eff_clk_clk (f : Clk → Clk) (s : State) : (applyEff (.clk f) s).clk = f s.clk := rfl
@[simp] theorem eff_clk_pwr (f : Clk → Clk) (s : State) : (applyEff (.clk f) s).pwr = s.pwr := rfl
@[simp] theorem eff_clk_rd (f : Clk → Clk) (s : State) (o : Nat) : (applyEff (.clk f) s).rd o = s.rd o := rfl
@[simp] theorem eff_clk_fld (f : Clk → Clk) (s : State) (o lo w : Nat) : (applyEff (.clk f) s).fld o lo w = s.fld o lo w := rfl
@[simp] theorem eff_clk_bitAt (f : Clk → Clk) (s : State) (o i : Nat) : (applyEff (.clk f) s).bitAt o i = s.bitAt o i := rfl
@[simp] theorem eff_clk_cm (f : Clk → Clk) (s : State) (o : Nat) : (applyEff (.clk f) s).cm o = s.cm o := rfl

/-! ### Effect pwr -/

@[simp] theorem eff_pwr_pending (f : Pwr → Pwr) (s : State) : (applyEff (.pwr f) s).pending = s.pending := rfl
@[simp] theorem eff_pwr_csr (f : Pwr → Pwr) (s : State) : (applyEff (.pwr f) s).csr = s.csr := rfl
@[simp] theorem eff_pwr_com (f : Pwr → Pwr) (s : State) : (applyEff (.pwr f) s).com = s.com := rfl
@[simp] theorem eff_pwr_mem (f : Pwr → Pwr) (s : State) : (applyEff (.pwr f) s).mem = s.mem := rfl
@[simp] theorem eff_pwr_ecc (f : Pwr → Pwr) (s : State) : (applyEff (.pwr f) s).ecc = s.ecc := rfl
@[simp] theorem eff_pwr_rdata (f : Pwr → Pwr) (s : State) : (applyEff (.pwr f) s).rdata = s.rdata := rfl
@[simp] theorem eff_pwr_fv (f : Pwr → Pwr) (s : State) : (applyEff (.pwr f) s).fv = s.fv := rfl
@[simp] theorem eff_pwr_tts (f : Pwr → Pwr) (s : State) : (applyEff (.pwr f) s).tts = s.tts := rfl
@[simp] theorem eff_pwr_cfe (f : Pwr → Pwr) (s : State) : (applyEff (.pwr f) s).cfe = s.cfe := rfl
@[simp] theorem eff_pwr_adm (f : Pwr → Pwr) (s : State) : (applyEff (.pwr f) s).adm = s.adm := rfl
@[simp] theorem eff_pwr_seats (f : Pwr → Pwr) (s : State) : (applyEff (.pwr f) s).seats = s.seats := rfl
@[simp] theorem eff_pwr_worlds (f : Pwr → Pwr) (s : State) : (applyEff (.pwr f) s).worlds = s.worlds := rfl
@[simp] theorem eff_pwr_memc (f : Pwr → Pwr) (s : State) : (applyEff (.pwr f) s).memc = s.memc := rfl
@[simp] theorem eff_pwr_dma (f : Pwr → Pwr) (s : State) : (applyEff (.pwr f) s).dma = s.dma := rfl
@[simp] theorem eff_pwr_chk (f : Pwr → Pwr) (s : State) : (applyEff (.pwr f) s).chk = s.chk := rfl
@[simp] theorem eff_pwr_pic (f : Pwr → Pwr) (s : State) : (applyEff (.pwr f) s).pic = s.pic := rfl
@[simp] theorem eff_pwr_vid (f : Pwr → Pwr) (s : State) : (applyEff (.pwr f) s).vid = s.vid := rfl
@[simp] theorem eff_pwr_med (f : Pwr → Pwr) (s : State) : (applyEff (.pwr f) s).med = s.med := rfl
@[simp] theorem eff_pwr_flt (f : Pwr → Pwr) (s : State) : (applyEff (.pwr f) s).flt = s.flt := rfl
@[simp] theorem eff_pwr_clk (f : Pwr → Pwr) (s : State) : (applyEff (.pwr f) s).clk = s.clk := rfl
@[simp] theorem eff_pwr_pwr (f : Pwr → Pwr) (s : State) : (applyEff (.pwr f) s).pwr = f s.pwr := rfl
@[simp] theorem eff_pwr_rd (f : Pwr → Pwr) (s : State) (o : Nat) : (applyEff (.pwr f) s).rd o = s.rd o := rfl
@[simp] theorem eff_pwr_fld (f : Pwr → Pwr) (s : State) (o lo w : Nat) : (applyEff (.pwr f) s).fld o lo w = s.fld o lo w := rfl
@[simp] theorem eff_pwr_bitAt (f : Pwr → Pwr) (s : State) (o i : Nat) : (applyEff (.pwr f) s).bitAt o i = s.bitAt o i := rfl
@[simp] theorem eff_pwr_cm (f : Pwr → Pwr) (s : State) (o : Nat) : (applyEff (.pwr f) s).cm o = s.cm o := rfl

/-! ### Effect safe -/

@[simp] theorem eff_safe_pending (s : State) : (applyEff .safe s).pending = s.pending := rfl
@[simp] theorem eff_safe_csr (s : State) : (applyEff .safe s).csr = s.csr := rfl
@[simp] theorem eff_safe_com (s : State) : (applyEff .safe s).com = s.com := rfl
@[simp] theorem eff_safe_mem (s : State) : (applyEff .safe s).mem = s.mem := rfl
@[simp] theorem eff_safe_ecc (s : State) : (applyEff .safe s).ecc = s.ecc := rfl
@[simp] theorem eff_safe_rdata (s : State) : (applyEff .safe s).rdata = s.rdata := rfl
@[simp] theorem eff_safe_fv (s : State) : (applyEff .safe s).fv = s.fv := rfl
@[simp] theorem eff_safe_tts (s : State) : (applyEff .safe s).tts = s.tts := rfl
@[simp] theorem eff_safe_cfe (s : State) : (applyEff .safe s).cfe = s.cfe := rfl
@[simp] theorem eff_safe_adm (s : State) : (applyEff .safe s).adm = s.adm := rfl
@[simp] theorem eff_safe_seats (s : State) : (applyEff .safe s).seats = s.seats := rfl
@[simp] theorem eff_safe_worlds (s : State) : (applyEff .safe s).worlds = s.worlds := rfl
@[simp] theorem eff_safe_memc (s : State) : (applyEff .safe s).memc = s.memc := rfl
@[simp] theorem eff_safe_dma (s : State) : (applyEff .safe s).dma = s.dma := rfl
@[simp] theorem eff_safe_chk (s : State) : (applyEff .safe s).chk = s.chk := rfl
@[simp] theorem eff_safe_pic (s : State) : (applyEff .safe s).pic = s.pic := rfl
@[simp] theorem eff_safe_vid (s : State) : (applyEff .safe s).vid = s.vid := rfl
@[simp] theorem eff_safe_med (s : State) : (applyEff .safe s).med = s.med := rfl
@[simp] theorem eff_safe_flt (s : State) : (applyEff .safe s).flt = { s.flt with safe := true } := rfl
@[simp] theorem eff_safe_clk (s : State) : (applyEff .safe s).clk = s.clk := rfl
@[simp] theorem eff_safe_pwr (s : State) : (applyEff .safe s).pwr = s.pwr := rfl
@[simp] theorem eff_safe_rd (s : State) (o : Nat) : (applyEff .safe s).rd o = s.rd o := rfl
@[simp] theorem eff_safe_fld (s : State) (o lo w : Nat) : (applyEff .safe s).fld o lo w = s.fld o lo w := rfl
@[simp] theorem eff_safe_bitAt (s : State) (o i : Nat) : (applyEff .safe s).bitAt o i = s.bitAt o i := rfl
@[simp] theorem eff_safe_cm (s : State) (o : Nat) : (applyEff .safe s).cm o = s.cm o := rfl

end Sys2Proof.Machine
end

