-- ==== Sys2Proof/Machine/Package.lean ====
section
/-!
DEFINITION. Machine/Package.lean: the ball field (R597 to R602, R604, R606): which signal or rail each ball of the 57 × 57 field carries, the rails,
the electrical classes, the internal pulls, the lanes of the PCIe links. It is fixed for the part: no command changes it.
-/

namespace Sys2Proof.Machine

/-- The rails (Table 18.6). -/
inductive Rail
  | vddCore | vddSto | vddPhy | vddaPhy | vdd2h | vddq | vddio | vddFuse | vss
deriving DecidableEq, Repr

/-- What a ball carries (Table 18.3). Of a pair, `m` tells the M line from the P line. -/
inductive Ball
  | supply (r : Rail)
  | dq (ch n : Nat) | dmi (ch b : Nat) | rdqs (ch b : Nat) (m : Bool) | wck (ch b : Nat) (m : Bool)
  | ck (ch : Nat) (m : Bool) | ca (ch i : Nat) | cs (ch : Nat) | resetN (ch : Nat)
  | dptTx (n lane : Nat) (m : Bool) | dptAux (n : Nat) (m : Bool) | dptHpd (n : Nat)
  | dpxRx (n lane : Nat) (m : Bool) | dpxAux (n : Nat) (m : Bool) | dpxHpd (n : Nat)
  | pcieTx (k : Nat) (m : Bool) | pcieRx (k : Nat) (m : Bool) | pcieRefclk (m : Bool) | perstN (i : Nat)
  | tdmBclk (p : Nat) | tdmFsync (p : Nat) | tdmDin (p : Nat) | tdmDout (p : Nat)
  | hapBclk (p : Nat) | hapFsync (p : Nat) | hapDout (p : Nat) | hapDin (p : Nat)
  | plClk (n : Nat) | plCmd (n : Nat) | plDat (n i : Nat) | plIrqN (n : Nat)
  | xspClk | xspCsN | xspDqs | xspDq (i : Nat)
  | i3cScl | i3cSda | jtagTck | jtagTms | jtagTdi | jtagTdo | jtagTrstN
  | refclk | porN | faultN | genlockIn | bootLink (i : Nat) | bootSup (i : Nat)
deriving DecidableEq, Repr

/-- The cells of the ball field with their instances (Table 18.2). -/
inductive Cell
  | db (ch b : Nat) | ds (ch b : Nat) | dc (ch : Nat) | dk (ch : Nat)
  | lt (n l : Nat) | lr (n l : Nat) | lp (k : Nat) | st (n : Nat) | sr (n : Nat) | sp
  | ah (p : Nat) | tp (n : Nat) | xa | xb | sa | sb | power (r : Rail)
deriving DecidableEq, Repr

/-- The nine balls of a cell, read row by row from the top, each row from left to right (R599, Table 18.3). -/
def Cell.pattern (c : Cell) : List Ball :=
  let g := Ball.supply .vss
  let phy := Ball.supply .vddPhy
  let phya := Ball.supply .vddaPhy
  let io := Ball.supply .vddio
  let q := Ball.supply .vddq
  let h := Ball.supply .vdd2h
  match c with
  | .db ch b => [.dq ch (8 * b), .dq ch (8 * b + 1), .dq ch (8 * b + 2), .dq ch (8 * b + 3), g, .dq ch (8 * b + 4),
      .dq ch (8 * b + 5), .dq ch (8 * b + 6), .dq ch (8 * b + 7)]
  | .ds ch b => [.rdqs ch b false, .rdqs ch b true, .dmi ch b, g, q, g, .wck ch b false, .wck ch b true, q]
  | .dc ch => [.ca ch 0, .ca ch 1, .ca ch 2, .ca ch 3, g, .ca ch 4, .ca ch 5, .ca ch 6, .cs ch]
  | .dk ch => [.ck ch false, .ck ch true, g, q, h, q, .resetN ch, g, h]
  | .lt n l => [.dptTx n l false, .dptTx n l true, g, g, g, g, .dptTx n (l + 1) false, .dptTx n (l + 1) true, g]
  | .lr n l => [.dpxRx n l false, .dpxRx n l true, g, g, g, g, .dpxRx n (l + 1) false, .dpxRx n (l + 1) true, g]
  | .lp k => [.pcieTx k false, .pcieTx k true, g, g, g, g, .pcieRx k false, .pcieRx k true, g]
  | .st n => [.dptAux n false, .dptAux n true, g, phy, phya, g, .dptHpd n, phy, phya]
  | .sr n => [.dpxAux n false, .dpxAux n true, g, phy, phya, g, .dpxHpd n, phy, phya]
  | .sp => [.pcieRefclk false, .pcieRefclk true, g, .perstN 0, .perstN 1, phya, .perstN 2, .perstN 3, phy]
  | .ah p => [.tdmBclk p, .tdmFsync p, .tdmDin p, .tdmDout p, g, .hapBclk p, .hapFsync p, .hapDout p, .hapDin p]
  | .tp n => [.plClk n, g, .plCmd n, io, .plDat n 0, g, .plDat n 1, io, .plIrqN n]
  | .xa => [.xspClk, g, .xspCsN, io, .xspDqs, g, .xspDq 0, io, .xspDq 1]
  | .xb => [.xspDq 2, .xspDq 3, .xspDq 4, g, io, g, .xspDq 5, .xspDq 6, .xspDq 7]
  | .sa => [.refclk, g, .porN, .faultN, .genlockIn, .bootLink 0, .bootLink 1, .bootSup 0, .bootSup 1]
  | .sb => [.i3cScl, .i3cSda, .supply .vddFuse, .jtagTck, g, .jtagTms, .jtagTdi, .jtagTdo, .jtagTrstN]
  | .power r => [.supply r, g, .supply r, g, .supply r, g, .supply r, g, .supply r]

/-- The cell of a DRAM channel in the `i`-th column of its band, counted from the edge (R600). -/
def dramCell (ch i : Nat) : Cell :=
  match i with
  | 0 => .db ch 0
  | 1 => .ds ch 0
  | 2 => .db ch 1
  | 3 => .ds ch 1
  | 4 => .dc ch
  | _ => .dk ch

/-- The power cells of the centre, rows 6 and 13 (R600). -/
def powerRow (r c : Nat) : Cell :=
  if c ≤ 8 || 12 ≤ c then .power .vddPhy
  else if r = 6 && c ≠ 10 then .power .vddaPhy
  else .power .vddSto

/-- Cell C(r,c), rows and columns from 1 to 19 (R600, Table 18.4). -/
def cellAt (r c : Nat) : Option Cell :=
  if r = 0 || 19 < r || c = 0 || 19 < c then none
  else if r = 1 then some (if c = 1 then .sa else if c ≤ 17 then .lp (c - 2) else if c = 18 then .sp else .sb)
  else if 18 ≤ r then
    some (if c = 1 then .tp (r - 18) else if c = 18 then .tp (r - 16) else if c = 19 then .tp (r - 14)
      else .lt (c - 2) (if r = 18 then 2 else 0))
  else if c ≤ 6 then some (dramCell (r - 2) (c - 1))
  else if 14 ≤ c then some (dramCell (r + 14) (19 - c))
  else if r = 2 then some (.lr (c - 7) 0)
  else if r = 3 then some (.lr (c - 7) 2)
  else if r = 4 then some (.sr (c - 7))
  else if r = 5 then some (if c ≤ 10 then .ah (c - 7) else if c = 11 then .xa else if c = 12 then .xb else .power .vddio)
  else if r = 6 || r = 13 then some (powerRow r c)
  else if r ≤ 12 then some (.power (if c = 10 && (r = 9 || r = 10) then .vddSto else .vddCore))
  else if r = 14 then some (if c ≤ 10 then .ah (c - 3) else if c = 11 then .power .vddio else .power .vddaPhy)
  else if r = 15 then
    some (if c ≤ 8 then .st (c + 7) else if c = 9 then .sr 7 else if c = 10 then .lr 7 0 else if c = 11 then .lr 7 2 else .tp (c - 6))
  else if r = 16 then some (.st c)
  else some (.st (c - 7))

/-- The ball in ball row `y` (1 is A, 57 is BY) and ball column `x` (R597). -/
def ballAt (y x : Nat) : Option Ball :=
  match cellAt ((y + 2) / 3) ((x + 2) / 3) with
  | some c => c.pattern[3 * ((y + 2) % 3) + (x + 2) % 3]?
  | none => none

/-- Every cell of the field, row by row. -/
def cells : List Cell := (List.range 361).filterMap fun i => cellAt (i / 19 + 1) (i % 19 + 1)

/-- How many balls of the field satisfy `p` (R601, R602). -/
def ballCount (p : Ball → Bool) : Nat := (cells.map fun c => c.pattern.countP p).sum

/-- Whether a ball carries a signal. -/
def Ball.isSignal : Ball → Bool
  | .supply _ => false
  | _ => true

/-- Voltage of a rail in millivolts, and the share of its current in milliamperes; the fuse rail is at 0 V but while fuses are programmed
(R602, Table 18.6). -/
def Rail.supplies (r : Rail) (programming : Bool) : Nat × Nat :=
  match r with
  | .vddCore => (750, 96000)
  | .vddSto => (800, 4500)
  | .vddPhy => (850, 14000)
  | .vddaPhy => (1200, 2500)
  | .vdd2h => (1050, 2000)
  | .vddq => (500, 3600)
  | .vddio => (1800, 300)
  | .vddFuse => if programming then (1800, 50) else (0, 0)
  | .vss => (0, 0)

/-- Electrical classes (Table 18.7). -/
inductive ElecClass
  | pcie | hcsl | dptx | dprx | aux | ddr | i3c18 | lv18
deriving DecidableEq, Repr

/-- The class of a signal ball (R604). -/
def Ball.elec : Ball → Option ElecClass
  | .supply _ => none
  | .pcieTx _ _ | .pcieRx _ _ => some .pcie
  | .pcieRefclk _ => some .hcsl
  | .dptTx _ _ _ => some .dptx
  | .dpxRx _ _ _ => some .dprx
  | .dptAux _ _ | .dpxAux _ _ => some .aux
  | .dq _ _ | .dmi _ _ | .rdqs _ _ _ | .wck _ _ _ | .ck _ _ | .ca _ _ | .cs _ | .resetN _ => some .ddr
  | .i3cScl | .i3cSda => some .i3c18
  | _ => some .lv18

/-- The level to which an internal pull holds a pin that nothing drives; none where there is no pull (R606, Table 18.9). -/
def Ball.pull : Ball → Option Bool
  | .tdmBclk _ | .tdmFsync _ | .tdmDin _ | .hapDin _ | .plDat _ _ | .jtagTck | .jtagTrstN => some false
  | .jtagTms | .jtagTdi => some true
  | _ => none

/-- The PCIe lanes of a link, of `n` links in all (R600, Table 18.4). -/
def linkLanes (n link : Nat) : List Nat := (List.range (16 / n)).map fun k => 16 / n * link + k

end Sys2Proof.Machine
end

