-- ==== Sys2Proof/Tests/Slice0.lean ====
section
/-!
SUPPORT. Tests/Slice0.lean: worked examples and check values of the spec, operands that the block does not have, and for every statement of
Certificates/Slice0/Obligations.lean that has hypotheses a state and operands that meet them, clause by clause.
-/

namespace Sys2Proof.Tests

open Sys2Proof Sys2Proof.Machine

set_option Elab.async false

/-! ### States for tests -/

/-- Registers with fields set, each as offset, lowest bit, width, value. -/
def put (s : State) (xs : List (Nat × Nat × Nat × Nat)) : State := xs.foldl (fun s x => s.putFld x.1 x.2.1 x.2.2.1 x.2.2.2) s

/-- Committed registers set. -/
def coms (s : State) (xs : List (Nat × Word)) : State := { s with com := xs.foldl (fun m x => regPut x.1 x.2 m) s.com }

/-- The committed seat table with words set, each as kind, seat, index, word, value. -/
def tbls (s : State) (xs : List (Nat × Nat × Nat × Nat × Word)) : State :=
  { s with seats := { s.seats with tbl := xs.foldl (fun m x => mapPut tblDflt (tblKey x.1 x.2.1 x.2.2.1 x.2.2.2.1) x.2.2.2.2 m) s.seats.tbl } }

/-- A chip that has started: the bell runs, Beyloth and the management core run, memory is trained, one link is up. -/
def booted : State :=
  { State.reset with
    tts := { ttsReset with running := true, bell := 100 }
    adm := { State.reset.adm with mgtUp := true }
    worlds := { worldsReset with beyloth := true, measuring := false }
    memc := { memCtlReset with up := true }
    clk := { State.reset.clk with direct := [] }
    pwr := { State.reset.pwr with boot := 8, perst := [0], links := [0] } }

/-- A started chip whose handshake has made seat 0 the supervisor seat (R185). -/
def up : State := put booted [(Reg.seatGlobalCtrl, 31, 1, 1), (Reg.seatState 0, 0, 3, 1), (Reg.seatState 0, 5, 1, 1)]

/-- Seat 0 with every engine and resource, and three windows at its own addresses: host memory, DRAM, the Store. -/
def own : State :=
  tbls up [(0, 0, 0, 0, 0x1FF00), (1, 0, 0, 0, 0xFFFFFFFFFFFFFFFF), (1, 0, 0, 1, 0xFFFFFFFFFFFFFFFF), (1, 0, 0, 2, 0x1800000),
    (2, 0, 0, 0, 0x100000000F), (2, 0, 0, 1, 0x1FFFFFF000), (2, 0, 0, 2, 0x1000000000),
    (2, 0, 1, 0, 0x2F), (2, 0, 1, 1, 0xFFFFF000), (2, 0, 1, 2, 0),
    (2, 0, 2, 0, 0x10000000004F), (2, 0, 2, 1, 0x100005FFF000), (2, 0, 2, 2, 0x100000000000),
    (4, 0, 5, 0, 0x200)]

/-- A packet header: opcode, length in words, bits besides. -/
def hd (op len : Nat) (more : Nat := 0) : Word := BitVec.ofNat 64 (op * 2 ^ 48 + len * 2 ^ 40 + more)

/-- An outstanding command of seat 0, ring 0, received. -/
def cmdOf (id : Nat) (ws : List Word) : Cmd :=
  { id := id, seat := 0, ring := 0, words := ws, draws := [], stage := .received, bad := 0, seq := 0, rBell := 0, rPeriod := 0, age := 0,
    dl := 104, latest := 0, fault := false, timedOut := false, squashed := false, overrun := false, degraded := false, single := false,
    reserved := 2, slot := none, unitsDone := 0, unitsTotal := 0, part := 0, detail := 0, endBell := 0, endId := 0, inflight := 0,
    squashReq := false, res := [], mute := false }

/-- A state with outstanding commands. -/
def withCmds (s : State) (cs : List Cmd) : State := { s with cfe := { s.cfe with cmds := cs, nextId := cs.length + 1 } }

/-- A state of a started chip with memory behind a power state code. -/
def inState (k : Nat) (s : State) : State := put s [(Reg.pwrStatus, 0, 3, k)]

/-- A started chip whose bell follows the genlock input, with a pulse at instant 0. -/
def genlocked : State := { up with tts := { up.tts with cur := { bellSetReset with mode := 1 }, lastPulse := some 0 } }

/-- Seat 0 with ring 0 enabled, of 16 entries, replies and status in host memory. -/
def ringed : State :=
  put own [(Reg.ringBase 0 0, 0, 1, 1), (Reg.ringBase 0 0, 12, 52, 0x1000100), (Reg.ringPtrs 0 0, 0, 5, 4), (Reg.replyBase 0, 0, 4, 4),
    (Reg.replyBase 0, 12, 52, 0x1000200)]

/-- A read of 8 bytes of DRAM by the DMA station. -/
def aRead : Txn :=
  { station := 162, seat := none, cmd := none, secure := false, kind := .read, atomic := false, addr := 0x1000, len := 8, data := [], host := .ok,
    linkErr := 0 }

/-- A seat reset of seat 0 that began in bell 90. -/
def aReset : SeatReset := { seat := 0, bell := 90, cause := 1, byFlr := false, toDisabled := false }

/-- A state with one unit secure. -/
def sec (u : Nat) (s : State) : State := put s [(Reg.secWorldMap (u / 32), u % 32, 1, 1)]

/-- Memory with words stored, each list from an address up. -/
def memOf (xs : List (Nat × List Word)) : List Host.Cell := xs.foldl (fun m x => memPut x.1 ((x.2.map wordBytes).flatten) m) []

/-- A word of fields, each as lowest bit and value. -/
def wd (xs : List (Nat × Nat)) : Word := BitVec.ofNat 64 (sumOn xs fun x => x.2 * 2 ^ x.1)

/-- A pass of one pixel and one draw: RND_PASS_BEGIN, RND_DRAW. -/
def passWs : List Word := [hd 0x0301 8, 0x3000, wd [(16, 1)], wd [(0, 1), (32, 1)], wd [(32, 256)], 0, 0, wd [(32, 1), (48, 1)]]
/-- Its draw. -/
def drawWs : List Word := [hd 0x0302 5, 0, 0, 0, 0x4000]
/-- A target description of one colour attachment of 64 bytes pitch, and a state block. -/
def targetWs : List Word := [1, 0, 0, 0, 0, 64] ++ List.replicate 34 0
/-- A state block. -/
def stateWs : List Word := [0, 0, 0x3F8000003F800000, 0, 0, 0, 0, 0, 0, 0, 0, 0]
/-- A submission of the secure world in DRAM. -/
def secured (ws : List Word) (xs : List (Nat × List Word)) : State := { up with mem := memOf (xs ++ [(0x1000, ws)]) }

/-- A pass at work for a command. -/
def aPass (k : Option Nat) : RndRun := rndRunNew k (k.map fun _ => 0) passWs [drawWs] targetWs [stateWs]
/-- A dispatch at work for a command. -/
def aDispatch (k : Option Nat) : RndRun := rndRunNew k (k.map fun _ => 0) [hd 0x0303 8, 0, 0, 0, 0, 0, 0, 0] [] [] []

/-- A session on a pipe: encoding where `enc`. -/
def aSession (id : Nat) (seat : Option Nat) (pipe : Nat) (enc : Bool) : Session :=
  sessNew id seat pipe [hd 0x0500 8, wd [(1, b2n enc), (2, 2 * b2n enc)], 0, 0, 0, 0, 0, 0] none none []
/-- A decode or encode at work on a pipe. -/
def aCodec (k : Option Nat) (pipe sess : Nat) (active : Bool) : CodecRun :=
  { cmd := k, pipe := pipe, sess := sess, words := [], active := active, slot := none, src := none, key := false, reqs := [], bell := none,
    finished := 0, output := 0, degraded := 0, bytes := 0, ended := false, past := false, stop := false, fault := false }

/-- A state in which one command waits for its decision. -/
def toDecide (s : State) (ws : List Word) : State := withCmds s [cmdOf 1 ws]
/-- A command at work. -/
def started (id : Nat) (ws : List Word) : Cmd := { cmdOf id ws with stage := .started }

/-- Seat 0 with quotas, pools and a bus besides. -/
def rich : State :=
  { coms own [(Reg.rndProgBase, 0x100000001000), (Reg.rndProgLimit, 0x10000000F000), (Reg.audBusOwner 0, 0x200), (Reg.hapCfg 0, 0x3E800000001)] with
    seats := { own.seats with
      quota := (List.range 6).map fun k => (k, 1000)
      budget := (List.range 9).map fun k => (k, 0xFFFFFFFF) } }

/-- CMP_LAYER_SET of layer 0: 64 by 64 pixels on canvas 0, off. -/
def layerWs : List Word :=
  [hd 0x0401 24, 0, 0, wd [(32, 64), (48, 64)], wd [(0, 64), (16, 64), (32, 256)], 0, wd [(32, 64), (48, 64)], 0] ++ List.replicate 16 0
/-- VDC_SESSION_OPEN of an H.264 decode at 352 by 288. -/
def openWs : List Word := [hd 0x0500 8, wd [(8, 1), (16, 11)], wd [(0, 352), (16, 288)], wd [(0, 7), (32, 1)], 0x5000, 0, 0, 0]
/-- Its surface ring. -/
def ringWs : List Word := [5, 0x100000, 184320, wd [(0, 384), (24, 122880)], 0, 0x6000, 0, 0]
/-- TCH_CONFIG with op APPLY: one scan in every bell. -/
def applyWs : List Word := [hd 0x0700 8, 0, wd [(32, 1)], wd [(32, 20)], wd [(10, 10)], 0x8000, 0x9000, 2]
/-- Its panel of 8 by 8 nodes. -/
def panelWs : List Word := [0x808, wd [(0, 100), (16, 50)], wd [(0, 1), (16, 1)]] ++ List.replicate 77 0
/-- A module of SPIR-V 1.6 without instructions. -/
def moduleWs : List Word := [0x0001060007230203, 0, 0]

/-- A touch port that scans a panel of 8 by 8 nodes and one self channel. -/
def aTch : Tch := { tchNone 0 with words := applyWs, panel := 0x10808 :: panelWs.drop 1, base := List.replicate 65 100, raw := List.replicate 65 100,
                                   drift := List.replicate 65 0, neg := List.replicate 65 0 }
/-- A started chip with touch port 0 in a state. -/
def touching (k : Nat) (t : Tch) : State := { put up [(Reg.tchStatus 0, 0, 3, k)] with med := { up.med with tch := [(0, t)] } }

/-- An effect descriptor: 200 Hz, one half-cycle, 10 ms at most. -/
def effectWs : List Word := [wd [(0, 3200), (16, 1), (32, 0x7FFF)], wd [(0, 10)], 0, 0]
/-- An effect at play. -/
def aPlay : HapPlay :=
  { cmd := none, sec := true, eff := effectWs, phase := 1, half := 0, frame := 0, len := 240, driven := 0, after := 0, pol := true, sense := [],
    cutShort := false, overrun := false, onset := 100 }
/-- A started chip with haptic channel 0. -/
def buzzing (h : Hap) : State := { rich with med := { rich.med with hap := [(0, h)] } }

/-- A head that is on, with a frame due. -/
def headUp (k : Nat) (x : HeadSt) : State := { put up [(Reg.hdStatus 0, 0, 3, k)] with pic := { up.pic with heads := [(0, x)] } }

/-- A port in DP mode that carries head 0. -/
def aPort : PortSt := { set := [wd [(0, 1)], wd [(0, 1)], 0, 0, 0], bringup := true, since := [] }

/-- A capture port: on, 64 by 64 pixels of format 0. -/
def aCap : CapSt := { capNone 0 with set := [wd [(0, 1), (1, 7), (4, 2)], wd [(0, 64), (16, 64), (32, 60)], 0], hpd := true, edid := [0x3412] }
/-- A started chip with capture port 0 in a state. -/
def capturing (k : Nat) (c : CapSt) : State := { put up [(Reg.capStatus 0, 0, 3, k)] with vid := { up.vid with caps := [(0, c)] } }
/-- A surface ring of 5 slots of 64 by 64 pixels in DRAM. -/
def aRing : SurfRing :=
  { owner := none, slots := 5, bind := false, layer := 0, base := 0x100000, stride := 16384, pitch := 256, uv := 0, stamp := 0, records := 0x6000,
    pubs := [], seq := 0 }

/-- A started chip whose render engine has a run and one turn of it. -/
def rendering (r : RndRun) : State :=
  { withCmds own [started 1 r.words] with vid := { own.vid with runs := [r], turns := [(0, some 1, 0)] } }
/-- What the turn reports. -/
def aTurn : TurnIn :=
  { core := 0, prims := [], outWords := 4, frags := [], accs := [], memBytes := 0, groups := 1, owed := 0, host := .ok, tileErr := 0 }
/-- A pass whose one draw has assembled more primitives than its envelope allows. -/
def fullPass : RndRun := { aPass (some 1) with drawn := [(0, 4, [[], []])] }
/-- A program that loads. -/
def aProg : Prog := { seat := 0, id := 5, load := some 1, models := [], pages := [0x100000001], kib := 1, ready := false, unload := none }
/-- A picture of a decode: one block unit. -/
def aPicture : PicIn :=
  { pipe := 0, coded := true, bytes := 100, luma := [[16]], chroma := [[128, 128]], broken := [], cutFrom := none, preds := [], order := 0, isRef := true,
    shown := true, unref := [], outs := [], ended := false, head := [], blocks := [] }
/-- VDC_DECODE of session 3. -/
def decodeWs : List Word := [hd 0x0501 6, wd [(0, 3), (16, 8)], 0, 0, 0, 0]
/-- A decode session of 64 by 64 pixels. -/
def smallSession : Session :=
  { aSession 3 (some 0) 0 false with
    words := [hd 0x0500 8, wd [(8, 1), (16, 11)], wd [(0, 64), (16, 64)], wd [(0, 7), (32, 1)], 0x5000, 0, 0, 0]
    ring := some (ringOf (some 0) [5, 0x100000, 8192, wd [(0, 64), (24, 4096)], 0, 0x6000, 0, 0]) }
/-- A command of a decode with its session and its work on pipe 0. -/
def decoding : State :=
  { withCmds own [started 1 decodeWs] with
    vid := { own.vid with
      sess := [smallSession]
      codec := [{ aCodec (some 1) 0 3 true with words := decodeWs, slot := some 0 }] } }
/-- An audio source: TDM port 0 set, its slot 0 in use. -/
def tdmOn : State :=
  { up with med := { up.med with aud := { up.med.aud with tdm := [(0, { set := [0x10001], out := [] })], clkNow := 1 } } }

/-- Whether a verdict is no reject. -/
def notReject : Verdict → Bool
  | .reject _ => false
  | _ => true

theorem not_reject_of {v : Verdict} (h : notReject v = true) : ∀ r, v ≠ .reject r := by
  intro r e; subst e; cases h

/-- Whether a verdict is accepted, as data. -/
def acceptsB (s : State) (c : Cmd) : Verdict → Bool
  | .reject _ => false
  | .single _ _ => true
  | .later _ => true
  | .hold _ => true
  | .book _ _ _ _ => c.background
  | .fixed shares latest _ => decide (s.bellChanging = false ∧ s.firstBell ≤ c.dl ∧ 32 * s.firstBell ≤ latest) && decide (s.shareReject c shares = none)

theorem accepts_of {s : State} {c : Cmd} {v : Verdict} (h : acceptsB s c v = true) : s.accepts c v := by
  cases v <;> simp_all [acceptsB, State.accepts, State.inTime]

/-- What a verdict books. -/
def bookOf : Verdict → Option (Cost × Nat × Option (Nat × Nat))
  | .book cost dur cap _ => some (cost, dur, cap)
  | _ => none

theorem book_of {v : Verdict} {cost : Cost} {dur : Nat} {cap : Option (Nat × Nat)} (h : bookOf v = some (cost, dur, cap)) :
    ∃ act, v = .book cost dur cap act := by
  cases v <;> simp_all [bookOf]

/-- The detail of a verdict that is done at its decision. -/
def singleOf : Verdict → Option Nat
  | .single d _ => some d
  | _ => none

theorem single_of {v : Verdict} {d : Nat} (h : singleOf v = some d) : ∃ act, v = .single d act := by
  cases v <;> simp_all [singleOf]

theorem not_accepts_of {s : State} {c : Cmd} {v : Verdict} (h : notReject v = false) : ¬ s.accepts c v := by
  cases v <;> simp_all [notReject, State.accepts]

theorem standing_still {t : State} (hc : t.pic.canvases = []) (hs : t.pic.sets = []) (h1 : t.worlds.raiseDram = none)
    (h2 : t.worlds.raiseStore = none) (k u b : Nat) : t.standing k u b = t.standing k u 0 := by
  simp only [State.standing, State.picShadow, State.picNow, PicCfg.charges, State.otherCharges, resAt, hc, hs, h1, h2, List.map_nil, List.flatten_nil,
    List.foldl_nil]

theorem cap_still {t : State} (hm : t.worlds.moving = []) (k u b : Nat) : t.cap k u b = t.cap k u 0 := by
  simp only [State.cap, State.capWith, State.normalCount, State.unitNormal, hm, List.contains_nil, Bool.false_and]

/-- The reset bell fits a configuration without heads, ports, canvases: no charge depends on the bell. -/
theorem up_bellFits : up.bellFits up.bellWanted = true := by
  unfold State.bellFits
  generalize e : up.underBell up.bellWanted = t
  have h : ∀ k u bell, decide (t.standing k u bell ≤ t.cap k u bell) = decide (t.standing k u 0 ≤ t.cap k u 0) := fun k u bell => by
    rw [standing_still (by subst e; rfl) (by subst e; rfl) (by subst e; rfl) (by subst e; rfl), cap_still (by subst e; rfl)]
  simp only [h]
  subst e
  decide +kernel

/-- A command that its verdict accepts, and what else holds of it. -/
theorem accepting {P : Cmd → State → Prop} (c : Cmd) (s : State) (e : acceptsB (s.judged c .ok) c (judge s c .ok).v = true) (p : P c s) :
    ∃ c : Cmd, ∃ s : State, (s.judged c .ok).accepts c (judge s c .ok).v ∧ P c s := ⟨c, s, accepts_of e, p⟩

/-! ### Worked examples and check values of the spec -/

/-- Table 16.7: the check values, the CRC of the ASCII bytes of 123456789. -/
theorem test_crc_check_values :
    (List.range 4).map (fun p => crcOf p ((rangeFrom 0x31 9).map (BitVec.ofNat 8))) = [0xCBF43926, 0xE3069283, 0x29B1, 0x6C40DF5F0B497347] := by
  decide +kernel

/-- Worked example of chapter 8: address 0x12345678 with grain 4, both hashes on and density 2. -/
theorem test_dram_mapping :
    let s := { up with memc := { up.memc with cfg := 0x342 } }
    (s.dramChannel 0x12345678, s.dramLocal 0x12345678, s.dramBank 0x12345678, s.dramRow 0x12345678, s.dramCol 0x12345678) =
      (21, 0x91A678, 4, 0x123, 25) := by decide +kernel

/-- Table 3.2: the capacities at a 60 Hz bell in FREE mode with f_rnd at 1.6 GHz. -/
theorem test_capacities :
    let s := coms up [(Reg.rndClk, 16)]
    [s.cap 0 0 101, s.cap 1 0 101, s.cap 2 0 101, s.cap 3 8 101, s.cap 4 0 101, s.cap 5 0 101, s.cap 6 0 101, s.cap 7 0 101, s.cap 8 0 101] =
      [625000, 219726, 4166, 4166, 5000000, 31109895, 20000000, 1024, 256] ∧ s.rndPeriod = 833333 := by decide +kernel

/-- The port of the worked examples of chapters 11 and 20: UHBR13.5 MST, HD6 with DSC at 12 bits, HD7 and HD8 without. -/
def dpSet : List Word :=
  [wd [(0, 1), (2, 5), (8, 2), (10, 1)], wd [(0, 1), (6, 1), (16, 192), (26, 2), (32, 8)], wd [(0, 1), (1, 1)], wd [(0, 1), (1, 2)], 0]
/-- HD7 there: 2560 by 1440, totals 2720 and 1481. -/
def hd7 : HeadSt := { headNone 0 with timH := wd [(0, 2560), (16, 2720)], timV := wd [(0, 1440), (16, 1481)] }
/-- Worked examples of chapters 11 and 20: time slots at 120 Hz, then at 144 Hz. -/
theorem test_dp_slots :
    let f (n : Nat) := let b := { bellSetReset with num := n }
      [streamSlots b dpSet 0 (headNone 0), streamSlots b dpSet 1 hd7, streamSlots b dpSet 2 (headNone 0)]
    f 120 = [16, 18, 40] ∧ (f 144).take 2 = [19, 22] := by decide +kernel

/-- Worked example of chapter 19: addresses that a supervisor driver computes. -/
theorem test_register_addresses :
    (Reg.hdLineMatch 17, Reg.fsFirst 177, Reg.clkGate 177, Reg.dmcChErr 21, Reg.doorbell 140 2, pageOff (.vf 140) 140 0x190) =
      (0x241138, 0x60B108, 0x70D88, 0x4101A8, 0x88C190, 0x190) := by decide +kernel

/-- Worked example of chapter 9: the tile-slots and DRAM credits of a rotated camera layer beneath an opaque panel. -/
theorem test_layer_cost :
    let camera : List Word := [0, wd [(9, 1), (10, 2), (16, 5)], wd [(0, 7), (4, 1)], wd [(32, 1920), (48, 1080)], 0, 0,
      wd [(0, 1000), (16, 100), (32, 540), (48, 960)], 0xFFFF]
    let panel : List Word := [0, wd [(9, 1), (10, 2), (16, 6)], wd [(15, 1)], wd [(32, 1280), (48, 1080)], 0, 0,
      wd [(0, 1280), (32, 1280), (48, 1080)], 0xFFFF]
    let cfg : PicCfg := { layers := [(10, camera), (11, panel)],
                          canvases := [(2, 0, [0, wd [(0, 2), (6, 1)], wd [(0, 3840), (16, 2160)], 0, 4, 0])], heads := headNone }
    chargeSum (cfg.charges 0) 1 0 = 680 ∧ chargeSum (cfg.charges 0) 5 0 = 129600 + 64 * 2040 + 29920 := by decide +kernel

/-- Worked example of chapter 15: a half-cycle of 175 Hz is 274 frames. -/
theorem test_half_cycle : halfCycle (175 * 16) = 274 := by decide +kernel
/-- Worked example of chapter 14: the latency at 144 Hz. -/
theorem test_audio_latency : audLatency 144 1 = 43 := by decide +kernel
/-- Worked example of chapter 13: the least of max_pic_bytes at 34 rows; the rows kept back at row 30. -/
theorem test_encoder_reserve : encReserve 34 = 4608 ∧ encReserve (34 - 30) = 768 := by decide +kernel
/-- Worked example of chapter 3: block units of 1920 by 1080, and the DRAM credits of 24 such sessions. -/
theorem test_picture_units : blockUnits 1920 1080 = 510 ∧ 24 * ceilDiv (picDramNum 1920 1080 false 3 1) 512 = 881280 := by decide +kernel
/-- Worked example of chapter 3: the copy of 64 MiB costs 262,144 DMA and 524,288 DRAM credits. -/
theorem test_copy_cost :
    costMerge ((4, 0, ceilDiv 0x4000000 256) :: (endCost ⟨0, 1, 0⟩ 0x4000000 false ++ endCost ⟨0, 1, 0x4000000⟩ 0x4000000 false)) =
      [(4, 0, 262144), (5, 0, 524288)] := by decide +kernel
/-- Table 17.6: after a power-on reset the boot sequence stands at its first step, the power state is BOOT and no seat is the supervisor seat. -/
theorem test_reset : State.reset.pst = 0 ∧ State.reset.bitAt Reg.seatGlobalCtrl 31 = false ∧ State.reset.pending = [] := by decide +kernel

/-! ### Ill-formed operands -/

/-- Each check of Instr.wf refuses a term that breaks it. -/
theorem wellFormed_refuses :
    [Instr.powerOnReset ⟨4, 0⟩, .linkReset 4, .dramTrainingDone (2 ^ 32), .clockSourceReady 3, .clkPllRefWrite .jtag 10 0, .clkPllRefWrite (.pf 4) 0 0,
     .clkGateWrite .jtag 256 0, .gateAckTimeout 256, .doorbellWrite (.vf 3) 3 0 0, .doorbellWrite .jtag 0 8 0, .ringEnable .jtag 512 0 0,
     .turnEnd { aTurn with core := 24 }, .envelopeLimitReached 0 3, .memoryTransactionResponse { aRead with station := 256 },
     .memoryTransactionResponse { aRead with seat := some 512 }, .memoryTransactionResponse { aRead with atomic := true, data := [0] },
     .arbTimeout 256, .pcieCompletionTimeout 0 (some 512) none, .flr 512, .transferAbandoned 256 0 none, .dmaBurstResponse 64 .ok,
     .programCompileDone 0 [] 0 5, .rndDraw 512 0, .codecPictureBoundary { aPicture with pipe := 10 }, .audioBlock ⟨513, [], [], [], [], [], .ok⟩,
     .tdmFrameReceived 8 0 [], .audInputLost 256, .touchLinkBringup 0 65536 true, .dozeEntry 8, .hapticFrame 8 0, .irqMaskWrite .jtag 512 0,
     .vfEnableSet 4, .hmnKick .jtag 3 none, .grdApply .jtag 28, .grdApplyDone 28, .dramRefresh 32 0 true, .rowHammerRefresh 0 16 0, .dmaGo .jtag 64 0,
     .vdcSecpGo .jtag 10 0, .tchSecqGo .jtag 8, .headFrameStart 32, .hpdRise 16, .linkBringupDone 0 ⟨8, 0, 0, 0, true, true, [], true⟩,
     .captureFrameStart 0 ⟨4, 0, 0, false, 0, 0, 0, 0⟩, .captureLinkLost 8, .hdhUnderrunRead .jtag 32, .fsCountRead .jtag 256,
     .csrWrite .jtag 2 4 0, .csrWrite .jtag (2 ^ 24) 8 0, .csrWrite .jtag 0 2 0, .pwrRequestRun (.pf 4)].all (fun i => !i.wf) = true := by
  decide +kernel

/-- The block's commands are given as rows without bits: no word spells one. -/
theorem test_no_words : decodeTableWord 8 0 = none := rfl

/-- Worked example of chapter 18: CH05_DQ9 is ball Y8, DPT3_TX1_P is ball BY13. -/
theorem test_balls : ballAt 19 8 = some (.dq 5 9) ∧ ballAt 57 13 = some (.dptTx 3 1 false) := by decide +kernel
/-- R601 and Table 18.6: the signal balls and the balls of each rail. -/
theorem test_ball_counts :
    ballCount Ball.isSignal = 1648 ∧
    ([.vddCore, .vddSto, .vddPhy, .vddaPhy, .vdd2h, .vddq, .vddio, .vddFuse, .vss].map fun r => ballCount (· = .supply r)) =
      [200, 30, 89, 69, 64, 192, 29, 1, 927] := by decide +kernel

/-! ### States and operands that meet the hypotheses -/

/-- States and operands that meet the hypotheses of `Obligations.CommandsAnswer`, clause by clause. -/
theorem witness_CommandsAnswer :
    ∃ s : State, s.pending = [] :=
  ⟨up, by decide +kernel⟩

/-- States and operands that meet the hypotheses of `Obligations.ResetState`, clause by clause. -/
theorem witness_ResetState :
    (∃ u : Nat, u < 211) ∧
    (∃ n : Nat, n < 512) :=
  ⟨⟨210, by decide +kernel⟩,
    ⟨511, by decide +kernel⟩⟩

/-- States and operands that meet the hypotheses of `Obligations.StepKeepsForm`, clause by clause. -/
theorem witness_StepKeepsForm :
    ∃ s : State, ∃ t : State, step s = .next t ∧ s.wf = true :=
  ⟨{ State.reset with pending := [.irqHpd 0] }, _, rfl, by decide +kernel⟩

/-- States and operands that meet the hypotheses of `Obligations.CommandsSpareParts`, clause by clause. -/
theorem witness_CommandsSpareParts :
    ∃ c : Instr, ∃ ps : List Part, ∃ s : State, ∃ t : State, s.live ∧ s.calm ∧ exec c s = .next t ∧ commandParts c = some ps :=
  ⟨.irqHpd 0, [], up, _, ⟨rfl, rfl⟩, calm_of_csr (by decide +kernel), rfl, by decide +kernel⟩

/-- States and operands that meet the hypotheses of `Obligations.SafeStateFrozen`, clause by clause. -/
theorem witness_SafeStateFrozen :
    (∃ c : Instr, ∃ s : State, ∃ t : State, exec c s = .next t ∧ s.flt.safe = true) ∧
    (∃ c : Instr, ∃ p : Path, ∃ off : Nat, ∃ n : Nat, ∃ s : State, s.flt.safe = true ∧ s.pwr.rails = true ∧ c.wf = true ∧ readOf c = some (p, off, n) ∧
        (p = .i3c ∨ p = .jtag)) ∧
    (∃ st : Straps, ∃ n : Nat, ∃ s : State, s.flt.safe = true ∧ s.pwr.rails = true ∧ st.wf = true ∧ 10000 ≤ n) :=
  ⟨⟨.irqHpd 0, { up with flt := { up.flt with safe := true } }, _, rfl, by decide +kernel⟩,
    ⟨.fsCountRead .jtag 24, .jtag, Reg.fsCount 24, 4, { up with flt := { up.flt with safe := true } }, by decide +kernel⟩,
    ⟨⟨0, 0⟩, 10000, { up with flt := { up.flt with safe := true } }, by decide +kernel⟩⟩

/-- States and operands that meet the hypotheses of `Obligations.NoPowerNoEffect`, clause by clause. -/
theorem witness_NoPowerNoEffect :
    ∃ c : Instr, ∃ s : State, ∃ t : State, exec c s = .next t ∧ s.pwr.rails = false :=
  ⟨.irqHpd 0, { up with pwr := { up.pwr with rails := false } }, _, rfl, by decide +kernel⟩

/-- States and operands that meet the hypotheses of `Obligations.PowerComesAndGoes`, clause by clause. -/
theorem witness_PowerComesAndGoes :
    ∃ st : Straps, st.wf = true :=
  ⟨⟨3, 0⟩, by decide +kernel⟩

/-- States and operands that meet the hypotheses of `Obligations.ChipResets`, clause by clause. -/
theorem witness_ChipResets :
    (∃ st : Straps, ∃ n : Nat, ∃ s : State, st.wf = true ∧ s.pwr.rails = true ∧ 10000 ≤ n) ∧
    (∃ p : Path, ∃ v : Word, ∃ s : State, s.lets p Reg.rstChip 4 v Reg.rstChip ∧ wBit v 0 = true ∧ wBits v 8 8 = 0x5A) ∧
    (∃ p : Path, ∃ v : Word, ∃ s : State, s.lets p Reg.rstChip 4 v Reg.rstChip ∧ wBits v 8 8 ≠ 0x5A) :=
  ⟨⟨⟨0, 0⟩, 10000, up, by decide +kernel⟩,
    ⟨.jtag, 0x5A01, up, by unfold State.lets State.live; decide +kernel, by decide +kernel⟩,
    ⟨.jtag, 0x5B01, up, by unfold State.lets State.live; decide +kernel, by decide +kernel⟩⟩

/-- States and operands that meet the hypotheses of `Obligations.PorPulses`, clause by clause. -/
theorem witness_PorPulses :
    (∃ st : Straps, ∃ n : Nat, ∃ s : State, st.wf = true ∧ s.pwr.rails = true ∧ n < 1000) ∧
    (∃ st : Straps, ∃ n : Nat, ∃ s : State, st.wf = true ∧ s.pwr.rails = true ∧ 1000 ≤ n ∧ n < 10000) :=
  ⟨⟨⟨0, 0⟩, 999, up, by decide +kernel⟩,
    ⟨⟨0, 0⟩, 1000, up, by decide +kernel⟩⟩

/-- States and operands that meet the hypotheses of `Obligations.BootAndTraining`, clause by clause. -/
theorem witness_BootAndTraining :
    (∃ s : State, s.live ∧ s.calm ∧ s.pwr.boot = 1) ∧
    (∃ s : State, s.live ∧ s.calm ∧ s.worlds.measuring = true ∧ 2 ≤ s.pwr.boot) ∧
    (∃ s : State, s.live ∧ s.calm ∧ s.pwr.boot = 3 ∧ s.worlds.beyloth = true) ∧
    (∃ s : State, ∃ l : Nat, s.live ∧ s.calm ∧ l < s.linkCount ∧ s.pwr.perst.contains l = false) ∧
    (∃ s : State, ∃ l : Nat, s.live ∧ s.calm ∧ 5 ≤ s.pwr.boot ∧ s.pwr.perst.contains l = true ∧ s.pwr.links.contains l = false) ∧
    (∃ s : State, s.live ∧ s.calm ∧ s.bitAt Reg.secState 0 = true ∧ s.worlds.beyloth = false) ∧
    (∃ m : Nat, ∃ s : State, s.live ∧ s.calm ∧ s.wf = true ∧ m < 2 ^ 32 ∧ s.pwr.boot = 4 ∧ s.memc.up = false ∧ s.fld Reg.dmcCfg 0 2 ≠ 3 ∧ (∀ c, c < 32 →
        nBit m c = true)) ∧
    (∃ m : Nat, ∃ s : State, s.live ∧ s.calm ∧ s.wf = true ∧ m < 2 ^ 32 ∧ s.pwr.boot = 4 ∧ s.memc.up = false ∧ s.fld Reg.dmcCfg 0 2 ≠ 3 ∧ (∃ c, c < 32 ∧
        nBit m c = false) ∧ nBit (s.react stDmc 7) 5 = true) :=
  ⟨⟨State.reset, ⟨rfl, rfl⟩, calm_of_csr (by decide +kernel), by decide +kernel⟩,
    ⟨{ State.reset with pwr := { State.reset.pwr with boot := 2 } }, ⟨rfl, rfl⟩, calm_of_csr (by decide +kernel), by decide +kernel⟩,
    ⟨{ booted with pwr := { booted.pwr with boot := 3 } }, ⟨rfl, rfl⟩, calm_of_csr (by decide +kernel), by decide +kernel⟩,
    ⟨State.reset, 0, ⟨rfl, rfl⟩, calm_of_csr (by decide +kernel), by decide +kernel⟩,
    ⟨{ booted with pwr := { booted.pwr with links := [] } }, 0, ⟨rfl, rfl⟩, calm_of_csr (by decide +kernel), by decide +kernel⟩,
    ⟨{ put up [(Reg.secState, 0, 1, 1)] with worlds := { worldsReset with beyloth := false } }, ⟨rfl, rfl⟩, calm_of_csr (by decide +kernel),
        by decide +kernel⟩,
    ⟨0xFFFFFFFF, { booted with pwr := { booted.pwr with boot := 4 }, memc := memCtlReset }, ⟨rfl, rfl⟩, calm_of_csr (by decide +kernel), by decide +kernel⟩,
    ⟨0x7FFFFFFF, { booted with pwr := { booted.pwr with boot := 4 }, memc := memCtlReset }, ⟨rfl, rfl⟩, calm_of_csr (by decide +kernel), by decide +kernel⟩⟩

/-- States and operands that meet the hypotheses of `Obligations.HandshakeMakesSupervisor`, clause by clause. -/
theorem witness_HandshakeMakesSupervisor :
    ∃ s : State, s.live ∧ s.lets (.pf s.pwr.straps.sup) Reg.mgtHostReady 4 1 Reg.mgtHostReady ∧ s.wf = true ∧ s.pwr.straps.sup < 4 ∧
        s.bitAt Reg.mgtHostReady 1 = false ∧ s.adm.mgtUp = true ∧ s.pwr.boot = 6 :=
  ⟨{ booted with pwr := { booted.pwr with boot := 6 } }, ⟨rfl, rfl⟩, by unfold State.lets State.live; decide +kernel, by decide +kernel⟩

/-- States and operands that meet the hypotheses of `Obligations.PowerRequests`, clause by clause. -/
theorem witness_PowerRequests :
    (∃ p : Path, ∃ s : State, s.lets p Reg.pwrCtrl 4 1 Reg.pwrCtrl ∧ s.pst = 2) ∧
    (∃ p : Path, ∃ s : State, s.lets p Reg.pwrCtrl 4 1 Reg.pwrCtrl ∧ s.pst ≠ 2 ∧ (¬ (p = .i3c ∧ (s.pst = 3 ∨ s.pst = 4)))) ∧
    (∃ p : Path, ∃ s : State, s.lets p Reg.pwrCtrl 4 1 Reg.pwrCtrl ∧ s.wf = true ∧ p = .i3c ∧ s.pst = 4) ∧
    (∃ p : Path, ∃ s : State, s.lets p Reg.pwrCtrl 4 2 Reg.pwrCtrl ∧ s.pst = 0) ∧
    (∃ p : Path, ∃ s : State, s.lets p Reg.pwrCtrl 4 3 Reg.pwrCtrl ∧ s.pst = 0) :=
  ⟨⟨.jtag, inState 2 up, by unfold State.lets State.live; decide +kernel, by decide +kernel⟩,
    ⟨.jtag, up, by unfold State.lets State.live; decide +kernel, by decide +kernel⟩,
    ⟨.i3c, inState 4 up, by unfold State.lets State.live; decide +kernel, by decide +kernel⟩,
    ⟨.jtag, up, by unfold State.lets State.live; decide +kernel, by decide +kernel⟩,
    ⟨.jtag, up, by unfold State.lets State.live; decide +kernel, by decide +kernel⟩⟩

/-- States and operands that meet the hypotheses of `Obligations.DeepSleepAndWake`, clause by clause. -/
theorem witness_DeepSleepAndWake :
    (∃ s : State, s.live ∧ s.calm ∧ s.wf = true ∧ s.pst = 3) ∧
    (∃ s : State, s.live ∧ s.tts.running = false) ∧
    (∃ s : State, s.live ∧ s.pst = 4) ∧
    (∃ s : State, s.live ∧ s.pst = 3 ∧ s.pwr.wakeReq = 0) ∧
    (∃ s : State, s.live ∧ s.pst < 3) ∧
    (∃ s : State, s.live ∧ s.calm ∧ s.wf = true ∧ s.pst = 5 ∧ s.pwr.heldReqs = []) :=
  ⟨⟨inState 3 up, ⟨rfl, rfl⟩, calm_of_csr (by decide +kernel), by decide +kernel⟩,
    ⟨{ up with tts := { up.tts with running := false } }, ⟨rfl, rfl⟩, by decide +kernel⟩,
    ⟨inState 4 up, ⟨rfl, rfl⟩, by decide +kernel⟩,
    ⟨inState 3 up, ⟨rfl, rfl⟩, by decide +kernel⟩,
    ⟨inState 2 up, ⟨rfl, rfl⟩, by decide +kernel⟩,
    ⟨inState 5 up, ⟨rfl, rfl⟩, calm_of_csr (by decide +kernel), by decide +kernel⟩⟩

/-- States and operands that meet the hypotheses of `Obligations.DetectionsRecorded`, clause by clause. -/
theorem witness_DetectionsRecorded :
    (∃ s : State, ∃ st : Nat, s.live ∧ s.calm ∧ s.wf = true ∧ stIsRegion st = true) ∧
    (∃ s : State, ∃ st : Nat, s.live ∧ s.calm ∧ s.wf = true ∧ stIsRegion st = true) ∧
    (∃ s : State, ∃ st : Nat, s.live ∧ s.calm ∧ s.wf = true ∧ stIsRegion st = false ∧ (stKind st).isSome = true) ∧
    (∃ s : State, s.live ∧ s.calm ∧ s.wf = true ∧ 4 ≤ s.pwr.boot) ∧
    (∃ s : State, ∃ st : Nat, s.live ∧ s.calm ∧ s.wf = true ∧ st < 256) :=
  ⟨⟨up, 6, ⟨rfl, rfl⟩, calm_of_csr (by decide +kernel), by decide +kernel⟩,
    ⟨up, 1, ⟨rfl, rfl⟩, calm_of_csr (by decide +kernel), by decide +kernel⟩,
    ⟨up, 24, ⟨rfl, rfl⟩, calm_of_csr (by decide +kernel), by decide +kernel⟩,
    ⟨up, ⟨rfl, rfl⟩, calm_of_csr (by decide +kernel), by decide +kernel⟩,
    ⟨withCmds up [cmdOf 1 [hd 0x0200 4]], 24, ⟨rfl, rfl⟩, calm_of_csr (by decide +kernel), by decide +kernel⟩⟩

/-- States and operands that meet the hypotheses of `Obligations.DetectionsEnterSafe`, clause by clause. -/
theorem witness_DetectionsEnterSafe :
    (∃ s : State, s.live ∧ s.calm ∧ s.wf = true ∧ nBit (s.react 15 6) 5 = true ∧ (∃ p, p < 10 ∧ s.bitAt (Reg.clkPllStatus p) 4 = true)) ∧
    (∃ s : State, s.live ∧ s.calm ∧ s.wf = true ∧ nBit (s.react 18 4) 5 = true) ∧
    (∃ s : State, s.live ∧ s.calm ∧ s.wf = true ∧ nBit (s.react 14 6) 5 = true ∧ s.tts.running = true) ∧
    (∃ st : Nat, ∃ s : State, s.live ∧ s.calm ∧ s.wf = true ∧ (stKind st).isSome = true ∧ st < 256) ∧
    (∃ st : Nat, ∃ s : State, ∃ p : Path, s.live ∧ s.calm ∧ s.lets p (Reg.fsCtrl st) 4 (s.rd (Reg.fsCtrl st) ||| 4) (Reg.fsCtrl st) ∧ s.wf = true ∧
        (stKind st).isSome = true ∧ st < 256 ∧ s.bitAt (Reg.fsCtrl st) 0 = true) ∧
    (∃ st : Nat, ∃ s : State, ∃ p : Path, s.live ∧ s.calm ∧ s.lets p (Reg.fsCtrl st) 4 (s.rd (Reg.fsCtrl st) ||| 4) (Reg.fsCtrl st) ∧ s.wf = true ∧
        (stKind st).isSome = true ∧ st < 256 ∧ s.bitAt (Reg.fsCtrl st) 0 = false) :=
  ⟨⟨put up [(Reg.clkPllStatus 9, 4, 1, 1)], ⟨rfl, rfl⟩, calm_of_csr (by decide +kernel), by decide +kernel⟩,
    ⟨up, ⟨rfl, rfl⟩, calm_of_csr (by decide +kernel), by decide +kernel⟩,
    ⟨up, ⟨rfl, rfl⟩, calm_of_csr (by decide +kernel), by decide +kernel⟩,
    ⟨24, up, ⟨rfl, rfl⟩, calm_of_csr (by decide +kernel), by decide +kernel⟩,
    ⟨24, put up [(Reg.fsCtrl 24, 0, 1, 1)], .jtag, ⟨rfl, rfl⟩, calm_of_csr (by decide +kernel), by unfold State.lets State.live; decide +kernel,
        by decide +kernel⟩,
    ⟨24, up, .jtag, ⟨rfl, rfl⟩, calm_of_csr (by decide +kernel), by unfold State.lets State.live; decide +kernel, by decide +kernel⟩⟩

/-- States and operands that meet the hypotheses of `Obligations.InjectionPinMonitors`, clause by clause. -/
theorem witness_InjectionPinMonitors :
    (∃ p : Path, ∃ st : Nat, ∃ v : Word, ∃ s : State, s.lets p (Reg.fsInject st) 4 v (Reg.fsInject st) ∧ st < 256 ∧ (stKind st).isSome = true) ∧
    (∃ p : Path, ∃ s : State, s.lets p Reg.fltPin 4 2 Reg.fltPin ∧ s.wf = true ∧ s.bitAt Reg.fltPin 2 = false ∧ s.pinHeld = false) ∧
    (∃ p : Path, ∃ s : State, s.lets p Reg.fltPin 4 2 Reg.fltPin ∧ s.wf = true ∧ (s.bitAt Reg.fltPin 2 = true ∨ s.pinHeld = true)) ∧
    (∃ p : Path, ∃ k : Nat, ∃ s : State, s.lets p (Reg.hmnKick k) 4 1 (Reg.hmnKick k) ∧ k < 2 ∧ s.wf = true) ∧
    (∃ p : Path, ∃ k : Nat, ∃ s : State, ∃ v : Word, s.lets p (Reg.hmnCfg k) 4 v (Reg.hmnCfg k) ∧ k < 2 ∧ s.wf = true) :=
  ⟨⟨.jtag, 24, 1, up, by unfold State.lets State.live; decide +kernel, by decide +kernel⟩,
    ⟨.jtag, put up [(Reg.fltPin, 0, 1, 1), (Reg.fltPin, 2, 1, 0)], by unfold State.lets State.live; decide +kernel, by decide +kernel⟩,
    ⟨.jtag, put up [(Reg.fltPin, 0, 1, 1), (Reg.fltPin, 2, 1, 1)], by unfold State.lets State.live; decide +kernel, by decide +kernel⟩,
    ⟨.sec, 1, up, by unfold State.lets State.live; decide +kernel, by decide +kernel⟩,
    ⟨.jtag, 0, up, 0x20, by unfold State.lets State.live; decide +kernel, by decide +kernel⟩⟩

/-- States and operands that meet the hypotheses of `Obligations.TrustedRestarts`, clause by clause. -/
theorem witness_TrustedRestarts :
    (∃ s : State, ∃ p : Path, s.live ∧ s.calm ∧ s.lets p Reg.secRestart 4 (s.rd Reg.secRestart ||| 1) Reg.secRestart ∧ s.wf = true ∧ s.pst ≠ 4 ∧
        s.recentRestarts.length < 3) ∧
    (∃ s : State, s.live ∧ s.calm ∧ s.wf = true ∧ s.pst ≠ 4 ∧ s.recentRestarts.length < 3 ∧ s.worlds.beyloth = true) ∧
    (∃ s : State, s.live ∧ s.calm ∧ s.wf = true ∧ s.pst ≠ 4 ∧ s.recentRestarts.length < 3 ∧ (s.bitAt Reg.secState 0 = true ∨ s.pwr.boot < 4)) ∧
    (∃ s : State, s.live ∧ s.calm ∧ s.wf = true ∧ s.pst ≠ 4 ∧ s.recentRestarts.length < 3 ∧ s.worlds.beyloth = true ∧ s.bitAt Reg.secState 0 = false) ∧
    (∃ s : State, s.live ∧ s.calm ∧ s.wf = true ∧ s.worlds.beyloth = true ∧ s.pst ≠ 4 ∧ 3 ≤ s.recentRestarts.length) ∧
    (∃ s : State, s.live ∧ s.calm ∧ s.wf = true ∧ s.worlds.measuring = true ∧ 2 ≤ s.pwr.boot ∧ nBit (s.react 13 5) 5 = true) ∧
    (∃ p : Path, ∃ s : State, s.calm ∧ s.lets p Reg.secRestart 4 (s.rd Reg.secRestart ||| 2) Reg.secRestart ∧ s.wf = true ∧ s.bitAt Reg.secState 0 = true ∧
        s.worlds.beyloth = true) :=
  ⟨⟨up, .sec, ⟨rfl, rfl⟩, calm_of_csr (by decide +kernel), by unfold State.lets State.live; decide +kernel, by decide +kernel⟩,
    ⟨up, ⟨rfl, rfl⟩, calm_of_csr (by decide +kernel), by decide +kernel⟩,
    ⟨put up [(Reg.secState, 0, 1, 1)], ⟨rfl, rfl⟩, calm_of_csr (by decide +kernel), by decide +kernel⟩,
    ⟨up, ⟨rfl, rfl⟩, calm_of_csr (by decide +kernel), by decide +kernel⟩,
    ⟨{ up with worlds := { up.worlds with restarts := [99, 98, 97] } }, ⟨rfl, rfl⟩, calm_of_csr (by decide +kernel), by decide +kernel⟩,
    ⟨{ up with worlds := { up.worlds with measuring := true } }, ⟨rfl, rfl⟩, calm_of_csr (by decide +kernel), by decide +kernel⟩,
    ⟨.sec, put up [(Reg.secState, 0, 1, 1)], calm_of_csr (by decide +kernel), by unfold State.lets State.live; decide +kernel, by decide +kernel⟩⟩

/-- States and operands that meet the hypotheses of `Obligations.HandOvers`, clause by clause. -/
theorem witness_HandOvers :
    (∃ p : Path, ∃ s : State, s.calm ∧ s.lets p Reg.secHoCtrl 4 1 Reg.secHoCtrl ∧ s.wf = true ∧ s.fld Reg.secHoStatus 0 2 = 0 ∧
        s.bitAt Reg.secState 0 = false ∧ s.pst ≠ 3 ∧ s.hoCheck s.hoMoving = 0) ∧
    (∃ p : Path, ∃ s : State, s.calm ∧ s.lets p Reg.secHoCtrl 4 1 Reg.secHoCtrl ∧ s.wf = true ∧ s.fld Reg.secHoStatus 0 2 = 0 ∧
        s.bitAt Reg.secState 0 = false ∧ s.pst ≠ 3 ∧ s.hoCheck s.hoMoving ≠ 0) ∧
    (∃ b : Nat, ∃ s : State, s.live ∧ b < 256 ∧ (s.clk.gateReq.any fun x => x.1 = b) = true ∧ s.fld Reg.secHoStatus 0 2 ≠ 2) ∧
    (∃ b : Nat, ∃ s : State, s.live ∧ b < 256 ∧ (s.clk.gateReq.any fun x => x.1 = b) = false ∧ s.fld Reg.secHoStatus 0 2 = 2 ∧
        (s.worlds.moving.any fun u => idleStation u = b) = true ∧ b ∉ s.worlds.idle) ∧
    (∃ s : State, s.live ∧ s.calm ∧ s.wf = true ∧ s.fld Reg.secHoStatus 0 2 = 2 ∧ (∀ u ∈ s.worlds.moving, idleStation u ∈ s.worlds.idle ∧ u < 211) ∧
        s.worlds.moving.Nodup) :=
  ⟨⟨.sec, sec 113 up, calm_of_csr (by decide +kernel), by unfold State.lets State.live; decide +kernel, by decide +kernel⟩,
    ⟨.sec, up, calm_of_csr (by decide +kernel), by unfold State.lets State.live; decide +kernel, by decide +kernel⟩,
    ⟨24, { up with clk := { up.clk with gateReq := [(24, false)] } }, ⟨rfl, rfl⟩, by decide +kernel⟩,
    ⟨136, { put up [(Reg.secHoStatus, 0, 2, 2)] with worlds := { up.worlds with moving := [113] } }, ⟨rfl, rfl⟩, by decide +kernel⟩,
    ⟨{ put up [(Reg.secHoStatus, 0, 2, 2)] with worlds := { up.worlds with moving := [113], idle := [136] } }, ⟨rfl, rfl⟩, calm_of_csr (by decide +kernel),
        by decide +kernel⟩⟩

/-- States and operands that meet the hypotheses of `Obligations.ReservationsAndGuards`, clause by clause. -/
theorem witness_ReservationsAndGuards :
    (∃ p : Path, ∃ v : Word, ∃ s : State, s.lets p Reg.secReserveDram 4 v Reg.secReserveDram ∧ s.wf = true) ∧
    (∃ p : Path, ∃ v : Word, ∃ s : State, s.lets p Reg.secReserveStore 4 v Reg.secReserveStore ∧ s.wf = true) ∧
    (∃ n : Nat, ∃ s : State, ∃ p : Path, s.lets p (Reg.grdCtrl n) 4 (s.rd (Reg.grdCtrl n) ||| 0x100) (Reg.grdCtrl n) ∧ n < 28 ∧ s.wf = true ∧ p = .sec ∧
        s.bitAt (Reg.grdCtrl n) 9 = false) ∧
    (∃ n : Nat, ∃ s : State, ∃ snap : List (Nat × Word), s.live ∧ n < 28 ∧ s.wf = true ∧ (s.memc.applying.find? fun x => x.1 = n) = some (n, snap) ∧
        (snap.map Prod.fst).Nodup) :=
  ⟨⟨.sec, 5, up, by unfold State.lets State.live; decide +kernel, by decide +kernel⟩,
    ⟨.sec, 5, up, by unfold State.lets State.live; decide +kernel, by decide +kernel⟩,
    ⟨27, up, .sec, by unfold State.lets State.live; decide +kernel, by decide +kernel⟩,
    ⟨0, { put up [(Reg.grdCtrl 0, 9, 1, 1)] with memc := { up.memc with applying := [(0, [(Reg.grdBase 0 1, 0x1000)])] } }, [(Reg.grdBase 0 1, 0x1000)], ⟨rfl,
        rfl⟩, by decide +kernel⟩⟩

/-- States and operands that meet the hypotheses of `Obligations.ClockSources`, clause by clause. -/
theorem witness_ClockSources :
    (∃ src : Nat, ∃ s : State, s.live ∧ s.calm ∧ s.wf = true ∧ src < 3 ∧ (src = 2 → s.bitAt Reg.clkHosc 18 = true) ∧ 2 ≤ s.pwr.boot) ∧
    (∃ src : Nat, ∃ s : State, s.live ∧ s.calm ∧ s.wf = true ∧ src < 3) ∧
    (∃ p : Path, ∃ pll : Nat, ∃ v : Word, ∃ s : State, s.calm ∧ s.lets p (Reg.clkPllCtrl pll) 4 v (Reg.clkPllCtrl pll) ∧ s.wf = true ∧ pll < 10 ∧
        s.srcReady (wBits v 0 2) = true ∧ s.pllOn pll = true) ∧
    (∃ p : Path, ∃ pll : Nat, ∃ v : Word, ∃ s : State, s.calm ∧ s.lets p (Reg.clkPllCtrl pll) 4 v (Reg.clkPllCtrl pll) ∧ s.wf = true ∧ pll < 10 ∧
        s.srcReady (wBits v 0 2) = false) :=
  ⟨⟨0, up, ⟨rfl, rfl⟩, calm_of_csr (by decide +kernel), by decide +kernel⟩,
    ⟨2, up, ⟨rfl, rfl⟩, calm_of_csr (by decide +kernel), by decide +kernel⟩,
    ⟨.jtag, 0, 0, put up [(Reg.clkSrcStatus, 0, 1, 1)], calm_of_csr (by decide +kernel), by unfold State.lets State.live; decide +kernel, by decide +kernel⟩,
    ⟨.jtag, 9, 1, up, calm_of_csr (by decide +kernel), by unfold State.lets State.live; decide +kernel, by decide +kernel⟩⟩

/-- States and operands that meet the hypotheses of `Obligations.HoscStopsAndTrims`, clause by clause. -/
theorem witness_HoscStopsAndTrims :
    (∃ p : Path, ∃ v : Word, ∃ s : State, s.lets p Reg.clkHosc 4 v Reg.clkHosc ∧ s.wf = true ∧ wBit v 0 = true ∧ s.stopRefused = false) ∧
    (∃ p : Path, ∃ v : Word, ∃ s : State, s.lets p Reg.clkHosc 4 v Reg.clkHosc ∧ s.wf = true ∧ wBit v 0 = true ∧ s.stopRefused = true) ∧
    (∃ p : Path, ∃ v : Word, ∃ s : State, s.lets p Reg.clkHosc 4 v Reg.clkHosc ∧ s.wf = true ∧ wBit v 0 = false) ∧
    (∃ s : State, s.live ∧ s.wf = true ∧ s.trimExpect = none) ∧
    (∃ s : State, ∃ a : Nat, ∃ b : Nat, s.live ∧ s.wf = true ∧ s.trimExpect = some (a, b) ∧ s.bitAt Reg.clkHosc 1 = true ∧ s.bitAt Reg.clkHosc 18 = true) :=
  ⟨⟨.sec, 1, put up [(Reg.clkHosc, 16, 1, 1), (Reg.clkHosc, 18, 1, 1)], by unfold State.lets State.live; decide +kernel, by decide +kernel⟩,
    ⟨.sec, 1, up, by unfold State.lets State.live; decide +kernel, by decide +kernel⟩,
    ⟨.sec, 0, up, by unfold State.lets State.live; decide +kernel, by decide +kernel⟩,
    ⟨up, ⟨rfl, rfl⟩, by decide +kernel⟩,
    ⟨put up [(Reg.clkSrcStatus, 0, 1, 1), (Reg.clkHosc, 1, 1, 1), (Reg.clkHosc, 18, 1, 1)], 262144, 1, ⟨rfl, rfl⟩, by decide +kernel⟩⟩

/-- States and operands that meet the hypotheses of `Obligations.ClockGates`, clause by clause. -/
theorem witness_ClockGates :
    (∃ p : Path, ∃ b : Nat, ∃ v : Word, ∃ s : State, s.lets p (Reg.clkGate b) 4 v (Reg.clkGate b) ∧ s.wf = true ∧ b < 256 ∧ (gateRow b).isSome = true) ∧
    (∃ b : Nat, ∃ trans : Bool, ∃ s : State, s.live ∧ s.calm ∧ s.wf = true ∧ b < 256 ∧ (s.clk.gateReq.find? fun x => x.1 = b) = some (b, trans)) :=
  ⟨⟨.jtag, 24, 0, up, by unfold State.lets State.live; decide +kernel, by decide +kernel⟩,
    ⟨24, false, { up with clk := { up.clk with gateReq := [(24, false)] } }, ⟨rfl, rfl⟩, calm_of_csr (by decide +kernel), by decide +kernel⟩⟩

/-- States and operands that meet the hypotheses of `Obligations.BellAdvances`, clause by clause. -/
theorem witness_BellAdvances :
    (∃ s : State, s.live ∧ s.calm ∧ s.tts.running = true) ∧
    (∃ s : State, s.live ∧ s.calm ∧ s.tts.running = true ∧ s.tts.held = none ∧ s.tts.slew = 0 ∧ s.tts.jump = 0 ∧ s.tts.lock ≠ .holdover ∧ 0 < s.tts.cur.num) ∧
    (∃ s : State, s.live ∧ s.calm ∧ s.tts.running = true ∧ s.tts.period < 31) :=
  ⟨⟨up, ⟨rfl, rfl⟩, calm_of_csr (by decide +kernel), by decide +kernel⟩,
    ⟨up, ⟨rfl, rfl⟩, calm_of_csr (by decide +kernel), by decide +kernel⟩,
    ⟨up, ⟨rfl, rfl⟩, calm_of_csr (by decide +kernel), by decide +kernel⟩⟩

/-- States and operands that meet the hypotheses of `Obligations.ReferencePulses`, clause by clause. -/
theorem witness_ReferencePulses :
    (∃ high : Nat, ∃ s : State, s.live ∧ s.calm ∧ s.tts.running = true ∧ (high < 100 ∨ s.tts.cur.mode ≠ 1)) ∧
    (∃ high : Nat, ∃ s : State, s.live ∧ s.calm ∧ s.tts.running = true ∧ 100 ≤ high ∧ s.tts.cur.mode = 1 ∧ s.tts.lastPulse = none) ∧
    (∃ at_ : Nat, ∃ high : Nat, ∃ s : State, ∃ l : Nat, s.live ∧ s.calm ∧ s.tts.running = true ∧ 100 ≤ high ∧ s.tts.cur.mode = 1 ∧ s.tts.lastPulse = some l ∧
        s.tts.cur.intervalOk (at_ - l) = true ∧ s.tts.lock ≠ .locked) ∧
    (∃ at_ : Nat, ∃ high : Nat, ∃ s : State, ∃ l : Nat, s.live ∧ s.calm ∧ s.tts.running = true ∧ 100 ≤ high ∧ s.tts.cur.mode = 1 ∧ s.tts.lastPulse = some l ∧
        s.tts.cur.intervalOk (at_ - l) = false ∧ s.tts.cur.overdue (at_ - l) = false) ∧
    (∃ at_ : Nat, ∃ high : Nat, ∃ s : State, ∃ l : Nat, s.live ∧ s.calm ∧ s.tts.running = true ∧ 100 ≤ high ∧ s.tts.cur.mode = 1 ∧ s.tts.lastPulse = some l ∧
        s.tts.cur.intervalOk (at_ - l) = false ∧ s.tts.cur.overdue (at_ - l) = true) ∧
    (∃ at_ : Nat, ∃ l : Nat, ∃ s : State, s.live ∧ s.calm ∧ s.wf = true ∧ s.tts.lastPulse = some l ∧ s.tts.running = true ∧ s.tts.lock = .locked ∧
        s.tts.cur.overdue (at_ - l) = true) ∧
    (∃ at_ : Nat, ∃ l : Nat, ∃ s : State, s.live ∧ s.calm ∧ s.wf = true ∧ s.tts.lastPulse = some l ∧ s.tts.cur.overdue (at_ - l) = false) :=
  ⟨⟨99, genlocked, ⟨rfl, rfl⟩, calm_of_csr (by decide +kernel), by decide +kernel⟩,
    ⟨100, { genlocked with tts := { genlocked.tts with lastPulse := none } }, ⟨rfl, rfl⟩, calm_of_csr (by decide +kernel), by decide +kernel⟩,
    ⟨20000000, 100, genlocked, 0, ⟨rfl, rfl⟩, calm_of_csr (by decide +kernel), by decide +kernel⟩,
    ⟨25000000, 100, genlocked, 0, ⟨rfl, rfl⟩, calm_of_csr (by decide +kernel), by decide +kernel⟩,
    ⟨40000000, 100, genlocked, 0, ⟨rfl, rfl⟩, calm_of_csr (by decide +kernel), by decide +kernel⟩,
    ⟨40000000, 0, { genlocked with tts := { genlocked.tts with lock := .locked } }, ⟨rfl, rfl⟩, calm_of_csr (by decide +kernel), by decide +kernel⟩,
    ⟨20000000, 0, genlocked, ⟨rfl, rfl⟩, calm_of_csr (by decide +kernel), by decide +kernel⟩⟩

/-- States and operands that meet the hypotheses of `Obligations.BellChangeHeld`, clause by clause. -/
theorem witness_BellChangeHeld :
    (∃ p : Path, ∃ v : Word, ∃ s : State, s.calm ∧ s.lets p Reg.ttsChange 4 v Reg.ttsChange ∧ s.bellFits s.bellWanted = true ∧ s.wf = true ∧ wBit v 0 = true ∧
        s.bitAt Reg.ttsChange 1 = false ∧ s.bellWanted.mode ≠ 3 ∧ s.bellWanted.den ≠ 0 ∧ s.bellWanted.rateOk = true) ∧
    (∃ p : Path, ∃ v : Word, ∃ s : State, s.calm ∧ s.lets p Reg.ttsChange 4 v Reg.ttsChange ∧ s.wf = true ∧ wBit v 0 = true ∧ s.bitAt Reg.ttsChange 1 = false ∧
        (s.bellWanted.mode = 3 ∨ s.bellWanted.den = 0)) ∧
    (∃ p : Path, ∃ v : Word, ∃ s : State, s.calm ∧ s.lets p Reg.ttsChange 4 v Reg.ttsChange ∧ s.wf = true ∧ wBit v 0 = true ∧ s.bitAt Reg.ttsChange 1 = false ∧
        s.bellWanted.mode ≠ 3 ∧ s.bellWanted.den ≠ 0 ∧ (s.bellWanted.rateOk = false ∨ s.bellFits s.bellWanted = false)) ∧
    (∃ p : Path, ∃ v : Word, ∃ s : State, s.calm ∧ s.lets p Reg.ttsChange 4 v Reg.ttsChange ∧ s.wf = true ∧ wBit v 0 = true ∧
        s.bitAt Reg.ttsChange 1 = true) :=
  ⟨⟨.jtag, 1, up, calm_of_csr (by decide +kernel), by unfold State.lets State.live; decide +kernel, up_bellFits, by decide +kernel⟩,
    ⟨.jtag, 1, coms up [(Reg.ttsBellNext, 3)], calm_of_csr (by decide +kernel), by unfold State.lets State.live; decide +kernel, by decide +kernel⟩,
    ⟨.jtag, 1, coms up [(Reg.ttsRateNext, 0x10001)], calm_of_csr (by decide +kernel), by unfold State.lets State.live; decide +kernel, by decide +kernel⟩,
    ⟨.jtag, 1, put up [(Reg.ttsChange, 1, 1, 1)], calm_of_csr (by decide +kernel), by unfold State.lets State.live; decide +kernel, by decide +kernel⟩⟩

/-- States and operands that meet the hypotheses of `Obligations.ReadsClear`, clause by clause. -/
theorem witness_ReadsClear :
    (∃ p : Path, ∃ s : State, s.reads p Reg.ttsCountLo) ∧
    (∃ p : Path, ∃ s : State, s.reads p Reg.admBusyCount ∧ s.wf = true) ∧
    (∃ p : Path, ∃ s : State, s.reads p Reg.hmnMgtLoad ∧ s.wf = true) ∧
    (∃ p : Path, ∃ s : State, ∃ n : Nat, s.reads p (Reg.grdViolInfo n) ∧ s.wf = true ∧ n < 28) ∧
    (∃ p : Path, ∃ s : State, ∃ n : Nat, s.reads p (Reg.capFrames n) ∧ s.wf = true ∧ n < 8) ∧
    (∃ p : Path, ∃ s : State, ∃ h : Nat, s.reads p (Reg.hdUnderrun h) ∧ s.wf = true ∧ h < 32) ∧
    (∃ p : Path, ∃ s : State, ∃ n : Nat, s.reads p (Reg.tchCount n) ∧ s.wf = true ∧ n < 8) ∧
    (∃ p : Path, ∃ s : State, ∃ n : Nat, s.reads p (Reg.hapCount n) ∧ s.wf = true ∧ n < 8) ∧
    (∃ p : Path, ∃ s : State, ∃ st : Nat, s.reads p (Reg.fsCount st) ∧ s.wf = true ∧ st < 256 ∧ (stKind st).isSome = true) :=
  ⟨⟨.jtag, up, by unfold State.reads State.live; decide +kernel⟩,
    ⟨.jtag, put up [(Reg.admBusyCount, 0, 32, 7)], by unfold State.reads State.live; decide +kernel, by decide +kernel⟩,
    ⟨.jtag, up, by unfold State.reads State.live; decide +kernel, by decide +kernel⟩,
    ⟨.jtag, put up [(Reg.grdViolInfo 27, 20, 12, 7)], 27, by unfold State.reads State.live; decide +kernel, by decide +kernel⟩,
    ⟨.jtag, up, 7, by unfold State.reads State.live; decide +kernel, by decide +kernel⟩,
    ⟨.jtag, up, 31, by unfold State.reads State.live; decide +kernel, by decide +kernel⟩,
    ⟨.jtag, up, 7, by unfold State.reads State.live; decide +kernel, by decide +kernel⟩,
    ⟨.jtag, up, 7, by unfold State.reads State.live; decide +kernel, by decide +kernel⟩,
    ⟨.jtag, put up [(Reg.fsCount 24, 0, 16, 3)], 24, by unfold State.reads State.live; decide +kernel, by decide +kernel⟩⟩

/-- States and operands that meet the hypotheses of `Obligations.RingsServe`, clause by clause. -/
theorem witness_RingsServe :
    (∃ p : Path, ∃ seat : Nat, ∃ ring : Nat, ∃ v : Word, ∃ s : State, s.calm ∧ s.lets p (pageOff p seat (0x180 + 8 * ring)) 8 v (Reg.doorbell seat ring) ∧
        s.wf = true ∧ seat < 512 ∧ ring < 8 ∧ s.ringOn seat ring = true ∧ s.seatState seat = 1 ∧
        s.doorbellOk seat ring (wBits v 0 17) (wBits v 32 15) = true) ∧
    (∃ p : Path, ∃ seat : Nat, ∃ ring : Nat, ∃ v : Word, ∃ s : State, s.calm ∧ s.lets p (pageOff p seat (0x180 + 8 * ring)) 8 v (Reg.doorbell seat ring) ∧
        s.wf = true ∧ seat < 512 ∧ ring < 8 ∧ s.ringOn seat ring = true ∧ s.seatState seat = 1 ∧
        s.doorbellOk seat ring (wBits v 0 17) (wBits v 32 15) = false) ∧
    (∃ p : Path, ∃ seat : Nat, ∃ ring : Nat, ∃ v : Word, ∃ s : State, s.calm ∧ s.lets p (pageOff p seat (0x180 + 8 * ring)) 8 v (Reg.doorbell seat ring) ∧
        s.wf = true ∧ seat < 512 ∧ ring < 8 ∧ (s.ringOn seat ring = false ∨ s.seatState seat ≠ 1)) ∧
    (∃ p : Path, ∃ seat : Nat, ∃ ring : Nat, ∃ v : Word, ∃ s : State, s.calm ∧ s.lets p (pageOff p seat (0x100 + 8 * ring)) 8 v (Reg.ringBase seat ring) ∧
        s.wf = true ∧ seat < 512 ∧ ring < 8 ∧ wBit v 0 = true ∧ s.ringOn seat ring = false) ∧
    (∃ p : Path, ∃ seat : Nat, ∃ ring : Nat, ∃ v : Word, ∃ s : State, s.calm ∧ s.lets p (pageOff p seat (0x100 + 8 * ring)) 8 v (Reg.ringBase seat ring) ∧
        s.wf = true ∧ seat < 512 ∧ ring < 8 ∧ wBit v 0 = true ∧ s.ringOn seat ring = true) ∧
    (∃ p : Path, ∃ seat : Nat, ∃ ring : Nat, ∃ v : Word, ∃ s : State, s.calm ∧ s.lets p (pageOff p seat (0x100 + 8 * ring)) 8 v (Reg.ringBase seat ring) ∧
        s.wf = true ∧ seat < 512 ∧ ring < 8 ∧ wBit v 0 = false ∧ s.ringOn seat ring = true ∧ (s.cfe.cmds.map Cmd.id).Nodup) ∧
    (∃ p : Path, ∃ seat : Nat, ∃ ring : Nat, ∃ v : Word, ∃ s : State, s.calm ∧ s.lets p (pageOff p seat (0x100 + 8 * ring)) 8 v (Reg.ringBase seat ring) ∧
        s.wf = true ∧ seat < 512 ∧ ring < 8 ∧ wBit v 0 = false ∧ s.ringOn seat ring = false) :=
  ⟨⟨.pf 0, 0, 0, 16, ringed, calm_of_csr (by decide +kernel), by unfold State.lets State.live; decide +kernel, by decide +kernel⟩,
    ⟨.pf 0, 0, 0, 17, ringed, calm_of_csr (by decide +kernel), by unfold State.lets State.live; decide +kernel, by decide +kernel⟩,
    ⟨.pf 0, 0, 1, 1, ringed, calm_of_csr (by decide +kernel), by unfold State.lets State.live; decide +kernel, by decide +kernel⟩,
    ⟨.pf 0, 0, 7, 1, up, calm_of_csr (by decide +kernel), by unfold State.lets State.live; decide +kernel, by decide +kernel⟩,
    ⟨.pf 0, 0, 0, 1, ringed, calm_of_csr (by decide +kernel), by unfold State.lets State.live; decide +kernel, by decide +kernel⟩,
    ⟨.pf 0, 0, 0, 0, ringed, calm_of_csr (by decide +kernel), by unfold State.lets State.live; decide +kernel, by decide +kernel⟩,
    ⟨.pf 0, 0, 1, 0x2000, ringed, calm_of_csr (by decide +kernel), by unfold State.lets State.live; decide +kernel, by decide +kernel⟩⟩

/-- States and operands that meet the hypotheses of `Obligations.SeatMessages`, clause by clause. -/
theorem witness_SeatMessages :
    (∃ seat : Nat, ∃ s : State, ∃ p : Path, ∃ v : Word, s.lets p (pageOff p seat 0x18) 4 v (Reg.irqMask seat) ∧ seat < 512 ∧ s.wf = true) ∧
    (∃ seat : Nat, ∃ s : State, s.live ∧ seat < 512 ∧ s.wf = true) ∧
    (∃ seat : Nat, ∃ s : State, ∃ p : Path, s.lets p (pageOff p seat 0x28) 8 ((s.rd (Reg.dirtyLogBase seat) &&& ~~~ 0x200) ||| 4) (Reg.dirtyLogBase seat) ∧
        seat < 512 ∧ s.wf = true ∧ s.supPath p = true ∧ s.bitAt (Reg.dirtyLogBase seat) 3 = false) ∧
    (∃ seat : Nat, ∃ s : State, ∃ p : Path, s.lets p (pageOff p seat 0x28) 8 ((s.rd (Reg.dirtyLogBase seat) &&& ~~~ 0x200) ||| 4) (Reg.dirtyLogBase seat) ∧
        seat < 512 ∧ s.wf = true ∧ s.supPath p = true ∧ s.bitAt (Reg.dirtyLogBase seat) 3 = true) ∧
    (∃ seat : Nat, ∃ s : State, s.live ∧ seat < 512 ∧ s.wf = true) :=
  ⟨⟨0, up, .pf 0, 0xFFF, by unfold State.lets State.live; decide +kernel, by decide +kernel⟩,
    ⟨511, up, ⟨rfl, rfl⟩, by decide +kernel⟩,
    ⟨0, up, .pf 0, by unfold State.lets State.live; decide +kernel, by decide +kernel⟩,
    ⟨0, put up [(Reg.dirtyLogBase 0, 3, 1, 1)], .pf 0, by unfold State.lets State.live; decide +kernel, by decide +kernel⟩,
    ⟨0, put up [(Reg.dirtyLogBase 0, 3, 1, 1)], ⟨rfl, rfl⟩, by decide +kernel⟩⟩

/-- States and operands that meet the hypotheses of `Obligations.SeatResets`, clause by clause. -/
theorem witness_SeatResets :
    (∃ seat : Nat, ∃ s : State, ∃ p : Path, ∃ v : Word, s.calm ∧ s.lets p Reg.seatReset 4 v Reg.seatReset ∧ s.wf = true ∧ seat < 512 ∧ s.seatState seat = 1 ∧
        (∀ r ∈ s.seats.resets, r.seat ≠ seat) ∧ wBit v 9 = true ∧ wBits v 0 9 = seat) ∧
    (∃ seat : Nat, ∃ s : State, s.calm ∧ s.live ∧ s.wf = true ∧ seat < 512 ∧ s.seatState seat = 1 ∧ (∀ r ∈ s.seats.resets, r.seat ≠ seat) ∧ s.pst < 4 ∧
        mapWf (fun _ => false) s.seats.msixOn = true) ∧
    (∃ seat : Nat, ∃ s : State, ∃ l : Nat, s.calm ∧ s.live ∧ s.wf = true ∧ seat < 512 ∧ s.seatState seat = 1 ∧ (∀ r ∈ s.seats.resets, r.seat ≠ seat) ∧
        seat < 4 ∧ l < s.linkCount ∧ s.linkOfPf seat = l) ∧
    (∃ seat : Nat, ∃ s : State, s.calm ∧ s.live ∧ s.wf = true ∧ seat < 512 ∧ s.seatState seat = 1 ∧ (∀ r ∈ s.seats.resets, r.seat ≠ seat) ∧
        seat ∈ s.seats.reclaims) ∧
    (∃ seat : Nat, ∃ s : State, s.live ∧ s.calm ∧ s.wf = true ∧ seat < 512 ∧ s.seatState seat = 2 ∧ (∀ c ∈ s.cfe.cmds, c.seat = seat → c.stage = .ended)) ∧
    (∃ seat : Nat, ∃ s : State, ∃ st : Nat, ∃ r : SeatReset, s.live ∧ s.calm ∧ s.wf = true ∧ seat < 512 ∧ s.resetOf seat = some r ∧ st < 256 ∧
        srcExists st 2 = true ∧ 32 * (r.bell + 2) + 1 ≤ s.now) ∧
    (∃ seat : Nat, ∃ s : State, ∃ st : Nat, ∃ r : SeatReset, ∃ c : Cmd, s.live ∧ s.calm ∧ s.wf = true ∧ seat < 512 ∧ s.resetOf seat = some r ∧ st < 256 ∧
        srcExists st 2 = true ∧ 32 * (r.bell + 2) + 1 ≤ s.now ∧ s.cmd? c.id = some c ∧ c.seat = seat) ∧
    (∃ seat : Nat, ∃ s : State, ∃ r : SeatReset, s.live ∧ s.calm ∧ s.wf = true ∧ seat < 512 ∧ s.resetOf seat = some r ∧ s.seatState seat = 3 ∧
        (∀ c ∈ s.cfe.cmds, c.seat ≠ seat)) :=
  ⟨⟨0, up, .pf 0, 0x200, calm_of_csr (by decide +kernel), by unfold State.lets State.live; decide +kernel, by decide +kernel⟩,
    ⟨0, up, calm_of_csr (by decide +kernel), ⟨rfl, rfl⟩, by decide +kernel⟩,
    ⟨0, up, 0, calm_of_csr (by decide +kernel), ⟨rfl, rfl⟩, by decide +kernel⟩,
    ⟨0, { up with seats := { up.seats with reclaims := [0] } }, calm_of_csr (by decide +kernel), ⟨rfl, rfl⟩, by decide +kernel⟩,
    ⟨0, put up [(Reg.seatState 0, 0, 3, 2)], ⟨rfl, rfl⟩, calm_of_csr (by decide +kernel), by decide +kernel⟩,
    ⟨0, { put up [(Reg.seatState 0, 0, 3, 2)] with seats := { up.seats with resets := [aReset] } }, 24, aReset, ⟨rfl, rfl⟩, calm_of_csr (by decide +kernel),
        by decide +kernel⟩,
    ⟨0, withCmds { put up [(Reg.seatState 0, 0, 3, 2)] with seats := { up.seats with resets := [aReset] } } [cmdOf 1 [hd 0x0200 4]], 24, aReset,
        cmdOf 1 [hd 0x0200 4], ⟨rfl, rfl⟩, calm_of_csr (by decide +kernel), by decide +kernel⟩,
    ⟨0, { put up [(Reg.seatState 0, 0, 3, 3)] with seats := { up.seats with resets := [aReset] } }, aReset, ⟨rfl, rfl⟩, calm_of_csr (by decide +kernel),
        by decide +kernel⟩⟩

/-- States and operands that meet the hypotheses of `Obligations.SeatTables`, clause by clause. -/
theorem witness_SeatTables :
    (∃ pf : Nat, ∃ s : State, s.live ∧ s.wf = true ∧ pf < 4 ∧ s.pst < 4 ∧ s.seats.vfEnable.getD pf true = false) ∧
    (∃ pf : Nat, ∃ s : State, s.live ∧ s.wf = true ∧ pf < 4 ∧ s.pst < 4) ∧
    (∃ s : State, ∃ p : Path, s.lets p Reg.seatTblCmd 4 1 Reg.seatTblCmd ∧ s.wf = true ∧ s.bitAt Reg.seatTblCmd 2 = false ∧ s.tblAddr.1 < 5 ∧
        s.tblAddr.2.2 < tblIndices s.tblAddr.1) ∧
    (∃ s : State, ∃ p : Path, s.lets p Reg.seatTblCmd 4 2 Reg.seatTblCmd ∧ s.wf = true ∧ s.bitAt Reg.seatTblCmd 2 = false ∧ s.tblAddr.1 < 5 ∧
        s.tblAddr.2.2 < tblIndices s.tblAddr.1) ∧
    (∃ s : State, ∃ p : Path, s.lets p Reg.seatTblCmd 4 3 Reg.seatTblCmd ∧ s.wf = true ∧ s.bitAt Reg.seatTblCmd 2 = false ∧ s.tblAddr.1 < 5 ∧
        s.tblAddr.2.2 < tblIndices s.tblAddr.1) ∧
    (∃ s : State, ∃ r : Nat, s.live ∧ s.wf = true ∧ s.seats.tblOp = some r) :=
  ⟨⟨3, up, ⟨rfl, rfl⟩, by decide +kernel⟩,
    ⟨0, { put up [(Reg.seatState 4, 0, 3, 1)] with seats := { up.seats with vfEnable := [true, false, false, false] } }, ⟨rfl, rfl⟩, by decide +kernel⟩,
    ⟨up, .pf 0, by unfold State.lets State.live; decide +kernel, by decide +kernel⟩,
    ⟨up, .pf 0, by unfold State.lets State.live; decide +kernel, by decide +kernel⟩,
    ⟨up, .pf 0, by unfold State.lets State.live; decide +kernel, by decide +kernel⟩,
    ⟨{ put up [(Reg.seatTblCmd, 2, 1, 1)] with seats := { up.seats with tblOp := some 2 } }, 2, ⟨rfl, rfl⟩, by decide +kernel⟩⟩

/-- States and operands that meet the hypotheses of `Obligations.MemoryReads`, clause by clause. -/
theorem witness_MemoryReads :
    (∃ t : Txn, ∃ s : State, s.live ∧ s.calm ∧ plainTxn s t t.len ∧ s.wf = true ∧ t.kind ≠ .write ∧ 0 < t.len ∧
        s.refusedBy (plainReq s t) t.addr t.len = none ∧ (∀ w ∈ wordsOf t.addr t.len, s.wordCheck (wordsOf t.addr t.len) w = .clean)) ∧
    (∃ t : Txn, ∃ s : State, ∃ n : Nat, s.live ∧ s.calm ∧ plainTxn s t t.len ∧ s.wf = true ∧ t.kind ≠ .write ∧ 0 < t.len ∧
        s.refusedBy (plainReq s t) t.addr t.len = some n) ∧
    (∃ t : Txn, ∃ s : State, s.live ∧ s.calm ∧ s.wf = true ∧ t.kind ≠ .write ∧ 0 < t.len ∧ t.station < 256 ∧ t.seat = none ∧ t.cmd = none ∧ t.atomic = false ∧
        t.station ≠ stCmp ∧ t.station ≠ stPrf ∧ (∃ i, i < t.len ∧ s.mapped (t.addr + i) = false)) :=
  ⟨⟨aRead, { up with mem := [(0x1000, 7)] }, ⟨rfl, rfl⟩, calm_of_csr (by decide +kernel), by unfold plainTxn; decide +kernel, by decide +kernel⟩,
    ⟨aRead, coms up [(Reg.grdAttr 12 0, 0)], 12, ⟨rfl, rfl⟩, calm_of_csr (by decide +kernel), by unfold plainTxn; decide +kernel, by decide +kernel⟩,
    ⟨{ aRead with addr := 0xFFFFFFFFC }, up, ⟨rfl, rfl⟩, calm_of_csr (by decide +kernel), by decide +kernel⟩⟩

/-- States and operands that meet the hypotheses of `Obligations.MemoryWrites`, clause by clause. -/
theorem witness_MemoryWrites :
    (∃ t : Txn, ∃ s : State, s.live ∧ s.calm ∧ plainTxn s t t.data.length ∧ s.wf = true ∧ t.kind = .write ∧ 0 < t.data.length ∧
        s.refusedBy (plainReq s t) t.addr t.data.length = none ∧ (∀ w ∈ partWords t.addr t.data, s.protected w = true →
        s.wordCheck (partWords t.addr t.data) w = .clean)) ∧
    (∃ t : Txn, ∃ s : State, ∃ n : Nat, s.live ∧ s.calm ∧ plainTxn s t t.data.length ∧ s.wf = true ∧ t.kind = .write ∧ 0 < t.data.length ∧
        s.refusedBy (plainReq s t) t.addr t.data.length = some n) ∧
    (∃ t : Txn, ∃ n : Nat, ∃ s : State, ∃ pl : Place, s.live ∧ s.calm ∧ s.wf = true ∧ t.station < 256 ∧ t.seat = some n ∧ n < 512 ∧ t.cmd = none ∧
        t.atomic = false ∧ t.host = .ok ∧ t.kind ≠ .write ∧ s.translate n t.addr t.len (if t.kind = .fetch then .fetch else .read) = some pl ∧
        pl.target = 0) ∧
    (∃ t : Txn, ∃ n : Nat, ∃ s : State, ∃ pl : Place, s.live ∧ s.calm ∧ s.wf = true ∧ t.station < 256 ∧ t.seat = some n ∧ n < 512 ∧ t.cmd = none ∧
        t.atomic = false ∧ t.host = .ok ∧ t.kind = .write ∧ s.translate n t.addr t.data.length .write = some pl ∧ pl.target = 0 ∧
        s.cfld (Reg.dirtyLogBase n) 0 1 = 0) ∧
    (∃ t : Txn, ∃ n : Nat, ∃ s : State, s.live ∧ s.calm ∧ s.wf = true ∧ t.station < 256 ∧ t.seat = some n ∧ n < 512 ∧ t.cmd = none ∧ t.atomic = false ∧
        t.host = .ok ∧ t.kind = .write ∧ s.translate n t.addr t.data.length .write = none ∧ srcExists t.station 1 = true) :=
  ⟨⟨{ aRead with kind := .write, data := [1, 2, 3] }, up, ⟨rfl, rfl⟩, calm_of_csr (by decide +kernel), by unfold plainTxn; decide +kernel, by decide +kernel⟩,
    ⟨{ aRead with kind := .write, data := [1, 2, 3] }, coms up [(Reg.grdAttr 12 0, 0)], 12, ⟨rfl, rfl⟩, calm_of_csr (by decide +kernel),
        by unfold plainTxn; decide +kernel, by decide +kernel⟩,
    ⟨{ aRead with seat := some 0, addr := 0x1000000000 }, 0, { own with mem := [(0x1000000000000000000, 7)] }, ⟨0, 0, 0x1000000000⟩, ⟨rfl, rfl⟩,
        calm_of_csr (by decide +kernel), by decide +kernel⟩,
    ⟨{ aRead with seat := some 0, addr := 0x1000000000, kind := .write, data := [1, 2] }, 0, own, ⟨0, 0, 0x1000000000⟩, ⟨rfl, rfl⟩,
        calm_of_csr (by decide +kernel), by decide +kernel⟩,
    ⟨{ aRead with seat := some 0, addr := 0x2000000000, kind := .write, data := [1, 2] }, 0, own, ⟨rfl, rfl⟩, calm_of_csr (by decide +kernel),
        by decide +kernel⟩⟩

/-- States and operands that meet the hypotheses of `Obligations.MemoryMaintenance`, clause by clause. -/
theorem witness_MemoryMaintenance :
    (∃ ch : Nat, ∃ bank : Nat, ∃ s : State, s.live ∧ ch < 32 ∧ bank < 16 ∧ mapWf (fun _ => []) s.memc.rows = true ∧ s.memc.up = true ∧
        s.memc.selfRefresh = false) ∧
    (∃ ch : Nat, ∃ bank : Nat, ∃ s : State, s.live ∧ ch < 32 ∧ bank < 16 ∧ mapWf (fun _ => []) s.memc.rows = true) ∧
    (∃ ch : Nat, ∃ bank : Nat, ∃ s : State, ∃ row : Nat, s.live ∧ ch < 32 ∧ bank < 16 ∧ mapWf (fun _ => []) s.memc.rows = true ∧ (ch, bank,
        row) ∈ s.memc.rhPend) ∧
    (∃ p : Path, ∃ dmc : Bool, ∃ s : State, s.lets p (eccCtrl dmc) 4 ((s.rd (eccCtrl dmc) &&& ~~~ 8) ||| 1) (eccCtrl dmc) ∧ s.wf = true) ∧
    (∃ p : Path, ∃ dmc : Bool, ∃ s : State, s.lets p (eccCtrl dmc) 4 ((s.rd (eccCtrl dmc) &&& ~~~ 8) ||| 2) (eccCtrl dmc) ∧ s.wf = true) ∧
    (∃ p : Path, ∃ dmc : Bool, ∃ s : State, s.lets p (eccCtrl dmc) 4 ((s.rd (eccCtrl dmc) &&& ~~~ 8) ||| 4) (eccCtrl dmc) ∧ s.wf = true) :=
  ⟨⟨31, 15, { up with memc := { up.memc with rows := [(511, [(0, 3, 5)])] } }, ⟨rfl, rfl⟩, by decide +kernel⟩,
    ⟨0, 0, up, ⟨rfl, rfl⟩, by decide +kernel⟩,
    ⟨1, 2, { up with memc := { up.memc with rows := [(18, [(0, 3, 5)])], rhPend := [(1, 2, 3)] } }, 3, ⟨rfl, rfl⟩, by decide +kernel⟩,
    ⟨.jtag, true, put up [(Reg.dmcEccCtrl, 3, 1, 1)], by unfold State.lets State.live; decide +kernel, by decide +kernel⟩,
    ⟨.jtag, false, put up [(Reg.stoUeHead, 0, 3, 2)], by unfold State.lets State.live; decide +kernel, by decide +kernel⟩,
    ⟨.jtag, true, put up [(Reg.dmcChErr 3, 0, 32, 9)], by unfold State.lets State.live; decide +kernel, by decide +kernel⟩⟩

/-- States and operands that meet the hypotheses of `Obligations.TestInterface`, clause by clause. -/
theorem witness_TestInterface :
    (∃ dmc : Bool, ∃ s : State, ∃ p : Path, s.lets p (testRegs dmc).2.2.2 4 1 (testRegs dmc).2.2.2 ∧ s.wf = true ∧ s.bitAt (testRegs dmc).2.2.2 2 = false ∧
        s.bitAt (eccCtrl dmc) 4 = true ∧ s.testResult dmc (isSecPath p) 1 = 0) ∧
    (∃ dmc : Bool, ∃ s : State, ∃ p : Path, s.lets p (testRegs dmc).2.2.2 4 2 (testRegs dmc).2.2.2 ∧ s.wf = true ∧ s.bitAt (testRegs dmc).2.2.2 2 = false ∧
        s.bitAt (eccCtrl dmc) 4 = true ∧ s.testResult dmc (isSecPath p) 2 = 0) ∧
    (∃ dmc : Bool, ∃ s : State, ∃ p : Path, s.lets p (testRegs dmc).2.2.2 4 3 (testRegs dmc).2.2.2 ∧ s.wf = true ∧ s.bitAt (testRegs dmc).2.2.2 2 = false ∧
        s.bitAt (eccCtrl dmc) 4 = true ∧ s.testResult dmc (isSecPath p) 3 = 0) ∧
    (∃ dmc : Bool, ∃ s : State, ∃ p : Path, s.lets p (testRegs dmc).2.2.2 4 1 (testRegs dmc).2.2.2 ∧ s.wf = true ∧ s.bitAt (testRegs dmc).2.2.2 2 = false ∧
        s.bitAt (eccCtrl dmc) 4 = false) ∧
    (∃ dmc : Bool, ∃ s : State, ∃ r : Nat, s.live ∧ s.wf = true ∧ (if dmc then s.memc.dmcOp else s.memc.stoOp) = some r) :=
  ⟨⟨false, { put up [(Reg.stoEccCtrl, 4, 1, 1), (Reg.stoTestAddr, 0, 48, 0x100000000008), (Reg.stoTestData, 0, 64, 5)] with mem := [(0x100000000008, 7)] },
      .jtag, by unfold State.lets State.live; decide +kernel, by decide +kernel⟩,
    ⟨false, { put up [(Reg.stoEccCtrl, 4, 1, 1), (Reg.stoTestAddr, 0, 48, 0x100000000008), (Reg.stoTestData, 0, 64, 5)] with mem := [(0x100000000008, 7)] },
        .jtag, by unfold State.lets State.live; decide +kernel, by decide +kernel⟩,
    ⟨false, { put up [(Reg.stoEccCtrl, 4, 1, 1), (Reg.stoTestAddr, 0, 48, 0x100000000008), (Reg.stoTestData, 0, 64, 5)] with mem := [(0x100000000008, 7)] },
        .jtag, by unfold State.lets State.live; decide +kernel, by decide +kernel⟩,
    ⟨true, up, .jtag, by unfold State.lets State.live; decide +kernel, by decide +kernel⟩,
    ⟨true, { put up [(Reg.dmcTestCmd, 2, 1, 1)] with memc := { up.memc with dmcOp := some 2 } }, 2, ⟨rfl, rfl⟩, by decide +kernel⟩⟩

/-- States and operands that meet the hypotheses of `Obligations.RegisterWrites`, clause by clause. -/
theorem witness_RegisterWrites :
    (∃ p : Path, ∃ off : Nat, ∃ v : Word, ∃ s : State, ∃ h : Nat, s.lets p off 4 v (Reg.hdEventEn h) ∧ s.wf = true ∧ h < 32) ∧
    (∃ p : Path, ∃ off : Nat, ∃ v : Word, ∃ s : State, ∃ h : Nat, s.lets p off 4 v (Reg.hdEvent h) ∧ s.wf = true ∧ h < 32) ∧
    (∃ p : Path, ∃ off : Nat, ∃ size : Nat, ∃ v : Word, ∃ s : State, ∃ k : Nat, s.lets p off size v (Reg.admCap k) ∧ s.wf = true ∧ k < 9) ∧
    (∃ p : Path, ∃ off : Nat, ∃ v : Word, ∃ s : State, s.lets p off 8 v Reg.audDpRate96 ∧ s.wf = true) ∧
    (∃ p : Path, ∃ off : Nat, ∃ size : Nat, ∃ s : State, s.live ∧ s.wf = true ∧ s.holds p = false ∧ (accessOk off size = false ∨ s.reach p off true = none)) ∧
    (∃ p : Path, ∃ off : Nat, ∃ size : Nat, ∃ v : Word, ∃ s : State, ∃ a : Nat, s.live ∧ s.calm ∧ s.wf = true ∧ s.holds p = false ∧ accessOk off size = true ∧
        s.reach p off true = some a ∧ (regFind (a / 8 * 8)).isSome = true ∧ s.gate p (a / 8 * 8) (coverWord a size v) (coverMask a size) = .log ∧
        stIsRegion (stationOfOffset a) = false ∧ srcExists (stationOfOffset a) 0 = true) :=
  ⟨⟨.pf 0, Reg.hdEventEn 31, 5, up, 31, by unfold State.lets State.live; decide +kernel, by decide +kernel⟩,
    ⟨.pf 0, Reg.hdEvent 0, 5, put up [(Reg.hdEvent 0, 0, 4, 7)], 0, by unfold State.lets State.live; decide +kernel, by decide +kernel⟩,
    ⟨.pf 0, Reg.admCap 8, 8, 5, up, 8, by unfold State.lets State.live; decide +kernel, by decide +kernel⟩,
    ⟨.pf 0, Reg.audDpRate96, 5, up, by unfold State.lets State.live; decide +kernel, by decide +kernel⟩,
    ⟨.pf 1, Reg.audDpRate96, 8, up, ⟨rfl, rfl⟩, by decide +kernel⟩,
    ⟨.jtag, Reg.secReserveDram, 4, 5, up, Reg.secReserveDram, ⟨rfl, rfl⟩, calm_of_csr (by decide +kernel), by decide +kernel⟩⟩

/-- States and operands that meet the hypotheses of `Obligations.SecureRenders`, clause by clause. -/
theorem witness_SecureRenders :
    (∃ p : Path, ∃ s : State, ∃ v : Word, let s1 := s.putReg Reg.rndSecqCtrl v; let o := s1.secqRead (s.rd Reg.rndSecqBase).toNat (8 * wBits v 0 16); s.calm ∧
        s.lets p Reg.rndSecqCtrl 8 v Reg.rndSecqCtrl ∧ s.wf = true ∧ wBit v 16 = true ∧ wBit v 17 = false ∧ s.fld Reg.rndSecqStatus 0 2 = 0 ∧
        s.bitAt Reg.secState 0 = false ∧ s.vid.runs = [] ∧ o.err = false ∧ secParse (bytesWords o.bytes) = none) ∧
    (∃ p : Path, ∃ s : State, ∃ v : Word, ∃ ws : List Word, ∃ draws : List (List Word),
        let s1 := s.putReg Reg.rndSecqCtrl v; let o := s1.secqRead (s.rd Reg.rndSecqBase).toNat (8 * wBits v 0 16); let t := s1.secqRead (fw ws 1 0 64) 320; let sts := draws.map fun d => s1.secqRead (fw d 4 0 64) 96; let states := sts.map fun x => bytesWords x.bytes; s.calm ∧ s.lets p Reg.rndSecqCtrl 8 v Reg.rndSecqCtrl ∧ s.wf = true ∧ wBit v 16 = true ∧ wBit v 17 = false ∧ s.fld Reg.rndSecqStatus 0 2 = 0 ∧ s.bitAt Reg.secState 0 = false ∧ s.vid.runs = [] ∧ o.err = false ∧ secParse (bytesWords o.bytes) = some (ws, draws) ∧ hdrOp (ws.headD 0) = 0x0301 ∧ t.err = false ∧ readsFailed sts = false ∧ draws ≠ [] ∧ draws.length ≤ fw ws 2 16 16 ∧ draws.all drawLenOk = true ∧ passWordsOk ws = true ∧ draws.all drawWordsOk = true ∧ passEnvelopeOk s1.rndPeriod ws = true ∧ states.all stateOk = true ∧ targetOk ws (bytesWords t.bytes) states = true ∧ s1.secExtentsOk ws (bytesWords t.bytes) draws = true ∧ (fw (bytesWords t.bytes) 1 0 64 = 0 ∨ isStore (fw (bytesWords t.bytes) 1 0 64) = true) ∧ (∀ d ∈ draws, d.length = 5 + b2n (drawIndexed d))) ∧
    (∃ p : Path, ∃ s : State, ∃ r : RndRun, s.calm ∧ s.lets p Reg.rndSecqCtrl 8 (s.rd Reg.rndSecqCtrl ||| 0x20000) Reg.rndSecqCtrl ∧ s.wf = true ∧
        s.fld Reg.rndSecqStatus 0 2 = 1 ∧ s.run? none = some r ∧ s.unitsRunning none ≠ []) ∧
    (∃ p : Path, ∃ s : State, ∃ r : RndRun, s.calm ∧ s.lets p Reg.rndSecqCtrl 8 (s.rd Reg.rndSecqCtrl ||| 0x20000) Reg.rndSecqCtrl ∧ s.wf = true ∧
        s.fld Reg.rndSecqStatus 0 2 = 1 ∧ s.run? none = some r ∧ s.unitsRunning none = []) :=
  ⟨⟨.sec, put up [(Reg.rndSecqBase, 0, 64, 0x1000)], 0x10008, calm_of_csr (by decide +kernel), by unfold State.lets State.live; decide +kernel,
      by decide +kernel⟩,
    ⟨.sec, put (secured (passWs ++ drawWs ++ [hd 0x0304 1]) [(0x3000, targetWs), (0x4000, stateWs)]) [(Reg.rndSecqBase, 0, 64, 0x1000)], 0x1000E, passWs,
        [drawWs], calm_of_csr (by decide +kernel), by unfold State.lets State.live; decide +kernel, by decide +kernel⟩,
    ⟨.sec, { put up [(Reg.rndSecqStatus, 0, 2, 1)] with vid := { up.vid with runs := [aPass none], turns := [(0, none, 0)] } }, aPass none,
        calm_of_csr (by decide +kernel), by unfold State.lets State.live; decide +kernel, by decide +kernel⟩,
    ⟨.sec, { put up [(Reg.rndSecqStatus, 0, 2, 1)] with vid := { up.vid with runs := [aPass none] } }, aPass none, calm_of_csr (by decide +kernel),
        by unfold State.lets State.live; decide +kernel, by decide +kernel⟩⟩

/-- States and operands that meet the hypotheses of `Obligations.SecurePipes`, clause by clause. -/
theorem witness_SecurePipes :
    (∃ p : Path, ∃ n : Nat, ∃ s : State, ∃ v : Word, let h := ownerRead s stVdc none (s.rd (Reg.vdcBase n)).toNat 8 .ok; let hdr := bytesWord h.bytes; s.calm ∧
        s.lets p (Reg.vdcCtrl n) 4 v (Reg.vdcCtrl n) ∧ s.wf = true ∧ n < 10 ∧ s.unitSec (113 + n) = true ∧ wBit v 0 = true ∧ wBit v 1 = false ∧
        s.fld (Reg.vdcStatus n) 0 2 = 0 ∧ s.bitAt Reg.secState 0 = false ∧ h.err = false ∧ hdrReserved hdr = true) ∧
    (∃ p : Path, ∃ n : Nat, ∃ s : State, ∃ v : Word, ∃ x : Session,
        let h := ownerRead s stVdc none (s.rd (Reg.vdcBase n)).toNat 8 .ok; let hdr := bytesWord h.bytes; let o := ownerRead s stVdc none (s.rd (Reg.vdcBase n)).toNat (8 * hdrLen hdr) .ok; let ws := bytesWords o.bytes; s.calm ∧ s.lets p (Reg.vdcCtrl n) 4 v (Reg.vdcCtrl n) ∧ s.wf = true ∧ n < 10 ∧ s.unitSec (113 + n) = true ∧ wBit v 0 = true ∧ wBit v 1 = false ∧ s.fld (Reg.vdcStatus n) 0 2 = 0 ∧ s.bitAt Reg.secState 0 = false ∧ h.err = false ∧ o.err = false ∧ hdrLen hdr ≠ 0 ∧ hdrReserved hdr = false ∧ lengthOk (hdrOp hdr) (hdrLen hdr) = true ∧ hdrOp hdr = 0x0500 ∧ fb ws 1 0 = true ∧ s.secSess n (fw ws 1 24 8) = some x ∧ ((rangeFrom 2 6).all fun i => fw ws i 0 64 = 0) = true) ∧
    (∃ p : Path, ∃ n : Nat, ∃ s : State, ∃ v : Word, ∃ x : Session,
        let h := ownerRead s stVdc none (s.rd (Reg.vdcBase n)).toNat 8 .ok; let hdr := bytesWord h.bytes; let o := ownerRead s stVdc none (s.rd (Reg.vdcBase n)).toNat (8 * hdrLen hdr) .ok; let ws := bytesWords o.bytes; s.calm ∧ s.lets p (Reg.vdcCtrl n) 4 v (Reg.vdcCtrl n) ∧ s.wf = true ∧ n < 10 ∧ s.unitSec (113 + n) = true ∧ wBit v 0 = true ∧ wBit v 1 = false ∧ s.fld (Reg.vdcStatus n) 0 2 = 0 ∧ s.bitAt Reg.secState 0 = false ∧ h.err = false ∧ o.err = false ∧ hdrLen hdr ≠ 0 ∧ hdrReserved hdr = false ∧ lengthOk (hdrOp hdr) (hdrLen hdr) = true ∧ hdrOp hdr = 0x0503 ∧ s.secSess n (fw ws 1 0 8) = some x ∧ fw ws 1 8 56 = 0 ∧ fb x.words 1 1 = true) ∧
    (∃ p : Path, ∃ n : Nat, ∃ s : State, ∃ r : CodecRun, s.calm ∧ s.lets p (Reg.vdcCtrl n) 4 2 (Reg.vdcCtrl n) ∧ s.wf = true ∧ n < 10 ∧
        s.unitSec (113 + n) = true ∧ s.fld (Reg.vdcStatus n) 0 2 = 1 ∧ s.codecRun? none n = some r ∧ r.active = true) ∧
    (∃ p : Path, ∃ n : Nat, ∃ s : State, ∃ r : CodecRun, s.calm ∧ s.lets p (Reg.vdcCtrl n) 4 2 (Reg.vdcCtrl n) ∧ s.wf = true ∧ n < 10 ∧
        s.unitSec (113 + n) = true ∧ s.fld (Reg.vdcStatus n) 0 2 = 1 ∧ s.codecRun? none n = some r ∧ r.active = false) :=
  ⟨⟨.sec, 9, put (sec 122 (secured [hd 0x0503 2 0x100000000] [])) [(Reg.vdcBase 9, 0, 64, 0x1000)], 1, calm_of_csr (by decide +kernel),
      by unfold State.lets State.live; decide +kernel, by decide +kernel⟩,
    ⟨.sec, 9,
        { put (sec 122 (secured [hd 0x0500 8, 0x3000001] [])) [(Reg.vdcBase 9, 0, 64, 0x1000)] with vid := { up.vid with sess := [aSession 3 none 9 true] } },
        1, aSession 3 none 9 true, calm_of_csr (by decide +kernel), by unfold State.lets State.live; decide +kernel, by decide +kernel⟩,
    ⟨.sec, 9, { put (sec 122 (secured [hd 0x0503 2, 3] [])) [(Reg.vdcBase 9, 0, 64, 0x1000)] with vid := { up.vid with sess := [aSession 3 none 9 true] } },
        1, aSession 3 none 9 true, calm_of_csr (by decide +kernel), by unfold State.lets State.live; decide +kernel, by decide +kernel⟩,
    ⟨.sec, 9, { put (sec 122 up) [(Reg.vdcStatus 9, 0, 2, 1)] with vid := { up.vid with codec := [aCodec none 9 3 true] } }, aCodec none 9 3 true,
        calm_of_csr (by decide +kernel), by unfold State.lets State.live; decide +kernel, by decide +kernel⟩,
    ⟨.sec, 9, { put (sec 122 up) [(Reg.vdcStatus 9, 0, 2, 1)] with vid := { up.vid with codec := [aCodec none 9 3 false] } }, aCodec none 9 3 false,
        calm_of_csr (by decide +kernel), by unfold State.lets State.live; decide +kernel, by decide +kernel⟩⟩

/-- States and operands that meet the hypotheses of `Obligations.SecurePorts`, clause by clause. -/
theorem witness_SecurePorts :
    (∃ p : Path, ∃ n : Nat, ∃ s : State, ∃ ws : List Word, s.calm ∧ s.lets p (Reg.tchSecqCtrl n) 4 1 (Reg.tchSecqCtrl n) ∧ s.wf = true ∧ n < 8 ∧
        s.unitSec (89 + n) = true ∧ s.fld (Reg.tchSecqStatus n) 0 2 = 0 ∧ s.bitAt Reg.secState 0 = false ∧
        (secPacket s (stTch n) (s.rd (Reg.tchSecqBase n)).toNat).2 = some ws ∧ hdrOp (ws.headD 0) = 0x0700 ∧ ws.length = 4 ∧ tcWordsOk ws = true ∧
        tcPort ws = n ∧ (tcOp ws = 2 ∨ tcOp ws = 3)) ∧
    (∃ p : Path, ∃ n : Nat, ∃ s : State, ∃ ws : List Word, s.calm ∧ s.lets p (Reg.hapSecqCtrl n) 4 1 (Reg.hapSecqCtrl n) ∧ s.wf = true ∧ n < 8 ∧
        s.unitSec (97 + n) = true ∧ s.fld (Reg.hapSecqStatus n) 0 2 = 0 ∧ s.bitAt Reg.secState 0 = false ∧
        (secPacket s (stHap n) (s.rd (Reg.hapSecqBase n)).toNat).2 = some ws ∧ hdrOp (ws.headD 0) = 0x0710 ∧ fw ws 1 3 5 = 0 ∧ fw ws 1 14 50 = 0 ∧
        hpCh ws = n ∧ fw ws 3 32 32 = 0 ∧ fw ws 2 0 3 = 0 ∧ mapWf hapNone s.med.hap = true ∧ mapWf (fun _ => []) (s.hap n).effects = true ∧
        fw ws 3 0 32 = 0) ∧
    (∃ p : Path, ∃ n : Nat, ∃ s : State, ∃ ws : List Word, s.calm ∧ s.lets p (Reg.hapSecqCtrl n) 4 1 (Reg.hapSecqCtrl n) ∧ s.wf = true ∧ n < 8 ∧
        s.unitSec (97 + n) = true ∧ s.fld (Reg.hapSecqStatus n) 0 2 = 0 ∧ s.bitAt Reg.secState 0 = false ∧
        (secPacket s (stHap n) (s.rd (Reg.hapSecqBase n)).toNat).2 = some ws ∧ hdrOp (ws.headD 0) = 0x0710 ∧ fw ws 1 3 5 = 0 ∧ fw ws 1 14 50 = 0 ∧
        hpCh ws = n ∧ fw ws 3 32 32 = 0 ∧ fw ws 2 0 3 = 0 ∧ mapWf hapNone s.med.hap = true ∧ mapWf (fun _ => []) (s.hap n).effects = true ∧ fw ws 3 0 32 = 32 ∧
        (ownerRead s (stHap n) none (fw ws 2 0 64) 32 .ok).err = false ∧
        descOk (bytesWords (ownerRead s (stHap n) none (fw ws 2 0 64) 32 .ok).bytes) = true) ∧
    (∃ v : Word, ∃ s : State, s.lets .sec Reg.audSecRoute 8 v Reg.audSecRoute ∧ nodeOk v = true ∧ s.bitAt Reg.secState 0 = false) ∧
    (∃ v : Word, ∃ s : State, s.lets .sec Reg.audSecRoute 8 v Reg.audSecRoute ∧ (nodeOk v = false ∨ s.bitAt Reg.secState 0 = true)) :=
  ⟨⟨.sec, 7, put (sec 96 (secured [hd 0x0700 4, 0x17] [])) [(Reg.tchSecqBase 7, 0, 64, 0x1000)], [hd 0x0700 4, 0x17, 0, 0], calm_of_csr (by decide +kernel),
      by unfold State.lets State.live; decide +kernel, by decide +kernel⟩,
    ⟨.sec, 7, put (sec 104 (secured [hd 0x0710 4, 0x507] [])) [(Reg.hapSecqBase 7, 0, 64, 0x1000)], [hd 0x0710 4, 0x507, 0, 0],
        calm_of_csr (by decide +kernel), by unfold State.lets State.live; decide +kernel, by decide +kernel⟩,
    ⟨.sec, 7, put (sec 104 (secured [hd 0x0710 4, 0x507, 0x2000, 32] [(0x2000, effectWs)])) [(Reg.hapSecqBase 7, 0, 64, 0x1000)], [hd 0x0710 4, 0x507, 0x2000,
        32], calm_of_csr (by decide +kernel), by unfold State.lets State.live; decide +kernel, by decide +kernel⟩,
    ⟨0x10000, up, by unfold State.lets State.live; decide +kernel, by decide +kernel⟩,
    ⟨0, up, by unfold State.lets State.live; decide +kernel, by decide +kernel⟩⟩

/-- States and operands that meet the hypotheses of `Obligations.SecureDma`, clause by clause. -/
theorem witness_SecureDma :
    (∃ p : Path, ∃ k : Nat, ∃ s : State, ∃ v : Word, s.lets p (Reg.dmaCtrl k) 8 v (Reg.dmaCtrl k) ∧ s.wf = true ∧ k < 64 ∧ wBit v 48 = true ∧
        wBit v 49 = false ∧ s.xState k = 0 ∧ wBits v 0 40 ≠ 0 ∧ dmaEndsOk (wBits v 0 40) (s.xSrc k) (s.xDst k) (wBit v 43 && !wBit v 45) (wBit v 44) = true) ∧
    (∃ p : Path, ∃ k : Nat, ∃ s : State, ∃ v : Word, s.lets p (Reg.dmaCtrl k) 8 v (Reg.dmaCtrl k) ∧ s.wf = true ∧ k < 64 ∧ wBit v 48 = true ∧
        wBit v 49 = false ∧ s.xState k = 0 ∧ dmaEndsOk (wBits v 0 40) (s.xSrc k) (s.xDst k) (wBit v 43 && !wBit v 45) (wBit v 44) = false) ∧
    (∃ p : Path, ∃ k : Nat, ∃ s : State, s.lets p (Reg.dmaCtrl k) 8 (s.rd (Reg.dmaCtrl k) ||| 0x2000000000000) (Reg.dmaCtrl k) ∧ s.wf = true ∧ k < 64 ∧
        s.xState k = 1 ∧ (s.dmaCh k).off ≠ s.xN k ∧ (s.dmaCh k).off ≠ (s.dmaCh k).issued) ∧
    (∃ p : Path, ∃ k : Nat, ∃ s : State, s.lets p (Reg.dmaCtrl k) 8 (s.rd (Reg.dmaCtrl k) ||| 0x2000000000000) (Reg.dmaCtrl k) ∧ s.wf = true ∧ k < 64 ∧
        s.xState k = 1 ∧ (s.dmaCh k).off ≠ s.xN k ∧ (s.dmaCh k).off = (s.dmaCh k).issued) :=
  ⟨⟨.sec, 63, sec 210 up, 0x1000000000040, by unfold State.lets State.live; decide +kernel, by decide +kernel⟩,
    ⟨.sec, 0, sec 147 up, 0x1080000000004, by unfold State.lets State.live; decide +kernel, by decide +kernel⟩,
    ⟨.sec, 0, { put (sec 147 up) [(Reg.dmaCtrl 0, 0, 40, 1024), (Reg.dmaStatus 0, 40, 2, 1)] with dma := [(0, { dmaIdle 0 with issued := 256 })] },
        by unfold State.lets State.live; decide +kernel, by decide +kernel⟩,
    ⟨.sec, 0, put (sec 147 up) [(Reg.dmaCtrl 0, 0, 40, 1024), (Reg.dmaStatus 0, 40, 2, 1)], by unfold State.lets State.live; decide +kernel,
        by decide +kernel⟩⟩

/-- States and operands that meet the hypotheses of `Obligations.DmaBursts`, clause by clause. -/
theorem witness_DmaBursts :
    (∃ id : Nat, ∃ k : Nat, ∃ c : Cmd, ∃ s : State, ∃ i : Instr, s.live ∧ s.wf = true ∧ s.cmd? id = some c ∧ c.stage = .started ∧ s.engineUp 1 = true ∧
        s.dmaOf id = some k ∧ s.xState k = 1 ∧ (s.dmaCh k).stop = 0 ∧ (s.dmaCh k).off < s.xN k ∧ ((c.op = 0x0200 ∧ i = .dmaCopy id) ∨ (c.op = 0x0201 ∧
        i = .dmaFill id))) ∧
    (∃ k : Nat, ∃ s : State,
        let o := (s.dmaCh k).off; let n := s.burstLen k o; let a := s.xDst k + if s.xDstFixed k then 0 else o; let q : Req := { station := stDma, secure := true, seat := none, window := 0, kind := .write }; let bs := s.xData k o n []; s.live ∧ s.calm ∧ s.wf = true ∧ k < 64 ∧ s.dmaRuns k = true ∧ s.xState k ≠ 0 ∧ (s.dmaCh k).off + s.burstLen k (s.dmaCh k).off ≤ (s.dmaCh k).issued ∧ (s.dmaCh k).issued ≤ s.xN k ∧ (s.dmaCh k).off < s.xN k ∧ (s.dmaCh k).cmd = none ∧ s.xFill k = true ∧ (∀ i, i < n → s.mapped (a + i) = true) ∧ s.inCarve a n = false ∧ s.refusedBy q a n = none ∧ (∀ w ∈ partWords a bs, s.protected w = true → s.wordCheck (partWords a bs) w = .clean)) ∧
    (∃ k : Nat, ∃ s : State, ∃ id : Nat, ∃ c : Cmd, s.live ∧ s.calm ∧ s.wf = true ∧ k < 64 ∧ s.dmaRuns k = true ∧ s.xState k ≠ 0 ∧
        (s.dmaCh k).off + s.burstLen k (s.dmaCh k).off ≤ (s.dmaCh k).issued ∧ (s.dmaCh k).issued ≤ s.xN k ∧ (s.dmaCh k).off < s.xN k ∧
        (s.dmaCh k).cmd = some id ∧ s.cmd? id = some c ∧ c.stage = .started ∧ c.engine = 1 ∧ s.xFill k = false ∧
        s.translate c.seat (s.xSrc k + if s.xSrcFixed k then 0 else (s.dmaCh k).off) (s.burstLen k (s.dmaCh k).off) .read = none) :=
  ⟨⟨1, 5, started 1 [hd 0x0201 4, 0, 1024],
      { withCmds (put own [(Reg.dmaCtrl 5, 0, 40, 1024), (Reg.dmaCtrl 5, 45, 1, 1), (Reg.dmaStatus 5, 40, 2, 1)]) [started 1 [hd 0x0201 4, 0, 1024]] with dma := [(5, { dmaIdle 0 with cmd := some 1 })] }, .dmaFill 1, ⟨rfl, rfl⟩, by decide +kernel⟩,
    ⟨0, { put (sec 147 up) [(Reg.dmaCtrl 0, 0, 40, 1024), (Reg.dmaCtrl 0, 45, 1, 1), (Reg.dmaPattern 0, 0, 64, 0x0807060504030201), (Reg.dmaDst 0, 0, 64, 0x2003), (Reg.dmaStatus 0, 40, 2, 1)] with dma := [(0, { dmaIdle 0 with issued := 1024 })] }, ⟨rfl, rfl⟩, calm_of_csr (by decide +kernel), by decide +kernel⟩,
    ⟨5, { withCmds (put own [(Reg.dmaCtrl 5, 0, 40, 1024), (Reg.dmaSrc 5, 0, 64, 0x200000000000), (Reg.dmaStatus 5, 40, 2, 1)]) [started 1 [hd 0x0200 4]] with dma := [(5, { dmaIdle 0 with cmd := some 1, issued := 1024 })] }, 1, started 1 [hd 0x0200 4], ⟨rfl, rfl⟩, calm_of_csr (by decide +kernel), by decide +kernel⟩⟩

/-- States and operands that meet the hypotheses of `Obligations.PacketsFetched`, clause by clause. -/
theorem witness_PacketsFetched :
    (∃ h : HostAns, ∃ r : Nat, ∃ s : State,
        let os := s.ringReads (r / 8) (r % 8) (s.cmdRd (r / 8) (r % 8)) (s.nextLen (r / 8) (r % 8)) h; let ws := os.map fun o => bytesWord o.bytes; let op := hdrOp (ws.headD 0); s.live ∧ s.calm ∧ s.wf = true ∧ s.nextRing = some r ∧ s.ringLog (r / 8) (r % 8) ≤ 16 ∧ s.replyLog (r / 8) ≤ 14 ∧ (os.any fun o => o.miss) = false ∧ (os.any fun o => o.err) = false ∧ s.fetchReject (r / 8) (r % 8) (ws.headD 0) = 0 ∧ op ≠ 0x0301 ∧ op ≠ 0x0302 ∧ op ≠ 0x0304 ∧ (∀ c ∈ s.cfe.cmds, c.id < s.cfe.nextId)) ∧
    (∃ h : HostAns, ∃ r : Nat, ∃ s : State,
        let os := s.ringReads (r / 8) (r % 8) (s.cmdRd (r / 8) (r % 8)) (s.nextLen (r / 8) (r % 8)) h; let ws := os.map fun o => bytesWord o.bytes; let op := hdrOp (ws.headD 0); s.live ∧ s.calm ∧ s.wf = true ∧ s.nextRing = some r ∧ s.ringLog (r / 8) (r % 8) ≤ 16 ∧ s.replyLog (r / 8) ≤ 14 ∧ (os.any fun o => o.miss) = false ∧ (os.any fun o => o.err) = false ∧ s.fetchReject (r / 8) (r % 8) (ws.headD 0) = 0 ∧ (op = 0x0301 ∨ op = 0x0302 ∨ op = 0x0304)) ∧
    (∃ h : HostAns, ∃ r : Nat, ∃ s : State,
        let os := s.ringReads (r / 8) (r % 8) (s.cmdRd (r / 8) (r % 8)) (s.nextLen (r / 8) (r % 8)) h; let ws := os.map fun o => bytesWord o.bytes; let op := hdrOp (ws.headD 0); s.live ∧ s.calm ∧ s.wf = true ∧ s.nextRing = some r ∧ s.ringLog (r / 8) (r % 8) ≤ 16 ∧ s.replyLog (r / 8) ≤ 14 ∧ (os.any fun o => o.miss) = false ∧ (os.any fun o => o.err) = false ∧ s.fetchReject (r / 8) (r % 8) (ws.headD 0) ≠ 0 ∧ op ≠ 0x0302 ∧ op ≠ 0x0304 ∧ s.openPass (r / 8) (r % 8) = none) ∧
    (∃ h : HostAns, ∃ r : Nat, ∃ s : State, let os := s.ringReads (r / 8) (r % 8) (s.cmdRd (r / 8) (r % 8)) (s.nextLen (r / 8) (r % 8)) h; s.live ∧ s.calm ∧
        s.wf = true ∧ s.nextRing = some r ∧ s.ringLog (r / 8) (r % 8) ≤ 16 ∧ s.replyLog (r / 8) ≤ 14 ∧ (os.any fun o => o.miss) = false ∧
        (os.any fun o => o.err) = true) :=
  ⟨⟨.ok, 0, { put ringed [(Reg.doorbell 0 0, 0, 17, 1)] with mem := memOf [(0x10000001000100000, [hd 0x0100 1 7])] }, ⟨rfl, rfl⟩,
      calm_of_csr (by decide +kernel), by decide +kernel⟩,
    ⟨.ok, 0, { put ringed [(Reg.doorbell 0 0, 0, 17, 1)] with mem := memOf [(0x10000001000100000, [hd 0x0304 1 7])] }, ⟨rfl, rfl⟩,
        calm_of_csr (by decide +kernel), by decide +kernel⟩,
    ⟨.ok, 0, { put ringed [(Reg.doorbell 0 0, 0, 17, 1)] with mem := memOf [(0x10000001000100000, [hd 0x9999 1 7])] }, ⟨rfl, rfl⟩,
        calm_of_csr (by decide +kernel), by decide +kernel⟩,
    ⟨.error, 0, { put ringed [(Reg.doorbell 0 0, 0, 17, 1)] with mem := memOf [(0x10000001000100000, [hd 0x0100 1 7])] }, ⟨rfl, rfl⟩,
        calm_of_csr (by decide +kernel), by decide +kernel⟩⟩

/-- States and operands that meet the hypotheses of `Obligations.PassesAssemble`, clause by clause. -/
theorem witness_PassesAssemble :
    (∃ seat : Nat, ∃ ring : Nat, ∃ ws : List Word, ∃ s : State, s.live ∧ s.wf = true ∧ seat < 512 ∧ ring < 8 ∧ mapWf (fun _ => []) s.cfe.held = true ∧
        (s.cfe.cmds.map Cmd.id).Nodup ∧ s.heldPacket seat ring 0x0301 = some ws) ∧
    (∃ seat : Nat, ∃ ring : Nat, ∃ ws : List Word, ∃ s : State, ∃ c : Cmd, s.live ∧ s.wf = true ∧ seat < 512 ∧ ring < 8 ∧
        mapWf (fun _ => []) s.cfe.held = true ∧ (s.cfe.cmds.map Cmd.id).Nodup ∧ s.heldPacket seat ring 0x0302 = some ws ∧ s.openPass seat ring = some c ∧
        c.bad = 0 ∧ s.fetchReject seat ring (ws.headD 0) = 0) ∧
    (∃ seat : Nat, ∃ ring : Nat, ∃ ws : List Word, ∃ s : State, ∃ c : Cmd, s.live ∧ s.wf = true ∧ seat < 512 ∧ ring < 8 ∧
        mapWf (fun _ => []) s.cfe.held = true ∧ (s.cfe.cmds.map Cmd.id).Nodup ∧ s.heldPacket seat ring 0x0304 = some ws ∧ s.openPass seat ring = some c ∧
        s.fetchReject seat ring (ws.headD 0) = 0) ∧
    (∃ seat : Nat, ∃ ring : Nat, ∃ ws : List Word, ∃ s : State, ∃ i : Instr, s.live ∧ s.wf = true ∧ seat < 512 ∧ ring < 8 ∧
        mapWf (fun _ => []) s.cfe.held = true ∧ (s.cfe.cmds.map Cmd.id).Nodup ∧ s.openPass seat ring = none ∧ ((s.heldPacket seat ring 0x0302 = some ws ∧
        i = .rndDraw seat ring) ∨ (s.heldPacket seat ring 0x0304 = some ws ∧ i = .rndPassEnd seat ring))) :=
  ⟨⟨0, 0, passWs, { ringed with cfe := { ringed.cfe with held := [(0, passWs)] } }, ⟨rfl, rfl⟩, by decide +kernel⟩,
    ⟨0, 0, drawWs, { ringed with cfe := { ringed.cfe with held := [(0, drawWs)], cmds := [{ cmdOf 1 passWs with stage := .opened }], nextId := 2 } },
        { cmdOf 1 passWs with stage := .opened }, ⟨rfl, rfl⟩, by decide +kernel⟩,
    ⟨0, 0, [hd 0x0304 1],
        { ringed with cfe := { ringed.cfe with held := [(0, [hd 0x0304 1])], cmds := [{ cmdOf 1 passWs with stage := .opened, draws := [drawWs] }], nextId := 2 } }, { cmdOf 1 passWs with stage := .opened, draws := [drawWs] }, ⟨rfl, rfl⟩, by decide +kernel⟩,
    ⟨0, 0, drawWs, { ringed with cfe := { ringed.cfe with held := [(0, drawWs)] } }, .rndDraw 0 0, ⟨rfl, rfl⟩, by decide +kernel⟩⟩

/-- States and operands that meet the hypotheses of `Obligations.DecisionsAnswer`, clause by clause. -/
theorem witness_DecisionsAnswer :
    (∃ c : Cmd, ∃ s : State, (s.judged c .ok).accepts c (judge s c .ok).v ∧ (s.decides .nop c .ok ∧ (judge s c .ok).v.isSingle = true)) ∧
    (∃ (i : Instr) (c : Cmd) (s : State), s.decides i c .ok ∧ ¬ (s.judged c .ok).accepts c (judge s c .ok).v) ∧
    (∃ c : Cmd, ∃ s : State, (s.judged c .ok).accepts c (judge s c .ok).v ∧ (s.decides .chkAttach c .ok ∧ (judge s c .ok).v.isSingle = false)) :=
  ⟨accepting (cmdOf 1 [hd 0x0100 1]) (toDecide ringed [hd 0x0100 1]) (by decide +kernel) ⟨⟨⟨rfl, rfl⟩, calm_of_csr (by decide +kernel), by decide +kernel,
      by decide +kernel, by decide +kernel, by decide +kernel, by decide +kernel, by decide +kernel, by decide +kernel, ⟨_, rfl, by decide +kernel⟩⟩,
      by decide +kernel⟩,
    ⟨.queryBudget, cmdOf 1 [hd 0x0901 2, 0x100], toDecide ringed [hd 0x0901 2, 0x100], ⟨⟨rfl, rfl⟩, calm_of_csr (by decide +kernel), by decide +kernel,
        by decide +kernel, by decide +kernel, by decide +kernel, by decide +kernel, by decide +kernel, by decide +kernel, ⟨_, rfl, by decide +kernel⟩⟩,
        not_accepts_of (by decide +kernel)⟩,
    accepting (cmdOf 1 [hd 0x0210 2, 0x5F]) (toDecide rich [hd 0x0210 2, 0x5F]) (by decide +kernel) ⟨⟨⟨rfl, rfl⟩, calm_of_csr (by decide +kernel),
        by decide +kernel, by decide +kernel, by decide +kernel, by decide +kernel, by decide +kernel, by decide +kernel, by decide +kernel, ⟨_, rfl,
        by decide +kernel⟩⟩, by decide +kernel⟩⟩

/-- States and operands that meet the hypotheses of `Obligations.BookingsEnter`, clause by clause. -/
theorem witness_BookingsEnter :
    ∃ (i : Instr) (c : Cmd) (h : HostAns) (s : State) (cost : Cost) (dur : Nat) (cap : Option (Nat × Nat)) (act : Act) (xs : List Share), s.decides i c h ∧
        (judge s c h).v = .book cost dur cap act ∧ c.background = false ∧ (s.judged c h).inTime c (32 * (c.dl + 1) - dur) ∧
        (s.judged c h).sharesFor c cost dur cap = some xs ∧ (s.judged c h).shareReject c xs = none ∧ (∀ x ∈ s.vid.sess, x.opening = none ∧ x.closing = none) ∧
        (∀ x ∈ s.vid.progs, x.unload = none) :=
  by
  obtain ⟨act, e⟩ : ∃ act, (judge (toDecide { ringed with seats := rich.seats } [hd 0x0201 4, 0x2000, 256, 0]) (cmdOf 1 [hd 0x0201 4, 0x2000, 256,
      0]) .ok).v = .book [(4, 0, 1), (5, 0, 1)] 1 none act := book_of (by decide +kernel)
  exact ⟨.admissionDecision .ok, cmdOf 1 [hd 0x0201 4, 0x2000, 256, 0], .ok, toDecide { ringed with seats := rich.seats } [hd 0x0201 4, 0x2000, 256, 0], _, _,
      _, act, [{ cmd := 1, seat := 0, bell := 101, cls := 4, unit := 0, n := 1 }, { cmd := 1, seat := 0, bell := 101, cls := 5, unit := 0, n := 1 }],
    ⟨⟨rfl, rfl⟩, calm_of_csr (by decide +kernel), by decide +kernel, by decide +kernel, by decide +kernel, by decide +kernel, by decide +kernel,
        by decide +kernel, by decide +kernel, ⟨_, rfl, by decide +kernel⟩⟩, e, by decide +kernel,
    by unfold State.inTime; decide +kernel, by decide +kernel⟩

/-- States and operands that meet the hypotheses of `Obligations.SinglesReply`, clause by clause. -/
theorem witness_SinglesReply :
    (∃ (c : Cmd) (s : State) (i : Instr) (d : Nat) (act : Act), c.mute = false ∧ s.decides i c .ok ∧ (judge s c .ok).v = .single d act) ∧
    (∃ c : Cmd, c.mute = false ∧ c.op = 0x0100) ∧
    (∃ c : Cmd, ∃ s : State, c.mute = false ∧ c.op = 0x0101 ∧ queryCapsOk c = true ∧ s.areaOk c.seat (c.n 1) (c.f 2 0 32) .write = true) ∧
    (∃ c : Cmd, c.mute = false ∧ c.op = 0x0900 ∧ queryStatusOk c = true ∧ c.b 1 19 = false) ∧
    (∃ c : Cmd, ∃ s : State, c.mute = false ∧ c.op = 0x0900 ∧ queryStatusOk c = true ∧ c.b 1 19 = true ∧
        s.latestTagged c.seat (c.f 1 16 3) (c.f 1 0 16) = none) ∧
    (∃ c : Cmd, c.mute = false ∧ c.op = 0x0901 ∧ queryBudgetOk c = true) ∧
    (∃ c : Cmd, ∃ s : State, ∃ i : Instr, s.decides i c .ok ∧ c.mute = false ∧ c.op = 0x0102 ∧ setBudgetOk c = true ∧ s.isSup c.seat = true ∧
        mapWf (fun _ => 0) s.seats.budgetNext = true) ∧
    (∃ c : Cmd, ∃ s : State, ∃ i : Instr, s.decides i c .ok ∧ c.mute = false ∧ c.op = 0x0103 ∧ setQuotaOk c = true ∧ s.isSup c.seat = true ∧
        mapWf (fun _ => 0) s.seats.quota = true) :=
  ⟨by
  obtain ⟨act, e⟩ : ∃ act, (judge (toDecide ringed [hd 0x0100 1]) (cmdOf 1 [hd 0x0100 1]) .ok).v = .single 0 act := single_of (by decide +kernel)
  exact ⟨cmdOf 1 [hd 0x0100 1], toDecide ringed [hd 0x0100 1], .nop, 0, act, by decide +kernel, ⟨⟨rfl, rfl⟩, calm_of_csr (by decide +kernel),
      by decide +kernel, by decide +kernel, by decide +kernel, by decide +kernel, by decide +kernel, by decide +kernel, by decide +kernel, ⟨_, rfl,
      by decide +kernel⟩⟩, e⟩,
    ⟨cmdOf 1 [hd 0x0100 1], by decide +kernel⟩,
    ⟨cmdOf 1 [hd 0x0101 3, 0x2000, 16], ringed, by decide +kernel⟩,
    ⟨cmdOf 1 [hd 0x0900 2, 0], by decide +kernel⟩,
    ⟨cmdOf 1 [hd 0x0900 2, 0x80000], ringed, by decide +kernel⟩,
    ⟨cmdOf 1 [hd 0x0901 2, 8], by decide +kernel⟩,
    ⟨cmdOf 1 [hd 0x0102 7, 0, 0x200000001, 0, 0, 0, 9], toDecide ringed [hd 0x0102 7, 0, 0x200000001, 0, 0, 0, 9], .setBudget, ⟨⟨rfl, rfl⟩,
        calm_of_csr (by decide +kernel), by decide +kernel, by decide +kernel, by decide +kernel, by decide +kernel, by decide +kernel, by decide +kernel,
        by decide +kernel, ⟨_, rfl, by decide +kernel⟩⟩, by decide +kernel⟩,
    ⟨cmdOf 1 [hd 0x0103 3, 0x50000, 77], toDecide ringed [hd 0x0103 3, 0x50000, 77], .setQuota, ⟨⟨rfl, rfl⟩, calm_of_csr (by decide +kernel),
        by decide +kernel, by decide +kernel, by decide +kernel, by decide +kernel, by decide +kernel, by decide +kernel, by decide +kernel, ⟨_, rfl,
        by decide +kernel⟩⟩, by decide +kernel⟩⟩

/-- States and operands that meet the hypotheses of `Obligations.PicturesWait`, clause by clause. -/
theorem witness_PicturesWait :
    (∃ c : Cmd, ∃ s : State, (∀ r, (judge s c .ok).v ≠ .reject r) ∧ s.decides .cmpCanvasSet c .ok) ∧
    (∃ c : Cmd, ∃ s : State, (∀ r, (judge s c .ok).v ≠ .reject r) ∧ s.decides .cmpLayerSet c .ok) ∧
    (∃ c : Cmd, ∃ s : State, ∃ i : Instr, (∀ r, (judge s c .ok).v ≠ .reject r) ∧ s.decides i c .ok ∧ (i = .cmpFlip ∨ i = .cmpFlipGroup)) ∧
    (∃ c : Cmd, ∃ s : State, (∀ r, (judge s c .ok).v ≠ .reject r) ∧ s.decides .chkAttach c .ok) ∧
    (∃ c : Cmd, ∃ s : State, (∀ r, (judge s c .ok).v ≠ .reject r) ∧ s.decides .chkDetach c .ok) ∧
    (∃ c : Cmd, ∃ s : State, (∀ r, (judge s c .ok).v ≠ .reject r) ∧ s.decides .commit c .ok ∧ (∀ x ∈ s.vid.sess, x.opening = none ∧ x.closing = none) ∧
        (∀ x ∈ s.vid.progs, x.unload = none)) :=
  ⟨⟨cmdOf 1 [hd 0x0400 6, 0, 0x400040, 0, 0, 0], toDecide rich [hd 0x0400 6, 0, 0x400040, 0, 0, 0], not_reject_of (by decide +kernel), ⟨⟨rfl, rfl⟩,
      calm_of_csr (by decide +kernel), by decide +kernel, by decide +kernel, by decide +kernel, by decide +kernel, by decide +kernel, by decide +kernel,
      by decide +kernel, ⟨_, rfl, by decide +kernel⟩⟩⟩,
    ⟨cmdOf 1 layerWs, toDecide rich layerWs, not_reject_of (by decide +kernel), ⟨⟨rfl, rfl⟩, calm_of_csr (by decide +kernel), by decide +kernel,
        by decide +kernel, by decide +kernel, by decide +kernel, by decide +kernel, by decide +kernel, by decide +kernel, ⟨_, rfl, by decide +kernel⟩⟩⟩,
    ⟨cmdOf 1 [hd 0x0402 5, 0x10000000, 0x100, 1, 0], toDecide rich [hd 0x0402 5, 0x10000000, 0x100, 1, 0], .cmpFlip, not_reject_of (by decide +kernel), ⟨⟨rfl,
        rfl⟩, calm_of_csr (by decide +kernel), by decide +kernel, by decide +kernel, by decide +kernel, by decide +kernel, by decide +kernel,
        by decide +kernel, by decide +kernel, ⟨_, rfl, by decide +kernel⟩⟩, by decide +kernel⟩,
    ⟨cmdOf 1 [hd 0x0210 2, 0x5F], toDecide rich [hd 0x0210 2, 0x5F], not_reject_of (by decide +kernel), ⟨⟨rfl, rfl⟩, calm_of_csr (by decide +kernel),
        by decide +kernel, by decide +kernel, by decide +kernel, by decide +kernel, by decide +kernel, by decide +kernel, by decide +kernel, ⟨_, rfl,
        by decide +kernel⟩⟩⟩,
    ⟨cmdOf 1 [hd 0x0210 2, 0x3F], { toDecide rich [hd 0x0210 2, 0x3F] with chk := [(31, { chkIdle 0 with att := 2 })] }, not_reject_of (by decide +kernel),
        ⟨⟨rfl, rfl⟩, calm_of_csr (by decide +kernel), by decide +kernel, by decide +kernel, by decide +kernel, by decide +kernel, by decide +kernel,
        by decide +kernel, by decide +kernel, ⟨_, rfl, by decide +kernel⟩⟩⟩,
    ⟨cmdOf 1 [hd 0x0110 1], toDecide rich [hd 0x0110 1], not_reject_of (by decide +kernel), ⟨⟨rfl, rfl⟩, calm_of_csr (by decide +kernel), by decide +kernel,
        by decide +kernel, by decide +kernel, by decide +kernel, by decide +kernel, by decide +kernel, by decide +kernel, ⟨_, rfl, by decide +kernel⟩⟩,
        by decide +kernel⟩⟩

/-- States and operands that meet the hypotheses of `Obligations.ResourcesTaken`, clause by clause. -/
theorem witness_ResourcesTaken :
    (∃ c : Cmd, ∃ s : State, (s.judged c .ok).accepts c (judge s c .ok).v ∧ (s.decides .rndProgramLoad c .ok)) ∧
    (∃ c : Cmd, ∃ s : State, (s.judged c .ok).accepts c (judge s c .ok).v ∧ (s.decides .rndProgramUnload c .ok)) ∧
    (∃ c : Cmd, ∃ s : State, (s.judged c .ok).accepts c (judge s c .ok).v ∧ (s.decides .vdcSessionOpen c .ok ∧ s.vid.sess.length < 256)) ∧
    (∃ c : Cmd, ∃ s : State, (s.judged c .ok).accepts c (judge s c .ok).v ∧ (s.decides .vdcSessionClose c .ok)) ∧
    (∃ c : Cmd, ∃ s : State, (s.judged c .ok).accepts c (judge s c .ok).v ∧ (s.decides .vdcKeyRequest c .ok ∧ (s.vid.sess.map Session.id).Nodup)) ∧
    (∃ c : Cmd, ∃ s : State, (s.judged c .ok).accepts c (judge s c .ok).v ∧ (s.decides .audStreamOpen c .ok)) ∧
    (∃ c : Cmd, ∃ s : State, (s.judged c .ok).accepts c (judge s c .ok).v ∧ (s.decides .audStreamClose c .ok)) ∧
    (∃ c : Cmd, ∃ s : State, (s.judged c .ok).accepts c (judge s c .ok).v ∧ (s.decides .audEffect c .ok)) ∧
    (∃ c : Cmd, ∃ s : State, (s.judged c .ok).accepts c (judge s c .ok).v ∧ (∃ i : Instr, s.decides i c .ok ∧
        (i = .tchConfigApply ∨ i = .tchConfigSelftest ∨ i = .tchConfigRecalibrate ∨ i = .tchConfigDisable))) :=
  ⟨accepting (cmdOf 1 [hd 0x0300 4 0x4000000000, 0x7000, 20,
      5]) ({ toDecide rich [hd 0x0300 4 0x4000000000, 0x7000, 20, 5] with mem := memOf [(0x7000, moduleWs)] }) (by decide +kernel) (⟨⟨rfl, rfl⟩,
      calm_of_csr (by decide +kernel), by decide +kernel, by decide +kernel, by decide +kernel, by decide +kernel, by decide +kernel, by decide +kernel,
      by decide +kernel, ⟨_, rfl, by decide +kernel⟩⟩),
    accepting (cmdOf 1 [hd 0x0300 4 0x4000000000, 0, 0,
        5]) ({ toDecide rich [hd 0x0300 4 0x4000000000, 0, 0, 5] with vid := { rich.vid with progs := [⟨0, 5, none, [], [], 1, true, none⟩] } }) (by decide +kernel) (⟨⟨rfl, rfl⟩, calm_of_csr (by decide +kernel), by decide +kernel, by decide +kernel, by decide +kernel, by decide +kernel, by decide +kernel, by decide +kernel, by decide +kernel, ⟨_, rfl, by decide +kernel⟩⟩),
    accepting (cmdOf 1 openWs) ({ toDecide (put rich [(Reg.secWorldMap 3, 17, 7, 127)]) openWs with mem := memOf [(0x5000, ringWs)] }) (by decide +kernel) ⟨⟨⟨rfl, rfl⟩, calm_of_csr (by decide +kernel), by decide +kernel, by decide +kernel, by decide +kernel, by decide +kernel, by decide +kernel, by decide +kernel, by decide +kernel, ⟨_, rfl, by decide +kernel⟩⟩, by decide +kernel⟩,
    accepting (cmdOf 1 [hd 0x0500 8, 0x3000001, 0, 0, 0, 0, 0,
        0]) ({ toDecide rich [hd 0x0500 8, 0x3000001, 0, 0, 0, 0, 0, 0] with vid := { rich.vid with sess := [aSession 3 (some 0) 0 false] } }) (by decide +kernel) (⟨⟨rfl, rfl⟩, calm_of_csr (by decide +kernel), by decide +kernel, by decide +kernel, by decide +kernel, by decide +kernel, by decide +kernel, by decide +kernel, by decide +kernel, ⟨_, rfl, by decide +kernel⟩⟩),
    accepting (cmdOf 1 [hd 0x0503 2,
        3]) ({ toDecide rich [hd 0x0503 2, 3] with vid := { rich.vid with sess := [aSession 3 (some 0) 8 true] } }) (by decide +kernel) ⟨⟨⟨rfl, rfl⟩,
        calm_of_csr (by decide +kernel), by decide +kernel, by decide +kernel, by decide +kernel, by decide +kernel, by decide +kernel, by decide +kernel,
        by decide +kernel, ⟨_, rfl, by decide +kernel⟩⟩, by decide +kernel⟩,
    accepting (cmdOf 1 [hd 0x0601 6, 0xC00000, 0x7000, 512, 0, 0]) (toDecide rich [hd 0x0601 6, 0xC00000, 0x7000, 512, 0, 0]) (by decide +kernel) (⟨⟨rfl,
        rfl⟩, calm_of_csr (by decide +kernel), by decide +kernel, by decide +kernel, by decide +kernel, by decide +kernel, by decide +kernel,
        by decide +kernel, by decide +kernel, ⟨_, rfl, by decide +kernel⟩⟩),
    accepting (cmdOf 1 [hd 0x0601 6, 0x501, 0, 0, 0,
        0]) ({ toDecide rich [hd 0x0601 6, 0x501, 0, 0, 0, 0] with med := { rich.med with aud := { rich.med.aud with streams := [⟨5, 0, 0, [hd 0x0601 6, 0xC00000, 0x7000, 512, 0, 0], 0, 0, none, none, false⟩] } } }) (by decide +kernel) (⟨⟨rfl, rfl⟩, calm_of_csr (by decide +kernel), by decide +kernel, by decide +kernel, by decide +kernel, by decide +kernel, by decide +kernel, by decide +kernel, by decide +kernel, ⟨_, rfl, by decide +kernel⟩⟩),
    accepting (cmdOf 1 [hd 0x0602 4, 0xA0100, 5, 0]) (toDecide rich [hd 0x0602 4, 0xA0100, 5, 0]) (by decide +kernel) (⟨⟨rfl, rfl⟩,
        calm_of_csr (by decide +kernel), by decide +kernel, by decide +kernel, by decide +kernel, by decide +kernel, by decide +kernel, by decide +kernel,
        by decide +kernel, ⟨_, rfl, by decide +kernel⟩⟩),
    accepting (cmdOf 1 applyWs) ({ toDecide rich applyWs with mem := memOf [(0x8000, panelWs)] }) (by decide +kernel) ⟨.tchConfigApply, ⟨⟨rfl, rfl⟩,
        calm_of_csr (by decide +kernel), by decide +kernel, by decide +kernel, by decide +kernel, by decide +kernel, by decide +kernel, by decide +kernel,
        by decide +kernel, ⟨_, rfl, by decide +kernel⟩⟩, by decide +kernel⟩⟩

/-- States and operands that meet the hypotheses of `Obligations.OrderingActs`, clause by clause. -/
theorem witness_OrderingActs :
    (∃ s : State, s.live ∧ s.calm ∧ s.wf = true ∧ (s.cfe.cmds.map Cmd.id).Nodup) ∧
    (∃ id : Nat, ∃ c : Cmd, ∃ s : State, s.live ∧ s.calm ∧ s.wf = true ∧ s.cmd? id = some c ∧ c.stage = .started ∧ c.op = 0x0800 ∧ s.fenceTimed c = true) ∧
    (∃ id : Nat, ∃ c : Cmd, ∃ s : State, s.live ∧ s.calm ∧ s.wf = true ∧ s.cmd? id = some c ∧ c.stage = .started ∧ c.op = 0x0800 ∧ s.fenceTimed c = false ∧
        s.fenceMet c = true) ∧
    (∃ id : Nat, ∃ c : Cmd, ∃ s : State, s.live ∧ s.calm ∧ s.wf = true ∧ s.cmd? id = some c ∧ c.stage = .started ∧ c.op = 0x0800 ∧ s.fenceTimed c = false ∧
        s.fenceMet c = false) ∧
    (∃ id : Nat, ∃ c : Cmd, ∃ s : State, s.live ∧ s.calm ∧ s.wf = true ∧ s.cmd? id = some c ∧ c.stage = .started ∧ c.op = 0x0801 ∧ s.memBack c = false ∧
        mapWf (fun _ => 0) s.tts.sync = true) ∧
    (∃ id : Nat, ∃ c : Cmd, ∃ s : State, s.live ∧ s.calm ∧ s.wf = true ∧ s.cmd? id = some c ∧ c.stage = .started ∧ c.op = 0x0801 ∧ s.memBack c = true) ∧
    (∃ id : Nat, ∃ c : Cmd, ∃ s : State, s.live ∧ s.calm ∧ s.wf = true ∧ s.cmd? id = some c ∧ c.stage = .started ∧ c.op = 0x0802) ∧
    (∃ id : Nat, ∃ c : Cmd, ∃ s : State, s.live ∧ s.calm ∧ s.wf = true ∧ s.cmd? id = some c ∧ c.stage = .ended ∧ c.inflight = 0 ∧ c.seat < 512 ∧ c.ring < 8 ∧
        s.replyLog c.seat ≤ 14) ∧
    (∃ id : Nat, ∃ c : Cmd, ∃ s : State, s.live ∧ s.calm ∧ s.wf = true ∧ s.cmd? id = some c ∧ (c.stage ≠ .ended ∨ c.inflight ≠ 0)) :=
  ⟨⟨withCmds ringed [{ cmdOf 1 [hd 0x0200 4] with age := 64 }, cmdOf 2 [hd 0x0100 1]], ⟨rfl, rfl⟩, calm_of_csr (by decide +kernel), by decide +kernel⟩,
    ⟨2, { started 2 [hd 0x0800 2, 0x10] with seq := 1 }, withCmds own [{ cmdOf 1 [hd 0x0200 4] with stage := .ended, timedOut := true },
        { started 2 [hd 0x0800 2, 0x10] with seq := 1 }], ⟨rfl, rfl⟩, calm_of_csr (by decide +kernel), by decide +kernel⟩,
    ⟨2, { started 2 [hd 0x0800 2, 0x10] with seq := 1 }, withCmds own [{ cmdOf 1 [hd 0x0200 4] with stage := .ended },
        { started 2 [hd 0x0800 2, 0x10] with seq := 1 }], ⟨rfl, rfl⟩, calm_of_csr (by decide +kernel), by decide +kernel⟩,
    ⟨2, { started 2 [hd 0x0800 2, 0x20] with seq := 1 }, withCmds own [{ cmdOf 1 [hd 0x0200 4] with stage := .ended, inflight := 1 },
        { started 2 [hd 0x0800 2, 0x20] with seq := 1 }], ⟨rfl, rfl⟩, calm_of_csr (by decide +kernel), by decide +kernel⟩,
    ⟨1, started 1 [hd 0x0801 3, 5, 9], withCmds own [started 1 [hd 0x0801 3, 5, 9]], ⟨rfl, rfl⟩, calm_of_csr (by decide +kernel), by decide +kernel⟩,
    ⟨3, { started 3 [hd 0x0801 3, 5, 9] with seq := 2 }, withCmds own [{ cmdOf 1 [hd 0x0200 4] with stage := .ended, inflight := 1 },
        { started 2 [hd 0x0800 2, 0x20] with seq := 1 }, { started 3 [hd 0x0801 3, 5, 9] with seq := 2 }], ⟨rfl, rfl⟩, calm_of_csr (by decide +kernel),
        by decide +kernel⟩,
    ⟨1, started 1 [hd 0x0802 3, 5, 9], withCmds own [started 1 [hd 0x0802 3, 5, 9]], ⟨rfl, rfl⟩, calm_of_csr (by decide +kernel), by decide +kernel⟩,
    ⟨1, { cmdOf 1 [hd 0x0200 4 7] with stage := .ended }, withCmds ringed [{ cmdOf 1 [hd 0x0200 4 7] with stage := .ended }], ⟨rfl, rfl⟩,
        calm_of_csr (by decide +kernel), by decide +kernel⟩,
    ⟨1, started 1 [hd 0x0200 4], withCmds ringed [started 1 [hd 0x0200 4]], ⟨rfl, rfl⟩, calm_of_csr (by decide +kernel), by decide +kernel⟩⟩

/-- States and operands that meet the hypotheses of `Obligations.TurnsYield`, clause by clause. -/
theorem witness_TurnsYield :
    (∃ id : Nat, ∃ r : RndRun, ∃ s : State, s.live ∧ s.calm ∧ s.noReset 24 ∧ s.run? (some id) = some r ∧ r.isPass = false ∧ r.begun = false ∧
        s.runLive r = true) ∧
    (∃ x : TurnIn, ∃ id : Nat, ∃ u : Nat, ∃ r : RndRun, ∃ s : State, s.live ∧ s.calm ∧ s.noReset 24 ∧ x.core < 24 ∧ s.turn? x.core = some (some id, u) ∧
        s.run? (some id) = some r) :=
  ⟨⟨1, aDispatch (some 1), { withCmds own [started 1 (aDispatch none).words] with vid := { own.vid with runs := [aDispatch (some 1)] } }, ⟨rfl, rfl⟩,
      calm_of_csr (by decide +kernel), by unfold State.noReset; decide +kernel, by decide +kernel⟩,
    ⟨aTurn, 1, 0, { aDispatch (some 1) with begun := true, counts := (1, 1, 1) }, rendering { aDispatch (some 1) with begun := true, counts := (1, 1, 1) },
        ⟨rfl, rfl⟩, calm_of_csr (by decide +kernel), by unfold State.noReset; decide +kernel, by decide +kernel⟩⟩

/-- States and operands that meet the hypotheses of `Obligations.LimitsCut`, clause by clause. -/
theorem witness_LimitsCut :
    (∃ id : Nat, ∃ s : State, ∃ x : TurnIn, ∃ u : Nat, ∃ r : RndRun, s.live ∧ s.calm ∧ s.noReset 24 ∧ x.core < 24 ∧ s.turn? x.core = some (some id, u) ∧
        s.run? (some id) = some r) ∧
    (∃ id : Nat, ∃ s : State, ∃ r : RndRun, s.live ∧ s.run? (some id) = some r ∧ r.isPass = true ∧ r.bin.stopped = true) ∧
    (∃ id : Nat, ∃ s : State, ∃ r : RndRun, s.live ∧ s.run? (some id) = some r ∧ s.unitsRunning (some id) ≠ []) ∧
    (∃ id : Nat, ∃ s : State, ∃ r : CodecRun, s.live ∧ (s.vid.codec.find? fun y => y.cmd = some id && y.active) = some r) :=
  ⟨⟨1, rendering { aDispatch (some 1) with begun := true, counts := (1, 1, 1) }, aTurn, 0, { aDispatch (some 1) with begun := true, counts := (1, 1, 1) },
      ⟨rfl, rfl⟩, calm_of_csr (by decide +kernel), by unfold State.noReset; decide +kernel, by decide +kernel⟩,
    ⟨1, rendering fullPass, fullPass, ⟨rfl, rfl⟩, by decide +kernel⟩,
    ⟨1, rendering (aPass (some 1)), aPass (some 1), ⟨rfl, rfl⟩, by decide +kernel⟩,
    ⟨1, decoding, { aCodec (some 1) 0 3 true with words := decodeWs, slot := some 0 }, ⟨rfl, rfl⟩, by decide +kernel⟩⟩

/-- States and operands that meet the hypotheses of `Obligations.ProgramsCompile`, clause by clause. -/
theorem witness_ProgramsCompile :
    (∃ id : Nat, ∃ models : List Nat, ∃ kib : Nat, ∃ cause : Nat, ∃ p : Prog, ∃ c : Cmd, ∃ s : State, s.live ∧ cause ≤ 4 ∧
        (s.vid.progs.find? fun x => x.load = some id) = some p ∧ s.cmd? id = some c ∧ c.stage = .started ∧ cause = 0 ∧ models.length ≤ 64 ∧
        kib ≤ 4 * p.pages.length) ∧
    (∃ id : Nat, ∃ cause : Nat, ∃ p : Prog, ∃ c : Cmd, ∃ s : State, s.live ∧ cause ≤ 4 ∧ (s.vid.progs.find? fun x => x.load = some id) = some p ∧
        s.cmd? id = some c ∧ c.stage = .started ∧ cause ≠ 0) :=
  ⟨⟨1, [0, 4], 4, 0, aProg, started 1 [hd 0x0300 4], { withCmds own [started 1 [hd 0x0300 4]] with vid := { own.vid with progs := [aProg] } }, ⟨rfl, rfl⟩,
      by decide +kernel⟩,
    ⟨1, 4, aProg, started 1 [hd 0x0300 4], { withCmds own [started 1 [hd 0x0300 4]] with vid := { own.vid with progs := [aProg] } }, ⟨rfl, rfl⟩,
        by decide +kernel⟩⟩

/-- States and operands that meet the hypotheses of `Obligations.CodecPictures`, clause by clause. -/
theorem witness_CodecPictures :
    (∃ id : Nat, ∃ c : Cmd, ∃ x : Session, ∃ s : State, ∃ i : Instr, s.live ∧ s.calm ∧ s.noReset 136 ∧ s.cmd? id = some c ∧ c.stage = .started ∧
        (∀ r ∈ s.vid.codec, r.cmd ≠ some id) ∧ (s.vid.sess.find? fun y => y.id = c.f 1 0 8 && y.seat = some c.seat) = some x ∧ ((i = .vdcDecode id ∧
        c.op = 0x0501) ∨ (i = .vdcEncode id ∧ c.op = 0x0502))) ∧
    (∃ q : PicIn, ∃ id : Nat, ∃ r : CodecRun, ∃ x : Session, ∃ s : State, s.live ∧ s.calm ∧ s.noReset 136 ∧ q.pipe < 10 ∧ s.pipeRun q.pipe = some r ∧
        r.cmd = some id ∧ (s.vid.codec.filter fun y => y.cmd = some id && y.pipe = q.pipe) = [r] ∧ (s.vid.sess.find? fun y => y.id = r.sess) = some x ∧
        some id ∉ r.reqs ∧ s.codecBroken r = false) :=
  ⟨⟨1, started 1 decodeWs, aSession 3 (some 0) 0 false,
      { withCmds own [started 1 decodeWs] with vid := { own.vid with sess := [aSession 3 (some 0) 0 false] } }, .vdcDecode 1, ⟨rfl, rfl⟩,
      calm_of_csr (by decide +kernel), by unfold State.noReset; decide +kernel, by decide +kernel⟩,
    ⟨aPicture, 1, { aCodec (some 1) 0 3 true with words := decodeWs, slot := some 0 }, smallSession, decoding, ⟨rfl, rfl⟩, calm_of_csr (by decide +kernel),
        by unfold State.noReset; decide +kernel, by decide +kernel⟩⟩

/-- States and operands that meet the hypotheses of `Obligations.AudioBlocks`, clause by clause. -/
theorem witness_AudioBlocks :
    (∃ s : State, ∃ id : Nat, ∃ c : Cmd, s.live ∧ s.cmd? id = some c ∧ c.op = 0x0600 ∧ c.stage = .started ∧
        (s.med.aud.routes.any fun r => r.1 = some id) = false) ∧
    (∃ s : State, ∃ b : AudIo, s.live ∧ s.calm ∧ b.n ≤ 512 ∧ s.tts.running = true ∧ s.engineUp 5 = true) ∧
    (∃ p : Nat, ∃ s : State, s.live ∧ s.wf = true ∧ p < 8 ∧ s.tts.running = true ∧ fb (s.tdmSt p).set 0 0 = true ∧ mapWf audInNone s.med.aud.inputs = true) ∧
    (∃ s : State, s.live ∧ s.calm ∧ s.wf = true ∧ 1 ≤ s.med.aud.clkNow ∧ s.med.aud.clkNow ≤ 8 ∧ s.bitAt Reg.audClk 5 = false) ∧
    (∃ s : State, ∃ i : Nat, s.live ∧ s.calm ∧ s.wf = true ∧ i < 192 ∧ s.inputActive i = true ∧ mapWf audInNone s.med.aud.inputs = true) :=
  ⟨⟨withCmds own [started 1 [hd 0x0600 2, 0x10000]], 1, started 1 [hd 0x0600 2, 0x10000], ⟨rfl, rfl⟩, by decide +kernel⟩,
    ⟨{ withCmds own [started 1 [hd 0x0600 2, 0x10000]] with med := { up.med with aud := { up.med.aud with routes := [(some 1, [hd 0x0600 2, 0x10000])] } } },
        ⟨1, [], [], [], [], [], .ok⟩, ⟨rfl, rfl⟩, calm_of_csr (by decide +kernel), by decide +kernel⟩,
    ⟨0, tdmOn, ⟨rfl, rfl⟩, by decide +kernel⟩,
    ⟨tdmOn, ⟨rfl, rfl⟩, calm_of_csr (by decide +kernel), by decide +kernel⟩,
    ⟨tdmOn, 0, ⟨rfl, rfl⟩, calm_of_csr (by decide +kernel), by decide +kernel⟩⟩

/-- States and operands that meet the hypotheses of `Obligations.PanelsLink`, clause by clause. -/
theorem witness_PanelsLink :
    (∃ n : Nat, ∃ id : Nat, ∃ ok : Bool, ∃ i : Instr, ∃ s : State, s.live ∧ s.calm ∧ s.noReset (stTch n) ∧ s.wf = true ∧ n < 8 ∧ id < 65536 ∧
        mapWf tchNone s.med.tch = true ∧ ((i = .touchLinkBringup n id ok ∧ s.tchState n = 1) ∨ (i = .touchLinkRetry n id ok ∧ s.tchState n = 5 ∧
        (s.tch n).failBell + 100 ≤ s.tts.bell))) ∧
    (∃ n : Nat, ∃ s : State, ∃ k : Nat, s.live ∧ n < 8 ∧ s.wf = true ∧ k < pnSelf (s.tch n).panel ∧ nBit (s.tch n).busy k = true) ∧
    (∃ n : Nat, ∃ s : State, s.live ∧ n < 8 ∧ s.tchState n = 2 ∧ fw (s.tch n).words 4 0 10 ≠ 0 ∧ (s.tch n).contacts = [] ∧ (s.tch n).busy = 0 ∧
        (s.tch n).scan = false) ∧
    (∃ n : Nat, ∃ s : State, s.live ∧ n < 8 ∧ s.tchState n = 3 ∧ s.pst < 3) ∧
    (∃ n : Nat, ∃ s : State, s.live ∧ n < 8 ∧ s.tchState n = 3 ∧ s.pst = 4 ∧ fb (s.tch n).words 4 20 = true) :=
  ⟨⟨0, 0x1234, true, .touchLinkBringup 0 0x1234 true, touching 1 aTch, ⟨rfl, rfl⟩, calm_of_csr (by decide +kernel), by unfold State.noReset; decide +kernel,
      by decide +kernel⟩,
    ⟨0, touching 2 { aTch with busy := 1 }, 0, ⟨rfl, rfl⟩, by decide +kernel⟩,
    ⟨0, touching 2 { aTch with words := [0, 0, 0, 0, 5] }, ⟨rfl, rfl⟩, by decide +kernel⟩,
    ⟨0, touching 3 aTch, ⟨rfl, rfl⟩, by decide +kernel⟩,
    ⟨0, inState 4 (touching 3 { aTch with words := [0, 0, 0, 0, 0x100000] }), ⟨rfl, rfl⟩, by decide +kernel⟩⟩

/-- States and operands that meet the hypotheses of `Obligations.PanelScans`, clause by clause. -/
theorem witness_PanelScans :
    (∃ n : Nat, ∃ noisy : Bool, ∃ s : State, s.live ∧ s.wf = true ∧ n < 8 ∧ s.tts.running = true ∧ s.scanDue (s.tch n) = some noisy ∧ (s.tch n).scan = true) ∧
    (∃ n : Nat, ∃ noisy : Bool, ∃ s : State, s.live ∧ s.wf = true ∧ n < 8 ∧ s.tts.running = true ∧ s.scanDue (s.tch n) = some noisy ∧ (s.tch n).scan = false ∧
        (s.tchState n = 2 ∨ (s.tchState n = 3 ∧ (s.tch n).approach = true)) ∧ ((s.tch n).pend.find? fun x => tcOp x.2.1 = 1) = none) ∧
    (∃ n : Nat, ∃ noisy : Bool, ∃ s : State, ∃ x : Option Nat × List Word × List Word, s.live ∧ s.wf = true ∧ n < 8 ∧ s.tts.running = true ∧
        s.scanDue (s.tch n) = some noisy ∧ (s.tch n).scan = false ∧ (s.tchState n = 2 ∨ (s.tchState n = 3 ∧ (s.tch n).approach = true)) ∧
        ((s.tch n).pend.find? fun x => tcOp x.2.1 = 1) = some x) ∧
    (∃ n : Nat, ∃ s : State, s.live ∧ s.calm ∧ s.noReset (stTch n) ∧ s.wf = true ∧ n < 8 ∧ mapWf tchNone s.med.tch = true ∧ (s.tch n).scan = true ∧
        (s.tch n).test = none) ∧
    (∃ n : Nat, ∃ s : State, s.live ∧ s.calm ∧ s.noReset (stTch n) ∧ s.wf = true ∧ n < 8 ∧ mapWf tchNone s.med.tch = true ∧ (s.tch n).scan = true ∧
        (s.tch n).test = none ∧ (s.tch n).bad ≠ 2) ∧
    (∃ n : Nat, ∃ s : State, s.live ∧ s.calm ∧ s.noReset (stTch n) ∧ s.wf = true ∧ n < 8 ∧ mapWf tchNone s.med.tch = true ∧ (s.tch n).scan = true ∧
        (s.tch n).test = none ∧ (s.tch n).bad = 2) ∧
    (∃ n : Nat, ∃ s : State, ∃ x : Option Nat × List Word, s.live ∧ s.calm ∧ s.noReset (stTch n) ∧ s.wf = true ∧ n < 8 ∧ mapWf tchNone s.med.tch = true ∧
        (s.tch n).scan = true ∧ (s.tch n).test = some x) :=
  ⟨⟨0, false, touching 2 { aTch with scan := true }, ⟨rfl, rfl⟩, by decide +kernel⟩,
    ⟨0, false, touching 2 aTch, ⟨rfl, rfl⟩, by decide +kernel⟩,
    ⟨0, false, touching 2 { aTch with pend := [(none, [hd 0x0700 4, 8], [])] }, (none, [hd 0x0700 4, 8], []), ⟨rfl, rfl⟩, by decide +kernel⟩,
    ⟨0, touching 2 { aTch with scan := true }, ⟨rfl, rfl⟩, calm_of_csr (by decide +kernel), by unfold State.noReset; decide +kernel, by decide +kernel⟩,
    ⟨0, touching 2 { aTch with scan := true, bad := 1 }, ⟨rfl, rfl⟩, calm_of_csr (by decide +kernel), by unfold State.noReset; decide +kernel,
        by decide +kernel⟩,
    ⟨0, touching 2 { aTch with scan := true, bad := 2 }, ⟨rfl, rfl⟩, calm_of_csr (by decide +kernel), by unfold State.noReset; decide +kernel,
        by decide +kernel⟩,
    ⟨0, touching 4 { aTch with scan := true, testScan := true, test := some (none, [hd 0x0700 4, 8]) }, (none, [hd 0x0700 4, 8]), ⟨rfl, rfl⟩,
        calm_of_csr (by decide +kernel), by unfold State.noReset; decide +kernel, by decide +kernel⟩⟩

/-- States and operands that meet the hypotheses of `Obligations.HapticsPlay`, clause by clause. -/
theorem witness_HapticsPlay :
    (∃ id : Nat, ∃ c : Cmd, ∃ s : State, ∃ i : Instr, ∃ n : Nat, s.live ∧ s.cmd? id = some c ∧ c.stage = .started ∧ ((i = .hapEffectLoad id ∧
        n = 32) ∨ (i = .hapEffectClear id ∧ n = 0)) ∧ c.op = 0x0710 ∧ c.f 3 0 32 = n ∧ mapWf hapNone s.med.hap = true ∧
        mapWf (fun _ => []) (s.hap (c.f 1 0 3)).effects = true) ∧
    (∃ id : Nat, ∃ c : Cmd, ∃ s : State, s.live ∧ s.cmd? id = some c ∧ c.stage = .started ∧ c.op = 0x0711 ∧ c.res = []) ∧
    (∃ ch : Nat, ∃ s : State, s.live ∧ s.calm ∧ s.noReset (stHap ch) ∧ ch < 8 ∧ s.tts.running = true ∧ mapWf hapNone s.med.hap = true) ∧
    (∃ ch : Nat, ∃ s : State, s.live ∧ s.calm ∧ s.noReset (stHap ch) ∧ ch < 8 ∧ s.tts.running = true ∧ mapWf hapNone s.med.hap = true ∧
        (s.hap ch).play = none ∧ (s.hap ch).wait = none) ∧
    (∃ ch : Nat, ∃ s : State, ∃ p : HapPlay, s.live ∧ s.calm ∧ s.noReset (stHap ch) ∧ ch < 8 ∧ s.tts.running = true ∧ mapWf hapNone s.med.hap = true ∧
        (s.hap ch).play = some p ∧ p.phase = 1 ∧ p.cutShort = false ∧ s.cfld (Reg.hapCfg ch) 0 1 = 1) :=
  ⟨⟨1, { started 1 [hd 0x0710 4, 0x300, 0, 32] with res := [1, 2, 3, 4] }, withCmds rich [{ started 1 [hd 0x0710 4, 0x300, 0, 32] with res := [1, 2, 3, 4] }],
      .hapEffectLoad 1, 32, ⟨rfl, rfl⟩, by decide +kernel⟩,
    ⟨1, started 1 [hd 0x0711 2, 0x300], withCmds rich [started 1 [hd 0x0711 2, 0x300]], ⟨rfl, rfl⟩, by decide +kernel⟩,
    ⟨7, up, ⟨rfl, rfl⟩, calm_of_csr (by decide +kernel), by unfold State.noReset; decide +kernel, by decide +kernel⟩,
    ⟨0, up, ⟨rfl, rfl⟩, calm_of_csr (by decide +kernel), by unfold State.noReset; decide +kernel, by decide +kernel⟩,
    ⟨0, buzzing { hapNone 0 with play := some aPlay }, aPlay, ⟨rfl, rfl⟩, calm_of_csr (by decide +kernel), by unfold State.noReset; decide +kernel,
        by decide +kernel⟩⟩

/-- States and operands that meet the hypotheses of `Obligations.HeadsSend`, clause by clause. -/
theorem witness_HeadsSend :
    (∃ h : Nat, ∃ s : State, s.live ∧ s.calm ∧ s.wf = true ∧ h < 32 ∧ s.frameDue h = true ∧ (s.head h).asleep = false ∧ s.pst ≠ 2 ∧
        (s.hdState h = 1 ∨ s.hdState h = 2 ∨ (s.hdState h = 4 ∧ (s.head h).wakeBell ≤ s.tts.bell))) ∧
    (∃ h : Nat, ∃ s : State, s.live ∧ s.calm ∧ s.wf = true ∧ h < 32 ∧ s.frameDue h = true ∧ (s.head h).asleep = false ∧ s.pst = 2 ∧
        (s.hdState h = 1 ∨ s.hdState h = 2) ∧ s.srHead h = false) ∧
    (∃ h : Nat, ∃ line : Nat, ∃ s : State, s.live ∧ s.calm ∧ h < 32 ∧ s.wf = true ∧ (s.head h).frame.isSome = true ∧ line = (s.head h).line ∧
        line < (s.head h).vt ∧ (s.hdState h = 1 ∨ s.hdState h = 2)) ∧
    (∃ h : Nat, ∃ line : Nat, ∃ s : State, h < 32 ∧ s.flt.safe = true ∧ s.pwr.rails = true ∧ s.hdState h = 5 ∧ line < (s.head h).ht ∧
        mapWf headNone s.pic.heads = true) :=
  ⟨⟨0, headUp 1 { headNone 0 with timF := 0 }, ⟨rfl, rfl⟩, calm_of_csr (by decide +kernel), by decide +kernel⟩,
    ⟨0, inState 2 (headUp 2 { headNone 0 with timF := 0 }), ⟨rfl, rfl⟩, calm_of_csr (by decide +kernel), by decide +kernel⟩,
    ⟨0, 5, headUp 2 { headNone 0 with frame := some 100, line := 5 }, ⟨rfl, rfl⟩, calm_of_csr (by decide +kernel), by decide +kernel⟩,
    ⟨0, 5, { headUp 5 { headNone 0 with timF := 0 } with flt := { up.flt with safe := true } }, by decide +kernel⟩⟩

/-- States and operands that meet the hypotheses of `Obligations.LinksTrain`, clause by clause. -/
theorem witness_LinksTrain :
    (∃ n : Nat, ∃ s : State, s.live ∧ s.calm ∧ n < 16 ∧ s.wf = true) ∧
    (∃ n : Nat, ∃ s : State, s.live ∧ s.calm ∧ n < 16 ∧ s.wf = true ∧ mapWf portNone s.pic.ports = true) ∧
    (∃ n : Nat, ∃ s : State, s.live ∧ n < 16 ∧ s.wf = true ∧ portMode (s.port n) ≠ 0) ∧
    (∃ n : Nat, ∃ s : State, s.live ∧ n < 16 ∧ s.fld (Reg.dptStatus n) 0 3 = 5) ∧
    (∃ n : Nat, ∃ s : State, s.live ∧ n < 16) ∧
    (∃ n : Nat, ∃ k : SinkIn, ∃ s : State, s.live ∧ s.calm ∧ s.wf = true ∧ n < 16 ∧ k.rate < 8 ∧ k.lanes < 3 ∧ k.sr < 3 ∧ (s.port n).bringup = true ∧
        mapWf portNone s.pic.ports = true) :=
  ⟨⟨15, up, ⟨rfl, rfl⟩, calm_of_csr (by decide +kernel), by decide +kernel⟩,
    ⟨15, up, ⟨rfl, rfl⟩, calm_of_csr (by decide +kernel), by decide +kernel⟩,
    ⟨0, { up with pic := { up.pic with ports := [(0, aPort)] } }, ⟨rfl, rfl⟩, by decide +kernel⟩,
    ⟨0, put up [(Reg.dptStatus 0, 0, 3, 5)], ⟨rfl, rfl⟩, by decide +kernel⟩,
    ⟨15, up, ⟨rfl, rfl⟩, by decide +kernel⟩,
    ⟨0, ⟨7, 0, 2, 2, true, true, [], true⟩, { up with pic := { up.pic with ports := [(0, aPort)] } }, ⟨rfl, rfl⟩, calm_of_csr (by decide +kernel),
        by decide +kernel⟩⟩

/-- States and operands that meet the hypotheses of `Obligations.CapturePorts`, clause by clause. -/
theorem witness_CapturePorts :
    (∃ n : Nat, ∃ s : State, ∃ rate : Nat, ∃ lanes : Nat, s.live ∧ n < 8 ∧ mapWf capNone s.vid.caps = true ∧ s.wf = true ∧ (s.capSt n).hpd = true ∧ 3 ≤ rate ∧
        rate ≤ fw (s.capSt n).set 0 1 3 ∧ lanes ≤ fw (s.capSt n).set 0 4 2) ∧
    (∃ n : Nat, ∃ s : State, s.live ∧ n < 8 ∧ mapWf capNone s.vid.caps = true ∧ s.wf = true ∧ 2 ≤ s.capState n ∧ s.capState n ≤ 4) ∧
    (∃ n : Nat, ∃ s : State, s.live ∧ n < 8 ∧ mapWf capNone s.vid.caps = true ∧ (s.capSt n).pulse = true) ∧
    (∃ n : Nat, ∃ s : State, s.live ∧ n < 8 ∧ mapWf capNone s.vid.caps = true ∧ (s.capSt n).hpd = true) ∧
    (∃ n : Nat, ∃ f : CapIn, ∃ s : State, s.live ∧ s.calm ∧ s.noReset (stCap n) ∧ s.wf = true ∧ n < 8 ∧ f.enc < 4 ∧ f.bpc < 5 ∧ f.colorimetry < 4 ∧
        f.eotf < 4 ∧ f.w < 2 ^ 16 ∧ f.h < 2 ^ 16 ∧ (s.capState n = 3 ∨ s.capState n = 4)) ∧
    (∃ n : Nat, ∃ k : Nat, ∃ r : SurfRing, ∃ s : State, s.live ∧ s.calm ∧ s.wf = true ∧ n < 8 ∧ (s.capSt n).slot = some k ∧ s.capRing n = some r) :=
  ⟨⟨0, capturing 1 aCap, 7, 2, ⟨rfl, rfl⟩, by decide +kernel⟩,
    ⟨0, capturing 4 aCap, ⟨rfl, rfl⟩, by decide +kernel⟩,
    ⟨0, capturing 1 { aCap with pulse := true, hpd := false }, ⟨rfl, rfl⟩, by decide +kernel⟩,
    ⟨0, capturing 1 aCap, ⟨rfl, rfl⟩, by decide +kernel⟩,
    ⟨0, ⟨0, 1, 0, false, 0, 64, 64, 5⟩, capturing 3 { aCap with ring := some aRing }, ⟨rfl, rfl⟩, calm_of_csr (by decide +kernel),
        by unfold State.noReset; decide +kernel, by decide +kernel⟩,
    ⟨0, 2, aRing, capturing 4 { aCap with ring := some aRing, slot := some 2 }, ⟨rfl, rfl⟩, calm_of_csr (by decide +kernel), by decide +kernel⟩⟩

end Sys2Proof.Tests
end

section
/-!
PROOFS. The form of the state (O4): every step keeps it.
-/

namespace Sys2Proof.Machine

/-- The form says nothing of the queue. -/
theorem wf_pending (s : State) (cs : List Instr) : ({ s with pending := cs } : State).wf = s.wf := rfl

/-- Settles O4: a step on an empty queue keeps the state, and every command keeps its form (`exec_wf`). -/
theorem stepKeepsForm : Obligations.StepKeepsForm := by
  intro s t hs ht
  unfold step at ht
  split at ht
  · injection ht with ht
    exact ht ▸ hs
  next rest _ => exact exec_wf ((wf_pending s rest).trans hs) ht

end Sys2Proof.Machine
end

section
/-!
PROOFS. Reads with a side effect (O27): what a read of a register returns, and the fields that it leaves 0 (R7, R57, R58).
-/

namespace Sys2Proof.Machine

/-! ### Reads of registers -/

/-- What a read that meets its register gives, before its side effect. -/
theorem readCommand_reads {s : State} {p : Path} {off size : Nat} {f : RegFam} {ix : List Nat} (hr : s.reads p off)
    (ha : accessOk off size = true) (h8 : off % 8 = 0) (hf : regFind off = some (f, ix)) {ok : Bool} (ho : ok = true) :
    readCommand ok p off size s = .next (runAct (readEffect p f off size) (applyEff (.rdata (s.readValue p off size)) s)) := by
  obtain ⟨hl, hh, hp⟩ := hr
  have h88 : off / 8 * 8 = off := by omega
  have hl' : (s.flt.safe && s.pwr.rails && ok && (decide (p = .i3c) || decide (p = .jtag))) = false := by simp [hl.1]
  rw [readCommand, hl', live_next hl ho]
  simp [csrReadAct, hh, csrReadNow, hp, ha, h88, hf]

/-! ### Bits that a mask takes away -/

/-- One bit of a word from which a mask is taken. -/
theorem testBit_andNot (v : Word) (m i : Nat) : (v &&& ~~~ BitVec.ofNat 64 m).toNat.testBit i = (v.toNat.testBit i && !(m % 2 ^ 64).testBit i) := by
  rw [← BitVec.toNat_ofNat, ← BitVec.getLsbD, ← BitVec.getLsbD, ← BitVec.getLsbD, BitVec.getLsbD_and, BitVec.getLsbD_not]
  by_cases h : i < 64
  · simp [h]
  · rw [BitVec.getLsbD_of_ge v i (Nat.le_of_not_lt h)]; rfl

/-- A field that a mask does not meet reads what it read. -/
theorem wBits_andNot_apart (v : Word) {m lo w : Nat} (h : nBits (m % 2 ^ 64) lo w = 0) : wBits (v &&& ~~~ BitVec.ofNat 64 m) lo w = wBits v lo w := by
  apply Nat.eq_of_testBit_eq
  intro i
  have hi := congrArg (fun k => k.testBit i) h
  simp only [nBits_testBit, Nat.zero_testBit, Bool.and_eq_false_iff, decide_eq_false_iff_not] at hi
  rw [wBits_testBit, wBits_testBit, testBit_andNot]
  rcases hi with hi | hi
  · simp [hi]
  · rw [hi, Bool.not_false, Bool.and_true]

/-- A field within a mask reads 0. -/
theorem wBits_andNot_within (v : Word) {m lo w : Nat} (h : nBits (m % 2 ^ 64) lo w = 2 ^ w - 1) : wBits (v &&& ~~~ BitVec.ofNat 64 m) lo w = 0 := by
  apply Nat.eq_of_testBit_eq
  intro i
  have hi := congrArg (fun k => k.testBit i) h
  simp only [nBits_testBit, Nat.testBit_two_pow_sub_one] at hi
  rw [wBits_testBit, testBit_andNot, Nat.zero_testBit]
  by_cases hw : i < w
  · have hm : (m % 2 ^ 64).testBit (lo + i) = true := (Bool.and_eq_true_iff.1 (hi.trans (decide_eq_true hw))).2
    rw [hm, Bool.not_true, Bool.and_false, Bool.and_false]
  · simp [hw]

/-- Masking twice, once against a mask that holds the other, leaves nothing. -/
theorem andNot_and_eq_zero (v a b : Word) (h : b &&& ~~~ a = 0) : (v &&& ~~~ a) &&& b = 0 := by
  rw [BitVec.and_assoc, BitVec.and_comm (~~~ a), h]
  exact BitVec.and_zero

/-! ### Registers that a read returns as they stand -/

/-- A register outside TTS, SEAT and SEC, and not of a seat's page, reads as it stands on every path. -/
theorem slotValue_plain (s : State) (p : Path) {off : Nat} (h1 : off < 0x30000 ∨ 0x60000 ≤ off) (h2 : off < 0x800000) :
    s.slotValue p off = s.rd off := by
  have hs : secHidden p off = false := by
    simp only [secHidden, Bool.and_eq_false_iff, decide_eq_false_iff_not]
    omega
  have h3 : off ≠ Reg.ttsCountLo ∧ off ≠ Reg.ttsCountHi ∧ off ≠ Reg.ttsPtmLo ∧ off ≠ Reg.ttsPtmHi := by
    simp only [Reg.ttsCountLo, Reg.ttsCountHi, Reg.ttsPtmLo, Reg.ttsPtmHi]; omega
  have h4 : ¬ (0x38000 ≤ off ∧ off < 0x40000) := by omega
  have h5 : ¬ 0x800000 ≤ off := by omega
  simp [State.slotValue, hs, h3, h4, h5]

theorem secHidden_plain (p : Path) {off : Nat} (h : off < 0x50000 ∨ 0x60000 ≤ off) : secHidden p off = false := by
  simp only [secHidden, Bool.and_eq_false_iff, decide_eq_false_iff_not]
  omega

/-- A register whose fields lie in the lower half holds nothing above. -/
theorem rd_lt_half {s : State} (hw : s.wf = true) {off : Nat} (hi : regImpl off < 2 ^ 32) (hd : regMask off (regDflt off) = regDflt off) :
    (s.rd off).toNat < 2 ^ 32 := by
  rw [← rd_mask hw off hd, regMask, BitVec.toNat_and]
  refine Nat.lt_of_le_of_lt Nat.and_le_right ?_
  rw [ofNat_mod64 _ (by omega)]
  exact hi

/-- The lower half of a word that has nothing above is the word. -/
theorem ofNat_wBits_half {v : Word} (h : v.toNat < 2 ^ 32) : BitVec.ofNat 64 (wBits v 0 32) = v := by
  apply BitVec.eq_of_toNat_eq
  simp only [wBits, nBits, Nat.shiftRight_zero, BitVec.toNat_ofNat]
  omega

/-- What a read of a whole register returns. -/
theorem readValue_whole {s : State} (hw : s.wf = true) {p : Path} {off size : Nat} {f : RegFam} {ix : List Nat} (hr : s.reads p off)
    (ha : accessOk off size = true) (h8 : off % 8 = 0) (hf : regFind off = some (f, ix)) (h1 : off < 0x30000 ∨ 0x60000 ≤ off) (h2 : off < 0x800000)
    (hs : size = 8 ∨ regImpl off < 2 ^ 32) (hd : regMask off (regDflt off) = regDflt off) : s.readValue p off size = s.rd off := by
  have h88 : off / 8 * 8 = off := by omega
  simp only [State.readValue, ha, hr.2.2, h88, hf, h8, slotValue_plain s p h1 h2]
  by_cases h : size = 8
  · simp [h]
  · simpa [h] using ofNat_wBits_half (rd_lt_half hw (hs.resolve_left h) hd)

/-! ### Side effects of a read -/

/-- The state after a path has taken its snapshot of bell count and PTM time (R57, R58). -/
def State.snapped (s : State) (p : Path) : State :=
  applyEff (.tts fun t => { t with snaps := mapPut (fun _ => (0, 0)) (pathKey p) (t.bell, s.ptmOf p) t.snaps }) s

/-- The side effect of a read of RS fields: a snapshot, the peak to busy, or the fields to 0. -/
theorem readEffect_run {p : Path} {f : RegFam} {off size : Nat} (h8 : off % 8 = 0) (hh : secHidden p off = false) (hre : reactReg off = false)
    (hrs : accBits f (fun x => x = .rs) &&& coverMask off size ≠ 0) (s : State) :
    runAct (readEffect p f off size) s =
      if off = Reg.ttsCountLo then s.snapped p
      else if off = Reg.hmnMgtLoad then s.putFld Reg.hmnMgtLoad 8 8 (s.fld Reg.hmnMgtLoad 0 8)
      else s.putReg off (s.rd off &&& ~~~ (accBits f (fun x => x = .rs) &&& coverMask off size)) := by
  have h88 : off / 8 * 8 = off := by omega
  have hm : reactReg Reg.hmnMgtLoad = false := by decide
  simp only [readEffect, runAct_ask, h88, hh, Bool.false_or, decide_eq_true_eq, if_neg hrs, runAct_ite, setFld_run _ _ _ _ _ hm, setReg_run _ _ _ hre]
  rfl

/-! ### Reads that clear -/

/-- A read of `size` bytes at an offset returns a whole register as it stands and clears the fields of the mask `m`, all of them with access RS. -/
def clearsOnRead (off size m : Nat) : Bool :=
  accessOk off size && decide (off % 8 = 0) && decide (off < 0x30000 ∨ 0x60000 ≤ off) && decide (off < 0x800000) && decide (off ≠ Reg.hmnMgtLoad)
    && !reactReg off && decide (size = 8 ∨ regImpl off < 2 ^ 32) && decide (regMask off (regDflt off) = regDflt off) && decide (BitVec.ofNat 64 m ≠ 0)
    && match regFind off with
      | some (f, _) => decide (accBits f (fun x => x = .rs) &&& coverMask off size = BitVec.ofNat 64 m)
      | none => false

/-- Such a read gives the register and takes the fields of its mask to 0; nothing else changes. -/
theorem readCommand_clears {s : State} (hw : s.wf = true) {p : Path} {off size m : Nat} (hr : s.reads p off) (hc : clearsOnRead off size m = true)
    {ok : Bool} (ho : ok = true) : readCommand ok p off size s = .next ((applyEff (.rdata (s.rd off)) s).putReg off (s.rd off &&& ~~~ BitVec.ofNat 64 m)) := by
  simp only [clearsOnRead, Bool.and_eq_true, decide_eq_true_eq, Bool.not_eq_true'] at hc
  obtain ⟨⟨⟨⟨⟨⟨⟨⟨⟨ha, h8⟩, h1⟩, h2⟩, hne⟩, hre⟩, hs⟩, hd⟩, hm⟩, hf⟩ := hc
  split at hf
  next f ix hfind =>
    have hmask := of_decide_eq_true hf
    have hlo : off ≠ Reg.ttsCountLo := by simp only [Reg.ttsCountLo]; omega
    have hh : secHidden p off = false := secHidden_plain p (h1.imp_left fun h => Nat.lt_trans h (by decide))
    rw [readCommand_reads hr ha h8 hfind ho, readValue_whole hw hr ha h8 hfind h1 h2 hs hd, readEffect_run h8 hh hre (hmask ▸ hm), if_neg hlo, if_neg hne, hmask]
    rfl
  next => exact absurd hf (by decide)

section
variable {s : State} {p : Path} {off size m : Nat} (hw : s.wf = true) (hr : s.reads p off) (hc : clearsOnRead off size m = true)
  {ok : Bool} (ho : ok = true)
include hw hr hc ho

/-- A read that clears a whole register. -/
theorem readCommand_clears_all (hm : BitVec.ofNat 64 (regImpl off) &&& ~~~ BitVec.ofNat 64 m = 0) :
    ∃ t, readCommand ok p off size s = .next t ∧ t.rdata = s.rd off ∧ t.rd off = 0 :=
  ⟨_, readCommand_clears hw hr hc ho, rfl, by rw [rd_putReg (applyEff_wf _ _ hw), regMask, andNot_and_eq_zero _ _ _ hm]⟩

/-- A read that clears one field. -/
theorem readCommand_clears_field {lo w : Nat} (hi : nBits (regImpl off % 2 ^ 64) lo w = 2 ^ w - 1) (hm : nBits (m % 2 ^ 64) lo w = 2 ^ w - 1) :
    ∃ t, readCommand ok p off size s = .next t ∧ t.rdata = s.rd off ∧ t.fld off lo w = 0 :=
  ⟨_, readCommand_clears hw hr hc ho, rfl, by rw [fld_putReg (applyEff_wf _ _ hw) hi, wBits_andNot_within _ hm]⟩

/-- A read that clears one field and leaves another. -/
theorem readCommand_clears_upper {lo w lo' w' : Nat} (hi : nBits (regImpl off % 2 ^ 64) lo w = 2 ^ w - 1) (hm : nBits (m % 2 ^ 64) lo w = 2 ^ w - 1)
    (hi' : nBits (regImpl off % 2 ^ 64) lo' w' = 2 ^ w' - 1) (hm' : nBits (m % 2 ^ 64) lo' w' = 0) :
    ∃ t, readCommand ok p off size s = .next t ∧ t.rdata = s.rd off ∧ t.fld off lo w = 0 ∧ t.fld off lo' w' = s.fld off lo' w' :=
  ⟨_, readCommand_clears hw hr hc ho, rfl, by rw [fld_putReg (applyEff_wf _ _ hw) hi, wBits_andNot_within _ hm],
    by rw [fld_putReg (applyEff_wf _ _ hw) hi', wBits_andNot_apart _ hm', State.fld]⟩

end

/-! ### The registers that clear (Tables 3.9, 7.6, 11.4, 13.3, 15.9, 15.13, 16.5) -/

theorem clears_admBusyCount : clearsOnRead Reg.admBusyCount 4 0xFFFFFFFF = true := by decide +kernel
theorem clears_grdViolInfo : ∀ n < 28, clearsOnRead (Reg.grdViolInfo n) 4 0xFFF00000 = true ∧ regImpl (Reg.grdViolInfo n) = 0xFFFFFFFF := by decide +kernel
theorem clears_capFrames : ∀ n < 8, clearsOnRead (Reg.capFrames n) 8 0xFFFFFFFF00000000 = true ∧ regImpl (Reg.capFrames n) = 0xFFFFFFFFFFFFFFFF := by
  decide +kernel
theorem clears_hdUnderrun : ∀ h < 32, clearsOnRead (Reg.hdUnderrun h) 8 0xFFFF000000000000 = true ∧ regImpl (Reg.hdUnderrun h) = 0xFFFFFFFFFFFFFFFF := by
  decide +kernel
theorem clears_tchCount : ∀ n < 8, clearsOnRead (Reg.tchCount n) 8 0xFFFFFFFFFFFFFFFF = true ∧ regImpl (Reg.tchCount n) = 0xFFFFFFFFFFFFFFFF := by decide +kernel
theorem clears_hapCount : ∀ n < 8, clearsOnRead (Reg.hapCount n) 8 0xFFFFFFFFFFFF = true ∧ regImpl (Reg.hapCount n) = 0xFFFFFFFFFFFF := by decide +kernel

/-- FS_COUNT of every station that there is. -/
theorem clears_fsCount {st : Nat} (hst : st < 256) (hk : (stKind st).isSome = true) : clearsOnRead (Reg.fsCount st) 4 0xFFFF = true := by
  have hoff : Reg.fsCount st = 0x600010 + 0x100 * st := rfl
  have hd : regDflt (Reg.fsCount st) = 0 := by rw [regDflt, regReset, regFind_fsCount hst hk]; rfl
  have ha : accessOk (Reg.fsCount st) 4 = true := by simp [accessOk, hoff]; omega
  have hm : coverMask (Reg.fsCount st) 4 = 0xFFFFFFFF := by
    rw [coverMask, show Reg.fsCount st % 8 = 0 by rw [hoff]; omega]; rfl
  have hrs : (accBits (regsFs[2]'(by decide)) fun x => decide (x = .rs)) = BitVec.ofNat 64 0xFFFF := by decide
  simp only [clearsOnRead, ha, regFind_fsCount hst hk, react_fsCount, regImpl_fsCount hst hk, hd, hm, hrs, regMask, Bool.and_eq_true, decide_eq_true_eq]
  refine ⟨⟨⟨⟨⟨⟨⟨⟨⟨trivial, ?_⟩, ?_⟩, ?_⟩, ?_⟩, rfl⟩, ?_⟩, ?_⟩, ?_⟩, ?_⟩
  · omega
  · omega
  · omega
  · simp only [hoff, Reg.hmnMgtLoad]; omega
  all_goals decide

/-! ### The peak of HMN_MGT_LOAD -/

theorem hmnMgtLoad_row : regImpl Reg.hmnMgtLoad = 0xFFFFFFFF ∧ regMask Reg.hmnMgtLoad (regDflt Reg.hmnMgtLoad) = regDflt Reg.hmnMgtLoad := by decide +kernel

/-- A read of HMN_MGT_LOAD (R545): the register, then the peak is the load in progress. -/
theorem readCommand_hmnMgtLoad {s : State} (hw : s.wf = true) {p : Path} (hr : s.reads p Reg.hmnMgtLoad) :
    readCommand true p Reg.hmnMgtLoad 4 s =
      .next ((applyEff (.rdata (s.rd Reg.hmnMgtLoad)) s).putFld Reg.hmnMgtLoad 8 8 (s.fld Reg.hmnMgtLoad 0 8)) := by
  have hi : regImpl Reg.hmnMgtLoad < 2 ^ 32 := by rw [hmnMgtLoad_row.1]; decide
  rw [readCommand_reads hr (by decide) (by decide) rfl rfl,
    readValue_whole hw hr (by decide) (by decide) rfl (.inr (by decide)) (by decide) (.inr hi) hmnMgtLoad_row.2]
  rw [readEffect_run (by decide) (secHidden_plain p (.inr (by decide))) (by decide) (by decide), if_neg (by decide), if_pos rfl]
  rfl

/-! ### The snapshot of the bell count (R57, R58) -/

/-- A value that is no default reads back, whatever the map. -/
theorem mapGet_put_of_ne {α : Type} [DecidableEq α] (d : Nat → α) (k : Nat) {v : α} (hv : v ≠ d k) (m : List (Nat × α)) :
    mapGet d k (mapPut d k v m) = v := by
  induction m with
  | nil => simp [mapPut, hv, mapGet]
  | cons e m ih =>
    obtain ⟨k1, v1⟩ := e
    simp only [mapPut, hv, if_false]
    by_cases h1 : k < k1
    · simp [h1, mapGet]
    · by_cases h2 : k = k1
      · simp [h2, mapGet]
      · simp [h1, h2, mapGet, ih]

/-- A read of TTS_BELL_COUNT_LO: the low half of the count, then the snapshot. -/
theorem readCommand_ttsCountLo {s : State} {p : Path} (hr : s.reads p Reg.ttsCountLo) :
    readCommand true p Reg.ttsCountLo 4 s = .next ((applyEff (.rdata (BitVec.ofNat 64 (s.tts.bell % 2 ^ 32))) s).snapped p) := by
  have hh : secHidden p Reg.ttsCountLo = false := secHidden_plain p (.inl (by decide))
  have hv : s.readValue p Reg.ttsCountLo 4 = BitVec.ofNat 64 (s.tts.bell % 2 ^ 32) := by
    have hfind : (regFind Reg.ttsCountLo).isSome = true := rfl
    obtain ⟨r, hf⟩ := Option.isSome_iff_exists.1 hfind
    have hslot : s.slotValue p Reg.ttsCountLo = BitVec.ofNat 64 (s.tts.bell % 2 ^ 32) := by simp [State.slotValue, hh]
    simp only [State.readValue, show accessOk Reg.ttsCountLo 4 = true by decide, hr.2.2, show Reg.ttsCountLo / 8 * 8 = Reg.ttsCountLo by decide, hf, hslot]
    exact ofNat_wBits_half (by rw [BitVec.toNat_ofNat]; omega)
  rw [readCommand_reads hr (by decide) (by decide) rfl rfl, hv, readEffect_run (by decide) hh (by decide) (by decide), if_pos rfl]

/-- The halves that the same path reads after its snapshot. -/
theorem snapped_slots (s : State) (p : Path) (h : 0 < s.tts.bell) :
    (s.snapped p).slotValue p Reg.ttsCountHi = BitVec.ofNat 64 (s.tts.bell / 2 ^ 32 % 2 ^ 32)
      ∧ (s.snapped p).slotValue p Reg.ttsPtmLo = BitVec.ofNat 64 (s.ptmOf p % 2 ^ 32) := by
  have hs : (s.snapped p).snap p = (s.tts.bell, s.ptmOf p) := mapGet_put_of_ne _ _ (by simp; omega) _
  constructor <;> simp (decide := true) [State.slotValue, hs, secHidden_plain]

/-! ### The obligation -/

/-- Settles O27: the snapshot of the bell count, the peak of HMN_MGT_LOAD, and for every other register the mask of fields that a read clears. -/
theorem readsClear : Obligations.ReadsClear := by
  refine ⟨fun p s hr => ⟨_, readCommand_ttsCountLo hr, rfl, fun hb => snapped_slots _ p hb, rfl, fun _ => rfl⟩,
    fun p s hw => ⟨fun hr => ?_, fun hr => ?_, fun n hn hr => ?_, fun n hn hr => ?_, fun h hh hr => ?_, fun n hn hr => ?_, fun n hn hr => ?_,
      fun st hst hk hr => ?_⟩⟩
  case _ => exact readCommand_clears_all hw hr clears_admBusyCount rfl (by decide +kernel)
  case _ =>
    have hw' := applyEff_wf (.rdata (s.rd Reg.hmnMgtLoad)) s hw
    have hi := hmnMgtLoad_row.1
    refine ⟨_, readCommand_hmnMgtLoad hw hr, rfl, ?_, ?_, ?_⟩
    · rw [fld_putFld hw' (by decide) (by rw [hi]; decide), Nat.mod_eq_of_lt (show s.fld Reg.hmnMgtLoad 0 8 < 2 ^ 8 from nBits_lt _ _ _)]
    · exact fld_putFld_ne hw' (by decide) (by decide) (by rw [hi]; decide) _
    · exact fld_putFld_ne hw' (by decide) (by decide) (by rw [hi]; decide) _
  case _ =>
    obtain ⟨hc, hi⟩ := clears_grdViolInfo n hn
    exact readCommand_clears_upper hw hr hc (decide_eq_true hn) (by rw [hi]; decide) (by decide) (by rw [hi]; decide) (by decide)
  case _ =>
    obtain ⟨hc, hi⟩ := clears_capFrames n hn
    exact readCommand_clears_upper hw hr hc (decide_eq_true hn) (by rw [hi]; decide) (by decide) (by rw [hi]; decide) (by decide)
  case _ =>
    obtain ⟨hc, hi⟩ := clears_hdUnderrun h hh
    exact readCommand_clears_upper hw hr hc (decide_eq_true hh) (by rw [hi]; decide) (by decide) (by rw [hi]; decide) (by decide)
  case _ =>
    obtain ⟨hc, hi⟩ := clears_tchCount n hn
    exact readCommand_clears_all hw hr hc (decide_eq_true hn) (by rw [hi]; decide)
  case _ =>
    obtain ⟨hc, hi⟩ := clears_hapCount n hn
    exact readCommand_clears_field hw hr hc (decide_eq_true hn) (by rw [hi]; decide) (by decide)
  case _ => exact readCommand_clears_all hw hr (clears_fsCount hst hk) (decide_eq_true hst) (by rw [regImpl_fsCount hst hk]; decide)

end Sys2Proof.Machine
end

section
/-!
SUPPORT. What a program of effects takes a state to: `a.Takes J K` says that every run of `a` from a state of which `J` holds is whole and ends in a
state of which `K` holds. Where a footprint speaks of the effects one by one, this speaks of what they come to, in states known to be in form.
-/

namespace Sys2Proof.Machine

/-- Every run of a program from a state of which `J` holds is whole and ends in a state of which `K` holds. -/
def Act.Takes (J K : State → Prop) (a : Act) : Prop := ∀ s, J s → (runGo a s).2 = false ∧ K (runGo a s).1

variable {J K L : State → Prop}

theorem Act.Takes.run {a : Act} (h : a.Takes J K) {s : State} (hs : J s) : K (runAct a s) := (h s hs).2

/-- What holds afterwards may be weakened, what holds before strengthened. -/
theorem Act.Takes.weaken {a : Act} (h : a.Takes J K) {J' K' : State → Prop} (hJ : ∀ s, J' s → J s) (hK : ∀ s, K s → K' s) : a.Takes J' K' :=
  fun s hs => ⟨(h s (hJ s hs)).1, hK _ (h s (hJ s hs)).2⟩

/-! ### Constructs -/

theorem takes_skip : Act.skip.Takes J J := fun _ hs => ⟨rfl, hs⟩

theorem takes_eff {e : Eff} (he : e.halts = false) (h : ∀ s, J s → K (applyEff e s)) : (Act.eff e).Takes J K := fun s hs => ⟨he, h s hs⟩

theorem takes_seq {a b : Act} (ha : a.Takes J K) (hb : b.Takes K L) : (Act.seq a b).Takes J L := fun s hs => by
  obtain ⟨h1, h2⟩ := ha s hs
  rw [runGo_seq_eq, h1]
  exact hb _ h2

theorem takes_ask {k : State → Act} (h : ∀ s, J s → (k s).Takes J K) : (Act.ask k).Takes J K := fun s hs => h s hs s hs

theorem takes_acts_cons {a : Act} {as : List Act} (ha : a.Takes J K) (has : (acts as).Takes K L) : (acts (a :: as)).Takes J L := fun s hs => by
  rw [runGo_acts_cons]
  exact takes_seq ha has s hs

theorem takes_actIf {c : Bool} {a : Act} (h : c = true → a.Takes J J) : (actIf c a).Takes J J := by
  cases c
  · exact takes_skip
  · exact h rfl

theorem takes_ite {c : Prop} [Decidable c] {a b : Act} (ha : c → a.Takes J K) (hb : ¬ c → b.Takes J K) : (if c then a else b).Takes J K := by
  by_cases h : c
  · rw [if_pos h]; exact ha h
  · rw [if_neg h]; exact hb h

theorem takes_whenS {c : State → Bool} {a : Act} (h : a.Takes J J) : (whenS c a).Takes J J :=
  takes_ask fun _ _ => takes_ite (fun _ => h) fun _ => takes_skip

theorem takes_actOpt {α : Type} {o : Option α} {f : α → Act} (h : ∀ x, o = some x → (f x).Takes J J) : (actOpt o f).Takes J J := by
  cases o with
  | none => exact takes_skip
  | some x => exact h x rfl

theorem takes_onCmd {id : Nat} {k : State → Cmd → Act} (h : ∀ s c, J s → (k s c).Takes J J) : (onCmd id k).Takes J J :=
  takes_ask fun s hs => by
    split
    · exact h s _ hs
    · exact takes_skip

theorem takes_each {α : Type} {xs : List α} {f : α → Act} (h : ∀ x ∈ xs, (f x).Takes J J) : (each xs f).Takes J J := by
  induction xs with
  | nil => exact takes_skip
  | cons x xs ih => exact takes_acts_cons (h x List.mem_cons_self) (ih fun y hy => h y (List.mem_cons_of_mem _ hy))

/-! ### From footprints -/

/-- A program whose effects each keep `J` keeps it. -/
theorem takes_of_foot {P : Eff → Prop} {a : Act} (ha : a.Foot P) (hc : ∀ s, J s → s.calm) (hp : ∀ e, P e → e.soft = true)
    (hj : ∀ e s, P e → J s → J (applyEff e s)) : a.Takes J J := fun s hs => by
  obtain ⟨h1, -, h3⟩ := runGo_foot (R := fun s t => J s → J t) (fun _ h => h) (fun f g h => g (f h)) hp (fun e s he => hj e s he) a s ha (hc s hs)
  exact ⟨h1, h3 hs⟩

/-- A soft effect takes no state into the safe state. -/
theorem safe_soft {e : Eff} (h : e.soft = true) (s : State) : (applyEff e s).flt.safe = s.flt.safe := by
  cases e <;> first
    | rfl
    | simp [Eff.soft, Eff.halts] at h

end Sys2Proof.Machine
end

section
/-!
PROOFS. The bell (O24): what the edge sequence and the start of a period leave of the generator and of the budgets (R13, R43, R45, R51, R62, R66, R95).
-/

namespace Sys2Proof.Machine

/-! ### The generator -/

/-- The generator without timetables and samples: what the bookkeeping of a bell leaves alone. -/
def Tts.generator (t : Tts) : Tts := { t with sampled := [], ttNext := [], ttPending := [], ttActive := [] }

/-- The generator at the edge that begins bell `n`, with the PTM times of the edge. -/
def Tts.nextBell (n : Nat) (change : Bool) (e : EdgeIn) (t : Tts) : Tts :=
  { (if change then t.change n else t).beginBell n with ptm := (List.range 4).map fun p => e.ptm.getD p 0 }

/-- The next bell depends on the generator alone. -/
theorem nextBell_generator (n : Nat) (change : Bool) (e : EdgeIn) (t : Tts) :
    (t.nextBell n change e).generator = (t.generator.nextBell n change e).generator := by
  cases change <;> rfl

/-! ### States in which the work of a bell goes on -/

/-- The budgets in force, or those from the next edge: what messages leave alone. -/
def sparesMessages (q : Seats → List (Nat × Nat)) : Prop := ∀ (t : Seats) (x y : List (Nat × Nat)), q { t with msixOwed := x, msixSent := y } = q t

theorem budget_sparesMessages : sparesMessages Seats.budget := fun _ _ _ => rfl
theorem budgetNext_sparesMessages : sparesMessages Seats.budgetNext := fun _ _ _ => rfl

/-- The bell runs with generator `g`, the block is neither in the safe state nor about to enter it, and `q` of the seats is `b`. -/
def State.Ringing (g : Tts) (q : Seats → List (Nat × Nat)) (b : List (Nat × Nat)) (s : State) : Prop :=
  s.calm ∧ s.flt.safe = false ∧ s.tts.generator = g ∧ q s.seats = b

variable {g : Tts} {q : Seats → List (Nat × Nat)} {b : List (Nat × Nat)}

/-- A program that touches neither the generator nor the budgets keeps them. -/
theorem ringing_foot {T : Nat} (hq : sparesMessages q) {a : Act} (ha : a.Foot (In T)) (hT : softClass T = true)
    (h8 : Part.spared T .tts = true) (h25 : Part.spared T .seats = true) : a.Takes (State.Ringing g q b) (State.Ringing g q b) :=
  takes_of_foot ha (fun _ h => h.1) (fun _ he => in_soft hT he) fun e s he ⟨hc, hs, hg, hb⟩ => by
    have hso := in_soft hT he
    have ht : (applyEff e s).tts = s.tts := eff_same he hso h8 s
    have hm : Part.seats.same s (applyEff e s) := eff_same he hso h25 s
    exact ⟨calm_soft hso hc, (safe_soft hso s).trans hs, ht ▸ hg, by rw [hm, hq]; exact hb⟩

/-- A change of the generator. -/
theorem ringing_tts {f : Tts → Tts} {g' : Tts} (h : ∀ t : Tts, t.generator = g → (f t).generator = g') :
    (Act.eff (.tts f)).Takes (State.Ringing g q b) (State.Ringing g' q b) :=
  takes_eff rfl fun _ ⟨hc, hs, hg, hb⟩ => ⟨calm_soft (e := .tts f) rfl hc, hs, h _ hg, hb⟩

/-- A step of a bell that runs is done. -/
theorem ringing_step {K L : State → Prop} {a : Act} {as : List Act} (hr : g.running = true) (ha : a.Takes (State.Ringing g q b) K)
    (has : (steps as).Takes K L) : (steps (a :: as)).Takes (State.Ringing g q b) L :=
  takes_acts_cons (fun s hs => by
    obtain ⟨_, hsafe, hg, _⟩ := id hs
    have hrun : s.tts.running = true := by rw [← hr, ← hg]; rfl
    simp only [whenS, runGo_ask, hsafe, hrun, Bool.not_false, Bool.and_self, if_true]
    exact ha s hs) has

/-- Steps that each keep the generator and the budgets. -/
theorem ringing_steps {as : List Act} (h : ∀ a ∈ as, a.Takes (State.Ringing g q b) (State.Ringing g q b)) :
    (steps as).Takes (State.Ringing g q b) (State.Ringing g q b) :=
  takes_each fun a ha => takes_whenS (h a ha)

/-- Such steps in front of others. -/
theorem ringing_steps_append {L : State → Prop} {xs ys : List Act} (hx : ∀ a ∈ xs, a.Takes (State.Ringing g q b) (State.Ringing g q b))
    (hy : (steps ys).Takes (State.Ringing g q b) L) : (steps (xs ++ ys)).Takes (State.Ringing g q b) L := by
  induction xs with
  | nil => exact hy
  | cons x xs ih => exact takes_acts_cons (takes_whenS (hx x List.mem_cons_self)) (ih fun a ha => hx a (List.mem_cons_of_mem _ ha))

/-- Every effect but those that end a step, set a reaction mask, touch the generator or change the seats beyond their messages. -/
def bookkeeping : Nat := 0x3DFFFE7D

/-- Steps that are bookkeeping. -/
theorem bookkeeping_ringing (hq : sparesMessages q) {a : Act} (ha : a.Foot (In bookkeeping)) : a.Takes (State.Ringing g q b) (State.Ringing g q b) :=
  ringing_foot hq ha rfl rfl rfl

/-! ### The timetables -/

theorem timetableBuild_ringing : timetableBuild.Takes (State.Ringing g q b) (State.Ringing g q b) := takes_ask fun _ _ => ringing_tts fun _ h => h
theorem timetableSwap_ringing : timetableSwap.Takes (State.Ringing g q b) (State.Ringing g q b) := ringing_tts fun _ h => h
theorem timetableActivate_ringing : timetableActivate.Takes (State.Ringing g q b) (State.Ringing g q b) := ringing_tts fun _ h => h

/-- What of a bell's timeline is still owed at its end. -/
theorem bellClose_ringing (hq : sparesMessages q) : bellClose.Takes (State.Ringing g q b) (State.Ringing g q b) :=
  takes_ask fun _ _ => takes_actIf fun _ =>
    takes_acts_cons (ringing_foot (T := 0x300FFE19) hq (composeNormal_foot _ rfl) rfl rfl rfl)
      (takes_acts_cons (ringing_foot (T := 0x300FDE01) hq (composeCutoff_foot rfl) rfl rfl rfl)
        (takes_acts_cons (ringing_foot (T := 0x20010001) hq (compsEnd_foot rfl) rfl rfl rfl)
          (takes_acts_cons (takes_actIf fun _ => timetableBuild_ringing) timetableSwap_ringing)))

/-! ### The edge (Table 2.8) -/

/-- Step 1 of the edge: the generator of the next bell. -/
theorem edgeBegin_ringing (hq : sparesMessages q) (n : Nat) (change : Bool) (e : EdgeIn) :
    (edgeBegin n change e).Takes (State.Ringing g q b) (State.Ringing (g.nextBell n change e).generator q b) :=
  takes_acts_cons (ringing_foot (T := 0x30000401) hq (mgtLoad_foot _ rfl) rfl rfl rfl)
    (takes_acts_cons (ringing_tts fun t ht => (nextBell_generator n change e t).trans (by rw [ht]))
      (ringing_foot (T := 0x20000001) hq (by simp) rfl rfl rfl))

/-- What a commit of registers does to the seats: tables and ranges. -/
theorem registersCommit_ringing (list : List (Nat × Word)) :
    (registersCommit list).Takes (State.Ringing g Seats.budgetNext b) (State.Ringing g Seats.budgetNext b) := by
  have hseats : ∀ f : Seats → Seats, (∀ t, (f t).budgetNext = t.budgetNext) →
      (Act.eff (.seats f)).Takes (State.Ringing g Seats.budgetNext b) (State.Ringing g Seats.budgetNext b) := fun f hf =>
    takes_eff rfl fun s ⟨hc, hs, hg, hb⟩ => ⟨calm_soft (e := .seats f) rfl hc, hs, hg, (hf _).trans hb⟩
  have hfld : ∀ off lo w x, (setFld off lo w x).Takes (State.Ringing g Seats.budgetNext b) (State.Ringing g Seats.budgetNext b) := fun off lo w x =>
    ringing_foot (T := 0x20000001) budgetNext_sparesMessages (setFld_foot off lo w x rfl) rfl rfl rfl
  refine takes_acts_cons (takes_each fun x _ => ringing_foot (T := 0x4) budgetNext_sparesMessages (by simp) rfl rfl rfl)
    (takes_acts_cons (hseats _ fun _ => rfl) (takes_acts_cons ?_ (ringing_foot (T := 0x310FFE19) budgetNext_sparesMessages (ringsLost_foot rfl) rfl rfl rfl)))
  exact takes_ask fun s _ => takes_acts_cons (takes_actIf fun _ => hseats _ fun _ => rfl)
    (takes_each fun p _ => takes_acts_cons (hfld _ _ _ _) (hfld _ _ _ _))

/-- The commit point puts the budgets of the next edge in force (R95). -/
theorem commitPoint_ringing (hr : g.running = true) (n : Nat) :
    (commitPoint n).Takes (State.Ringing g Seats.budgetNext b) (State.Ringing g Seats.budget b) := by
  have hput : (Act.eff (.seats fun t => { t with budget := t.budgetNext })).Takes (State.Ringing g Seats.budgetNext b) (State.Ringing g Seats.budget b) :=
    takes_eff rfl fun s ⟨hc, hs, hg, hb⟩ => ⟨calm_soft (e := .seats _) rfl hc, hs, hg, hb⟩
  have hsample : (Act.eff (.tts fun t => { t with sampled := t.sync })).Takes (State.Ringing g Seats.budget b) (State.Ringing g Seats.budget b) :=
    ringing_tts fun _ h => h
  refine takes_ask fun s _ => ?_
  dsimp only
  generalize (if s.commitDue then s.commitList else []) = list
  refine ringing_step hr (takes_actIf fun _ => registersCommit_ringing list) ?_
  refine ringing_steps_append (xs := [_, _, _, _, _, _, _, _, _]) (fun a ha => bookkeeping_ringing budgetNext_sparesMessages ?_) (ringing_step hr hput ?_)
  · revert a
    simp (decide := true) [bookkeeping]
  refine ringing_steps_append (xs := [_, _]) (fun a ha => bookkeeping_ringing budget_sparesMessages ?_) (ringing_step hr hsample ?_)
  · revert a
    simp (decide := true) [bookkeeping]
  exact ringing_steps fun a ha => bookkeeping_ringing budget_sparesMessages (by revert a; simp (decide := true) [bookkeeping])

/-- The generator that the edge of a bell leaves. -/
def State.nextGenerator (s : State) (e : EdgeIn) : Tts := (s.tts.generator.nextBell (s.tts.bell + 1) (s.changeDue (s.tts.bell + 1)) e).generator

/-- What every edge does to the generator, with a change of the bell or without: the count advances, period 0 begins one bell length after the last
edge, the PTM times are those of the edge. -/
structure EdgeOf (t t' : Tts) (e : EdgeIn) : Prop where
  bell : t'.bell = t.bell + 1
  period : t'.period = 0
  edgeAt : t'.edgeAt = t.edgeAt + t.len
  running : t'.running = t.running
  ptm : t'.ptm = (List.range 4).map fun p => e.ptm.getD p 0

theorem nextGenerator_edge (s : State) (e : EdgeIn) : EdgeOf s.tts (s.nextGenerator e) e := by
  unfold State.nextGenerator
  cases s.changeDue (s.tts.bell + 1) <;> exact ⟨rfl, rfl, rfl, rfl, rfl⟩

/-- The edge sequence: the generator of the next bell, and the budgets set during the bell that ended. -/
theorem edgeSequence_run {s : State} (hl : s.live) (hc : s.calm) (hr : s.tts.running = true) (e : EdgeIn) :
    (runAct (edgeSequence e) s).tts.generator = s.nextGenerator e ∧ (runAct (edgeSequence e) s).seats.budget = s.seats.budgetNext := by
  have hrun : (s.nextGenerator e).running = true := (nextGenerator_edge s e).running.trans hr
  have hstart : State.Ringing s.tts.generator Seats.budgetNext s.seats.budgetNext s := ⟨hc, hl.1, rfl, rfl⟩
  suffices h : (edgeSequence e).Takes (· = s) (State.Ringing (s.nextGenerator e) Seats.budget s.seats.budgetNext) by
    obtain ⟨-, -, hg, hb⟩ := h.run rfl
    exact ⟨hg, hb⟩
  refine takes_ask fun s' hs' => ?_
  subst hs'
  refine Act.Takes.weaken (J := State.Ringing s'.tts.generator Seats.budgetNext s'.seats.budgetNext) ?_ (fun t ht => ht ▸ hstart) fun _ h => h
  have hq := budgetNext_sparesMessages
  refine ringing_step hr (bellClose_ringing hq) ?_
  refine ringing_steps_append (xs := [_, _]) (fun a ha => bookkeeping_ringing hq ?_) ?_
  · revert a
    simp (decide := true) [bookkeeping]
  refine ringing_step hr (edgeBegin_ringing hq _ _ e) (ringing_step hrun (commitPoint_ringing hrun _) ?_)
  refine ringing_steps_append (xs := [_, _, _]) (fun a ha => bookkeeping_ringing budget_sparesMessages ?_) ?_
  · revert a
    simp (decide := true) [bookkeeping]
  refine ringing_step hrun timetableActivate_ringing (ringing_steps fun a ha => bookkeeping_ringing budget_sparesMessages ?_)
  revert a
  simp (decide := true) [bookkeeping]

/-! ### The start of a period (R66) -/

/-- The period counter advances; the generator is as it was. -/
theorem periodNext_run {s : State} (hl : s.live) (hc : s.calm) (hr : s.tts.running = true) (e : PeriodIn) :
    (runAct (periodNext e) s).tts.generator = { s.tts.generator with period := s.tts.period + 1 } := by
  have hq := budget_sparesMessages
  have hstart : State.Ringing s.tts.generator Seats.budget s.seats.budget s := ⟨hc, hl.1, rfl, rfl⟩
  suffices h : (periodNext e).Takes (· = s) (State.Ringing { s.tts.generator with period := s.tts.period + 1 } Seats.budget s.seats.budget) by
    obtain ⟨-, -, hg, -⟩ := h.run rfl
    exact hg
  refine takes_ask fun s' hs' => ?_
  subst hs'
  refine Act.Takes.weaken (J := State.Ringing s'.tts.generator Seats.budget s'.seats.budget) ?_ (fun t ht => ht ▸ hstart) fun _ h => h
  refine ringing_step hr (ringing_tts (g' := { s'.tts.generator with period := s'.tts.period + 1 }) fun t ht => by rw [← ht]; rfl) ?_
  refine ringing_steps_append (xs := [_, _]) (fun a ha => ?_) (ringing_steps fun a ha => bookkeeping_ringing hq ?_)
  · simp only [List.mem_cons, List.not_mem_nil, or_false] at ha
    rcases ha with rfl | rfl
    · exact takes_actIf fun _ => timetableBuild_ringing
    · exact takes_actIf fun _ => timetableSwap_ringing
  · revert a
    simp (decide := true) [bookkeeping]

/-! ### The length of a bell (R45) -/

/-- Without a change of the bell the generator of the next bell is that of its edge. -/
theorem nextGenerator_steady {s : State} (h : s.tts.held = none) (e : EdgeIn) :
    s.nextGenerator e = ({ s.tts.generator.beginBell (s.tts.bell + 1) with ptm := (List.range 4).map fun p => e.ptm.getD p 0 } : Tts).generator := by
  have hc : s.changeDue (s.tts.bell + 1) = false := by simp [State.changeDue, h]
  rw [State.nextGenerator, hc]
  rfl

/-- Out of HOLDOVER a bell takes the whole cycles that rate and remainder give, and carries the rest on. -/
theorem lenNext_law {t : Tts} (hl : t.lock ≠ .holdover) (hn : 0 < t.cur.num) :
    t.lenNext.1 * t.cur.num + t.lenNext.2 = fabricHz * t.cur.den + t.acc ∧ t.lenNext.2 < t.cur.num := by
  have hm : max 1 t.cur.num = t.cur.num := by omega
  have he : t.lenNext = ((fabricHz * t.cur.den + t.acc) / t.cur.num, (fabricHz * t.cur.den + t.acc) % t.cur.num) := by
    unfold Tts.lenNext
    rw [hm]
    split
    next h _ => exact absurd h hl
    next => rfl
  rw [he]
  exact ⟨Nat.div_add_mod' _ _, Nat.mod_lt _ hn⟩

/-- With nothing to slew or to stretch the bell has that length. -/
theorem beginBell_len {t : Tts} (hs : t.slew = 0) (hj : t.jump = 0) (n : Nat) : (t.beginBell n).len = t.lenNext.1 := by
  have h0 : t.slewStep = 0 := by rw [Tts.slewStep, hs]; omega
  simp [Tts.beginBell, h0, hj]

/-- Settles O24: the edge and the start of a period do to the generator what `nextGenerator` and the period counter say; every other step leaves it. -/
theorem bellAdvances : Obligations.BellAdvances := by
  refine ⟨fun e s hl hc hr => ?_, fun e s hl hc hr hh hs hj hk hn => ?_, fun e s hl hc hr hp => ?_⟩
  · obtain ⟨hg, hb⟩ := edgeSequence_run hl hc hr e
    have he := nextGenerator_edge s e
    exact ⟨_, live_next hl hr _, (congrArg Tts.bell hg).trans he.bell, (congrArg Tts.period hg).trans he.period, (congrArg Tts.edgeAt hg).trans he.edgeAt,
      (congrArg Tts.running hg).trans (he.running.trans hr), (congrArg Tts.ptm hg).trans he.ptm, hb⟩
  · have hg := (edgeSequence_run hl hc hr e).1.trans (nextGenerator_steady hh e)
    obtain ⟨hlaw, hacc⟩ := lenNext_law (t := s.tts.generator) hk hn
    have hlen : (runAct (edgeSequence e) s).tts.len = s.tts.generator.lenNext.1 :=
      (congrArg Tts.len hg).trans (beginBell_len (t := s.tts.generator) hs hj (s.tts.bell + 1))
    have hblank := (congrArg Tts.blankTo hg).trans (if_pos hj)
    have hcarry : (runAct (edgeSequence e) s).tts.acc = s.tts.generator.lenNext.2 := congrArg Tts.acc hg
    refine ⟨_, live_next hl hr _, ?_, hcarry ▸ hacc, (congrArg Tts.cur hg :), (congrArg Tts.lock hg :), hblank⟩
    rw [hlen, hcarry]
    exact hlaw
  · have hg := periodNext_run hl hc hr e
    exact ⟨_, live_next hl (by simp [hr, hp]) _, (congrArg Tts.period hg :), (congrArg Tts.bell hg :),
      (congrArg Tts.edgeAt hg :), (congrArg Tts.len hg :), (congrArg Tts.cur hg :)⟩

end Sys2Proof.Machine
end

section
/-!
SUPPORT. A decision: the command that it takes up, its verdict, and what its acceptance leaves of what the answers to the seat spare.
-/

namespace Sys2Proof.Machine

/-! ### Which command is decided -/

/-- The commands that decide a packet are decisions of the next command. -/
theorem exec_decision {i : Instr} {f : Cmd → Bool} {h : HostAns} (hd : decisionOf i = some (f, h)) (s : State) : exec i s = live true (decideOp f h) s := by
  unfold decisionOf at hd
  split at hd <;> cases hd <;> rfl

variable {s : State} {i : Instr} {c : Cmd} {h : HostAns}

/-- Where a command decides, the whole step is the decision of the packet at the front. -/
theorem decides_next (hd : s.decides i c h) : exec i s = .next (runAct (decideCmd c h) s) := by
  obtain ⟨hl, -, -, hn, hm, ha, -, -, -, f, hf, hfc⟩ := hd
  rw [exec_decision hf, live_next hl rfl]
  simp [decideOp, hn, hm, ha, hfc]

/-- A packet is decided by a command of its kind. -/
theorem decides_kind {f : Cmd → Bool} (hd : s.decides i c h) (hf : decisionOf i = some (f, h)) : f c = true := by
  obtain ⟨-, -, -, -, -, -, -, -, -, g, hg, hgc⟩ := hd
  rw [hf] at hg
  obtain ⟨rfl, -⟩ := Prod.mk.inj (Option.some.inj hg)
  exact hgc

/-! ### States in form -/

/-- A state in form in which no fault in passing cuts a step short. -/
def State.Sound (s : State) : Prop := s.calm ∧ s.wf = true

theorem decides_sound (hd : s.decides i c h) : s.Sound := ⟨hd.2.1, hd.2.2.1⟩

/-- Soft programs leave states sound. -/
theorem sound_foot {T : Nat} {a : Act} (ha : a.Foot (In T)) (hT : softClass T = true) : a.Takes State.Sound State.Sound :=
  takes_of_foot ha (fun _ h => h.1) (fun _ he => in_soft hT he) fun e s he h => ⟨calm_soft (in_soft hT he) h.1, applyEff_wf e s h.2⟩

/-- What two arguments say of a program. -/
theorem Act.Takes.and {J J' : State → Prop} {a : Act} (h : a.Takes J J) (h' : a.Takes J' J') : a.Takes (fun s => J s ∧ J' s) fun s => J s ∧ J' s :=
  fun s hs => ⟨(h s hs.1).1, (h s hs.1).2, (h' s hs.2).2⟩

/-! ### Acceptance -/

/-- What accepting a command comes to: its own act, then the answers to the seat and what follows every decision. -/
theorem decide_hold {K : State → Prop} {act : Act} (hs : s.Sound) (hv : (judge s c h).v = .hold act) (hact : act.Takes State.Sound K)
    (hstatus : (statusPut c.id stAccepted).Takes K K) (hreply : ∀ w, (replyPut c.seat c.ring w 0 c.mute).Takes K K)
    (hafter : (afterDecision c.seat).Takes K K) : K (runAct (decideCmd c h) s) := by
  suffices ht : (decideCmd c h).Takes (· = s) K from ht.run rfl
  refine takes_ask fun s' hs' => ?_
  subst hs'
  have hbegin : (Act.eff (.adm fun a => { a with decisions := a.decisions + 1 })).Takes (· = s') State.Sound := by
    refine (sound_foot (T := 0x10000400) ?_ rfl).weaken (fun t ht => ht ▸ hs) fun _ h => h
    simp
  have hreads := sound_foot (judge_judged s' c h).1 rfl
  have hmark : (cmdUpd c.id fun c => { c with stage := .accepted, reserved := 1 }).Takes State.Sound State.Sound :=
    sound_foot (T := 0x800200) (cmdUpd_wild _ _ rfl) rfl
  have haccept : (acceptAct c 0 act).Takes State.Sound K :=
    takes_acts_cons hmark (takes_acts_cons hact (takes_acts_cons hstatus (takes_ask fun _ _ => hreply _)))
  dsimp only
  rw [hv]
  exact takes_acts_cons hbegin (takes_acts_cons hreads (takes_acts_cons haccept hafter))

/-! ### Judgements that accept by holding a command -/

/-- A judgement that does not reject holds the command, with an act of which `Q` holds. -/
def Judged.Holds (Q : Act → Prop) (j : Judged) : Prop := (∀ r, j.v ≠ .reject r) → ∃ a, j.v = .hold a ∧ Q a

variable {Q : Act → Prop}

theorem holds_reject {a : Act} {r : Reject} : (Judged.mk a (.reject r)).Holds Q := fun hn => absurd rfl (hn r)
theorem holds_rej (a b k : Nat) : (rej a b k).Holds Q := holds_reject
theorem holds_rejParam : rejParam.Holds Q := holds_reject
theorem holds_rejLength : rejLength.Holds Q := holds_reject
theorem holds_rejWindow : rejWindow.Holds Q := holds_reject
theorem holds_hold {a : Act} (hq : Q a) : (ok (.hold a)).Holds Q := fun _ => ⟨a, rfl, hq⟩

theorem holds_check {b : Bool} {r k : Judged} (hr : r.Holds Q) (hk : k.Holds Q) : (check b r k).Holds Q := by
  cases b
  · exact hr
  · exact hk
theorem holds_engineCheck {k : Judged} (hk : k.Holds Q) : (engineCheck s c k).Holds Q := holds_check (holds_rej _ _ _) hk
theorem holds_ownCheck {owned secure : Bool} {k : Judged} (hk : k.Holds Q) : (ownCheck owned secure k).Holds Q :=
  holds_check (holds_rej _ _ _) (holds_check holds_rejParam hk)
theorem holds_quotaCheck {seat : Nat} {l : List (Nat × Nat)} {k : Judged} (hk : k.Holds Q) : (quotaCheck s seat l k).Holds Q :=
  holds_check (holds_rej _ _ _) (holds_check (holds_rej _ _ _) hk)

theorem holds_readThen {seat a len : Nat} {k : List Byte → Judged} (hk : ∀ bs, (k bs).Holds Q) : (readThen s seat a len h k).Holds Q := by
  unfold readThen
  split
  · exact holds_rejWindow
  · dsimp only
    split
    · exact holds_reject
    · split
      · exact holds_reject
      · exact hk _

theorem holds_readCurves {k : List (List Nat) → Judged} (hk : ∀ l, (k l).Holds Q) (is : List Nat) (acc : List (List Nat)) :
    (readCurves s c h is acc k).Holds Q := by
  induction is generalizing acc with
  | nil => exact hk _
  | cons i is ih =>
    unfold readCurves
    split
    · exact ih _
    · exact holds_readThen fun _ => ih _

end Sys2Proof.Machine
end

section
/-!
PROOFS. Pictures (O47): composer sets and flips that are accepted wait with their words (R301, R302, R304, R325).
-/

namespace Sys2Proof.Machine

variable {s : State} {i : Instr} {c : Cmd} {h : HostAns}

/-! ### What the judgements hold -/

theorem judgeCanvas_holds : (judgeCanvas s c h).Holds fun a => ∃ plan curves,
    a = acts [bufTake plan, poolFree, setAccept c true (fw c.words 1 0 5) (fb c.words 1 7) curves] := by
  refine holds_check holds_rejLength (holds_check holds_rejParam (holds_engineCheck (holds_ownCheck (holds_readCurves (fun curves => ?_) _ _))))
  refine holds_check holds_rejParam ?_
  split
  next => exact holds_rej _ _ _
  next plan _ =>
    refine holds_check (holds_rej _ _ _) ?_
    split
    next => exact holds_rej _ _ _
    next => exact holds_hold ⟨plan, curves, rfl⟩

theorem judgeLayer_holds : (judgeLayer s c).Holds fun a => ∃ b,
    a = acts [actIf b (flipsSquash [fw c.words 1 0 9]), setAccept c false (fw c.words 1 0 9) (fb c.words 1 15) []] := by
  refine holds_check holds_rejParam (holds_engineCheck (holds_ownCheck (holds_check holds_rejWindow ?_)))
  split
  next => exact holds_rej _ _ _
  next => exact holds_hold ⟨_, rfl⟩

/-- A flip that waits. -/
def Cmd.flip (c : Cmd) : PendFlip := { cmd := c.id, seat := c.seat, items := flipItems c, fence := flipFence c }

theorem judgeFlip_holds : (judgeFlip s c).Holds fun a =>
    a = acts [flipsSquash ((flipItems c).map Prod.fst), .eff (.pic fun p => { p with flips := p.flips ++ [c.flip] })] :=
  holds_check holds_rejLength (holds_check holds_rejParam (holds_engineCheck (holds_ownCheck (holds_check (holds_rej _ _ _)
    (holds_check holds_rejWindow (holds_hold rfl))))))

/-! ### What waits is kept by the answers to the seat -/

/-- A calm state of whose pictures `P` holds. -/
def State.Showing (P : Pic → Prop) (s : State) : Prop := s.calm ∧ P s.pic

variable {P P' : Pic → Prop}

/-- A program that leaves the pictures alone. -/
theorem showing_foot {T : Nat} {a : Act} (ha : a.Foot (In T)) (hT : softClass T = true) (hp : Part.spared T .pic = true) :
    a.Takes (State.Showing P) (State.Showing P) :=
  takes_of_foot ha (fun _ h => h.1) (fun _ he => in_soft hT he) fun e s he ⟨hc, hs⟩ => by
    have hsame : (applyEff e s).pic = s.pic := eff_same he (in_soft hT he) hp s
    exact ⟨calm_soft (in_soft hT he) hc, hsame ▸ hs⟩

/-- A program that may change them, where nothing is said of them. -/
theorem showing_any {T : Nat} {a : Act} (ha : a.Foot (In T)) (hT : softClass T = true) :
    a.Takes (State.Showing fun _ => True) (State.Showing fun _ => True) :=
  takes_of_foot ha (fun _ h => h.1) (fun _ he => in_soft hT he) fun _ _ he h => ⟨calm_soft (in_soft hT he) h.1, trivial⟩

/-- A change of the pictures. -/
theorem showing_pic {f : Pic → Pic} (hf : ∀ p, P p → P' (f p)) : (Act.eff (.pic f)).Takes (State.Showing P) (State.Showing P') :=
  takes_eff rfl fun _ ⟨hc, hp⟩ => ⟨calm_soft (e := .pic f) rfl hc, hf _ hp⟩

/-- What an accepted command puts among the pictures is there when its decision is done. -/
theorem decide_showing {act : Act} (hd : s.decides i c h) (hv : (judge s c h).v = .hold act)
    (hact : act.Takes (State.Showing fun _ => True) (State.Showing P)) : ∃ t, exec i s = .next t ∧ P t.pic :=
  ⟨_, decides_next hd, (decide_hold (decides_sound hd) hv (hact.weaken (fun _ hs => ⟨hs.1, trivial⟩) fun _ hk => hk)
    (showing_foot (T := 0x8BA19) (statusPut_foot _ _ rfl) rfl rfl)
    (fun _ => showing_foot (T := 0x8B819) (replyPut_foot _ _ _ _ _ rfl) rfl rfl)
    (showing_foot (T := 0x20020601) (afterDecision_foot _ rfl) rfl rfl)).2⟩

/-! ### Sets (R301, R302) -/

/-- A set of a command waits, with its words and held back where it chains. -/
def Cmd.setWaits (c : Cmd) (canvas : Bool) (idx : Nat) (held : Bool) (p : Pic) : Prop :=
  ∃ x ∈ p.sets, x.cmd = c.id ∧ x.canvas = canvas ∧ x.idx = idx ∧ x.words = c.words ∧ x.held = held

theorem setAccept_showing (canvas : Bool) (idx : Nat) (chain : Bool) (curves : List (List Nat)) :
    (setAccept c canvas idx chain curves).Takes (State.Showing P) (State.Showing (c.setWaits canvas idx chain)) :=
  showing_pic fun _ _ => ⟨_, List.mem_append_right _ (List.mem_singleton_self _), rfl, rfl, rfl, rfl, rfl⟩

theorem canvasSet_waits (hd : s.decides .cmpCanvasSet c .ok) (hn : ∀ r, (judge s c .ok).v ≠ .reject r) :
    ∃ t, exec .cmpCanvasSet s = .next t ∧ c.setWaits true (fw c.words 1 0 5) (fb c.words 1 7) t.pic := by
  have hop : c.op = 0x0400 := by simpa using decides_kind hd rfl
  have hj : judge s c .ok = judgeCanvas s c .ok := by simp [judge, hop]
  obtain ⟨_, hv, plan, curves, rfl⟩ := judgeCanvas_holds (hj ▸ hn)
  exact decide_showing hd (hj ▸ hv) (takes_acts_cons (showing_any (T := 0x9B819) (bufTake_foot plan rfl) rfl)
    (takes_acts_cons (showing_any (T := 0x20000001) (poolFree_foot rfl) rfl) (setAccept_showing _ _ _ _)))

/-! ### Flips (R304, R325) -/

/-- No flip of the layers is pending. -/
def noFlips (layers : List Nat) (p : Pic) : Prop := ∀ x ∈ p.flips, ∀ y ∈ x.items, y.1 ∉ layers

theorem flipsSquash_showing (layers : List Nat) : (flipsSquash layers).Takes (State.Showing fun _ => True) (State.Showing (noFlips layers)) := by
  refine takes_ask fun s _ => takes_acts_cons (showing_pic fun p _ x hx y hy hl => ?_)
    (takes_each fun x _ => showing_foot (T := 0x600) (by simp) rfl rfl)
  have hk := (List.mem_filter.mp hx).2
  simp only [Bool.not_eq_true', List.any_eq_false, List.contains_eq_mem, decide_eq_true_eq] at hk
  exact hk y hy hl

theorem layerSet_waits (hd : s.decides .cmpLayerSet c .ok) (hn : ∀ r, (judge s c .ok).v ≠ .reject r) :
    ∃ t, exec .cmpLayerSet s = .next t ∧ c.setWaits false (fw c.words 1 0 9) (fb c.words 1 15) t.pic := by
  have hop : c.op = 0x0401 := by simpa using decides_kind hd rfl
  have hj : judge s c .ok = judgeLayer s c := by simp [judge, hop]
  obtain ⟨_, hv, b, rfl⟩ := judgeLayer_holds (hj ▸ hn)
  have hsquash : (actIf b (flipsSquash [fw c.words 1 0 9])).Takes (State.Showing fun _ => True) (State.Showing fun _ => True) :=
    takes_actIf fun _ => (flipsSquash_showing _).weaken (fun _ h => h) fun _ h => ⟨h.1, trivial⟩
  exact decide_showing hd (hj ▸ hv) (takes_acts_cons hsquash (setAccept_showing _ _ _ _))

/-- A flip of a command waits, and every other that waits is of other layers. -/
def Cmd.flipWaits (c : Cmd) (p : Pic) : Prop :=
  (∃ x ∈ p.flips, x.cmd = c.id ∧ x.items = flipItems c ∧ x.fence = flipFence c)
    ∧ ∀ x ∈ p.flips, x.cmd ≠ c.id → ∀ y ∈ x.items, y.1 ∉ (flipItems c).map Prod.fst

theorem flip_showing : (Act.eff (.pic fun p => { p with flips := p.flips ++ [c.flip] })).Takes
    (State.Showing (noFlips ((flipItems c).map Prod.fst))) (State.Showing c.flipWaits) := by
  refine showing_pic fun p hp => ⟨⟨c.flip, List.mem_append_right _ (List.mem_singleton_self _), rfl, rfl, rfl⟩, fun x hx hne => ?_⟩
  rcases List.mem_append.mp hx with hx | hx
  · exact hp x hx
  · exact absurd (congrArg PendFlip.cmd (List.mem_singleton.mp hx)) hne

theorem flip_waits (hi : i = .cmpFlip ∨ i = .cmpFlipGroup) (hd : s.decides i c .ok) (hn : ∀ r, (judge s c .ok).v ≠ .reject r) :
    ∃ t, exec i s = .next t ∧ c.flipWaits t.pic := by
  have hj : judge s c .ok = judgeFlip s c := by
    rcases hi with rfl | rfl
    · have hop : c.op = 0x0402 := by simpa using decides_kind hd rfl
      simp [judge, hop]
    · have hop : c.op = 0x0403 := by simpa using decides_kind hd rfl
      simp [judge, hop]
  obtain ⟨_, hv, rfl⟩ := judgeFlip_holds (hj ▸ hn)
  exact decide_showing hd (hj ▸ hv) (takes_acts_cons (flipsSquash_showing _) flip_showing)

end Sys2Proof.Machine
end

section
/-!
PROOFS. Check-value units (O47): a unit that a command has attached, or whose detach a command awaits, keeps what it holds while the seat is answered
(R554, R559). The answers may feed the unit with their bytes; nothing else of it changes.
-/

namespace Sys2Proof.Machine

/-- A unit but for the bytes fed to it. -/
def ChkUnit.holding (x : ChkUnit) : ChkUnit := { x with run := 0, fed := 0 }

/-- A sound state in which a unit is `a` but for the bytes fed to it. -/
def State.Keeping (u : Nat) (a : ChkUnit) (s : State) : Prop := s.Sound ∧ (s.chkU u).holding = a

variable {s : State} {i : Instr} {c : Cmd} {h : HostAns} {u : Nat} {a : ChkUnit}

/-! ### What may change a unit -/

/-- A program that leaves the units alone. -/
theorem keeping_foot {T : Nat} {x : Act} (hx : x.Foot (In T)) (hT : softClass T = true) (hp : Part.spared T .chk = true) :
    x.Takes (State.Keeping u a) (State.Keeping u a) :=
  takes_of_foot hx (fun _ h => h.1.1) (fun _ he => in_soft hT he) fun e s he ⟨⟨hc, hw⟩, ha⟩ => by
    have hsame : (applyEff e s).chk = s.chk := eff_same he (in_soft hT he) hp s
    refine ⟨⟨calm_soft (in_soft hT he) hc, applyEff_wf e s hw⟩, ?_⟩
    rw [State.chkU, hsame]
    exact ha

theorem State.wf_chk (hw : s.wf = true) : mapWf chkIdle s.chk = true := by
  simp only [State.wf, Bool.and_eq_true] at hw
  exact hw.2

/-- A unit that is set. -/
theorem chkU_put (hw : s.wf = true) (k : Nat) (v : ChkUnit) : (applyEff (.chk k v) s).chkU k = v :=
  mapGet_put_wf chkIdle k v s.chk (State.wf_chk hw)

theorem chkU_put_ne {k : Nat} (hk : u ≠ k) (v : ChkUnit) : (applyEff (.chk k v) s).chkU u = s.chkU u := mapGet_put_ne chkIdle hk v s.chk

/-- In canonical form a key has one entry. -/
theorem mapGet_of_mem {α : Type} [DecidableEq α] (d : Nat → α) {b k : Nat} {v : α} {m : List (Nat × α)} (hm : mapAbove d b m = true) (h : (k, v) ∈ m) :
    b ≤ k ∧ mapGet d k m = v := by
  induction m generalizing b with
  | nil => exact absurd h List.not_mem_nil
  | cons e m ih =>
    obtain ⟨k', v'⟩ := e
    simp only [mapAbove, Bool.and_eq_true, decide_eq_true_eq] at hm
    obtain ⟨⟨hb, -⟩, hrest⟩ := hm
    rcases List.mem_cons.mp h with heq | htail
    · cases heq
      exact ⟨hb, if_pos rfl⟩
    · obtain ⟨hle, hget⟩ := ih hrest htail
      exact ⟨by omega, (if_neg (by omega)).trans hget⟩

/-- Setting a unit keeps what unit `u` holds, if it is another unit or one that holds the same. -/
theorem keeping_chk {k : Nat} {v : ChkUnit} (hv : k = u → v.holding = a) : (Act.eff (.chk k v)).Takes (State.Keeping u a) (State.Keeping u a) :=
  takes_eff rfl fun s ⟨⟨hc, hw⟩, ha⟩ => by
    refine ⟨⟨calm_soft (e := .chk k v) rfl hc, applyEff_wf _ s hw⟩, ?_⟩
    by_cases hk : u = k
    · subst hk
      rw [chkU_put hw]
      exact hv rfl
    · rw [chkU_put_ne hk]
      exact ha

/-! ### Writes to memory and the areas of a seat -/

theorem chkFeed_keeping (src : Nat) (secure : Bool) (bs : List Byte) : (chkFeed src secure bs).Takes (State.Keeping u a) (State.Keeping u a) :=
  takes_ask fun s ⟨⟨_, hw⟩, ha⟩ => takes_each fun x hx => keeping_chk fun hk => by
    have hget : s.chkU u = x.2 := hk ▸ (mapGet_of_mem chkIdle (State.wf_chk hw) (List.mem_filter.mp hx).1).2
    rw [← ha, hget]
    rfl

/-- What a write does but feed the units. -/
def writing : Nat := 0x83A19

theorem writing_keeping {x : Act} (hx : x.Foot (In writing)) : x.Takes (State.Keeping u a) (State.Keeping u a) := keeping_foot hx rfl rfl

theorem devWrite_keeping (s : State) (q : Req) (addr : Nat) (bs : List Byte) : (devWrite s q addr bs).act.Takes (State.Keeping u a) (State.Keeping u a) := by
  have hunmapped : (raiseSrc stRgnMem 2 0 q.seat).Takes (State.Keeping u a) (State.Keeping u a) :=
    writing_keeping (raiseSrc_plain rfl (by decide) rfl _ _ rfl)
  have hcarved : (raiseSrc stDmc 11 (s.dramChannel addr) q.seat).Takes (State.Keeping u a) (State.Keeping u a) :=
    writing_keeping (raiseSrc_plain rfl (by decide) rfl _ _ rfl)
  unfold devWrite
  dsimp only
  split
  · exact hunmapped
  · split
    · exact hcarved
    · split
      · exact writing_keeping (guardViolation_foot _ _ _ rfl)
      · exact takes_acts_cons (takes_each fun _ _ => writing_keeping (storeWord_foot _ _ _ _ _ rfl)) (takes_actIf fun _ => chkFeed_keeping _ _ _)

theorem dirtyLog_keeping (seat : Nat) (pl : Place) (addr len : Nat) : (dirtyLog seat pl addr len).Takes (State.Keeping u a) (State.Keeping u a) :=
  takes_ask fun _ _ => takes_ite (fun _ => takes_skip) fun _ => takes_each fun _ _ => takes_ask fun _ _ =>
    takes_ite (fun _ => writing_keeping (setFld_high _ _ _ _ (.inl (high_dirtyLogBase _)) rfl)) fun _ => devWrite_keeping _ _ _ _

theorem seatWrite_keeping (s : State) (seat addr : Nat) (bs : List Byte) (h : HostAns) :
    (seatWrite s stCfe seat addr bs h).act.Takes (State.Keeping u a) (State.Keeping u a) := by
  have hmiss : ∀ len, (missOut stCfe seat len).act.Takes (State.Keeping u a) (State.Keeping u a) := fun len =>
    writing_keeping (missOut_plain rfl (by decide) _ _ rfl)
  unfold seatWrite
  split
  · exact hmiss _
  · split
    · split
      · exact hmiss _
      · exact takes_acts_cons (dirtyLog_keeping _ _ _ _) (writing_keeping (by simp [writing]))
    · exact devWrite_keeping _ _ _ _

theorem areaStore_keeping (seat addr : Nat) (bs : List Byte) (noHost : Bool) :
    (areaStore seat addr bs noHost).Takes (State.Keeping u a) (State.Keeping u a) := by
  refine takes_ask fun _ _ => ?_
  split
  · exact takes_skip
  · refine takes_ite (fun _ => takes_skip) fun _ => takes_ask fun _ _ => ?_
    exact takes_acts_cons (seatWrite_keeping _ _ _ _ _) (takes_actIf fun _ => takes_ask fun _ _ => seatWrite_keeping _ _ _ _ _)

theorem replyPut_keeping (seat ring w0 w1 : Nat) (noHost : Bool) : (replyPut seat ring w0 w1 noHost).Takes (State.Keeping u a) (State.Keeping u a) :=
  takes_ask fun _ _ => takes_acts_cons (areaStore_keeping _ _ _ _)
    (takes_acts_cons (writing_keeping (setFld_high _ _ _ _ (.inl (high_ringPtrs _ _)) rfl))
      (takes_acts_cons (takes_ask fun _ _ => areaStore_keeping _ _ _ _) (takes_actIf fun _ => writing_keeping (irqSet_foot _ _ rfl))))

theorem statusPut_keeping (id state : Nat) : (statusPut id state).Takes (State.Keeping u a) (State.Keeping u a) :=
  takes_onCmd fun _ _ _ => takes_actOpt fun _ _ =>
    takes_acts_cons (writing_keeping (by simp [writing, cfeKeeps_of])) (areaStore_keeping _ _ _ _)

/-! ### Registers that a decision leaves alone -/

/-- The registers that follow a decision: those of queues, capacities and pools, and the seats' states. -/
def decisionReg (off : Nat) : Prop := off < 0x200000 ∨ ∃ n, off = Reg.seatState n

/-- What follows a decision touches no other register. -/
theorem afterDecision_leaves {K : Nat → Prop} (hK : ∀ off, decisionReg off → ¬ K off) (seat : Nat) : (afterDecision seat).Foot (Leaves K) := by
  have hlow : ∀ off, off < 0x200000 → ∀ lo w x, (setFld off lo w x).Foot (Leaves K) := fun off ho lo w x => setFld_leaves (hK off (.inl ho)) lo w x
  have hover : ∀ n, (overUpdate n).Foot (Leaves K) := fun n => .ask fun _ _ => setFld_leaves (hK _ (.inr ⟨n, rfl⟩)) 3 1 _
  have hpools : rndPools.Foot (Leaves K) := by simp [rndPools, hlow Reg.rndPoolFree (by decide)]
  have hsess : ∀ x, (sessSettle x).Foot (Leaves K) := fun x => by simp [sessSettle, sessUpd, sessDrop, cmdEnd_leaves, hover]
  have hprog : ∀ p, (progSettle p).Foot (Leaves K) := fun p => by simp [progSettle, cmdEnd_leaves, hover, hpools]
  have hcores : ∀ q ∈ List.range 16, (coresNowReg q).Foot (Leaves K) := fun q hq =>
    .ask fun _ _ => hlow _ (by have := List.mem_range.mp hq; unfold Reg.rndQueueCfg; omega) _ _ _
  have hcaps : capRegs.Foot (Leaves K) := by
    simp only [capRegs, foot_acts_cons, foot_acts_nil, foot_each, foot_ask, and_true]
    refine ⟨hcores, fun s _ k hk => ⟨hlow _ ?_ _ _ _, hlow _ ?_ _ _ _⟩⟩ <;> have := List.mem_range.mp hk
    · unfold Reg.admCap; omega
    · unfold Reg.admFree; omega
  have hqueue : queueReg.Foot (Leaves K) := by simp [queueReg, hlow Reg.admQueue (by decide)]
  simp [afterDecision, settleAll, hsess, hprog, hcaps, hqueue, hover]

/-- A calm state in which a field of a register has a value. -/
def State.Reading (off lo w v : Nat) (s : State) : Prop := s.calm ∧ s.fld off lo w = v

variable {off lo w v : Nat}

/-- What follows a decision keeps the fields of other registers. -/
theorem afterDecision_reading (ho : ¬ decisionReg off) (seat : Nat) : (afterDecision seat).Takes (State.Reading off lo w v) (State.Reading off lo w v) :=
  takes_of_foot (afterDecision_leaves (K := (· = off)) (fun _ hd he => ho (he ▸ hd)) seat) (fun _ h => h.1) (fun _ he => leaves_soft he)
    fun _ s he ⟨hc, hv⟩ => ⟨calm_soft (leaves_soft he) hc, by rw [State.fld, leaves_rd he rfl s]; exact hv⟩

/-- Answers to a seat keep the fields of the registers below the seats'. -/
theorem reading_low {T : Nat} {x : Act} (hx : x.Foot (In T)) (hT : softClass T = true) (hp : Part.spared T .lowRegisters = true)
    (ho : off < 0x400000) (hf : off ≠ Reg.fltPin) : x.Takes (State.Reading off lo w v) (State.Reading off lo w v) :=
  takes_of_foot hx (fun _ h => h.1) (fun _ he => in_soft hT he) fun e s he ⟨hc, hv⟩ => by
    have hsame : Part.lowRegisters.same s (applyEff e s) := eff_same he (in_soft hT he) hp s
    exact ⟨calm_soft (in_soft hT he) hc, by rw [State.fld, hsame off ho hf]; exact hv⟩

/-! ### CHK_ATTACH (R559, R560) -/

/-- The unit as an attach leaves it. -/
def Cmd.attachment (c : Cmd) : ChkUnit :=
  { chkIdle 0 with att := 2, src := c.chkSrc, poly := c.chkPoly, seat := c.seat, area := c.chkArea, cmd := some c.id }

theorem judgeAttach_holds : (judgeAttach s c).Holds fun x =>
    x = acts [.eff (.chk c.chkUnit c.attachment), setFld (Reg.chkCfg c.chkUnit) 11 10 (1 + c.seat * 2)] :=
  holds_ownCheck (holds_check (holds_rej _ _ _) (holds_check holds_rejParam (holds_quotaCheck (holds_check holds_rejWindow (holds_hold rfl)))))

theorem judgeDetach_holds : (judgeDetach s c).Holds fun x => x = .eff (.chk c.chkUnit { s.chkU c.chkUnit with det := some c.id }) :=
  holds_check holds_rejParam (holds_hold rfl)

/-- A unit that is set holds what it is set to. -/
theorem chk_keeping (v : ChkUnit) : (Act.eff (.chk u v)).Takes State.Sound (State.Keeping u v.holding) :=
  takes_eff rfl fun s ⟨hc, hw⟩ => ⟨⟨calm_soft (e := .chk u v) rfl hc, applyEff_wf _ s hw⟩, congrArg ChkUnit.holding (chkU_put hw u v)⟩

/-- An accepted detach is noted at its unit. -/
theorem chkDetach_noted (hd : s.decides .chkDetach c .ok) (hn : ∀ r, (judge s c .ok).v ≠ .reject r) :
    ∃ t, exec .chkDetach s = .next t ∧ (t.chkU c.chkUnit).det = some c.id := by
  obtain ⟨hop, hdet⟩ : c.op = 0x0210 ∧ c.chkDetach = true := by simpa using decides_kind hd rfl
  have hj : judge s c .ok = engineCheck s c (check (chkAttachOk c) rejParam (judgeDetach s c)) := by simp [judge, hop, judgeChk, hdet]
  obtain ⟨_, hv, rfl⟩ := holds_engineCheck (holds_check holds_rejParam judgeDetach_holds) (hj ▸ hn)
  obtain ⟨-, hk⟩ := decide_hold (decides_sound hd) (hj ▸ hv) (chk_keeping _) (statusPut_keeping _ _) (fun _ => replyPut_keeping _ _ _ _ _)
    (keeping_foot (T := 0x20020601) (afterDecision_foot _ rfl) rfl rfl)
  exact ⟨_, decides_next hd, (congrArg ChkUnit.det hk :)⟩

/-- The configuration register of a unit has the fields that name who holds it. -/
theorem chkCfg_holder {n : Nat} (hn : n < 32) : nBits (regImpl (Reg.chkCfg n) % 2 ^ 64) 11 10 = 2 ^ 10 - 1 := by
  revert n
  decide +kernel

theorem chkUnit_lt : c.chkUnit < 32 := nBits_lt _ _ _

/-- The registers of the units follow no decision and lie below those of the seats. -/
theorem chkCfg_low {n : Nat} (hn : n < 32) : Reg.chkCfg n < 0x400000 ∧ Reg.chkCfg n ≠ Reg.fltPin ∧ ¬ decisionReg (Reg.chkCfg n) := by
  refine ⟨by unfold Reg.chkCfg; omega, by unfold Reg.chkCfg Reg.fltPin; omega, ?_⟩
  rintro (hlow | ⟨k, hk⟩)
  · unfold Reg.chkCfg at hlow; omega
  · unfold Reg.chkCfg Reg.seatState at hk; omega

/-- The holder is entered in the register. -/
theorem holder_reading {n x : Nat} (hn : n < 32) (hx : x < 2 ^ 10) (b : ChkUnit) :
    (setFld (Reg.chkCfg n) 11 10 x).Takes (State.Keeping n b) fun s => State.Keeping n b s ∧ State.Reading (Reg.chkCfg n) 11 10 x s := fun s hs => by
  have hr : reactReg (Reg.chkCfg n) = false := reactReg_low (by have := (chkCfg_low hn).1; omega)
  obtain ⟨hwhole, hkeep⟩ := keeping_foot (u := n) (a := b) (T := 0x20000001) (setFld_foot (Reg.chkCfg n) 11 10 x rfl) rfl rfl s hs
  refine ⟨hwhole, hkeep, hkeep.1.1, ?_⟩
  have hrun : (runGo (setFld (Reg.chkCfg n) 11 10 x) s).1 = s.putFld (Reg.chkCfg n) 11 10 x := setFld_run _ _ _ _ s hr
  rw [hrun, fld_putFld hs.1.2 (by decide) (chkCfg_holder hn), Nat.mod_eq_of_lt hx]

/-- An accepted attach holds its unit. -/
theorem chkAttach_held (hd : s.decides .chkAttach c .ok) (hn : ∀ r, (judge s c .ok).v ≠ .reject r) :
    ∃ t, exec .chkAttach s = .next t ∧ (t.chkU c.chkUnit).holding = c.attachment ∧ t.fld (Reg.chkCfg c.chkUnit) 11 10 = 1 + 2 * c.seat := by
  obtain ⟨hop, hatt⟩ : c.op = 0x0210 ∧ c.chkDetach = false := by simpa using decides_kind hd rfl
  obtain ⟨-, -, -, -, -, -, hseat, -⟩ := id hd
  have hu : c.chkUnit < 32 := chkUnit_lt
  obtain ⟨hlow, hpin, hafter⟩ := chkCfg_low hu
  have hj : judge s c .ok = engineCheck s c (check (chkAttachOk c) rejParam (judgeAttach s c)) := by simp [judge, hop, judgeChk, hatt]
  obtain ⟨_, hv, rfl⟩ := holds_engineCheck (holds_check holds_rejParam judgeAttach_holds) (hj ▸ hn)
  obtain ⟨hk, hr⟩ := decide_hold (decides_sound hd) (hj ▸ hv) (takes_acts_cons (chk_keeping c.attachment) (holder_reading hu (by omega) _))
    (Act.Takes.and (statusPut_keeping _ _) (reading_low (T := 0x8BA19) (statusPut_foot _ _ rfl) rfl rfl hlow hpin))
    (fun _ => Act.Takes.and (replyPut_keeping _ _ _ _ _) (reading_low (T := 0x8B819) (replyPut_foot _ _ _ _ _ rfl) rfl rfl hlow hpin))
    (Act.Takes.and (keeping_foot (T := 0x20020601) (afterDecision_foot _ rfl) rfl rfl) (afterDecision_reading hafter _))
  exact ⟨_, decides_next hd, hk.2, hr.2.trans (by omega)⟩

end Sys2Proof.Machine
end

section
/-!
PROOFS. COMMIT (O47): an accepted COMMIT waits among the outstanding commands, and no reply is written for it yet (R9, R146).
-/

namespace Sys2Proof.Machine

variable {s : State} {c : Cmd}

/-- No session opens or closes and no program is unloaded: nothing settles without an event of its own. -/
def Vid.settled (v : Vid) : Prop := (∀ x ∈ v.sess, x.opening = none ∧ x.closing = none) ∧ ∀ x ∈ v.progs, x.unload = none

/-- A calm state in which nothing settles, whose command front end is `f`. -/
def State.Waiting (f : Cfe) (s : State) : Prop := s.calm ∧ s.vid.settled ∧ s.cfe = f

variable {f : Cfe}

theorem waiting_foot {T : Nat} {x : Act} (hx : x.Foot (In T)) (hT : softClass T = true) (hv : Part.spared T .vid = true) (hf : Part.spared T .cfe = true) :
    x.Takes (State.Waiting f) (State.Waiting f) :=
  takes_of_foot hx (fun _ h => h.1) (fun _ he => in_soft hT he) fun e s he ⟨hc, hq, hs⟩ => by
    have hvid : (applyEff e s).vid = s.vid := eff_same he (in_soft hT he) hv s
    have hcfe : (applyEff e s).cfe = s.cfe := eff_same he (in_soft hT he) hf s
    exact ⟨calm_soft (in_soft hT he) hc, hvid ▸ hq, hcfe.trans hs⟩

theorem settleAll_waiting : settleAll.Takes (State.Waiting f) (State.Waiting f) := by
  have hsess : ∀ x : Session, x.opening = none ∧ x.closing = none → (sessSettle x).Takes (State.Waiting f) (State.Waiting f) := fun x hx => by
    rw [sessSettle, hx.1, hx.2]
    exact takes_acts_cons takes_skip takes_skip
  have hprog : ∀ p : Prog, p.unload = none → (progSettle p).Takes (State.Waiting f) (State.Waiting f) := fun p hp => by
    rw [progSettle, hp]
    exact takes_skip
  exact takes_acts_cons (takes_ask fun _ ⟨_, hq, _⟩ => takes_each fun x hx => hsess x (hq.1 x hx))
    (takes_ask fun _ ⟨_, hq, _⟩ => takes_each fun p hp => hprog p (hq.2 p hp))

theorem afterDecision_waiting (seat : Nat) : (afterDecision seat).Takes (State.Waiting f) (State.Waiting f) :=
  takes_acts_cons settleAll_waiting (takes_acts_cons (waiting_foot (T := 0x20000001) (capRegs_foot rfl) rfl rfl rfl)
    (takes_acts_cons (waiting_foot (T := 0x20000001) (queueReg_foot rfl) rfl rfl rfl) (waiting_foot (T := 0x1) (overUpdate_foot _ rfl) rfl rfl rfl)))

/-- The command front end with a command accepted. -/
def Cfe.accepting (f : Cfe) (id : Nat) : Cfe := { f with cmds := mapIf (fun x => x.id = id) (fun x => { x with stage := .accepted }) f.cmds }

/-- A command that was outstanding is accepted. -/
theorem accepting_mem (hc : c ∈ f.cmds) : { c with stage := .accepted } ∈ (f.accepting c.id).cmds :=
  List.mem_map.mpr ⟨c, hc, if_pos (decide_eq_true rfl)⟩

/-- Reply pointers follow no decision. -/
theorem ringPtrs_quiet (seat : Nat) {ring : Nat} (hr : ring < 8) : ¬ decisionReg (Reg.ringPtrs seat ring) := by
  rintro (hlow | ⟨n, hn⟩)
  · unfold Reg.ringPtrs at hlow; omega
  · unfold Reg.ringPtrs Reg.seatState at hn; omega

theorem judgeCommit_later (hn : ∀ r, (judgeCommit s c).v ≠ .reject r) : judgeCommit s c = ok (.later .skip) := by
  by_cases hs : s.isSup c.seat = true
  · exact if_pos hs
  · exact absurd (congrArg Judged.v (if_neg hs)) (hn _)

/-- A state in which nothing settles, with front end `f`, and the reply pointer of a command's ring at `n`. -/
def Cmd.Unanswered (c : Cmd) (f : Cfe) (n : Nat) (s : State) : Prop := s.Waiting f ∧ s.Reading (Reg.ringPtrs c.seat c.ring) 49 15 n

/-- An accepted COMMIT waits; its reply is not written yet. -/
theorem commit_waits (hd : s.decides .commit c .ok) (hn : ∀ r, (judge s c .ok).v ≠ .reject r) (hq : s.vid.settled) :
    ∃ t, exec .commit s = .next t ∧ t.cfe = s.cfe.accepting c.id ∧ t.replyWr c.seat c.ring = s.replyWr c.seat c.ring := by
  have hop : c.op = 0x0110 := by simpa using decides_kind hd rfl
  have hj : judge s c .ok = judgeCommit s c := by simp [judge, hop]
  have hlater : judge s c .ok = ok (.later .skip) := hj.trans (judgeCommit_later (hj ▸ hn))
  obtain ⟨-, hcalm, -, -, -, -, -, hring, -⟩ := id hd
  suffices h : (decideCmd c .ok).Takes (· = s) (c.Unanswered (s.cfe.accepting c.id) (s.replyWr c.seat c.ring)) by
    obtain ⟨⟨-, -, hcfe⟩, -, hwr⟩ := h.run rfl
    exact ⟨_, decides_next hd, hcfe, hwr⟩
  refine takes_ask fun s' hs' => ?_
  subst hs'
  dsimp only
  rw [hlater]
  have hcount : (Act.eff (.adm fun a => { a with decisions := a.decisions + 1 })).Takes (· = s') (c.Unanswered s'.cfe (s'.replyWr c.seat c.ring)) :=
    takes_eff rfl fun t ht => by
      subst ht
      exact ⟨⟨calm_soft (e := .adm _) rfl hcalm, hq, rfl⟩, calm_soft (e := .adm _) rfl hcalm, rfl⟩
  have hmark : (cmdUpd c.id fun x => { x with stage := .accepted }).Takes (c.Unanswered s'.cfe (s'.replyWr c.seat c.ring))
      (c.Unanswered (s'.cfe.accepting c.id) (s'.replyWr c.seat c.ring)) :=
    takes_eff rfl fun t ⟨⟨hc, hv, hf⟩, _, hw⟩ =>
      ⟨⟨calm_soft (e := .cfe _) rfl hc, hv, congrArg (fun f : Cfe => f.accepting c.id) hf⟩, calm_soft (e := .cfe _) rfl hc, hw⟩
  exact takes_acts_cons hcount (takes_acts_cons takes_skip (takes_acts_cons (takes_acts_cons hmark takes_skip)
    (Act.Takes.and (afterDecision_waiting _) (afterDecision_reading (ringPtrs_quiet _ hring) _))))

/-- Settles O47: each accepted command leaves its set, flip, attachment, detach or place among the outstanding commands, which the answers keep. -/
theorem picturesWait : Obligations.PicturesWait := by
  refine fun c s hn => ⟨fun hd => canvasSet_waits hd hn, fun hd => layerSet_waits hd hn, fun i hi hd => flip_waits hi hd hn, fun hd => ?_,
    fun hd => chkDetach_noted hd hn, fun hd hsess hprogs => ?_⟩
  · obtain ⟨t, ht, hx, hr⟩ := chkAttach_held hd hn
    exact ⟨t, ht, (congrArg ChkUnit.att hx :), (congrArg ChkUnit.src hx :), (congrArg ChkUnit.seat hx :), (congrArg ChkUnit.cmd hx :), hr⟩
  · obtain ⟨t, ht, hcfe, hw⟩ := commit_waits hd hn ⟨hsess, hprogs⟩
    obtain ⟨-, -, -, hnext, -⟩ := id hd
    have hop : c.op = 0x0110 := by simpa using decides_kind hd rfl
    have hmem : { c with stage := .accepted } ∈ t.cfe.cmds := hcfe ▸ accepting_mem (List.mem_of_find?_eq_some hnext)
    exact ⟨t, ht, ⟨_, hmem, rfl, hop, rfl⟩, hw⟩

end Sys2Proof.Machine
end

section
/-!
PROOFS. What a command leaves alone (O5): the footprint of every command that `commandParts` lists, from the laws of commands, spares every part that
its row does not name.
-/

namespace Sys2Proof.Machine

/-- Every part of the state. -/
def Part.all : List Part :=
  [.registers, .lowRegisters, .reactions, .committed, .memory, .ecc, .rdata, .free, .tts, .time, .cfe, .arrivals, .departures, .adm, .decisions, .messages,
    .seats, .secureIrqs, .worlds, .thresholds, .memc, .dma, .chk, .pic, .vid, .med, .flt, .clk, .pwr, .supply]

theorem Part.mem_all (p : Part) : p ∈ Part.all := by cases p <;> decide

/-- Whether a class of effects spares every part but those of a list. -/
def sparesBut (T : Nat) (ps : List Part) : Bool := Part.all.all fun p => ps.contains p || p.spared T

theorem spared_of_sparesBut {T : Nat} {ps : List Part} (h : sparesBut T ps = true) {p : Part} (hp : p ∉ ps) : p.spared T = true := by
  have hp' := List.all_eq_true.mp h p p.mem_all
  simpa [hp] using hp'

/-- A meaning whose effects, run from calm states, end nothing and spare every part but those of a list. -/
def Sparing (ps : List Part) (s : State) (o : Host.Outcome State Fault Refusal) : Prop := ∃ T, Within T s o ∧ sparesBut T ps = true

variable {c : Instr} {ps qs : List Part} {s t : State} {o : Host.Outcome State Fault Refusal}

theorem Sparing.of {T : Nat} (hw : Within T s o) (hc : some qs = some ps) (h : sparesBut T qs = true) : Sparing ps s o :=
  ⟨T, hw, Option.some.inj hc ▸ h⟩

/-- A meaning in a class of effects that end nothing does not enter the safe state. -/
theorem Within.safe {T : Nat} (hw : Within T s o) (hs : s.calm) (h : o = .next t) : t.flt.safe = s.flt.safe := by
  obtain ⟨ok, a, rfl, hT, ha⟩ := hw
  unfold live at h
  injection h with h
  subst h
  split
  · rfl
  · exact (runGo_foot (R := fun s t => t.flt.safe = s.flt.safe) (fun _ => rfl) (fun h k => k.trans h) (fun _ he => in_soft hT he)
      (fun e s he => safe_soft (in_soft hT he) s) a s ha hs).2.2

/-- Every command with a row spares what its row does not name. -/
theorem exec_sparing (hl : s.live) (hc : commandParts c = some ps) : Sparing ps s (exec c s) := by
  cases c with
  | linkReset _ => exact .of (execLinkReset_within _ hl) hc rfl
  | perstRelease _ => exact .of (execPerstRelease_within _ hl) hc rfl
  | secBootRomStart => exact .of (execSecBootRomStart_within hl) hc rfl
  | clockSourceReady _ => exact .of (execClockSourceReady_within _ hl) hc rfl
  | clockMonitorTrip _ => exact .of (execClockMonitorTrip_within _ hl) hc rfl
  | hoscTrimWindow _ => exact .of (execHoscTrimWindow_within _ hl) hc rfl
  | gateAckTimeout _ => exact .of (execGateAckTimeout_within _ hl) hc rfl
  | bellEdge _ => exact .of (execBellEdge_within _ hl) hc rfl
  | periodStart _ => exact .of (execPeriodStart_within _ hl) hc rfl
  | decisionTimeout => exact .of (execDecisionTimeout_within hl) hc rfl
  | genlockPulse _ _ => exact .of (execGenlockPulse_within _ _ hl) hc rfl
  | bellRefLost _ => exact .of (execBellRefLost_within _ hl) hc rfl
  | ttsBellCountLoRead _ => exact .of (execTtsBellCountLoRead_within _ hl) hc rfl
  | admBusyCountRead _ => exact .of (execAdmBusyCountRead_within _ hl) hc rfl
  | packetFetch _ => exact .of (execPacketFetch_within _ hl) hc rfl
  | admissionDecision _ => exact .of (execAdmissionDecision_within _ hl) hc rfl
  | turnEnd _ => exact .of (execTurnEnd_within _ hl) hc rfl
  | turnCycleLimit _ => exact .of (execTurnCycleLimit_within _ hl) hc rfl
  | envelopeLimitReached _ _ => exact .of (execEnvelopeLimitReached_within _ _ hl) hc rfl
  | memoryTransactionResponse _ => exact .of (execMemoryTransactionResponse_within _ hl) hc rfl
  | arbTimeout _ => exact .of (execArbTimeout_within _ hl) hc rfl
  | pcieCompletionTimeout _ _ _ => exact .of (execPcieCompletionTimeout_within _ _ _ hl) hc rfl
  | commandComplete _ => exact .of (execCommandComplete_within _ hl) hc rfl
  | nop => exact .of (execNop_within hl) hc rfl
  | queryCaps => exact .of (execQueryCaps_within hl) hc rfl
  | setBudget => exact .of (execSetBudget_within hl) hc rfl
  | setQuota => exact .of (execSetQuota_within hl) hc rfl
  | quotaReclaim _ => exact .of (execQuotaReclaim_within _ hl) hc rfl
  | commit => exact .of (execCommit_within hl) hc rfl
  | dmaCopy _ => exact .of (execDmaCopy_within _ hl) hc rfl
  | dmaFill _ => exact .of (execDmaFill_within _ hl) hc rfl
  | dmaBurstResponse _ _ => exact .of (execDmaBurstResponse_within _ _ hl) hc rfl
  | chkAttach => exact .of (execChkAttach_within hl) hc rfl
  | chkDetach => exact .of (execChkDetach_within hl) hc rfl
  | rndProgramLoad => exact .of (execRndProgramLoad_within hl) hc rfl
  | rndProgramUnload => exact .of (execRndProgramUnload_within hl) hc rfl
  | programCompileDone _ _ _ _ => exact .of (execProgramCompileDone_within _ _ _ _ hl) hc rfl
  | rndPassBegin _ _ => exact .of (execRndPassBegin_within _ _ hl) hc rfl
  | rndDraw _ _ => exact .of (execRndDraw_within _ _ hl) hc rfl
  | rndPassEnd _ _ => exact .of (execRndPassEnd_within _ _ hl) hc rfl
  | rndDispatch _ _ => exact .of (execRndDispatch_within _ _ hl) hc rfl
  | cmpCanvasSet => exact .of (execCmpCanvasSet_within hl) hc rfl
  | cmpLayerSet => exact .of (execCmpLayerSet_within hl) hc rfl
  | cmpFlip => exact .of (execCmpFlip_within hl) hc rfl
  | cmpFlipGroup => exact .of (execCmpFlipGroup_within hl) hc rfl
  | vdcSessionOpen => exact .of (execVdcSessionOpen_within hl) hc rfl
  | vdcSessionClose => exact .of (execVdcSessionClose_within hl) hc rfl
  | vdcDecode _ => exact .of (execVdcDecode_within _ hl) hc rfl
  | vdcEncode _ => exact .of (execVdcEncode_within _ hl) hc rfl
  | vdcKeyRequest => exact .of (execVdcKeyRequest_within hl) hc rfl
  | codecPictureBoundary _ => exact .of (execCodecPictureBoundary_within _ hl) hc rfl
  | audRoute _ => exact .of (execAudRoute_within _ hl) hc rfl
  | audStreamOpen => exact .of (execAudStreamOpen_within hl) hc rfl
  | audStreamClose => exact .of (execAudStreamClose_within hl) hc rfl
  | audEffect => exact .of (execAudEffect_within hl) hc rfl
  | audioBlock _ => exact .of (execAudioBlock_within _ hl) hc rfl
  | tdmFrameReceived _ _ _ => exact .of (execTdmFrameReceived_within _ _ _ hl) hc rfl
  | tdmClockLost => exact .of (execTdmClockLost_within hl) hc rfl
  | audInputLost _ => exact .of (execAudInputLost_within _ hl) hc rfl
  | tchConfigApply => exact .of (execTchConfigApply_within hl) hc rfl
  | tchConfigSelftest => exact .of (execTchConfigSelftest_within hl) hc rfl
  | tchConfigRecalibrate => exact .of (execTchConfigRecalibrate_within hl) hc rfl
  | tchConfigDisable => exact .of (execTchConfigDisable_within hl) hc rfl
  | touchLinkBringup _ _ _ => exact .of (execTouchLinkBringup_within _ _ _ hl) hc rfl
  | touchScanStart _ => exact .of (execTouchScanStart_within _ hl) hc rfl
  | touchScanEnd _ _ _ => exact .of (execTouchScanEnd_within _ _ _ hl) hc rfl
  | keyForcedRelease _ _ => exact .of (execKeyForcedRelease_within _ _ hl) hc rfl
  | dozeEntry _ => exact .of (execDozeEntry_within _ hl) hc rfl
  | dozeApproach _ => exact .of (execDozeApproach_within _ hl) hc rfl
  | touchLinkRetry _ _ _ => exact .of (execTouchLinkRetry_within _ _ _ hl) hc rfl
  | hapEffectLoad _ => exact .of (execHapEffectLoad_within _ hl) hc rfl
  | hapEffectClear _ => exact .of (execHapEffectClear_within _ hl) hc rfl
  | hapPlay _ => exact .of (execHapPlay_within _ hl) hc rfl
  | hapticFrame _ _ => exact .of (execHapticFrame_within _ _ hl) hc rfl
  | fence _ => exact .of (execFence_within _ hl) hc rfl
  | signal _ => exact .of (execSignal_within _ hl) hc rfl
  | wait _ => exact .of (execWait_within _ hl) hc rfl
  | queryStatus => exact .of (execQueryStatus_within hl) hc rfl
  | queryStatusByTag => exact .of (execQueryStatusByTag_within hl) hc rfl
  | queryBudget => exact .of (execQueryBudget_within hl) hc rfl
  | flr _ => exact .of (execFlr_within _ hl) hc rfl
  | vfEnableSet _ => exact .of (execVfEnableSet_within _ hl) hc rfl
  | vfEnableClear _ => exact .of (execVfEnableClear_within _ hl) hc rfl
  | seatResetSettle _ => exact .of (execSeatResetSettle_within _ hl) hc rfl
  | seatResetComplete _ => exact .of (execSeatResetComplete_within _ hl) hc rfl
  | transferAbandoned _ _ _ => exact .of (execTransferAbandoned_within _ _ _ hl) hc rfl
  | dirtyLogSwapDone _ => exact .of (execDirtyLogSwapDone_within _ hl) hc rfl
  | handoverReset => exact .of (execHandoverReset_within hl) hc rfl
  | mgtExpired => exact .of (execMgtExpired_within hl) hc rfl
  | hmnMgtLoadRead _ => exact .of (execHmnMgtLoadRead_within _ hl) hc rfl
  | grdViolInfoRead _ _ => exact .of (execGrdViolInfoRead_within _ _ hl) hc rfl
  | dramRefresh _ _ _ => exact .of (execDramRefresh_within _ _ _ hl) hc rfl
  | rowHammerRefresh _ _ _ => exact .of (execRowHammerRefresh_within _ _ _ hl) hc rfl
  | headFrameStart _ => exact .of (execHeadFrameStart_within _ hl) hc rfl
  | headLineStart _ _ _ _ => exact .of (execHeadLineStart_within _ _ _ _ hl) hc rfl
  | linkWakeDone _ => exact .of (execLinkWakeDone_within _ hl) hc rfl
  | hpdRise _ => exact .of (execHpdRise_within _ hl) hc rfl
  | hpdFall _ => exact .of (execHpdFall_within _ hl) hc rfl
  | irqHpd _ => exact .of (execIrqHpd_within _ hl) hc rfl
  | sinkLockLoss _ => exact .of (execSinkLockLoss_within _ hl) hc rfl
  | linkBringupDone _ _ => exact .of (execLinkBringupDone_within _ _ hl) hc rfl
  | captureFrameStart _ _ => exact .of (execCaptureFrameStart_within _ _ hl) hc rfl
  | captureFrameComplete _ _ _ => exact .of (execCaptureFrameComplete_within _ _ _ hl) hc rfl
  | captureLinkLost _ => exact .of (execCaptureLinkLost_within _ hl) hc rfl
  | captureHpdPulseEnd _ => exact .of (execCaptureHpdPulseEnd_within _ hl) hc rfl
  | capnFramesRead _ _ => exact .of (execCapnFramesRead_within _ _ hl) hc rfl
  | hdhUnderrunRead _ _ => exact .of (execHdhUnderrunRead_within _ _ hl) hc rfl
  | tchnCountRead _ _ => exact .of (execTchnCountRead_within _ _ hl) hc rfl
  | hapnCountRead _ _ => exact .of (execHapnCountRead_within _ _ hl) hc rfl
  | fsCountRead _ _ => exact .of (execFsCountRead_within _ _ hl) hc rfl
  | deepSleepEntry => exact .of (execDeepSleepEntry_within hl) hc rfl
  | pcieWakeRequest => exact .of (execPcieWakeRequest_within hl) hc rfl
  | captureLinkTraining _ _ _ _ => exact .of (execCaptureLinkTraining_within _ _ _ _ hl) hc rfl
  | captureAuxTransaction _ _ _ => exact .of (execCaptureAuxTransaction_within _ _ _ hl) hc rfl
  | pendingVectorRelease _ => exact .of (execPendingVectorRelease_within _ hl) hc rfl
  | busIdleAcknowledgement _ => exact .of (execBusIdleAcknowledgement_within _ hl) hc rfl
  | grdApplyDone _ => exact .of (execGrdApplyDone_within _ hl) hc rfl
  | seatTblCmdDone => exact .of (execSeatTblCmdDone_within hl) hc rfl
  | testCmdDone _ => exact .of (execTestCmdDone_within _ hl) hc rfl
  | internalParityError _ _ => exact .of (execInternalParityError_within _ _ hl) hc rfl
  | karcenFirmwareStart => exact .of (execKarcenFirmwareStart_within hl) hc rfl
  | pcieLinkTrained _ => exact .of (execPcieLinkTrained_within _ hl) hc rfl
  | _ => cases hc

/-- Settles O5: the class of effects of each command (`exec_sparing`) spares the parts that its row leaves out, and ends nothing. -/
theorem commandsSpareParts : Obligations.CommandsSpareParts := by
  refine ⟨fun c ps s t hl hs hc ht p hp => ?_, fun c ps s t hl hs hc ht => ?_⟩ <;> obtain ⟨T, hw, hT⟩ := exec_sparing hl hc
  · obtain ⟨-, hsame⟩ := hw.spares hs ht
    exact hsame p (spared_of_sparesBut hT hp)
  · obtain ⟨hcalm, -⟩ := hw.spares hs ht
    exact ⟨hcalm, (hw.safe hs ht).trans hl.1⟩

end Sys2Proof.Machine
end

section
/-!
PROOFS. Detections (O15): a source that commands neither the safe state nor a reset of the chip leaves its record at its station (R537, R539); what a
command does before and after the detection leaves that station alone.
-/

namespace Sys2Proof.Machine

variable {s : State} {st src cell cell' : Nat} {seat : Option Nat} {K : Nat → Prop} {J J' L L' : State → Prop}

/-! ### Programs that keep a station's registers -/

/-- What two arguments say of a program that ends in another predicate than it begins in. -/
theorem Act.Takes.both {a : Act} (h : a.Takes J L) (h' : a.Takes J' L') : a.Takes (fun t => J t ∧ J' t) fun t => L t ∧ L' t :=
  fun t ht => ⟨(h t ht.1).1, (h t ht.1).2, (h' t ht.2).2⟩

/-- A sound state in which a station has recorded nothing since `s`, in the bell of `s`. -/
def State.Awaits (s : State) (st : Nat) (t : State) : Prop := t.Sound ∧ t.tts.bell = s.tts.bell ∧ ∀ off, stationRegs st off → t.rd off = s.rd off

/-- A calm state in which a station has recorded one detection since `s`. -/
def State.Logged (s : State) (st src cell : Nat) (t : State) : Prop := t.calm ∧ s.logs t st src cell

theorem awaits_self (hs : s.Sound) : s.Awaits st s := ⟨hs, rfl, fun _ _ => rfl⟩

/-- The record speaks of the station's registers and the bell alone. -/
theorem logs_congr {s s' t t' : State} (hb : s'.tts.bell = s.tts.bell) (hs : ∀ off, stationRegs st off → s'.rd off = s.rd off)
    (ht : ∀ off, stationRegs st off → t'.rd off = t.rd off) (h : s'.logs t st src cell) : s.logs t' st src cell := by
  have hstatus : stationRegs st (Reg.fsStatus st) := .inl rfl
  have hfirst : stationRegs st (Reg.fsFirst st) := .inr (.inl rfl)
  have hcount : stationRegs st (Reg.fsCount st) := .inr (.inr rfl)
  simpa only [State.logs, State.fld, State.bitAt, hb, hs _ hstatus, hs _ hfirst, hs _ hcount, ht _ hstatus, ht _ hfirst, ht _ hcount] using h

/-- The detection, from any such state. -/
theorem raiseSrc_logged (hx : srcExists st src = true) (hg : gravest st src = false) :
    (raiseSrc st src cell seat).Takes (s.Awaits st) (s.Logged st src cell) := fun t ⟨⟨hc, hw⟩, hb, hr⟩ => by
  obtain ⟨hst, hsrc⟩ := srcExists_lt hx
  obtain ⟨hend, hcalm, -⟩ := runGo_foot (R := fun _ _ => True) (fun _ => trivial) (fun _ _ => trivial) (fun _ he => in_soft (T := 0x300FDE01) rfl he)
    (fun _ _ _ => trivial) _ t (raiseSrc_foot st src cell seat hg rfl) hc
  exact ⟨hend, hcalm, logs_congr hb hr (fun _ _ => rfl) (raiseSrc_logs hc hw cell seat hst hsrc hx hg)⟩

/-- A register outside the station is written. -/
theorem awaits_csr {off : Nat} (ho : ¬ stationRegs st off) (v : Word) : (Act.eff (.csr off v)).Takes (s.Awaits st) (s.Awaits st) :=
  takes_eff rfl fun t ⟨⟨hc, hw⟩, hb, hr⟩ => ⟨⟨calm_soft (e := .csr off v) rfl hc, applyEff_wf _ t hw⟩, hb, fun o h =>
    (rd_put_ne t (by rintro rfl; exact ho h) v).trans (hr o h)⟩

/-- A program that leaves the station's registers alone keeps its record. -/
theorem logged_leaves {a : Act} (ha : a.Foot (Leaves (stationRegs st))) : a.Takes (s.Logged st src cell) (s.Logged st src cell) := fun t ⟨hc, hl⟩ => by
  obtain ⟨hend, hcalm, hr⟩ := runGo_leaves ha hc
  exact ⟨hend, hcalm, logs_congr rfl (fun _ _ => rfl) hr hl⟩

/-! ### Registers that a detection leaves alone -/

/-- A detection leaves the registers alone that are not its station's and that its reactions leave alone. -/
theorem raiseSrc_leaves (hst : ∀ off, stationRegs st off → ¬ K off) (hm : ∀ m, (milder st src seat m).Foot (Leaves K)) (hg : gravest st src = false) :
    (raiseSrc st src cell seat).Foot (Leaves K) := by
  by_cases hx : srcExists st src = true
  · obtain ⟨hs, hr⟩ := srcExists_lt hx
    simp only [raiseSrc, hx, Bool.not_true, Bool.false_eq_true, if_false, foot_ask, foot_acts_cons, foot_acts_nil, foot_actIf, and_true]
    refine fun s _ => ⟨setBits_leaves (hst _ (.inl rfl)) _, setFld_leaves (hst _ (.inr (.inr rfl))) _ _ _,
      fun _ => setReg_leaves (hst _ (.inr (.inl rfl))) _, fun t ht => ?_⟩
    obtain ⟨hreset, hsafe⟩ := ht st src hs hr hg
    rw [hreset, hsafe]
    exact hm _
  · simp [raiseSrc, hx]

/-- A detection leaves the registers of other stations alone. -/
theorem raiseSrc_leaves_station {st' : Nat} (h : st' < 256) (hne : st ≠ st') (hg : gravest st src = false) :
    (raiseSrc st src cell seat).Foot (Leaves (stationRegs st')) :=
  raiseSrc_leaves (fun off h1 h2 => by have := stationRegs_range h1; have := stationRegs_range h2; omega)
    (milder_leaves (stationRegs_in h) st src seat) hg

/-! ### Transactions that fail -/

/-- Every outstanding command with a number reads FAULT. -/
def State.faulted (cmd : Option Nat) (s : State) : Prop := ∀ c ∈ s.cfe.cmds, some c.id = cmd → c.fault = true

/-- What an error response does beyond its station touches no record of another station, and marks its command with FAULT (R38). -/
theorem txnFailed_logged (t : Txn) (o : MemOut) (hst : st < 256) (hcmp : st ≠ stCmp) (hprf : st ≠ stPrf) :
    (txnFailed t o).Takes (s.Logged st src cell) fun u => s.Logged st src cell u ∧ u.faulted t.cmd := by
  have hraise : ∀ b st' src', st' ≠ st → gravest st' src' = false →
      (actIf b (raiseSrc st' src' 0 t.seat)).Takes (s.Logged st src cell) (s.Logged st src cell) := fun b st' src' hne hg =>
    takes_actIf fun _ => logged_leaves (raiseSrc_leaves_station hst hne hg)
  refine takes_acts_cons (hraise _ _ _ hcmp.symm rfl) (takes_acts_cons (hraise _ _ _ hprf.symm rfl) ?_)
  rw [acts_one]
  cases hc : t.cmd with
  | none => exact fun u hu => ⟨rfl, hu, fun _ _ h => nomatch h⟩
  | some id =>
    have hmark : (cmdUpd id fun c => { c with fault := true }).Takes (s.Logged st src cell) fun u => s.Logged st src cell u ∧ u.faulted (some id) :=
      takes_eff rfl fun u ⟨hcalm, hl⟩ => ⟨⟨calm_soft (e := .cfe _) rfl hcalm, hl⟩, fun c hm hid => by
        obtain ⟨c', -, rfl⟩ := List.mem_map.mp hm
        by_cases hid' : c'.id = id
        · simp [hid']
        · simp [hid'] at hid⟩
    have hkeep : ∀ e, Leaves (stationRegs st) e → e.halts = false → (∀ u, (applyEff e u).cfe = u.cfe) →
        (Act.eff e).Takes (fun u => s.Logged st src cell u ∧ u.faulted (some id)) fun u => s.Logged st src cell u ∧ u.faulted (some id) :=
      fun e he hh hcfe => (logged_leaves (.eff he)).both (takes_eff hh fun u hf c hm => hf c (hcfe u ▸ hm))
    exact takes_acts_cons hmark (takes_acts_cons (hkeep _ (leaves_vid _) rfl fun _ => rfl) (hkeep _ (leaves_med _) rfl fun _ => rfl))

/-! ### The obligation -/

theorem region_sources : ∀ st < 7, srcExists st 0 = true ∧ srcExists st 1 = true := by decide

theorem lt_of_stIsRegion (h : stIsRegion st = true) : st < 7 := by
  simp only [stIsRegion, decide_eq_true_eq] at h
  omega

/-- Every kind of station but those of a region and of the chip has the sources of a block (R544). -/
theorem block_sources (hr : stIsRegion st = false) (hk : (stKind st).isSome = true) : srcExists st 3 = true := by
  obtain ⟨k, hk⟩ := Option.isSome_iff_exists.mp hk
  have hst := stKind_lt hk
  have hall : ∀ st < 256, stIsRegion st = false → (stKind st).isSome = true → srcExists st 3 = true := by decide +kernel
  exact hall st hst hr (hk ▸ rfl)

/-- A parity error with the source that its station gives it: an armed injection is spent first (R551). -/
theorem parity_logged (hl : s.live) (hs : s.Sound) (hk : (stKind st).isSome = true) (hsrc : src = if stIsRegion st then 0 else 3)
    (hcell : cell' = if stIsRegion st then 0 else cell) (hx : srcExists st src = true) :
    ∃ t, exec (.internalParityError st cell) s = .next t ∧ s.logs t st src cell' := by
  have hg : gravest st src = false := gravest_low st (by rw [hsrc]; split <;> decide)
  have hinject : ¬ stationRegs st (Reg.fsInject st) := by
    simp only [stationRegs, Reg.fsInject, Reg.fsStatus, Reg.fsFirst, Reg.fsCount]
    omega
  subst hsrc hcell
  refine ⟨_, live_next hl hk _, ((takes_ask fun _ _ => takes_acts_cons (takes_actIf fun _ => takes_ask fun _ _ => awaits_csr hinject _) ?_ :
    Act.Takes (s.Awaits st) (s.Logged st _ _) _).run (awaits_self hs)).2⟩
  exact raiseSrc_logged hx hg

/-- Settles O15: each detection is one `raiseSrc`, which leaves its record (`raiseSrc_logged`). -/
theorem detectionsRecorded : Obligations.DetectionsRecorded := by
  intro s hl hc hw
  have hs : s.Sound := ⟨hc, hw⟩
  refine ⟨fun st hr => ?_, fun st cell hr => ?_, fun st cell hr hk => ?_, fun hb => ?_, fun st seat cmd hst => ?_⟩
  · exact ⟨_, live_next hl hr _, ((raiseSrc_logged (region_sources st (lt_of_stIsRegion hr)).2 (gravest_low st (by decide))).run (awaits_self hs)).2⟩
  · exact parity_logged hl hs (stKind_of (region_sources st (lt_of_stIsRegion hr)).1) (by rw [hr]; rfl) (by rw [hr]; rfl)
      (region_sources st (lt_of_stIsRegion hr)).1
  · exact parity_logged hl hs hk (by rw [hr]; rfl) (by rw [hr]; rfl) (block_sources hr hk)
  · refine ⟨_, live_next hl rfl _, ?_⟩
    rw [runAct_whenS, if_pos (decide_eq_true hb)]
    exact ((raiseSrc_logged (st := 14) (src := 4) rfl rfl).run (awaits_self hs)).2
  · have hfailed := fun t o => takes_acts_cons (raiseSrc_logged (s := s) (st := stPci) (src := 4) (cell := 0) (seat := seat) rfl rfl)
      (txnFailed_logged t o (by decide) (by decide) (by decide))
    obtain ⟨⟨-, hlog⟩, hfault⟩ := (hfailed _ _).run (awaits_self hs)
    exact ⟨_, live_next hl (decide_eq_true hst) _, hlog, hfault⟩

end Sys2Proof.Machine
end

section
/-!
PROOFS. Accesses of transactions (O32, O33): the row activates that come first change nothing that an access reads, an access that is refused or
reaches nothing stores nothing, and a detection in it leaves memory alone.
-/

namespace Sys2Proof.Machine

variable {s : State} {st src cell n : Nat} {seat : Option Nat} {q : Req} {K L : State → Prop} {t : Txn}

/-- A program that depends on the state runs from that state. -/
theorem takes_ask_at {J : State → Prop} {k : State → Act} (h : ∀ u, J u → (k u).Takes (· = u) K) : (Act.ask k).Takes J K := fun u hu => h u hu u rfl

/-! ### Activates -/

/-- The state with other row counts, refreshes owed and refreshes made (R269). -/
def State.Counted (s u : State) : Prop := ∃ rows pend log, u = { s with memc := { s.memc with rows := rows, rhPend := pend, rhLog := log } }

theorem counted_self (s : State) : s.Counted s := ⟨_, _, _, rfl⟩

theorem neighbourRefresh_counted (ch bank row : Nat) : (neighbourRefresh ch bank row).Takes s.Counted s.Counted :=
  takes_ask fun _ _ => takes_actIf fun _ => takes_eff rfl fun _ ⟨_, _, _, hu⟩ => hu ▸ ⟨_, _, _, rfl⟩

theorem rowActivate_counted (ch bank row : Nat) : (rowActivate ch bank row).Takes s.Counted s.Counted :=
  takes_ask fun _ _ => takes_eff rfl fun _ ⟨_, _, _, hu⟩ => hu ▸ ⟨_, _, _, rfl⟩

theorem bankRefreshes_counted (ch bank : Nat) : (bankRefreshes ch bank).Takes s.Counted s.Counted :=
  takes_ask fun _ _ => takes_each fun _ _ => neighbourRefresh_counted _ _ _

/-- What is sound stays so, and no register moves. -/
theorem counted_awaits {u : State} (hu : s.Counted u) (hs : s.Sound) : s.Awaits st u := by
  obtain ⟨rows, pend, log, rfl⟩ := hu
  exact awaits_self hs

theorem counted_sound {u : State} (hu : s.Counted u) (hs : s.Sound) : u.Sound := by
  obtain ⟨rows, pend, log, rfl⟩ := hu
  exact hs

/-- Memory and its check bits are as they were. -/
def State.Kept (s u : State) : Prop := u.calm ∧ u.mem = s.mem ∧ u.ecc = s.ecc

theorem counted_kept {u : State} (hu : s.Counted u) (hs : s.Sound) : s.Kept u := by
  obtain ⟨rows, pend, log, rfl⟩ := hu
  exact ⟨hs.1, rfl, rfl⟩

/-- Accesses read neither counts nor refreshes. -/
theorem txnRead_counted {u : State} (hu : s.Counted u) (t : Txn) : u.txnRead t = s.txnRead t := by
  obtain ⟨rows, pend, log, rfl⟩ := hu
  rfl

theorem txnWrite_counted {u : State} (hu : s.Counted u) (t : Txn) : u.txnWrite t = s.txnWrite t := by
  obtain ⟨rows, pend, log, rfl⟩ := hu
  rfl

/-! ### One access -/

/-- A transaction of a block or of a seat is served. -/
theorem exec_txn (hl : s.live) (hst : t.station < 256) (hseat : ∀ k, t.seat = some k → k < 512) (hat : t.atomic = false) :
    exec (.memoryTransactionResponse t) s = .next (runAct (txnOp t) s) := by
  refine live_next hl ?_ _
  cases hs : t.seat with
  | none => simp [hst, hat]
  | some k => simp [hst, hat, seatOk, hseat k hs]

/-- An access whose failure no command, composer or Prefect hears of does nothing more than record it. -/
theorem txnFailed_silent (hc : t.cmd = none) {o : MemOut} (ho : o.err = true → t.station ≠ stCmp ∧ t.station ≠ stPrf) : (txnFailed t o).Takes K K := by
  have hquiet : ∀ st', (o.err = true → t.station ≠ st') → (o.err && decide (t.station = st')) = false := fun st' h => by
    cases he : o.err
    · rfl
    · simpa [he] using h
  rw [txnFailed, hc, hquiet _ fun h => (ho h).1, hquiet _ fun h => (ho h).2]
  exact takes_acts_cons takes_skip (takes_acts_cons takes_skip takes_skip)

/-- One access of a transaction of no command: `m` is what it gives in the state before the activates. -/
theorem txnAccess_takes {o : State → MemOut} {m : MemOut} {rd : Bool} (hm : ∀ u, s.Counted u → o u = m) (hc : t.cmd = none)
    (herr : m.err = true → t.station ≠ stCmp ∧ t.station ≠ stPrf) (hact : m.act.Takes s.Counted K)
    (hdata : ∀ u, K u → L (if rd then applyEff (.rdata (bytesWord (m.bytes.take 8))) u else u)) :
    (txnAccess t o rd).Takes (· = s) L := by
  have hrows : (each (s.txnRows t) fun x => acts [bankRefreshes x.1 x.2.1, rowActivate x.1 x.2.1 x.2.2]).Takes (· = s) s.Counted :=
    (takes_each fun x _ => takes_acts_cons (bankRefreshes_counted _ _) (rowActivate_counted _ _ _)).weaken (fun _ h => h ▸ counted_self s) fun _ h => h
  refine takes_ask fun u hu => ?_
  subst hu
  refine takes_acts_cons hrows (takes_ask fun v hv => ?_)
  rw [hm v hv]
  refine takes_acts_cons hact (takes_acts_cons ?_ (takes_actIf fun _ => txnFailed_silent hc herr))
  cases rd
  · exact fun u hu => ⟨rfl, hdata u hu⟩
  · exact takes_eff rfl hdata

/-! ### What is recorded -/

/-- A program whose effects are in a class without stores keeps memory. -/
theorem kept_foot {T : Nat} {a : Act} (ha : a.Foot (In T)) (hT : softClass T = true) (hm : Part.spared T .memory = true) (he : Part.spared T .ecc = true) :
    a.Takes s.Kept s.Kept :=
  takes_of_foot ha (fun _ h => h.1) (fun _ h => in_soft hT h) fun e u h ⟨hc, hmem, hecc⟩ =>
    have hsoft := in_soft hT h
    ⟨calm_soft hsoft hc, (eff_same h hsoft hm u : (applyEff e u).mem = u.mem).trans hmem, (eff_same h hsoft he u : (applyEff e u).ecc = u.ecc).trans hecc⟩

/-- A detection is recorded and stores nothing. -/
theorem raiseSrc_recorded (hx : srcExists st src = true) (hg : gravest st src = false) :
    (raiseSrc st src cell seat).Takes (fun u => s.Kept u ∧ s.Awaits st u) fun u => s.Kept u ∧ s.Logged st src cell u :=
  (kept_foot (T := 0x300FDE01) (raiseSrc_foot st src cell seat hg rfl) rfl rfl rfl).both (raiseSrc_logged hx hg)

/-- So after the activates. -/
theorem raiseSrc_counted (hs : s.Sound) (hx : srcExists st src = true) (hg : gravest st src = false) :
    (raiseSrc st src cell seat).Takes s.Counted fun u => s.Kept u ∧ s.Logged st src cell u :=
  (raiseSrc_recorded hx hg).weaken (fun _ hu => ⟨counted_kept hu hs, counted_awaits hu hs⟩) fun _ hu => hu

/-! ### Refusals (R238) -/

/-- The guards stand in front of banks of the Store and pairs of DRAM channels (R17). -/
theorem guardOf_lt (s : State) (a : Nat) : s.guardOf a < 28 := by
  unfold State.guardOf
  split
  next h =>
    simp only [isStore, storeBase, storeSize, Bool.and_eq_true] at h
    simp only [storeGroup, nBits, storeBase, Nat.shiftRight_eq_div_pow]
    omega
  · have hch : s.dramChannel a < 2 ^ 5 := by
      unfold State.dramChannel
      dsimp only
      split
      · exact Nat.xor_lt_two_pow (Nat.xor_lt_two_pow (Nat.xor_lt_two_pow (nBits_lt _ _ _) (nBits_lt _ _ _)) (nBits_lt _ _ _)) (nBits_lt _ _ _)
      · exact nBits_lt _ _ _
    omega

theorem refusedBy_lt {a len : Nat} (h : s.refusedBy q a len = some n) : n < 28 := by
  obtain ⟨x, -, rfl⟩ := List.mem_map.mp (List.mem_of_find?_eq_some h)
  exact guardOf_lt s x

theorem guard_sources : ∀ n < 28, srcExists (stGrd n) 4 = true := by decide

theorem grdViolInfo_impl (hn : n < 28) : regImpl (Reg.grdViolInfo n) = 0xFFFFFFFF := (clears_grdViolInfo n hn).2

/-- GRDn_VIOL_INFO holds a capture, and has counted `k` violations. -/
def State.violated (n k : Nat) (u : State) : Prop := u.bitAt (Reg.grdViolInfo n) 19 = true ∧ u.fld (Reg.grdViolInfo n) 20 12 = k

/-- A class of effects without registers leaves all of them alone. -/
theorem leaves_of_in {T : Nat} {P : Nat → Prop} {e : Eff} (hT : softClass T = true) (h0 : T.testBit 0 = false) (he : In T e) : Leaves P e := by
  have hsoft := in_soft hT he
  cases e with
  | csr off v => exact absurd ((he.1 : T.testBit 0 = true).symm.trans h0) (by decide)
  | react _ _ | safe | powerOn _ | chipReset _ _ => simp [Eff.soft, Eff.halts] at hsoft
  | _ => trivial

theorem irqSet_leaves_page {P : Nat → Prop} (hirq : ∀ k, ¬ P (Reg.irqPend k)) (k bit : Nat) : (irqSet k bit).Foot (Leaves P) := by
  simp [irqSet, setBits_leaves (hirq k), msixSend_leaves]

/-- The reactions of a station without an engine touch FAULT_N's register and the seats' pending interrupts. -/
theorem milder_leaves_plain {P : Nat → Prop} (hp : plainSt st = true) (h14 : st ≠ 14) (hpin : ¬ P Reg.fltPin)
    (hirq : ∀ k, ¬ P (Reg.irqPend k)) (m : Nat) : (milder st src seat m).Foot (Leaves P) := by
  have hreset : (blockReset st).Foot (Leaves P) := (blockReset_plain (T := 0x80000) hp rfl).mono fun _ => leaves_of_in rfl rfl
  have hirqs : (irqReact st src seat).Foot (Leaves P) := by
    simp only [irqReact, secIrq, foot_ask, foot_ite]
    refine fun _ _ => ⟨fun _ _ _ => by simp, fun _ => ?_⟩
    split
    · exact irqSet_leaves_page hirq _ _
    · split
      · exact irqSet_leaves_page hirq _ _
      · simp
  simp [milder, setFld_leaves hpin, h14, hreset, hirqs]

/-- A guard's detection leaves the register that describes it. -/
theorem violated_raise (hn : n < 28) {k : Nat} :
    (raiseSrc (stGrd n) 4 0 seat).Takes (fun u => u.calm ∧ u.violated n k) fun u => u.calm ∧ u.violated n k := by
  have hleaves : (raiseSrc (stGrd n) 4 0 seat).Foot (Leaves (· = Reg.grdViolInfo n)) := by
    refine raiseSrc_leaves (fun off h => ?_) (milder_leaves_plain (plain_grd n) (by unfold stGrd; omega) ?_ fun k => ?_) (gravest_grd n (by decide))
    · have := stationRegs_range h
      unfold stGrd at this
      unfold Reg.grdViolInfo
      omega
    · unfold Reg.grdViolInfo Reg.fltPin
      omega
    · unfold Reg.grdViolInfo Reg.irqPend
      omega
  intro u ⟨hc, hv⟩
  obtain ⟨hend, hcalm, hr⟩ := runGo_leaves hleaves hc
  exact ⟨hend, hcalm, by simpa only [State.violated, State.bitAt, State.fld, hr _ rfl] using hv⟩

/-- A bit of a field that was set. -/
theorem bitAt_putFld {u : State} (hw : u.wf = true) {off lo w i : Nat} (h64 : lo + w ≤ 64) (hlo : lo ≤ i) (hi : i < lo + w)
    (hm : (regImpl off % 2 ^ 64).testBit i = true) (x : Nat) : (u.putFld off lo w x).bitAt off i = x.testBit (i - lo) := by
  rw [State.bitAt, wBit_eq, State.putFld, rd_putReg hw, regMask, BitVec.toNat_and, Nat.testBit_and, wSet_toNat _ h64, nSet_testBit, if_pos ⟨hlo, hi⟩,
    BitVec.toNat_ofNat, hm, Bool.and_true]

/-- What GRDn_VIOL_INFO captures of a refused request (R238). -/
def Req.capture (q : Req) : Nat :=
  accCode q.kind + b2n q.secure * 4 + b2n q.seat.isSome * 8 + (q.seat.getD 0) * 16 + (if q.seat.isSome then q.window else 0) * 2 ^ 13 + 2 ^ 19

/-- The capture of a request without a seat is valid. -/
theorem capture_valid (hq : q.seat = none) : q.capture.testBit 19 = true := by
  rw [Req.capture, hq]
  cases q.kind <;> cases q.secure <;> simp [accCode, b2n] <;> decide

/-- The capture of the first refused access, as the guard's record begins with it. -/
def guardCapture (n : Nat) (q : Req) (a : Nat) (u : State) : Act :=
  actIf (!u.bitAt (Reg.grdViolInfo n) 19) (acts [
    setReg (Reg.grdViolAddr n) (BitVec.ofNat 64 (a % 2 ^ 48)),
    setFld (Reg.grdViolInfo n) 0 20 q.capture])

/-- A sound state in which guard `n` has recorded nothing at its station since `s`, memory is as it was, and of the guard's register `P` holds. -/
def State.Refusing (s : State) (n : Nat) (P : State → Prop) (u : State) : Prop := s.Kept u ∧ s.Awaits (stGrd n) u ∧ P u

/-- A register below those of the stations is written. -/
theorem refusing_csr {P Q : State → Prop} {off : Nat} (ho : off < 0x600000) {v : Word} (hpq : ∀ u : State, u.wf = true → P u → Q (u.putReg off v)) :
    (Act.eff (.csr off v)).Takes (s.Refusing n P) (s.Refusing n Q) :=
  takes_eff rfl fun u ⟨⟨hc, hm, he⟩, hawaits, hp⟩ =>
    ⟨⟨calm_soft (e := .csr off v) rfl hc, hm, he⟩, (awaits_csr (not_station_low ho) v u hawaits).2,
      applyEff_csr (reactReg_low ho) v u ▸ hpq u hawaits.1.2 hp⟩

/-- A field of the guard's register is written. -/
theorem refusing_info (hn : n < 28) {P Q : State → Prop} {lo w x : Nat}
    (hpq : ∀ u : State, u.wf = true → P u → Q (u.putFld (Reg.grdViolInfo n) lo w x)) :
    (setFld (Reg.grdViolInfo n) lo w x).Takes (s.Refusing n P) (s.Refusing n Q) :=
  takes_ask_at fun u ⟨hkept, hawaits, hp⟩ => (refusing_csr (P := (· = u)) (by unfold Reg.grdViolInfo; omega) (by
    rintro _ hw rfl
    exact hpq _ hw hp)).weaken (by rintro _ rfl; exact ⟨hkept, hawaits, rfl⟩) fun _ h => h

/-- The first refused access of a guard is captured; one that follows leaves the capture. -/
theorem guardCapture_takes (hn : n < 28) (hq : q.seat = none) (a k : Nat) (u : State)
    (hu : s.Refusing n (fun u => u.fld (Reg.grdViolInfo n) 20 12 = k) u) :
    (guardCapture n q a u).Takes (· = u) (s.Refusing n (State.violated n k)) := by
  unfold guardCapture
  obtain ⟨hkept, hawaits, hcount⟩ := hu
  cases hbit : u.bitAt (Reg.grdViolInfo n) 19
  · refine takes_acts_cons (K := s.Refusing n fun v => v.fld (Reg.grdViolInfo n) 20 12 = k) ?_ (refusing_info hn fun v hw hv => ⟨?_, ?_⟩)
    · refine (refusing_csr (P := fun v => v.fld (Reg.grdViolInfo n) 20 12 = k) (by unfold Reg.grdViolAddr; omega) fun v _ hv => ?_).weaken
        (fun _ he => he ▸ ⟨hkept, hawaits, hcount⟩) fun _ h => h
      rw [State.fld, rd_putReg_ne _ (by unfold Reg.grdViolInfo Reg.grdViolAddr; omega)]
      exact hv
    · rw [bitAt_putFld hw (by decide) (by decide) (by decide) (by rw [grdViolInfo_impl hn]; decide)]
      exact capture_valid hq
    · rw [fld_putFld_ne hw (by decide) (by decide) (by rw [grdViolInfo_impl hn]; decide)]
      exact hv
  · exact fun v hv => ⟨rfl, hv ▸ hkept, hv ▸ hawaits, hv ▸ ⟨hbit, hcount⟩⟩

/-- A refused access is recorded at its guard and stores nothing. -/
theorem guardViolation_takes (hs : s.Sound) (hn : n < 28) (hq : q.seat = none) (a : Nat) :
    (guardViolation n q a).Takes s.Counted fun u => s.Kept u ∧ s.Logged (stGrd n) 4 0 u
      ∧ u.violated n (min (s.fld (Reg.grdViolInfo n) 20 12 + 1) 0xFFF) := by
  refine takes_ask_at fun u hu => ?_
  have hcount : u.fld (Reg.grdViolInfo n) 20 12 = s.fld (Reg.grdViolInfo n) 20 12 := by
    obtain ⟨rows, pend, log, rfl⟩ := hu
    rfl
  rw [hcount]
  refine takes_acts_cons (guardCapture_takes hn hq a _ u ⟨counted_kept hu hs, counted_awaits hu hs, hcount⟩)
    (takes_acts_cons (refusing_info hn (Q := State.violated n (min (s.fld (Reg.grdViolInfo n) 20 12 + 1) 0xFFF)) fun v hw ⟨hbit, hv⟩ => ⟨?_, ?_⟩) ?_)
  · rw [bitAt_iff, fld_putFld_ne hw (by decide) (by decide) (by rw [grdViolInfo_impl hn]; decide), ← bitAt_iff]
    exact hbit
  · rw [fld_putFld hw (by decide) (by rw [grdViolInfo_impl hn]; decide)]
    unfold satAdd
    omega
  · exact ((raiseSrc_recorded (guard_sources n hn) (gravest_grd n (by decide))).both (violated_raise hn)).weaken
      (fun _ ⟨hk, ha, hv⟩ => ⟨⟨hk, ha⟩, hk.1, hv⟩) fun _ ⟨⟨hk, hl⟩, _, hv⟩ => ⟨hk, hl, hv⟩

end Sys2Proof.Machine
end

section
/-!
PROOFS. Reads of device memory (O32): the bytes where every word checks, zeros where a guard refuses or nothing is mapped (R39, R238, R246).
-/

namespace Sys2Proof.Machine

variable {s : State} {t : Txn} {K : State → Prop}

/-! ### Bytes and words -/

theorem leNat_lt (bs : List Byte) : leNat bs < 256 ^ bs.length := by
  induction bs with
  | nil => decide
  | cons b bs ih =>
    have hb := b.isLt
    simp only [leNat, List.length_cons, Nat.pow_succ]
    omega

/-- A number's bytes spell the number. -/
theorem leBytes_leNat (bs : List Byte) : leBytes bs.length (leNat bs) = bs := by
  induction bs with
  | nil => rfl
  | cons b bs ih =>
    have hb := b.isLt
    have hlow : BitVec.ofNat 8 (b.toNat + 256 * leNat bs) = b := BitVec.eq_of_toNat_eq (by rw [BitVec.toNat_ofNat]; omega)
    rw [leNat, List.length_cons, leBytes, hlow, show (b.toNat + 256 * leNat bs) / 256 = leNat bs by omega, ih]

theorem wordBytes_bytesWord {bs : List Byte} (h : bs.length = 8) : wordBytes (bytesWord bs) = bs := by
  have hlt := leNat_lt bs
  rw [h] at hlt
  rw [wordBytes, bytesWord, BitVec.toNat_ofNat, Nat.mod_eq_of_lt (by omega), ← h]
  exact leBytes_leNat bs

@[simp] theorem bytesAt_length (s : State) (k n : Nat) : (s.bytesAt k n).length = n := by simp [State.bytesAt]

theorem bytesAt_add (s : State) (k m n : Nat) : s.bytesAt k (m + n) = s.bytesAt k m ++ s.bytesAt (k + m) n := by
  simp [State.bytesAt, List.range_add, Nat.add_assoc, Function.comp_def]

/-- Adjoining words are adjoining bytes. -/
theorem bytesAt_words (s : State) (b n : Nat) : ((List.range n).map fun i => s.bytesAt ((b + i) * 8) 8).flatten = s.bytesAt (b * 8) (8 * n) := by
  induction n with
  | zero => rfl
  | succ n ih => rw [List.range_succ, List.map_append, List.flatten_append, ih, Nat.mul_succ 8 n, bytesAt_add, show b * 8 + 8 * n = (b + n) * 8 by omega]; simp

/-- A part of bytes. -/
theorem bytesAt_part (s : State) {k d n m : Nat} (h : d + n ≤ m) : ((s.bytesAt k m).drop d).take n = s.bytesAt (k + d) n := by
  obtain ⟨r, rfl⟩ := Nat.exists_eq_add_of_le h
  rw [bytesAt_add, bytesAt_add, List.append_assoc, List.drop_left' (bytesAt_length s k d), List.take_left' (bytesAt_length s _ n)]

/-! ### Reads in which every word checks -/

/-- A read whose words all check returns the bytes of memory. -/
theorem bytesRead_clean {a len : Nat} (hlen : 0 < len) (h : ∀ w ∈ wordsOf a len, s.wordCheck (wordsOf a len) w = .clean) :
    s.bytesRead a len = s.bytesAt a len := by
  have hword : ∀ w ∈ wordsOf a len, wordBytes (s.wordRead (wordsOf a len) w) = s.bytesAt w 8 := fun w hw => by
    rw [State.wordRead, h w hw]
    exact wordBytes_bytesWord (bytesAt_length s w 8)
  rw [State.bytesRead, List.map_congr_left hword, wordsOf, if_neg (by omega), List.map_map]
  have hwords := bytesAt_words s (a / 8) ((a + len - 1) / 8 - a / 8 + 1)
  rw [show (fun w => s.bytesAt w 8) ∘ (fun i => (a / 8 + i) * 8) = fun i => s.bytesAt ((a / 8 + i) * 8) 8 from rfl, hwords, bytesAt_part s (by omega),
    show a / 8 * 8 + a % 8 = a by omega]

/-- It records nothing. -/
theorem wordChecksAct_clean {ws : List Nat} {seat : Option Nat} (h : ∀ w ∈ ws, s.wordCheck ws w = .clean) : (wordChecksAct s ws seat).Takes K K :=
  takes_each fun w hw => by
    rw [h w hw]
    exact takes_skip

theorem any_isBad_clean {ws : List Nat} (h : ∀ w ∈ ws, s.wordCheck ws w = .clean) : (ws.any fun w => (s.wordCheck ws w).isBad) = false :=
  List.any_eq_false.mpr fun w hw => by simp [h w hw, EccOut.isBad]

/-! ### The read of a transaction -/

/-- A transaction without a command that reads. -/
theorem exec_txnRead (hl : s.live) (hst : t.station < 256) (hseat : ∀ n, t.seat = some n → n < 512) (hat : t.atomic = false) (hk : t.kind ≠ .write)
    (h : (txnAccess t (fun u => u.txnRead t) true).Takes (· = s) K) : ∃ u, exec (.memoryTransactionResponse t) s = .next u ∧ K u := by
  refine ⟨_, exec_txn hl hst hseat hat, (takes_ask (J := (· = s)) (K := K) fun _ _ => ?_ : (txnOp t).Takes (· = s) K).run rfl⟩
  rw [hat, if_neg (by decide), if_neg hk]
  exact h

/-- The read of a transaction of a block without a seat. -/
theorem txnRead_device (hseat : t.seat = none) (hk : t.kind ≠ .write) : s.txnRead t = devRead s (plainReq s t) t.addr t.len t.linkErr := by
  have hkind : (if t.kind = .fetch then AccKind.fetch else .read) = t.kind := by cases h : t.kind <;> simp_all
  rw [State.txnRead, hseat, hkind]
  rfl

/-! ### What a read of device memory gives -/

theorem mapped_all {a len : Nat} (h : ∀ i, i < len → s.mapped (a + i) = true) : ((List.range len).all fun i => s.mapped (a + i)) = true :=
  List.all_eq_true.mpr fun i hi => h i (List.mem_range.mp hi)

theorem mapped_not_all {a len : Nat} (h : ∃ i, i < len ∧ s.mapped (a + i) = false) : ((List.range len).all fun i => s.mapped (a + i)) = false :=
  have ⟨i, hi, hm⟩ := h
  List.all_eq_false.mpr ⟨i, List.mem_range.mpr hi, by simp [hm]⟩

variable {q : Req} {a len n : Nat}

theorem devRead_unmapped (h : ∃ i, i < len ∧ s.mapped (a + i) = false) (e : Nat) :
    devRead s q a len e = { bytes := zeros len, err := true, miss := false, act := raiseSrc stRgnMem 2 0 q.seat } := by
  rw [devRead, mapped_not_all h]
  rfl

theorem devRead_refused (hm : ∀ i, i < len → s.mapped (a + i) = true) (hc : s.inCarve a len = false) (hr : s.refusedBy q a len = some n) (e : Nat) :
    devRead s q a len e = { bytes := zeros len, err := false, miss := false, act := guardViolation n q a } := by
  rw [devRead, mapped_all hm, hc, hr]
  rfl

theorem devRead_permitted (hm : ∀ i, i < len → s.mapped (a + i) = true) (hc : s.inCarve a len = false) (hr : s.refusedBy q a len = none) :
    devRead s q a len 0 = { bytes := s.bytesRead a len, err := (wordsOf a len).any fun w => (s.wordCheck (wordsOf a len) w).isBad, miss := false,
                            act := acts [.skip, wordChecksAct s (wordsOf a len) q.seat] } := by
  rw [devRead, mapped_all hm, hc, hr]
  simp [actIf]

/-- The first bytes of zeros are the word 0. -/
theorem bytesWord_zeros (len : Nat) : bytesWord ((zeros len).take 8) = 0 := by
  have hzero : ∀ k, leNat (zeros k) = 0 := fun k => by
    induction k with
    | zero => rfl
    | succ k ih => rw [show zeros (k + 1) = 0 :: zeros k from rfl, leNat, ih]; rfl
  rw [zeros, List.take_replicate, bytesWord, ← zeros, hzero]
  rfl

/-- Settles O32: what the read gives is what `devRead` says of it in the state before the activates. -/
theorem memoryReads : Obligations.MemoryReads := by
  intro t s hl hc hw hk hlen
  have hs : s.Sound := ⟨hc, hw⟩
  have hexec : ∀ {L : State → Prop}, t.station < 256 → t.seat = none → t.atomic = false →
      (txnAccess t (fun u => u.txnRead t) true).Takes (· = s) L → ∃ u, exec (.memoryTransactionResponse t) s = .next u ∧ L u :=
    fun hst hseat hat h => exec_txnRead hl hst (fun n hn => nomatch hseat ▸ hn) hat hk h
  refine ⟨fun ⟨hst, hseat, hcmd, hat, hlink, hmap, hcarve⟩ hperm hclean => ?_, fun n ⟨hst, hseat, hcmd, hat, hlink, hmap, hcarve⟩ href => ?_,
    fun hst hseat hcmd hat hcmp hprf hunmapped => ?_⟩
  · have hread := (txnRead_device hseat hk).trans (hlink ▸ devRead_permitted hmap hcarve hperm)
    refine hexec hst hseat hat (txnAccess_takes (K := s.Kept) (fun u hu => (txnRead_counted hu t).trans hread) hcmd ?_ ?_ fun u ⟨_, hmem, hecc⟩ => ?_)
    · exact fun herr => nomatch (any_isBad_clean hclean).symm.trans herr
    · exact takes_acts_cons takes_skip ((wordChecksAct_clean hclean).weaken (fun _ hu => counted_kept hu hs) fun _ hu => hu)
    · exact ⟨congrArg (fun bs : List Byte => bytesWord (bs.take 8)) (bytesRead_clean hlen hclean), hmem, hecc⟩
  · have hread := (txnRead_device hseat hk).trans (devRead_refused hmap hcarve href t.linkErr)
    exact hexec hst hseat hat (txnAccess_takes (fun u hu => (txnRead_counted hu t).trans hread) hcmd nofun
      (guardViolation_takes hs (refusedBy_lt href) rfl t.addr)
      fun u ⟨⟨_, hmem, _⟩, ⟨_, hlogs⟩, hbit, hcount⟩ => ⟨bytesWord_zeros t.len, hmem, hbit, hcount, hlogs⟩)
  · have hread := (txnRead_device hseat hk).trans (devRead_unmapped hunmapped t.linkErr)
    exact hexec hst hseat hat (txnAccess_takes (fun u hu => (txnRead_counted hu t).trans hread) hcmd (fun _ => ⟨hcmp, hprf⟩)
      (raiseSrc_counted (st := stRgnMem) (src := 2) (cell := 0) hs rfl rfl) fun u ⟨⟨_, hmem, _⟩, _, hlogs⟩ => ⟨bytesWord_zeros t.len, hmem, hlogs⟩)

end Sys2Proof.Machine
end

section
/-!
PROOFS. Writes (O33): each word of a permitted write stores its part of the bytes (R254, R275), host memory takes the bytes at one place (R194), and
what is refused or misses stores none.
-/

namespace Sys2Proof.Machine

variable {s : State} {t : Txn} {K : State → Prop} {a : Nat} {bs : List Byte}

/-! ### Stored bytes -/

theorem sound_memory (hs : s.Sound) : Memory.wf s.mem = true := ((wf_iff s).mp hs.2).1

/-- Memory after a store, byte by byte. -/
theorem memGet_put {m : List Host.Cell} (hm : Memory.wf m = true) (k j : Nat) (bs : List Byte) :
    memGet (memPut k bs m) j = if k ≤ j ∧ j < k + bs.length then bs.getD (j - k) 0 else memGet m j := by
  split
  next h =>
    obtain ⟨i, rfl⟩ := Nat.exists_eq_add_of_le h.1
    rw [memGet_put_in k bs m hm (by omega), Nat.add_sub_cancel_left, List.getD_eq_getElem?_getD, List.getElem?_eq_getElem (by omega)]; rfl
  next h => exact memGet_put_out k bs m (by omega)

/-- A sound state in which a byte of memory has a value. -/
def State.Holding (k : Nat) (v : Byte) (s : State) : Prop := s.Sound ∧ s.byte k = v

/-! ### The words of a write -/

theorem mem_wordsOf {len w : Nat} (h : w ∈ wordsOf a len) : w % 8 = 0 ∧ a < w + 8 ∧ w < a + len := by
  unfold wordsOf at h
  split at h
  · exact absurd h List.not_mem_nil
  · obtain ⟨i, hi, rfl⟩ := List.mem_map.mp h
    have := List.mem_range.mp hi
    omega

/-- Every byte of an access lies in one of its words. -/
theorem wordsOf_covers {len k : Nat} (h1 : a ≤ k) (h2 : k < a + len) : k / 8 * 8 ∈ wordsOf a len := by
  unfold wordsOf
  rw [if_neg (by omega)]
  exact List.mem_map.mpr ⟨k / 8 - a / 8, List.mem_range.mpr (by omega), by omega⟩

/-- The part of a write that falls into a word: its bytes from the later of the two beginnings to the earlier of the two ends. -/
theorem partOf_eq {w : Nat} (h : a < w + 8) : w + (partOf a bs w).1 = max a w ∧ (partOf a bs w).2 = (bs.drop (max a w - a)).take (w + 8 - max a w) := by
  unfold partOf
  split
  next hle => rw [Nat.max_eq_right hle]; exact ⟨rfl, by rw [Nat.add_sub_cancel_left]⟩
  next hlt => rw [Nat.max_eq_left (by omega), Nat.sub_self, List.drop_zero]; exact ⟨by omega, rfl⟩

/-- One word's part, stored. -/
theorem memGet_part {m : List Host.Cell} (hm : Memory.wf m = true) {w : Nat} (h : a < w + 8) (k : Nat) :
    memGet (memPut (w + (partOf a bs w).1) (partOf a bs w).2 m) k =
      if (w ≤ k ∧ k < w + 8) ∧ a ≤ k ∧ k < a + bs.length then bs.getD (k - a) 0 else memGet m k := by
  obtain ⟨hstart, hbytes⟩ := partOf_eq (bs := bs) h
  rw [hstart, hbytes, memGet_put hm, List.length_take, List.length_drop]
  by_cases hk : (w ≤ k ∧ k < w + 8) ∧ a ≤ k ∧ k < a + bs.length
  · rw [if_pos hk, if_pos (by omega), List.getD_eq_getElem?_getD, List.getD_eq_getElem?_getD, List.getElem?_take_of_lt (by omega), List.getElem?_drop,
      show max a w - a + (k - max a w) = k - a by omega]
  · rw [if_neg hk, if_neg (by omega)]

/-- A word that is whole, without check bits, or sound takes its part (R254). -/
theorem storeWord_stores {w : Nat} {seat : Option Nat} (hw : w ∈ wordsOf a bs.length)
    (h : w ∈ partWords a bs → s.protected w = true → s.wordCheck (partWords a bs) w = .clean) :
    storeWord s a bs w seat = acts [.eff (.mem (w + (partOf a bs w).1) (partOf a bs w).2), .eff (.ecc w 0)] := by
  unfold storeWord
  dsimp only
  split
  · rfl
  next hpart =>
    simp only [Bool.or_eq_true, Bool.not_eq_true', decide_eq_true_eq, not_or, Bool.not_eq_false] at hpart
    rw [h (List.mem_filter.mpr ⟨hw, by simpa using hpart.1⟩) hpart.2]

/-- Storing a word's part keeps a byte that has its value, and gives its value to a byte that it covers. -/
theorem storeWord_holding {w k : Nat} {v : Byte} {seat : Option Nat} (hw : w ∈ wordsOf a bs.length)
    (h : w ∈ partWords a bs → s.protected w = true → s.wordCheck (partWords a bs) w = .clean)
    (hv : a ≤ k → k < a + bs.length → bs.getD (k - a) 0 = v) {J : State → Prop} (hJ : ∀ u, J u → u.Sound)
    (hk : ∀ u, J u → u.byte k = v ∨ (w ≤ k ∧ k < w + 8) ∧ a ≤ k ∧ k < a + bs.length) :
    (storeWord s a bs w seat).Takes J (State.Holding k v) := by
  rw [storeWord_stores hw h]
  have hecc : (Act.eff (.ecc w 0)).Takes (State.Holding k v) (State.Holding k v) :=
    takes_eff rfl fun u ⟨⟨hc, hwf⟩, hb⟩ => ⟨⟨calm_soft (e := .ecc w 0) rfl hc, applyEff_wf _ u hwf⟩, hb⟩
  refine takes_acts_cons (takes_eff rfl fun u hu => ?_) hecc
  obtain ⟨hc, hwf⟩ := hJ u hu
  refine ⟨⟨calm_soft (e := .mem _ _) rfl hc, applyEff_wf _ u hwf⟩, ?_⟩
  refine (memGet_part (sound_memory ⟨hc, hwf⟩) (mem_wordsOf hw).2.1 k).trans ?_
  split
  next hin => exact hv hin.2.1 hin.2.2
  next hout => exact (hk u hu).resolve_right hout

/-- In a list of programs that keep `J` and `K`, one that leads from `J` to `K` leads the whole there. -/
theorem takes_each_reaching {α : Type} {J : State → Prop} {xs : List α} {f : α → Act} {x : α} (hx : x ∈ xs) (hJ : ∀ y ∈ xs, (f y).Takes J J)
    (hxK : (f x).Takes J K) (hK : ∀ y ∈ xs, (f y).Takes K K) : (each xs f).Takes J K := by
  induction xs with
  | nil => exact absurd hx List.not_mem_nil
  | cons y ys ih =>
    have hrest : ∀ z ∈ ys, (f z).Takes K K := fun z hz => hK z (List.mem_cons_of_mem y hz)
    rcases List.mem_cons.mp hx with rfl | hmem
    · exact takes_acts_cons hxK (takes_each hrest)
    · exact takes_acts_cons (hJ y List.mem_cons_self) (ih hmem (fun z hz => hJ z (List.mem_cons_of_mem y hz)) hrest)

/-! ### Writes of device memory -/

/-- What holds of every index holds together. -/
theorem takes_forall {α : Type} [Inhabited α] {x : Act} {J : State → Prop} {P : α → State → Prop}
    (h : ∀ k, x.Takes J (P k)) : x.Takes J fun u => ∀ k, P k u :=
  fun u hu => ⟨(h default u hu).1, fun k => (h k u hu).2⟩

theorem devWrite_refused {q : Req} {n : Nat} (hm : ∀ i, i < bs.length → s.mapped (a + i) = true) (hc : s.inCarve a bs.length = false)
    (hr : s.refusedBy q a bs.length = some n) : devWrite s q a bs = { bytes := [], err := false, miss := false, act := guardViolation n q a } := by
  rw [devWrite, mapped_all hm, hc, hr]
  rfl

theorem devWrite_permitted {q : Req} (hm : ∀ i, i < bs.length → s.mapped (a + i) = true) (hc : s.inCarve a bs.length = false)
    (hr : s.refusedBy q a bs.length = none) :
    devWrite s q a bs = { bytes := [], err := (partWords a bs).any fun w => (s.wordCheck (partWords a bs) w).isBad, miss := false,
                          act := acts [each (wordsOf a bs.length) fun w => storeWord s a bs w q.seat,
                            actIf (isStore a) (chkFeed (104 + storeGroup a) q.secure bs)] } := by
  rw [devWrite, mapped_all hm, hc, hr]
  rfl

/-- A word without check bits checks. -/
theorem wordCheck_unprotected {ws : List Nat} {w : Nat} (h : s.protected w = false) : s.wordCheck ws w = .clean := by
  simp [State.wordCheck, State.wordCheckOf, h]

/-- A byte after a write. -/
def State.written (s : State) (a : Nat) (bs : List Byte) (k : Nat) : Byte := if a ≤ k ∧ k < a + bs.length then bs.getD (k - a) 0 else s.byte k

/-- A permitted write whose words check stores its bytes and no other. -/
theorem storeWords_written (hs : s.Sound) (seat : Option Nat) (h : ∀ w ∈ partWords a bs, s.protected w = true → s.wordCheck (partWords a bs) w = .clean)
    (k : Nat) : (each (wordsOf a bs.length) fun w => storeWord s a bs w seat).Takes s.Counted (State.Holding k (s.written a bs k)) := by
  have hkeep : ∀ w ∈ wordsOf a bs.length,
      (storeWord s a bs w seat).Takes (State.Holding k (s.written a bs k)) (State.Holding k (s.written a bs k)) := fun w hw =>
    storeWord_holding hw (h w) (fun h1 h2 => (if_pos ⟨h1, h2⟩).symm) (fun _ hu => hu.1) fun _ hu => .inl hu.2
  by_cases hk : a ≤ k ∧ k < a + bs.length
  · have hword : k / 8 * 8 ≤ k ∧ k < k / 8 * 8 + 8 := by omega
    exact (takes_each_reaching (wordsOf_covers hk.1 hk.2) (fun w _ => sound_foot (T := 0x83819) (storeWord_foot s a bs w seat rfl) rfl)
      (storeWord_holding (wordsOf_covers hk.1 hk.2) (h _) (fun _ _ => (if_pos hk).symm) (fun _ hu => hu) fun _ _ => .inr ⟨hword, hk⟩) hkeep).weaken
      (fun _ hu => counted_sound hu hs) fun _ hu => hu
  · refine (takes_each hkeep).weaken (fun u hu => ⟨counted_sound hu hs, ?_⟩) fun _ hu => hu
    rw [State.byte, (counted_kept hu hs).2.1]
    exact (if_neg hk).symm

theorem chkFeed_holding {k : Nat} {v : Byte} (src : Nat) (secure : Bool) : (chkFeed src secure bs).Takes (State.Holding k v) (State.Holding k v) :=
  takes_of_foot (chkFeed_foot (T := 0x8000) src secure bs rfl) (fun _ h => h.1.1) (fun _ h => in_soft rfl h) fun e u he ⟨⟨hc, hw⟩, hv⟩ =>
    have hsoft := in_soft rfl he
    have hmem : (applyEff e u).mem = u.mem := eff_same he hsoft (p := .memory) rfl u
    ⟨⟨calm_soft hsoft hc, applyEff_wf e u hw⟩, (congrArg (memGet · k) hmem).trans hv⟩

/-! ### The write of a transaction -/

/-- A transaction without a command that writes. -/
theorem exec_txnWrite (hl : s.live) (hst : t.station < 256) (hseat : ∀ n, t.seat = some n → n < 512) (hat : t.atomic = false) (hk : t.kind = .write)
    (hcmd : t.cmd = none) (h : (txnAccess t (fun u => u.txnWrite t) false).Takes (· = s) K) :
    ∃ u, exec (.memoryTransactionResponse t) s = .next u ∧ K u := by
  refine ⟨_, exec_txn hl hst hseat hat, (takes_ask (J := (· = s)) (K := K) fun _ _ => ?_ : (txnOp t).Takes (· = s) K).run rfl⟩
  rw [hat, if_neg (by decide), if_pos hk, hcmd]
  exact takes_acts_cons h takes_skip

theorem txnWrite_device (hseat : t.seat = none) (hk : t.kind = .write) : s.txnWrite t = devWrite s (plainReq s t) t.addr t.data := by
  rw [State.txnWrite, hseat, plainReq, hk]

/-! ### Transactions of a seat (R194, R195) -/

variable {n : Nat} {pl : Place}

theorem txnRead_host (hseat : t.seat = some n) (hh : t.host = .ok)
    (htr : s.translate n t.addr t.len (if t.kind = .fetch then .fetch else .read) = some pl) (hpl : pl.target = 0) :
    s.txnRead t = { bytes := s.bytesAt (hostKey (s.linkOf n) pl.addr) t.len, err := false, miss := false, act := .skip } := by
  simp [State.txnRead, hseat, seatReadE, htr, hpl, hh]

theorem txnWrite_host (hseat : t.seat = some n) (hh : t.host = .ok) (htr : s.translate n t.addr t.data.length .write = some pl) (hpl : pl.target = 0) :
    s.txnWrite t = { bytes := [], err := false, miss := false,
                     act := acts [dirtyLog n pl t.addr t.data.length, .eff (.mem (hostKey (s.linkOf n) pl.addr) t.data)] } := by
  simp [State.txnWrite, hseat, seatWrite, htr, hpl, hh]

theorem txnWrite_miss (hseat : t.seat = some n) (htr : s.translate n t.addr t.data.length .write = none) : s.txnWrite t = missOut t.station n 0 := by
  simp [State.txnWrite, hseat, seatWrite, htr]

/-- Without a dirty-page log in force nothing is logged. -/
theorem dirtyLog_off (h : s.cfld (Reg.dirtyLogBase n) 0 1 = 0) (a len : Nat) : (dirtyLog n pl a len).Takes s.Counted s.Counted :=
  takes_ask_at fun u hu => by
    have hoff : u.cfld (Reg.dirtyLogBase n) 0 1 = 0 := by
      obtain ⟨rows, pend, log, rfl⟩ := hu
      exact h
    simp only [hoff]
    exact takes_skip.weaken (fun _ he => he ▸ hu) fun _ h => h

/-- Settles O33: what the write does is what `devWrite` and `seatWrite` say of it in the state before the activates. -/
theorem memoryWrites : Obligations.MemoryWrites := by
  refine ⟨fun t s hl hc hw hk hlen ⟨hst, hseat, hcmd, hat, hlink, hmap, hcarve⟩ => ?_, fun t n s hl hc hw hst hseat hn hcmd hat hhost => ?_⟩
  · have hs : s.Sound := ⟨hc, hw⟩
    have hexec : ∀ {L : State → Prop}, (txnAccess t (fun u => u.txnWrite t) false).Takes (· = s) L →
        ∃ u, exec (.memoryTransactionResponse t) s = .next u ∧ L u := exec_txnWrite hl hst (fun n hn => nomatch hseat ▸ hn) hat hk hcmd
    refine ⟨fun hperm hclean => ?_, fun n href => ?_⟩
    · have hwrite := (txnWrite_device hseat hk).trans (devWrite_permitted hmap hcarve hperm)
      have hcheck : ∀ w ∈ partWords t.addr t.data, s.wordCheck (partWords t.addr t.data) w = .clean := fun w hw => by
        cases hp : s.protected w
        · exact wordCheck_unprotected hp
        · exact hclean w hw hp
      refine hexec (txnAccess_takes (K := fun u => ∀ k, State.Holding k (s.written t.addr t.data k) u) (fun u hu => (txnWrite_counted hu t).trans hwrite)
        hcmd (fun herr => nomatch (any_isBad_clean hcheck).symm.trans herr) (takes_forall fun k => ?_) fun u hu k => (hu k).2)
      exact takes_acts_cons (storeWords_written hs _ hclean k) (takes_actIf fun _ => chkFeed_holding _ _)
    · have hwrite := (txnWrite_device hseat hk).trans (devWrite_refused hmap hcarve href)
      exact hexec (txnAccess_takes (fun u hu => (txnWrite_counted hu t).trans hwrite) hcmd nofun (guardViolation_takes hs (refusedBy_lt href) rfl t.addr)
        fun u ⟨⟨_, hmem, hecc⟩, ⟨_, hlogs⟩, _⟩ => ⟨hmem, hecc, hlogs⟩)
  · have hs : s.Sound := ⟨hc, hw⟩
    have hn' : ∀ m, t.seat = some m → m < 512 := fun m hm => Option.some.inj (hseat.symm.trans hm) ▸ hn
    refine ⟨fun pl hk htr hpl => ?_, fun pl hk htr hpl hlog => ?_, fun hk htr hx => ?_⟩
    · have hread := txnRead_host hseat hhost htr hpl
      exact exec_txnRead hl hst hn' hat hk (txnAccess_takes (fun u hu => (txnRead_counted hu t).trans hread) hcmd nofun takes_skip
        fun u hu => ⟨(counted_kept hu hs).2.1, rfl⟩)
    · have hwrite := txnWrite_host hseat hhost htr hpl
      have hstore : (Act.eff (.mem (hostKey (s.linkOf n) pl.addr) t.data)).Takes s.Counted
          fun u => u.mem = memPut (hostKey (s.linkOf n) pl.addr) t.data s.mem :=
        takes_eff rfl fun u hu => congrArg (memPut _ _) (counted_kept hu hs).2.1
      exact exec_txnWrite hl hst hn' hat hk hcmd (txnAccess_takes (fun u hu => (txnWrite_counted hu t).trans hwrite) hcmd nofun
        (takes_acts_cons (dirtyLog_off hlog _ _) hstore)
        fun u hu => ⟨hu, fun k hk => (congrArg (memGet · k) hu).trans (memGet_put_out _ _ _ hk)⟩)
    · have hwrite := txnWrite_miss hseat htr
      exact exec_txnWrite hl hst hn' hat hk hcmd (txnAccess_takes (fun u hu => (txnWrite_counted hu t).trans hwrite) hcmd nofun
        (raiseSrc_counted (cell := 0) (seat := some n) hs hx (gravest_low _ (by decide))) fun u ⟨⟨_, hmem, _⟩, _, hlogs⟩ => ⟨hmem, hlogs⟩)

end Sys2Proof.Machine
end

section
/-!
SUPPORT. Runs of the render engine: while no source of the engine's station resets it, a run outlives what its turns do to memory and what the cores do
when a turn leaves one. Its turns stay as they are counted, and a limit that it has reached stays reached.
-/

namespace Sys2Proof.Machine

variable {s : State} {id : Nat} {k : Option Nat} {r r' : RndRun} {a : Act}

/-! ### What traffic and settling leave of a run -/

/-- A run that has done no turn more: at most its work has begun, it has metered bytes, reached a limit or failed. -/
def RndRun.Meters (r r' : RndRun) : Prop :=
  ∃ begun sets mem past stop fault, r' = { r with begun := begun, sets := sets, mem := mem, past := past, stop := stop, fault := fault }
    ∧ (r.past = true → past = true) ∧ (r.stop = true → stop = true)

theorem RndRun.Meters.refl (r : RndRun) : r.Meters r := ⟨_, _, _, _, _, _, rfl, fun h => h, fun h => h⟩

theorem RndRun.Meters.isPass (h : r.Meters r') : r'.isPass = r.isPass := by
  obtain ⟨_, _, _, _, _, _, rfl, -⟩ := h
  rfl

theorem RndRun.Meters.tiles (h : r.Meters r') : r'.tiles = r.tiles := by
  obtain ⟨_, _, _, _, _, _, rfl, -⟩ := h
  rfl

/-- What is metered on top of a run. -/
theorem RndRun.Meters.trans {r'' : RndRun} (h : r.Meters r') (h' : r'.Meters r'') : r.Meters r'' := by
  obtain ⟨b, ss, m, p, st, f, rfl, hp, hst⟩ := h
  obtain ⟨b', ss', m', p', st', f', rfl, hp', hst'⟩ := h'
  exact ⟨b', ss', m', p', st', f', rfl, fun h => hp' (hp h), fun h => hst' (hst h)⟩

/-- A state in which the run of a command is `r` but for what it has metered, and no fault resets the engine. -/
def State.Runs (id : Nat) (r : RndRun) (s : State) : Prop := s.calm ∧ s.noReset stRnd ∧ ∃ r', s.run? (some id) = some r' ∧ r.Meters r'

/-- The same where binning may have ended meanwhile. -/
def State.RunsOn (id : Nat) (r : RndRun) (s : State) : Prop := ∃ tiles, s.Runs id { r with tiles := tiles }

theorem run?_cmd (h : s.run? k = some r) : r.cmd = k := by simpa using List.find?_some h

/-- Whatever keeps a run keeps it when binning may have ended. -/
theorem runsOn_of_runs (h : ∀ r, a.Takes (State.Runs id r) (State.Runs id r)) : a.Takes (State.RunsOn id r) (State.RunsOn id r) :=
  fun s ⟨ts, hs⟩ => ⟨(h _ s hs).1, ts, (h _ s hs).2⟩

/-! ### Effects that keep a run -/

theorem noReset_soft {e : Eff} (he : e.soft = true) {st : Nat} (hst : st < 256) (h : s.noReset st) : (applyEff e s).noReset st := fun src hsrc => by
  rw [react_soft he s hst hsrc]
  exact h src hsrc

/-- Every kind of effect but those that end a step, set a reaction mask or change the engines for video. -/
def quiet : Nat := 0x3FFDFF7D

theorem runs_quiet (ha : a.Foot (In quiet)) : a.Takes (State.Runs id r) (State.Runs id r) :=
  takes_of_foot ha (fun _ h => h.1) (fun _ he => in_soft rfl he) fun e s he ⟨hc, hn, hr⟩ => by
    have hsoft : e.soft = true := in_soft (T := quiet) rfl he
    have hvid : (applyEff e s).vid = s.vid := eff_same (p := .vid) he hsoft rfl s
    refine ⟨calm_soft hsoft hc, noReset_soft hsoft (by decide) hn, ?_⟩
    rw [State.run?, hvid]
    exact hr

/-- A change of the engines for video under which the run that stands for a command becomes `r'`, but for what it meters. -/
theorem runs_vid {f : Vid → Vid} (h : ∀ s : State, s.Runs id r → ∃ x, (applyEff (.vid f) s).run? (some id) = some x ∧ r'.Meters x) :
    (Act.eff (.vid f)).Takes (State.Runs id r) (State.Runs id r') :=
  takes_eff rfl fun s hs => ⟨calm_soft (e := .vid f) rfl hs.1, noReset_soft (e := .vid f) rfl (by decide) hs.2.1, h s hs⟩

/-- Turns are taken and left, with the runs as they are. -/
theorem runs_turns {f : Vid → Vid} (h : ∀ v, (f v).runs = v.runs) : (Act.eff (.vid f)).Takes (State.Runs id r) (State.Runs id r) :=
  runs_vid fun s ⟨_, _, hr⟩ => by
    rw [State.run?, applyEff, h]
    exact hr

/-- The run of a command after a change of the runs of one. -/
theorem run?_runUpd {f : RndRun → RndRun} (hf : ∀ x, (f x).cmd = x.cmd) (j : Option Nat) (s : State) :
    (runAct (runUpd k f) s).run? j = (s.run? j).map fun x => if x.cmd = k then f x else x := by
  have hkey : ((fun x : RndRun => decide (x.cmd = j)) ∘ fun x => if x.cmd = k then f x else x) = fun x => decide (x.cmd = j) := by
    funext x
    by_cases hx : x.cmd = k <;> simp [hx, hf]
  simp only [runUpd, runAct_eff, applyEff, State.run?, mapIf, List.find?_map, decide_eq_true_eq, hkey]

/-- A change of the run of a command. -/
theorem runUpd_takes {f : RndRun → RndRun} (hf : ∀ x, (f x).cmd = x.cmd) (h : ∀ x, r.Meters x → r'.Meters (f x)) :
    (runUpd (some id) f).Takes (State.Runs id r) (State.Runs id r') :=
  runs_vid fun s ⟨_, _, x, hx, hm⟩ => ⟨f x, by
    have := run?_runUpd (k := some id) hf (some id) s
    rwa [hx, Option.map_some, if_pos (run?_cmd hx)] at this, h x hm⟩

/-- A change of another run. -/
theorem runUpd_other {f : RndRun → RndRun} (hk : k ≠ some id) (hf : ∀ x, (f x).cmd = x.cmd) : (runUpd k f).Takes (State.Runs id r) (State.Runs id r) :=
  runs_vid fun s ⟨_, _, x, hx, hm⟩ => ⟨x, by
    have := run?_runUpd (k := k) hf (some id) s
    rwa [hx, Option.map_some, if_neg fun h => hk (h.symm.trans (run?_cmd hx))] at this, hm⟩

/-- A change that meters keeps every run. -/
theorem runUpd_runs {f : RndRun → RndRun} (hf : ∀ x : RndRun, x.Meters (f x)) : (runUpd k f).Takes (State.Runs id r) (State.Runs id r) := by
  have hcmd : ∀ x, (f x).cmd = x.cmd := fun x => by
    obtain ⟨_, _, _, _, _, _, hx, -⟩ := hf x
    rw [hx]
  by_cases hk : k = some id
  · subst hk
    exact runUpd_takes hcmd fun x hx => hx.trans (hf x)
  · exact runUpd_other hk hcmd

theorem runAct_onRun {g : State → RndRun → Act} (h : s.run? k = some r) : runAct (onRun k g) s = runAct (g s r) s := by
  rw [onRun, runAct_ask, h]

theorem takes_onRun {J : State → Prop} {g : State → RndRun → Act} (h : ∀ s r, s.run? k = some r → (g s r).Takes J J) : (onRun k g).Takes J J :=
  takes_ask fun s _ => by
    cases hr : s.run? k with
    | none => exact takes_skip
    | some r => exact h s r hr

theorem runFault_runs : (runFault k).Takes (State.Runs id r) (State.Runs id r) :=
  runUpd_runs fun _ => ⟨_, _, _, _, _, _, rfl, fun h => h, fun h => h⟩

theorem runMeter_runs (n : Nat) : (runMeter k n).Takes (State.Runs id r) (State.Runs id r) :=
  runUpd_runs fun x => by
    dsimp only
    split
    · exact ⟨_, _, _, _, _, _, rfl, fun _ => rfl, fun _ => rfl⟩
    · exact ⟨_, _, _, _, _, _, rfl, fun h => h, fun h => h⟩

/-! ### Faults and memory (R195, R542) -/

/-- A detection at the engine's own station, none of whose sources resets it. -/
theorem rndRaise_runs (src cell : Nat) (seat : Option Nat) (hg : gravest stRnd src = false) :
    (raiseSrc stRnd src cell seat).Takes (State.Runs id r) (State.Runs id r) := by
  by_cases hx : srcExists stRnd src = true
  · have hsrc : src < 32 := (srcExists_lt hx).2
    rw [raiseSrc, if_neg (by simp [hx])]
    refine takes_ask fun s _ => takes_acts_cons (runs_quiet (setBits_foot _ _ rfl)) (takes_acts_cons (runs_quiet (setFld_foot _ _ _ _ rfl))
      (takes_acts_cons (takes_actIf fun _ => runs_quiet (setReg_foot _ _ rfl)) (takes_ask fun u ⟨hc, hn, _⟩ => ?_)))
    obtain ⟨hchip, hsafe⟩ := hc stRnd src (by decide) hsrc hg
    rw [if_neg (by simp [hsafe]), if_neg (by simp [hchip])]
    exact takes_acts_cons (takes_actIf fun _ => runs_quiet (setFld_foot _ _ _ _ rfl))
      (takes_acts_cons (takes_actIf fun hreset => absurd ((hn src hsrc).symm.trans hreset) nofun)
      (takes_acts_cons (takes_actIf fun _ => runs_quiet (by simp [quiet])) (takes_actIf fun _ => runs_quiet (irqReact_foot _ _ _ rfl))))
  · rw [raiseSrc, if_pos (by simp [hx])]
    exact takes_skip

theorem missOut_runs (seat len : Nat) : (missOut stRnd seat len).act.Takes (State.Runs id r) (State.Runs id r) := rndRaise_runs 1 0 _ rfl

theorem ownerRead_runs (s : State) (owner : Option Nat) (addr n : Nat) (h : HostAns) :
    (ownerRead s stRnd owner addr n h).act.Takes (State.Runs id r) (State.Runs id r) := by
  cases owner with
  | none => exact runs_quiet (devRead_foot _ _ _ _ _ rfl)
  | some seat =>
    have hfailed : (raiseSrc stPci 4 0 (some seat)).Takes (State.Runs id r) (State.Runs id r) :=
      runs_quiet (raiseSrc_plain (T := quiet) (st := stPci) rfl (by decide) (src := 4) rfl 0 (some seat) rfl)
    change (seatReadE s stRnd seat addr n .read h 0).act.Takes _ _
    unfold seatReadE
    split
    · exact missOut_runs _ _
    · split
      · split
        · exact missOut_runs _ _
        · split
          · exact hfailed
          · exact takes_skip
      · exact runs_quiet (devRead_foot _ _ _ _ _ rfl)

theorem runWrite_runs (s : State) (owner : Option Nat) (addr : Nat) (bs : List Byte) (h : HostAns) :
    (s.runWrite owner addr bs h).act.Takes (State.Runs id r) (State.Runs id r) := by
  cases owner with
  | none => exact runs_quiet (devWrite_foot _ _ _ _ rfl)
  | some seat =>
    change (seatWrite s stRnd seat addr bs h).act.Takes _ _
    unfold seatWrite
    split
    · exact missOut_runs _ _
    · split
      · split
        · exact missOut_runs _ _
        · exact takes_acts_cons (runs_quiet (dirtyLog_foot _ _ _ _ rfl)) (runs_quiet (by simp [quiet]))
      · exact runs_quiet (devWrite_foot _ _ _ _ rfl)

theorem runStore_runs (x : RndRun) (addr : Nat) (bs : List Byte) (h : HostAns) :
    (runStore x addr bs h).Takes (State.Runs id r) (State.Runs id r) :=
  takes_each fun _ _ => takes_ask fun s _ => takes_acts_cons (runWrite_runs s _ _ _ _) (takes_actIf fun _ => runFault_runs)

theorem runReadAct_runs (s : State) (x : RndRun) (addr len n : Nat) (h : HostAns) :
    (runReadAct k n (s.runReads x addr len h)).Takes (State.Runs id r) (State.Runs id r) := by
  refine takes_acts_cons (takes_each fun o ho => ?_) (takes_acts_cons (takes_actIf fun _ => runFault_runs) (runMeter_runs n))
  obtain ⟨p, -, rfl⟩ := List.mem_map.mp ho
  exact ownerRead_runs _ _ _ _ _

theorem accAct_runs (h : HostAns) (x : ProgAcc) : (accAct k h x).Takes (State.Runs id r) (State.Runs id r) :=
  takes_onRun fun s y _ => by
    cases y.accPlace x with
    | none => exact takes_skip
    | some addr =>
      exact takes_acts_cons (takes_actIf fun _ => runReadAct_runs _ _ _ _ _ _)
        (takes_actIf fun _ => takes_acts_cons (runStore_runs _ _ _ _) (runMeter_runs _))

/-- What a turn does to memory besides its attachments (R394) leaves its run but for what it meters. -/
theorem turnTraffic_runs (t : TurnIn) : (turnTraffic k t).Takes (State.Runs id r) (State.Runs id r) := by
  have hinject : ∀ s : State, (actIf (s.armed stRnd 5) (clearBits (Reg.fsInject stRnd) (2 ^ 5))).Takes (State.Runs id r) (State.Runs id r) :=
    fun _ => takes_actIf fun _ => runs_quiet (clearBits_foot _ _ rfl)
  have howed : ∀ c, (cmdUpd c fun c => { c with inflight := c.inflight + t.owed }).Takes (State.Runs id r) (State.Runs id r) :=
    fun _ => runs_quiet (by simp [cmdUpd, quiet])
  exact takes_acts_cons (takes_each fun _ _ => accAct_runs _ _) (takes_acts_cons (runMeter_runs _) (takes_acts_cons (takes_actOpt fun c _ => howed c)
    (takes_acts_cons (takes_actIf fun _ => rndRaise_runs _ _ _ rfl) (takes_actIf fun _ => takes_acts_cons (takes_ask fun s _ => hinject s)
      (takes_acts_cons (rndRaise_runs _ _ _ rfl) runFault_runs)))))

/-! ### Cores (R400) -/

theorem runBegin_runs (x : RndRun) (params : List Word) (h : HostAns) : (runBegin x params h).Takes (State.Runs id r) (State.Runs id r) := by
  have htable : ∀ y, (readTable x.cmd y h).Takes (State.Runs id r) (State.Runs id r) := fun y => takes_onRun fun s z _ =>
    takes_acts_cons (runReadAct_runs _ _ _ _ _ _) (runUpd_runs fun _ => ⟨_, _, _, _, _, _, rfl, fun h => h, fun h => h⟩)
  exact takes_acts_cons (takes_each fun y _ => htable y) (runUpd_runs fun _ => ⟨_, _, _, _, _, _, rfl, fun h => h, fun h => h⟩)

/-- Binning that ends gives a run its tiles (R413). -/
theorem runBin_runsOn (x : RndRun) : (runBin x).Takes (State.RunsOn id r) (State.RunsOn id r) := by
  by_cases hk : x.cmd = some id
  · have hbin : ∀ ts, (runBin x).Takes (State.Runs id { r with tiles := ts })
        (State.Runs id { r with tiles := some ((x.needTiles x.bin).take (fw x.words 3 32 32)) }) := fun ts => by
      rw [runBin, hk]
      refine runUpd_takes (fun _ => rfl) fun y ⟨_, _, _, _, _, _, hy, hp, hst⟩ => hy ▸ ⟨_, _, _, _, _, _, rfl, fun h => by simp [hp h], hst⟩
    exact fun s ⟨ts, hs⟩ => ⟨(hbin ts s hs).1, _, (hbin ts s hs).2⟩
  · exact runsOn_of_runs fun _ => runUpd_other hk fun _ => rfl

/-- The end of the secure submission leaves the runs of commands (R432). -/
theorem secqEnd_runs (x : RndRun) : (secqEnd x).Takes (State.Runs id r) (State.Runs id r) := by
  have hstamp : ∀ addr bell, (stampPut stRnd none addr bell false 0).Takes (State.Runs id r) (State.Runs id r) := fun addr bell =>
    takes_actIf fun _ => takes_acts_cons (takes_ask fun _ _ => runs_quiet (devWrite_foot _ _ _ _ rfl))
      (takes_ask fun _ _ => runs_quiet (devWrite_foot _ _ _ _ rfl))
  refine takes_ask fun s _ => takes_acts_cons (takes_actIf fun _ => hstamp _ _) (takes_acts_cons (runs_quiet (setFld_foot _ _ _ _ rfl)) ?_)
  refine runs_vid fun u ⟨_, _, y, hy, hm⟩ => ⟨y, ?_, hm⟩
  have hkey : (fun z : RndRun => z.cmd.isSome && decide (z.cmd = some id)) = fun z => decide (z.cmd = some id) := by
    funext z
    by_cases hz : z.cmd = some id <;> simp [hz]
  simpa only [State.run?, applyEff, List.find?_filter, Bool.decide_and, Bool.decide_eq_true, hkey] using hy

/-- A run, this one or another, that moves on. -/
theorem runSettle_runsOn : (runSettle k).Takes (State.RunsOn id r) (State.RunsOn id r) := by
  have hprogress : ∀ x, (runProgress x).Takes (State.RunsOn id r) (State.RunsOn id r) := fun x =>
    runsOn_of_runs fun _ => runs_quiet (runProgress_foot x rfl)
  have hend : ∀ c f, (∀ y : Cmd, y.Goes (f y)) → (cmdEnd c f).Takes (State.RunsOn id r) (State.RunsOn id r) := fun c f hf =>
    runsOn_of_runs fun _ => runs_quiet (cmdEnd_foot c f hf rfl)
  refine takes_onRun fun s x _ => takes_ite (fun _ => takes_skip) fun _ =>
    takes_acts_cons (takes_actIf fun _ => runBin_runsOn x) (takes_onRun fun s y _ => takes_acts_cons (hprogress y) (takes_actIf fun _ => ?_))
  cases y.cmd with
  | none => exact runsOn_of_runs fun _ => secqEnd_runs y
  | some c => exact hend c _ fun _ => by simp

theorem coreTake_runs (c : Nat) : (coreTake c).Takes (State.Runs id r) (State.Runs id r) :=
  takes_ask fun s _ => takes_ite (fun _ => takes_skip) fun _ => by
    cases s.corePick c with
    | none => exact takes_skip
    | some x => exact takes_actOpt fun _ _ => runs_turns fun _ => rfl

theorem coresTake_runsOn : coresTake.Takes (State.RunsOn id r) (State.RunsOn id r) :=
  takes_acts_cons (takes_ask fun _ _ => takes_each fun x _ => runsOn_of_runs fun _ => runBegin_runs x _ _)
    (takes_acts_cons (takes_ask fun _ _ => takes_each fun _ _ => runSettle_runsOn) (takes_each fun c _ => runsOn_of_runs fun _ => coreTake_runs c))

/-- A turn that leaves its core changes no run but as settling does. -/
theorem turnLeave_runsOn (c : Nat) : (turnLeave c k).Takes (State.RunsOn id r) (State.RunsOn id r) :=
  takes_acts_cons (runsOn_of_runs fun _ => runs_turns fun _ => rfl) (takes_acts_cons runSettle_runsOn coresTake_runsOn)

end Sys2Proof.Machine
end

section
/-!
PROOFS. Limits of an envelope (O51): a turn that reaches its cycle limit leaves its run cut, and the rest of what the turn does keeps it so (R105, R422,
R428); the other limits mark the run or the codec's work at once (R431).
-/

namespace Sys2Proof.Machine

variable {s : State} {id u : Nat} {r : RndRun} {x : TurnIn}

/-! ### A turn that is cut -/

/-- What a turn that is cut leaves of its run: a draw what it has binned, of a tile nothing written, of a slice the workgroups that finished. -/
def RndRun.cut (r : RndRun) (u : Nat) (x : TurnIn) : RndRun :=
  if !r.isPass then { r with done := r.done ++ [u], groups := r.groups + min x.groups (r.sliceSize u), past := true, stop := true }
  else if r.tiles.isNone then { r with drawn := r.drawn ++ [(u, x.outWords, x.prims)], past := true }
  else { r with done := r.done ++ [u], past := true }

theorem cut_slice (h : r.isPass = false) :
    r.cut u x = { r with done := r.done ++ [u], groups := r.groups + min x.groups (r.sliceSize u), past := true, stop := true } := if_pos (by simp [h])

theorem cut_draw (h : r.isPass = true) (ht : r.tiles = none) : r.cut u x = { r with drawn := r.drawn ++ [(u, x.outWords, x.prims)], past := true } := by
  simp [RndRun.cut, h, ht]

theorem cut_tile (h : r.isPass = true) (ht : r.tiles.isSome = true) : r.cut u x = { r with done := r.done ++ [u], past := true } := by
  simp [RndRun.cut, h, Option.isNone_eq_false_iff.2 ht]

theorem cut_past : (r.cut u x).past = true := by
  unfold RndRun.cut
  split
  · rfl
  · split <;> rfl

/-- The check of the tile memory finds nothing but an error of the tile memory. -/
theorem tileChecked_eq (s : State) (k : Option Nat) (x : TurnIn) : ∃ e, s.tileChecked k x = { x with tileErr := e } := by
  unfold State.tileChecked
  split
  · exact ⟨2, rfl⟩
  · exact ⟨x.tileErr, rfl⟩

/-- A turn that is cut, on the run of a command. -/
theorem turnCutOp_takes (hu : s.turn? x.core = some (some id, u)) : (turnCutOp x).Takes (fun t => t = s ∧ t.Runs id r) (State.RunsOn id (r.cut u x)) := by
  obtain ⟨e, hx⟩ := tileChecked_eq s (some id) x
  refine takes_ask fun t ⟨ht, _⟩ => ?_
  subst ht
  rw [hu]
  dsimp only
  rw [hx]
  refine takes_acts_cons ((turnTraffic_runs _).weaken (fun _ h => h.2) fun _ h => h) (takes_acts_cons (K := State.Runs id (r.cut u x)) ?_
    ((turnLeave_runsOn _).weaken (fun _ h => ⟨_, h⟩) fun _ h => h))
  refine takes_ask fun v ⟨_, _, y, hy, hm⟩ => ?_
  have hcmd : y.cmd = some id := run?_cmd hy
  rw [hy]
  refine takes_ite (fun hslice => ?_) fun hpass => takes_ite (fun hdraw => ?_) fun htile => ?_
  · rw [hm.isPass] at hslice
    rw [cut_slice (by simpa using hslice)]
    exact runUpd_takes (fun _ => rfl) fun y ⟨_, _, _, _, _, _, hy, _⟩ => hy ▸ ⟨_, _, _, _, _, _, rfl, fun _ => rfl, fun _ => rfl⟩
  · rw [hm.isPass] at hpass
    rw [hm.tiles] at hdraw
    rw [cut_draw (by simpa using hpass) (by simpa using hdraw), drawTurn, hcmd]
    exact takes_acts_cons
      (runUpd_takes (r' := { r with drawn := r.drawn ++ [(u, x.outWords, x.prims)] }) (fun _ => rfl) fun y ⟨_, _, _, _, _, _, hy, hp, hst⟩ =>
        hy ▸ ⟨_, _, _, _, _, _, rfl, hp, hst⟩)
      (runUpd_takes (fun _ => rfl) fun y ⟨_, _, _, _, _, _, hy, _, hst⟩ => hy ▸ ⟨_, _, _, _, _, _, rfl, fun _ => rfl, hst⟩)
  · rw [hm.isPass] at hpass
    rw [hm.tiles] at htile
    rw [cut_tile (by simpa using hpass) (by simpa [Option.isSome_iff_ne_none] using htile)]
    exact runUpd_takes (fun _ => rfl) fun y ⟨_, _, _, _, _, _, hy, _, hst⟩ => hy ▸ ⟨_, _, _, _, _, _, rfl, fun _ => rfl, hst⟩

/-- A turn that reaches its cycle limit: the run as it is cut, with its tiles where binning has ended since, and what was metered. -/
theorem turnCycleLimit_run (hl : s.live) (hx : x.core < 24) (hu : s.turn? x.core = some (some id, u)) (hs : s.Runs id r) :
    ∃ t tiles r', exec (.turnCycleLimit x) s = .next t ∧ t.run? (some id) = some r' ∧ { r.cut u x with tiles := tiles }.Meters r' := by
  obtain ⟨tiles, -, -, r', hr', hm⟩ := (turnCutOp_takes hu).run ⟨rfl, hs⟩
  exact ⟨_, tiles, r', live_next hl (decide_eq_true hx) _, hr', hm⟩

/-! ### The obligation -/

/-- Settles O51: a turn that is cut leaves its run as `RndRun.cut` says; each other limit is one change of the run or of the codec's work. -/
theorem limitsCut : Obligations.LimitsCut := by
  intro id s hl
  refine ⟨fun x u r hc hn hx hu hr => ?_, fun r hr hpass hstop => ?_, fun r hr hunits => ?_, fun r hr => ?_⟩
  · obtain ⟨t, tiles, r', ht, hr', _, _, _, _, _, _, rfl, hpast, hstop⟩ := turnCycleLimit_run hl hx hu ⟨hc, hn, r, hr, .refl r⟩
    refine ⟨t, _, ht, hr', hpast ?_, fun hpass => ?_, fun hpass htiles => ?_, fun hpass htiles => ?_⟩
    · exact cut_past
    · rw [cut_slice hpass] at hstop ⊢
      exact ⟨hstop rfl, rfl, rfl⟩
    · rw [cut_draw hpass htiles]
    · rw [cut_tile hpass htiles]
      exact ⟨rfl, rfl, rfl⟩
  · refine (live_next hl rfl _).trans (congrArg _ ((runAct_onRun hr).trans ?_))
    rw [if_neg nofun, runAct_actIf, if_pos (by simp [hpass, hstop])]
    rfl
  · refine (live_next hl rfl _).trans (congrArg _ ((runAct_onRun hr).trans ?_))
    rw [if_pos rfl, runAct_actIf, if_pos (by simpa using hunits)]
    rfl
  · have hcmd : r.cmd = some id := by
      have := List.find?_some hr
      simp only [Bool.and_eq_true, decide_eq_true_eq] at this
      exact this.1
    refine (live_next hl rfl _).trans (congrArg _ ?_)
    simp only [limitOp, runAct_ask, hr, actOpt_some, codecUpd, hcmd]
    rfl

end Sys2Proof.Machine
end

section
/-!
SUPPORT. Maps, lists and registers written several at a time, and the states of seats: what a run of such writes leaves at the keys that it names and at
every other.
-/

namespace Sys2Proof.Machine

variable {s : State}

/-! ### Sparse maps and lists -/

section
variable {α : Type} [DecidableEq α] {d : Nat → α} {m : List (Nat × α)} {key : Nat → Nat} {w : Nat → α} {ks : List Nat}

/-- A value that is no default reads back, whatever the map. -/
theorem mapGet_put_of_ne_default {k : Nat} {v : α} (hv : v ≠ d k) (m : List (Nat × α)) : mapGet d k (mapPut d k v m) = v := by
  induction m with
  | nil => simp [mapPut, mapGet, hv]
  | cons e m ih =>
    obtain ⟨k', v'⟩ := e
    rw [mapPut, if_neg hv]
    split
    · simp [mapGet]
    · split
      · simp [mapGet]
      next hne => simpa [mapGet, hne] using ih

/-- Writes leave a key that none of them names. -/
theorem mapGet_puts_ne {k : Nat} (h : ∀ i ∈ ks, k ≠ key i) : mapGet d k (ks.foldl (fun m i => mapPut d (key i) (w i) m) m) = mapGet d k m := by
  induction ks generalizing m with
  | nil => rfl
  | cons j ks ih =>
    rw [List.foldl_cons, ih fun i hi => h i (List.mem_cons_of_mem j hi), mapGet_put_ne d (h j List.mem_cons_self)]

/-- Each of several writes reads back, where the map is canonical or no value is a default. -/
theorem mapGet_puts (hkey : Function.Injective key) (h : mapWf d m = true ∨ ∀ i ∈ ks, w i ≠ d (key i)) {i : Nat} (hi : i ∈ ks) :
    mapGet d (key i) (ks.foldl (fun m i => mapPut d (key i) (w i) m) m) = w i := by
  induction ks generalizing m with
  | nil => cases hi
  | cons j ks ih =>
    rw [List.foldl_cons]
    by_cases hlater : i ∈ ks
    · exact ih (h.imp (mapWf_put d _ _ m) fun h i hi => h i (List.mem_cons_of_mem j hi)) hlater
    · obtain rfl : i = j := (List.mem_cons.mp hi).resolve_right hlater
      rw [mapGet_puts_ne fun j hj heq => hlater (by rwa [hkey heq])]
      exact h.elim (mapGet_put_wf d _ _ m) fun h => mapGet_put_of_ne_default (h i List.mem_cons_self) m

end

theorem listSet_eq_set {α : Type} (xs : List α) (i : Nat) (v : α) : listSet xs i v = xs.set i v := by
  induction xs generalizing i with
  | nil => rfl
  | cons x xs ih =>
    cases i with
    | zero => rfl
    | succ i => simp [listSet, ih]

/-! ### Runs -/

/-- A part of a program that is known to end nothing is followed by the rest. -/
theorem runAct_takes_cons {J K : State → Prop} {a : Act} (ha : a.Takes J K) (hs : J s) (as : List Act) :
    runAct (acts (a :: as)) s = runAct (acts as) (runAct a s) := by
  rw [runAct, runGo_acts_cons, runGo_seq_eq, (ha s hs).1]
  rfl

/-! ### Registers -/

theorem putReg_wf (h : s.wf = true) (off : Nat) (v : Word) : (s.putReg off v).wf = true := by
  obtain ⟨hmem, hecc, hcsr, hrest⟩ := (wf_iff s).mp h
  exact (wf_iff _).mpr ⟨hmem, hecc, regsWf_put off v _ hcsr, hrest⟩

theorem putFld_wf (h : s.wf = true) (off lo w x : Nat) : (s.putFld off lo w x).wf = true := putReg_wf h off _

theorem rd_putFld_ne (s : State) {off off' : Nat} (h : off' ≠ off) (lo w x : Nat) : (s.putFld off lo w x).rd off' = s.rd off' := rd_putReg_ne s h _

section
variable {ks : List Nat} {off : Nat → Nat} {v : Nat → Word}

/-- Several registers set, none of them a reaction mask. -/
theorem eachSetReg_run (h : ∀ i ∈ ks, reactReg (off i) = false) (s : State) :
    runAct (each ks fun i => setReg (off i) (v i)) s = { s with csr := ks.foldl (fun m i => regPut (off i) (v i) m) s.csr } := by
  induction ks generalizing s with
  | nil => rfl
  | cons j ks ih =>
    rw [each_cons, runAct_acts, setReg_run_left _ _ _ _ (h j List.mem_cons_self)]
    exact ih (fun i hi => h i (List.mem_cons_of_mem j hi)) _

/-- Each of several registers set reads its word. -/
theorem rd_eachSetReg (hw : s.wf = true) (h : ∀ i ∈ ks, reactReg (off i) = false) (hoff : Function.Injective off) {i : Nat} (hi : i ∈ ks) :
    (runAct (each ks fun i => setReg (off i) (v i)) s).rd (off i) = regMask (off i) (v i) := by
  rw [eachSetReg_run h]
  exact mapGet_puts (w := fun i => regMask (off i) (v i)) hoff (Or.inl (State.wf_csr hw)) hi

/-- Every other register reads what it read. -/
theorem rd_eachSetReg_ne (h : ∀ i ∈ ks, reactReg (off i) = false) {k : Nat} (hk : ∀ i ∈ ks, k ≠ off i) :
    (runAct (each ks fun i => setReg (off i) (v i)) s).rd k = s.rd k := by
  rw [eachSetReg_run h]
  exact mapGet_puts_ne (w := fun i => regMask (off i) (v i)) hk

end

/-! ### States of seats (Table 6.6) -/

/-- The registers below the seat pages are no SEAT_STATE. -/
theorem seatState_ne_low {off : Nat} (h : off < 0x800000) (n : Nat) : off ≠ Reg.seatState n := by
  unfold Reg.seatState
  omega

theorem seatState_inj {m n : Nat} (h : Reg.seatState m = Reg.seatState n) : m = n := by
  unfold Reg.seatState at h
  omega

theorem reactReg_seatState (n : Nat) : reactReg (Reg.seatState n) = false := reactReg_page (by unfold Reg.seatState; omega)

/-- A seat's state set: that seat's reads it, every other seat's reads what it read. -/
theorem seatState_put (hw : s.wf = true) {n : Nat} (hn : n < 512) (m : Nat) {v : Nat} (hv : v < 8) :
    (s.putFld (Reg.seatState m) 0 3 v).seatState n = if n = m then v else s.seatState n := by
  by_cases h : n = m
  · subst h
    rw [if_pos rfl, State.seatState, fld_putFld hw (by decide) (by rw [regImpl_seatState hn]; decide)]
    exact Nat.mod_eq_of_lt hv
  · rw [if_neg h, State.seatState, State.fld, rd_putFld_ne s (fun he => h (seatState_inj he)), State.seatState, State.fld]

/-- The state of a seat is kept by a change of its other fields. -/
theorem seatState_put_other (hw : s.wf = true) {n : Nat} (hn : n < 512) (m : Nat) {lo w : Nat} (hlo : 3 ≤ lo) (hlw : lo + w ≤ 64) (x : Nat) :
    (s.putFld (Reg.seatState m) lo w x).seatState n = s.seatState n := by
  by_cases h : n = m
  · subst h
    exact fld_putFld_ne hw hlw (Or.inl hlo) (by rw [regImpl_seatState hn]; decide) x
  · rw [State.seatState, State.fld, rd_putFld_ne s (fun he => h (seatState_inj he)), State.seatState, State.fld]

theorem seatStatePut_run (m v : Nat) (s : State) : runAct (seatStatePut m v) s = s.putFld (Reg.seatState m) 0 3 v :=
  setFld_run _ _ _ _ s (reactReg_seatState m)

/-- `u` is `s` with the states of the seats as `g` says: the registers below the seat pages are those of `s`, and the SEAT block is, but for the vectors
that a function may use. -/
structure State.Seating (g : Nat → Nat) (s u : State) : Prop where
  wf : u.wf = true
  state : ∀ n, n < 512 → u.seatState n = g n
  low : ∀ off, off < 0x800000 → u.rd off = s.rd off
  seats : u.seats = { s.seats with msixCount := u.seats.msixCount }

theorem State.Seating.refl (hw : s.wf = true) : State.Seating s.seatState s s := ⟨hw, fun _ _ => rfl, fun _ _ => rfl, rfl⟩

variable {g : Nat → Nat}

theorem seatStatePut_seating (m : Nat) {v : Nat} (hv : v < 8) :
    (seatStatePut m v).Takes (State.Seating g s) (State.Seating (fun n => if n = m then v else g n) s) := fun u hu => by
  refine ⟨rfl, ?_⟩
  change State.Seating _ s (runAct (seatStatePut m v) u)
  rw [seatStatePut_run]
  refine ⟨putFld_wf hu.wf _ _ _ _, fun n hn => ?_, fun off ho => ?_, hu.seats⟩
  · rw [seatState_put hu.wf hn m hv, hu.state n hn]
  · rw [rd_putFld_ne u (seatState_ne_low ho m), hu.low off ho]

theorem msixApply_seating (n : Nat) : (msixApply n).Takes (State.Seating g s) (State.Seating g s) :=
  takes_ask fun _ _ => takes_eff rfl fun u hu => ⟨hu.wf, hu.state, hu.low, by rw [eff_seats_seats, hu.seats]⟩

/-- A function that is enabled takes its vectors, and its seat becomes ACTIVE. -/
theorem activate_seating (n : Nat) : (acts [msixApply n, seatStatePut n 1]).Takes (State.Seating g s)
    (State.Seating (fun k => if k = n then 1 else g k) s) :=
  takes_acts_cons (msixApply_seating n) (seatStatePut_seating n (by decide))

/-- A program for each of several seats, which gives those of a kind one state. -/
theorem each_seating {f : Nat → Act} {v : Nat} {c : Nat → Bool} {ns : List Nat}
    (h : ∀ n g, (f n).Takes (State.Seating g s) (State.Seating (fun k => if k = n ∧ c n = true then v else g k) s)) (g : Nat → Nat) :
    (each ns f).Takes (State.Seating g s) (State.Seating (fun n => if n ∈ ns ∧ c n = true then v else g n) s) := by
  induction ns generalizing g with
  | nil =>
    exact takes_skip.weaken (fun _ hu => hu) fun u hu => ⟨hu.wf, fun n hn => (hu.state n hn).trans (if_neg fun h => nomatch h.1).symm, hu.low, hu.seats⟩
  | cons m ns ih =>
    refine takes_acts_cons (h m g) ((ih _).weaken (fun _ hu => hu) fun u hu => ⟨hu.wf, fun n hn => (hu.state n hn).trans ?_, hu.low, hu.seats⟩)
    by_cases hm : n = m
    · subst hm
      by_cases hc : c n = true
      · simp only [List.mem_cons_self, hc, and_self, and_true, if_true, ite_self]
      · rw [if_neg fun h => hc h.2, if_neg fun h => hc h.2, if_neg fun h => hc h.2]
    · simp only [List.mem_cons, hm, false_or, false_and, if_false]

/-- A program for each of several seats, which gives every one of them one state. -/
theorem each_seating_all {f : Nat → Act} {v : Nat} {ns : List Nat}
    (h : ∀ n g, (f n).Takes (State.Seating g s) (State.Seating (fun k => if k = n then v else g k) s)) (g : Nat → Nat) :
    (each ns f).Takes (State.Seating g s) (State.Seating (fun n => if n ∈ ns then v else g n) s) := by
  have hall := each_seating (s := s) (f := f) (v := v) (c := fun _ => true) (ns := ns)
  simp only [and_true] at hall
  exact hall h g

end Sys2Proof.Machine
end

section
/-!
PROOFS. The supervisor handshake (O12): the seats of the physical functions become ACTIVE (`each_seating`), the strapped one's gets the flag, budgets and
quotas of the supervisor (R182, R185, R186), and the rest touches neither.
-/

namespace Sys2Proof.Machine

variable {s : State}

/-! ### The supervisor seat (R186) -/

/-- The SEAT block with unlimited budgets and quotas for one seat. -/
def Seats.unlimited (t : Seats) (sup : Nat) : Seats :=
  { t with
    budget := (List.range 9).foldl (fun m k => mapPut (fun _ => 0) (16 * sup + k) 0xFFFFFFFF m) t.budget
    budgetNext := (List.range 9).foldl (fun m k => mapPut (fun _ => 0) (16 * sup + k) 0xFFFFFFFF m) t.budgetNext
    quota := (List.range 6).foldl (fun m k => mapPut (fun _ => 0) (8 * sup + k) 0xFFFFFFFF m) t.quota }

/-- What becoming the supervisor seat leaves. -/
def State.supervised (s : State) (sup : Nat) : State :=
  { s.putFld (Reg.seatState sup) 5 1 1 with seats := s.seats.unlimited sup }

theorem supervisorMake_run (sup : Nat) (a : Act) (s : State) : runAct (.seq (supervisorMake sup) a) s = runAct a (s.supervised sup) := by
  rw [supervisorMake, runAct_acts_left, setFld_run_left _ _ _ _ _ _ (reactReg_seatState sup)]
  rfl

theorem budgetOf_supervised (s : State) (sup : Nat) {k : Nat} (hk : k < 9) : (s.supervised sup).budgetOf sup k = 0xFFFFFFFF :=
  mapGet_puts (fun _ _ => Nat.add_left_cancel) (Or.inr fun _ _ => by decide) (List.mem_range.mpr hk)

theorem quotaOf_supervised (s : State) (sup : Nat) {k : Nat} (hk : k < 6) : (s.supervised sup).quotaOf sup k = 0xFFFFFFFF :=
  mapGet_puts (fun _ _ => Nat.add_left_cancel) (Or.inr fun _ _ => by decide) (List.mem_range.mpr hk)

theorem rd_supervised_low {off : Nat} (h : off < 0x800000) (sup : Nat) : (s.supervised sup).rd off = s.rd off :=
  rd_putFld_ne s (seatState_ne_low h sup) 5 1 1

theorem seatState_supervised (hw : s.wf = true) (sup : Nat) {n : Nat} (hn : n < 512) : (s.supervised sup).seatState n = s.seatState n :=
  seatState_put_other hw hn sup (by decide) (by decide) 1

theorem isSup_supervised {sup : Nat} (hw : s.wf = true) (hsup : sup < 512) : (s.supervised sup).isSup sup = true :=
  (bitAt_iff _ _ _).trans (decide_eq_true (fld_putFld hw (by decide) (by rw [regImpl_seatState hsup]; decide) 1))

/-! ### The pin FAULT_N -/

/-- A release of the pin changes FLT_PIN alone (R547). -/
theorem pinRelease_run (s : State) : ∃ lo x, runAct pinRelease s = s.putFld Reg.fltPin lo 1 x := by
  rw [pinRelease, runAct_ask]
  split
  · exact ⟨3, 1, setFld_run _ _ _ _ s rfl⟩
  · exact ⟨0, 0, setFld_run _ _ _ _ s rfl⟩

/-! ### The handshake -/

/-- The registers that the handshake sets first: SEAT_GLOBAL_CTRL with sup_pf and locked, MGT_HOST_READY with done (R185, R621). -/
def State.handshaken (s : State) (sup : Nat) : State := (s.putReg Reg.seatGlobalCtrl (BitVec.ofNat 64 (sup + 2 ^ 31))).putReg Reg.mgtHostReady 2

theorem handshaken_wf (hw : s.wf = true) (sup : Nat) : (s.handshaken sup).wf = true := putReg_wf (putReg_wf hw _ _) _ _

theorem rd_handshaken_global (hw : s.wf = true) (sup : Nat) :
    (s.handshaken sup).rd Reg.seatGlobalCtrl = regMask Reg.seatGlobalCtrl (BitVec.ofNat 64 (sup + 2 ^ 31)) :=
  (rd_putReg_ne _ (by decide) 2).trans (rd_putReg hw _ _)

theorem rd_handshaken_ready (hw : s.wf = true) (sup : Nat) : (s.handshaken sup).rd Reg.mgtHostReady = regMask Reg.mgtHostReady 2 :=
  rd_putReg (putReg_wf hw _ _) _ _

/-- sup_pf and locked of SEAT_GLOBAL_CTRL as the handshake writes them. -/
theorem globalCtrl_fields : ∀ sup < 4, wBits (regMask Reg.seatGlobalCtrl (BitVec.ofNat 64 (sup + 2 ^ 31))) 0 2 = sup
    ∧ wBit (regMask Reg.seatGlobalCtrl (BitVec.ofNat 64 (sup + 2 ^ 31))) 31 = true := by
  decide +kernel

/-- The states of the seats with those of the physical functions ACTIVE. -/
def State.pfActive (s : State) (n : Nat) : Nat := if n < 4 then 1 else s.seatState n

/-- The seats of the physical functions become ACTIVE (R182); the rest of a program follows. -/
theorem pfSeats_run (hw : s.wf = true) (as : List Act) : ∃ u, State.Seating s.pfActive s u ∧
    runAct (acts ((each (List.range 4) fun p => seatStatePut p 1) :: as)) s = runAct (acts as) u := by
  have hactive := each_seating_all (s := s) (ns := List.range 4) (v := 1) (fun n _ => seatStatePut_seating n (by decide)) s.seatState
  simp only [List.mem_range] at hactive
  exact ⟨_, hactive.run (.refl hw), runAct_takes_cons hactive (.refl hw) as⟩

/-- What follows the change of the seats' states: the supervisor seat, boot at its last step, the hold of FLT_PIN cleared. -/
def State.handedOver (u : State) (sup : Nat) : State := ({ u.supervised sup with pwr := { u.pwr with boot := 8 } } : State).putFld Reg.fltPin 2 1 0

/-- The handshake: its registers, the seats of the physical functions, and what follows, FLT_PIN last. -/
theorem handshake_run (hw : s.wf = true) : ∃ u lo x, State.Seating (s.handshaken s.pwr.straps.sup).pfActive (s.handshaken s.pwr.straps.sup) u ∧
    runAct handshake s = (u.handedOver s.pwr.straps.sup).putFld Reg.fltPin lo 1 x := by
  obtain ⟨u, hu, hseats⟩ := pfSeats_run (handshaken_wf hw s.pwr.straps.sup) _
  obtain ⟨lo, x, hpin⟩ := pinRelease_run (u.handedOver s.pwr.straps.sup)
  refine ⟨u, lo, x, hu, ?_⟩
  rw [handshake, runAct_ask, runAct_acts, setReg_run_left _ _ _ _ rfl, runAct_acts, setReg_run_left _ _ _ _ rfl]
  refine hseats.trans ?_
  rw [runAct_acts, supervisorMake_run, runAct_acts, run_pwr, runAct_acts, setFld_run_left _ _ _ _ _ _ rfl, acts_one]
  exact hpin

/-- FLT_PIN apart, the registers are those of the supervisor's making. -/
theorem rd_handedOver {off : Nat} (h : off ≠ Reg.fltPin) (u : State) (sup lo x : Nat) :
    ((u.handedOver sup).putFld Reg.fltPin lo 1 x).rd off = (u.supervised sup).rd off :=
  (rd_putFld_ne _ h lo 1 x).trans (rd_putFld_ne _ h 2 1 0)

/-- The write of MGT_HOST_READY.go through the strapped physical function is the handshake (R621). -/
theorem mgtHostReadyGo_run (hlets : s.lets (.pf s.pwr.straps.sup) Reg.mgtHostReady 4 1 Reg.mgtHostReady) (hdone : s.bitAt Reg.mgtHostReady 1 = false)
    (hup : s.adm.mgtUp = true) (hboot : s.pwr.boot = 6) : exec (.mgtHostReadyGo (.pf s.pwr.straps.sup)) s = .next (runAct handshake s) := by
  refine (writeCommand_lets (f := regsMgt[1]'(by decide)) (ix := []) hlets rfl rfl).trans (congrArg _ ?_)
  change runAct (hostReadyWrite _ (coverWord Reg.mgtHostReady 4 1 &&& coverMask Reg.mgtHostReady 4)) s = _
  have hgo : wBit (coverWord Reg.mgtHostReady 4 1 &&& coverMask Reg.mgtHostReady 4) 0 = true := wBit_cover rfl (Or.inl rfl) 1 (by decide)
  rw [hostReadyWrite, runAct_ask, runAct_actIf, hgo, if_pos (by simp [hdone, hup, hboot])]

/-- Settles O12: what the handshake leaves (`handshake_run`), read register by register. -/
theorem handshakeMakesSupervisor : Obligations.HandshakeMakesSupervisor := by
  intro s _ hw hsup hlets hdone hup hboot
  obtain ⟨u, lo, x, hu, hrun⟩ := handshake_run hw
  have hlow : ∀ off, off < 0x800000 → off ≠ Reg.fltPin → (runAct handshake s).rd off = (s.handshaken s.pwr.straps.sup).rd off := fun off ho hpin => by
    rw [hrun, rd_handedOver hpin, rd_supervised_low ho, hu.low off ho]
  have hseat : ∀ n, (runAct handshake s).rd (Reg.seatState n) = (u.supervised s.pwr.straps.sup).rd (Reg.seatState n) := fun n => by
    rw [hrun, rd_handedOver (seatState_ne_low (by decide) n).symm]
  obtain ⟨hfld, hlock⟩ := globalCtrl_fields _ hsup
  refine ⟨_, mgtHostReadyGo_run hlets hdone hup hboot, ?_, ?_, fun p hp => ?_, ?_, ?_, ?_, fun k hk => ?_, fun k hk => ?_⟩
  · rw [State.locked, State.bitAt, hlow _ (by decide) (by decide), rd_handshaken_global hw, hlock]
  · rw [State.fld, hlow _ (by decide) (by decide), rd_handshaken_global hw, hfld]
  · have hp' : p < 512 := by omega
    calc (runAct handshake s).seatState p = (u.supervised s.pwr.straps.sup).seatState p := by simp only [State.seatState, State.fld, hseat]
      _ = u.seatState p := seatState_supervised hu.wf _ hp'
      _ = 1 := (hu.state p hp').trans (if_pos hp)
  · rw [State.isSup, State.bitAt, hseat]
    exact isSup_supervised hu.wf (by omega)
  · rw [State.bitAt, hlow _ (by decide) (by decide), rd_handshaken_ready hw]
    decide +kernel
  · rw [hrun]
    rfl
  · rw [hrun]
    exact budgetOf_supervised u _ hk
  · rw [hrun]
    exact quotaOf_supervised u _ hk

end Sys2Proof.Machine
end

section
/-!
PROOFS. VF enables and the seat table (O31): the seats of a physical function's virtual functions change state together (`each_seating`), and an operation
of SEAT_TBL_CMD marks itself as busy, then loads the data registers or stores them (R182, R188, R189).
-/

namespace Sys2Proof.Machine

variable {s : State}

/-! ### VF Enable (R182) -/

/-- While the chip neither sleeps deep nor wakes, an access of configuration space is served. -/
theorem configAct_run (h : s.pst < 4) (r : HeldReq) (a : Act) : runAct (configAct r a) s = runAct a s := by
  have hheld : ¬ (s.pst = 4 || s.pst = 5) = true := by simp; omega
  rw [configAct, runAct_ask, if_neg hheld]

/-- A change of the SEAT block moves no seat's state. -/
theorem State.Seating.start (hw : s.wf = true) (t : Seats) : State.Seating s.seatState { s with seats := t } { s with seats := t } :=
  .refl (s := { s with seats := t }) hw

/-- The SEAT block with VF Enable of a physical function set or cleared. -/
def Seats.vfEnabled (t : Seats) (p : Nat) (b : Bool) : Seats := { t with vfEnable := listSet t.vfEnable p b }

/-- VF Enable set: the seats of the virtual functions become ACTIVE. -/
theorem vfEnableOp_run (hw : s.wf = true) {p : Nat} (hp : s.seats.vfEnable.getD p true = false) :
    State.Seating (fun n => if n ∈ s.vfSeats p then 1 else s.seatState n) { s with seats := s.seats.vfEnabled p true } (runAct (vfEnableOp p) s) := by
  rw [vfEnableOp, runAct_ask, runAct_actIf, hp, if_pos (by decide), runAct_acts, run_seats]
  exact (each_seating_all (s := { s with seats := s.seats.vfEnabled p true }) (fun n _ => activate_seating n) s.seatState).run (.start hw _)

/-- The SEAT block with VF Enable of a physical function cleared: resets of seats in a list will end in DISABLED. -/
def Seats.vfDisabled (t : Seats) (p : Nat) (ns : List Nat) : Seats :=
  { t.vfEnabled p false with resets := mapIf (fun r => ns.contains r.seat) (fun r => { r with toDisabled := true }) t.resets }

/-- VF Enable cleared: the seats of the virtual functions that are in no reset become DISABLED. -/
theorem vfDisableOp_run (hw : s.wf = true) (p : Nat) :
    State.Seating (fun n => if n ∈ s.vfSeats p ∧ (!s.seats.resets.any fun r => r.seat = n) = true then 0 else s.seatState n)
      { s with seats := s.seats.vfDisabled p (s.vfSeats p) } (runAct (vfDisableOp p) s) := by
  rw [vfDisableOp, runAct_ask, runAct_acts, run_seats]
  refine (each_seating (s := { s with seats := s.seats.vfDisabled p (s.vfSeats p) }) (fun n g => ?_) s.seatState).run (.start hw _)
  by_cases hc : (!s.seats.resets.any fun r => r.seat = n) = true
  · simp only [hc, actIf, if_true, and_true]
    exact seatStatePut_seating n (by decide)
  · simp only [hc, actIf, Bool.false_eq_true, and_false, if_false]
    exact takes_skip

/-- Resets of the seats of a list are marked. -/
theorem toDisabled_of_vfDisabled {t : Seats} {p : Nat} {ns : List Nat} {r : SeatReset} (hr : r ∈ (t.vfDisabled p ns).resets) (hn : r.seat ∈ ns) :
    r.toDisabled = true := by
  obtain ⟨r', _, hr'⟩ := List.mem_map.mp hr
  split at hr'
  · exact hr' ▸ rfl
  next h => exact absurd (List.contains_iff_mem.mpr (hr' ▸ hn)) h

theorem vfEnable_vfEnabled {t : Seats} {p : Nat} (h : t.vfEnable.getD p true = false) (b : Bool) : (t.vfEnabled p b).vfEnable.getD p false = b := by
  have hlt : p < t.vfEnable.length := by
    refine Nat.lt_of_not_le fun hge => ?_
    rw [List.getD_eq_getElem?_getD, List.getElem?_eq_none hge] at h
    cases h
  rw [Seats.vfEnabled, listSet_eq_set, List.getD_eq_getElem?_getD, List.getElem?_set_self hlt]
  rfl

theorem vfEnable_cleared (t : Seats) (p : Nat) : (t.vfEnabled p false).vfEnable.getD p false = false := by
  rw [Seats.vfEnabled, listSet_eq_set, List.getD_eq_getElem?_getD, List.getElem?_set_self']
  cases t.vfEnable[p]? <;> rfl

/-- The commands are these operations. -/
theorem vfEnableSet_run (hl : s.live) {pf : Nat} (hpf : pf < 4) (hpst : s.pst < 4) : exec (.vfEnableSet pf) s = .next (runAct (vfEnableOp pf) s) :=
  (live_next hl (decide_eq_true hpf) _).trans (congrArg _ (configAct_run hpst _ _))

theorem vfEnableClear_run (hl : s.live) {pf : Nat} (hpf : pf < 4) (hpst : s.pst < 4) : exec (.vfEnableClear pf) s = .next (runAct (vfDisableOp pf) s) :=
  (live_next hl (decide_eq_true hpf) _).trans (congrArg _ (configAct_run hpst _ _))

/-! ### The seat table (R188, R189, Table 6.9) -/

/-- An operation of the seat table has begun: busy is set, its result is to come. -/
def State.tblBegun (s : State) (r : Nat) : State := { s.putFld Reg.seatTblCmd 2 1 1 with seats := { s.seats with tblOp := some r } }

/-- A write of SEAT_TBL_CMD begins the operation that it names. -/
theorem seatTblCmd_write {p : Path} {v : Word} (h : s.lets p Reg.seatTblCmd 4 v Reg.seatTblCmd) :
    writeCommand true p Reg.seatTblCmd 4 v s = .next (runAct (seatTblOp (wBits v 0 2)) s) := by
  refine (writeCommand_lets (f := regsSeat[3]'(by decide)) (ix := []) h rfl rfl).trans (congrArg _ ?_)
  change runAct (seatTblOp (wBits (coverWord Reg.seatTblCmd 4 v &&& coverMask Reg.seatTblCmd 4) 0 2)) s = _
  rw [wBits_cover rfl (Or.inl rfl) v (by decide)]

theorem tblBegun_wf (hw : s.wf = true) (r : Nat) : (s.tblBegun r).wf = true := putFld_wf hw _ _ _ _

theorem tblBegun_busy (hw : s.wf = true) (r : Nat) : (s.tblBegun r).bitAt Reg.seatTblCmd 2 = true :=
  (bitAt_iff _ _ _).trans (decide_eq_true (fld_putFld hw (by decide) (by decide +kernel) 1))

/-- The word that WRITE_SHADOW stores: the data register, with CTL granted in word 0 of GENERAL. -/
def State.tblWord (s : State) (i : Nat) : Word :=
  if s.tblAddr.1 = 0 && i = 0 then s.rd (Reg.seatTblData 0) ||| 0x100 else s.rd (Reg.seatTblData i)

/-- The result of an operation. -/
def State.tblResult (s : State) (op : Nat) : Nat :=
  if op = 3 then s.tblCheck s.tblAddr.1 s.tblAddr.2.1 s.tblAddr.2.2 fun i => s.rd (Reg.seatTblData i)
  else if decide (5 ≤ s.tblAddr.1) || decide (tblIndices s.tblAddr.1 ≤ s.tblAddr.2.2) then 1 else 0

/-- What an operation whose result is OK moves between its entry and the data registers. -/
def State.tblMove (s : State) (op : Nat) : Act :=
  if op = 1 then tblLoad (s.tblSh s.tblAddr.1 s.tblAddr.2.1 s.tblAddr.2.2)
  else if op = 2 then tblLoad (s.tblW s.tblAddr.1 s.tblAddr.2.1 s.tblAddr.2.2)
  else each (List.range 4) fun i =>
    .eff (.seats fun t => { t with tblShadow := mapPut tblDflt (tblKey s.tblAddr.1 s.tblAddr.2.1 s.tblAddr.2.2 i) (s.tblWord i) t.tblShadow })

/-- An operation, while busy is 0: it begins, and moves its data where its result is OK. -/
theorem seatTblOp_run {op : Nat} (hop : op ≠ 0) (hbusy : s.bitAt Reg.seatTblCmd 2 = false) :
    runAct (seatTblOp op) s = if s.tblResult op = 0 then runAct (s.tblMove op) (s.tblBegun 0) else s.tblBegun (s.tblResult op) := by
  rw [seatTblOp, runAct_ask, if_neg hop, if_neg (by simp [hbusy])]
  change runAct (acts [setFld Reg.seatTblCmd 2 1 1, .eff (.seats fun t => { t with tblOp := some (s.tblResult op) }),
    if s.tblResult op != 0 then .skip else s.tblMove op]) s = _
  rw [runAct_acts, setFld_run_left _ _ _ _ _ _ rfl, runAct_acts, run_seats, acts_one, runAct_ite]
  by_cases hr : s.tblResult op = 0
  · rw [if_pos hr, if_neg (by simp [hr]), hr]
    rfl
  · rw [if_neg hr, if_pos (by simp [hr])]
    rfl

/-- A read of an entry that exists is OK. -/
theorem tblResult_read {op : Nat} (hop : op ≠ 3) (hk : s.tblAddr.1 < 5) (hi : s.tblAddr.2.2 < tblIndices s.tblAddr.1) : s.tblResult op = 0 := by
  rw [State.tblResult, if_neg hop, if_neg (by simp [hk, hi])]

/-! ### Loads of the data registers -/

theorem seatTblData_inj : Function.Injective Reg.seatTblData := fun i j h => by
  unfold Reg.seatTblData at h
  omega

theorem reactReg_seatTblData : ∀ i ∈ List.range 4, reactReg (Reg.seatTblData i) = false := by decide

theorem regMask_seatTblData {i : Nat} (hi : i < 4) (v : Word) : regMask (Reg.seatTblData i) v = v := by
  have himpl : ∀ i < 4, BitVec.ofNat 64 (regImpl (Reg.seatTblData i)) = BitVec.allOnes 64 := by decide +kernel
  rw [regMask, himpl i hi, BitVec.and_allOnes]

/-- A load of the data registers in an operation that has begun. -/
theorem tblLoad_begun (hw : s.wf = true) (w : Nat → Word) :
    (runAct (tblLoad w) (s.tblBegun 0)).bitAt Reg.seatTblCmd 2 = true ∧ (∀ i, i < 4 → (runAct (tblLoad w) (s.tblBegun 0)).rd (Reg.seatTblData i) = w i)
      ∧ (runAct (tblLoad w) (s.tblBegun 0)).seats = { s.seats with tblOp := some 0 } := by
  refine ⟨?_, fun i hi => ?_, ?_⟩
  · rw [State.bitAt, tblLoad, rd_eachSetReg_ne reactReg_seatTblData (by decide)]
    exact tblBegun_busy hw 0
  · rw [tblLoad, rd_eachSetReg (tblBegun_wf hw 0) reactReg_seatTblData seatTblData_inj (List.mem_range.mpr hi), regMask_seatTblData hi]
  · rw [tblLoad, eachSetReg_run reactReg_seatTblData]
    rfl

/-! ### Stores in the shadow -/

theorem tblKey_inj (kind seat idx : Nat) : Function.Injective (tblKey kind seat idx) := fun i j h => by
  unfold tblKey at h
  omega

/-- Several words of the shadow set. -/
theorem eachShadow_run {ks : List Nat} {key : Nat → Nat} {w : Nat → Word} (s : State) :
    runAct (each ks fun i => .eff (.seats fun t => { t with tblShadow := mapPut tblDflt (key i) (w i) t.tblShadow })) s =
      { s with seats := { s.seats with tblShadow := ks.foldl (fun m i => mapPut tblDflt (key i) (w i) m) s.seats.tblShadow } } := by
  induction ks generalizing s with
  | nil => rfl
  | cons j ks ih =>
    rw [each_cons, runAct_acts, run_seats]
    exact ih _

/-- A write of the shadow that is OK. -/
theorem tblMove_write (s : State) : runAct (s.tblMove 3) (s.tblBegun 0) = { s.tblBegun 0 with seats := { s.seats with
    tblOp := some 0
    tblShadow := (List.range 4).foldl (fun m i => mapPut tblDflt (tblKey s.tblAddr.1 s.tblAddr.2.1 s.tblAddr.2.2 i) (s.tblWord i) m) s.seats.tblShadow } } := by
  rw [State.tblMove, if_neg (by decide), if_neg (by decide), eachShadow_run]
  rfl

/-- SEAT_TBL_CMD_DONE: busy clears, the result stands. -/
theorem seatTblCmdDone_run (hl : s.live) {r : Nat} (hop : s.seats.tblOp = some r) : exec .seatTblCmdDone s =
    .next { (s.putFld Reg.seatTblCmd 2 1 0).putFld Reg.seatTblCmd 4 3 r with seats := { s.seats with tblOp := none } } := by
  refine (live_next hl rfl _).trans (congrArg _ ?_)
  rw [runAct_ask, hop, actOpt_some, runAct_acts, setFld_run_left _ _ _ _ _ _ rfl, runAct_acts, setFld_run_left _ _ _ _ _ _ rfl]
  rfl

/-! ### The obligation -/

/-- Settles O31: VF enables change the states of their seats together (`vfEnableOp_run`, `vfDisableOp_run`); an operation of the seat table is what
`seatTblOp_run` says. -/
theorem seatTables : Obligations.SeatTables := by
  refine ⟨fun pf s hl hw hpf hpst => ⟨fun hoff => ?_, ?_⟩, fun s hw => ⟨fun hbusy hk hi => ⟨fun p hp => ?_, fun p hp => ?_, fun p hp => ?_⟩,
    fun r hl hop => seatTblCmdDone_run hl hop⟩⟩
  · have ht := vfEnableOp_run hw hoff
    refine ⟨_, vfEnableSet_run hl hpf hpst, ?_, fun n hn hlt => ?_, fun n hlt hn => ?_⟩
    · rw [ht.seats]
      exact vfEnable_vfEnabled hoff true
    · rw [ht.state n hlt, if_pos hn]
    · rw [ht.state n hlt, if_neg hn]
  · have ht := vfDisableOp_run hw pf
    refine ⟨_, vfEnableClear_run hl hpf hpst, ?_, fun n hn hlt hfree => ?_, fun r hr hn => ?_, fun n hlt hn => ?_⟩
    · rw [ht.seats]
      exact vfEnable_cleared _ pf
    · rw [ht.state n hlt, if_pos ⟨hn, by simpa using hfree⟩]
    · rw [ht.seats] at hr
      exact toDisabled_of_vfDisabled (p := pf) hr hn
    · rw [ht.state n hlt, if_neg fun h => hn h.1]
  · refine ⟨_, (seatTblCmd_write hp).trans (congrArg _ (seatTblOp_run (by decide) hbusy)), ?_⟩
    rw [if_pos (tblResult_read (by decide) hk hi)]
    exact tblLoad_begun hw _
  · refine ⟨_, (seatTblCmd_write hp).trans (congrArg _ (seatTblOp_run (by decide) hbusy)), ?_⟩
    rw [if_pos (tblResult_read (by decide) hk hi)]
    exact tblLoad_begun hw _
  · refine ⟨_, (seatTblCmd_write hp).trans (congrArg _ (seatTblOp_run (op := 3) (by decide) hbusy)), ?_⟩
    by_cases hr : s.tblResult 3 = 0
    · rw [if_pos hr, tblMove_write]
      exact ⟨tblBegun_busy hw 0, congrArg some hr.symm, rfl, fun h => absurd hr h, fun _ hsh i hi =>
        (mapGet_puts (tblKey_inj _ _ _) (Or.inl hsh) (List.mem_range.mpr hi)).trans (by simp [State.tblWord])⟩
    · rw [if_neg hr]
      exact ⟨tblBegun_busy hw _, rfl, rfl, fun _ => rfl, fun h => absurd h hr⟩

end Sys2Proof.Machine
end

section
/-!
PROOFS. What the block starts from (O3): no register and no byte is listed, so each reads its reset value, and that of SEC_WORLD_MAPk and of SEAT_STATE is 0.
-/

namespace Sys2Proof.Machine

/-- The reset value of SEAT_STATE (Table 6.6): DISABLED. -/
theorem regDflt_seatState {n : Nat} (hn : n < 512) : regDflt (Reg.seatState n) = 0 := by
  rw [regDflt, regReset, regFind_seatState hn]
  rfl

/-- The reset value of the world maps: every unit is normal (R218). -/
theorem regDflt_secWorldMap : ∀ k < 7, regDflt (Reg.secWorldMap k) = 0 := by decide +kernel

theorem wBits_zero (lo w : Nat) : wBits 0 lo w = 0 := by
  simp [wBits, nBits]

theorem wBit_zero (i : Nat) : wBit 0 i = false := by
  simp [wBit, nBit]

theorem reset_unitSec {u : Nat} (hu : u < 211) : State.reset.unitSec u = false := by
  change wBit (regDflt (Reg.secWorldMap (u / 32))) (u % 32) = false
  rw [regDflt_secWorldMap _ (by omega), wBit_zero]

theorem reset_seatState {n : Nat} (hn : n < 512) : State.reset.seatState n = 0 := by
  change wBits (regDflt (Reg.seatState n)) 0 3 = 0
  rw [regDflt_seatState hn, wBits_zero]

/-- Settles O3: registers, committed values and memory are empty maps. -/
theorem resetState : Obligations.ResetState := by
  refine ⟨⟨fun _ => ⟨rfl, rfl⟩, fun _ => rfl, rfl, rfl, rfl, rfl, fun _ => reset_unitSec, ⟨rfl, rfl⟩, calm_of_csr rfl, ?_, fun _ => reset_seatState⟩, rfl⟩
  decide +kernel

end Sys2Proof.Machine
end

section
/-!
PROOFS. Reservations and guards (O20): what a write of a register replaces (R7), a reservation that waits for its bell (R225), the committed values that an
apply leaves (R236).
-/

namespace Sys2Proof.Machine

variable {s : State}

/-! ### What a write replaces -/

theorem and_not_zero (v : Word) : v &&& ~~~ 0 = v := by
  rw [show (~~~ 0 : Word) = BitVec.allOnes 64 by decide, BitVec.and_allOnes]

/-- A register whose covered fields are RW, RWC, RO or WO takes the word written to the bits `rep` of the first two, and keeps the rest. -/
theorem writeWord_testBit {f : RegFam} {m rep : Word} (hrep : accBits f (fun a => a = .rw || a = .rwc || (a = .rwl && !false)) &&& m = rep)
    (hclr : accBits f (fun a => a = .w1c) &&& m = 0) (hset : accBits f (fun a => a = .w1s) &&& m = 0) (old w : Word) (i : Nat) :
    (writeWord f false old w m).toNat.testBit i = if rep.toNat.testBit i then (w &&& m).toNat.testBit i else old.toNat.testBit i := by
  have hword : writeWord f false old w m = (old &&& ~~~ rep) ||| (w &&& rep) := by
    simp only [writeWord, hrep, hclr, hset]
    rw [show (0 : Word) &&& w = 0 from BitVec.zero_and, and_not_zero]
    exact BitVec.or_zero
  have hm : rep.getLsbD i = true → m.getLsbD i = true := by
    rw [← hrep, BitVec.getLsbD_and, Bool.and_eq_true]
    exact And.right
  rw [hword]
  simp only [BitVec.testBit_toNat, BitVec.getLsbD_or, BitVec.getLsbD_and, BitVec.getLsbD_not]
  cases h : rep.getLsbD i
  · by_cases hi : i < 64
    · simp only [hi, decide_true, Bool.not_false, Bool.and_true, Bool.and_false, Bool.or_false, Bool.false_eq_true, if_false]
    · simp [BitVec.getLsbD_of_ge old i (Nat.le_of_not_lt hi)]
  · simp only [hm h, Bool.not_true, Bool.and_false, Bool.and_true, Bool.false_or, if_true]

/-- A field that takes the word. -/
theorem wBits_writeWord {f : RegFam} {m rep : Word} {lo n : Nat} (hrep : accBits f (fun a => a = .rw || a = .rwc || (a = .rwl && !false)) &&& m = rep)
    (hclr : accBits f (fun a => a = .w1c) &&& m = 0) (hset : accBits f (fun a => a = .w1s) &&& m = 0) (hn : wBits rep lo n = 2 ^ n - 1) (old w : Word) :
    wBits (writeWord f false old w m) lo n = wBits (w &&& m) lo n := by
  apply Nat.eq_of_testBit_eq
  intro i
  rw [wBits_testBit, wBits_testBit, writeWord_testBit hrep hclr hset]
  have hi := congrArg (fun k => k.testBit i) hn
  simp only [wBits_testBit, Nat.testBit_two_pow_sub_one] at hi
  by_cases h : i < n
  · simp only [h, decide_true, Bool.true_and] at hi
    rw [if_pos hi]
  · simp [h]

/-- A register but a reaction mask takes a write by its access codes. -/
theorem slotWrite_run {off : Nat} (h : reactReg off = false) (f : RegFam) (lock : Bool) (w m : Word) (a : Act) (s : State) :
    runAct (.seq (slotWrite f lock off w m) a) s = runAct a (s.putReg off (writeWord f lock (s.rd off) w m)) := by
  rw [slotWrite, runAct_ask_left, h, if_neg (by decide), setReg_run_left _ _ _ _ h]

/-- A command that sets bits, all its other bits as they stand, is such a write. -/
theorem setCommand_adds {p : Path} {off size bits : Nat} {b : Word} {f : RegFam} {ix : List Nat} (hb : BitVec.ofNat 64 bits = b)
    (h : s.lets p off size (s.rd off ||| b) off) (hf : regFind (off / 8 * 8) = some (f, ix)) {ok : Bool} (ho : ok = true) :
    setCommand ok p off size bits 0 s =
      .next (runAct (registerWrite p f false (off / 8 * 8) size (coverWord off size (s.rd off ||| b)) (coverMask off size)) s) := by
  subst hb
  have hwrite := setCommand_lets (bits := bits) (clears := 0) (s := s) (p := p) (off := off) (size := size) (a := off) (f := f) (ix := ix) (ok := ok)
  rw [show s.rd off &&& ~~~ BitVec.ofNat 64 0 = s.rd off from and_not_zero _] at hwrite
  exact hwrite h hf ho

/-! ### Reservations (R225) -/

/-- The register of a reservation. -/
def reserveReg (store : Bool) : Nat := if store then Reg.secReserveStore else Reg.secReserveDram

/-- The family of the register of a reservation. -/
def reserveFam (store : Bool) : RegFam := if store then regsSec[6]'(by decide) else regsSec[5]'(by decide)

/-- The worlds while a change of a reservation waits with its bell. -/
def Worlds.reserving (w : Worlds) (store : Bool) (v bell : Nat) : Worlds :=
  if store then { w with raiseStore := some (v, bell) } else { w with raiseDram := some (v, bell) }

/-- Whether a waiting change of a reservation raises it. -/
def raises (now : Nat) (raise : Option (Nat × Nat)) : Bool :=
  match raise with
  | some (x, _) => decide (now < x)
  | none => false

/-- A reservation's change waits, and SEC_RESERVE_STATUS says whether a raise does. -/
theorem reserveOp_run (store : Bool) (v : Nat) (s : State) : runAct (reserveOp store v) s =
    ({ s with worlds := s.worlds.reserving store v s.tts.bell } : State).putFld Reg.secReserveStatus 0 1
      (b2n (raises s.worlds.resDram (s.worlds.reserving store v s.tts.bell).raiseDram
        || raises s.worlds.resStore (s.worlds.reserving store v s.tts.bell).raiseStore)) := by
  cases store <;> rfl

/-- The state with a reservation written: its register, and what `reserveOp_run` says. -/
theorem reserveWrite_run {p : Path} {store : Bool} {v : Word} (hlets : s.lets p (reserveReg store) 4 v (reserveReg store)) (hw : s.wf = true) :
    ∃ u : State, u.wf = true ∧ u.fld (reserveReg store) 0 32 = wBits v 0 32 ∧ u.worlds = s.worlds ∧ u.tts = s.tts
      ∧ exec (.secReserveWrite p store v) s = .next (runAct (reserveOp store (wBits v 0 32)) u) := by
  let w := coverWord (reserveReg store) 4 v
  let m := coverMask (reserveReg store) 4
  let u := s.putReg (reserveReg store) (writeWord (reserveFam store) false (s.rd (reserveReg store)) w m)
  have hfld : u.fld (reserveReg store) 0 32 = wBits v 0 32 := by
    have hcover : wBits (coverWord (reserveReg store) 4 v &&& coverMask (reserveReg store) 4) 0 32 = wBits v 0 32 :=
      wBits_cover (by cases store <;> rfl) (Or.inl rfl) v (by decide)
    rw [fld_putReg hw (by cases store <;> decide +kernel), ← hcover]
    refine wBits_writeWord (rep := 0xFFFFFFFF) ?_ ?_ ?_ (by decide) _ _ <;> cases store <;> decide +kernel
  refine ⟨u, putReg_wf hw _ _, hfld, rfl, rfl, ?_⟩
  rw [← hfld]
  cases store
  · exact writeCommand_lets (f := regsSec[5]'(by decide)) (ix := []) hlets rfl rfl
  · exact writeCommand_lets (f := regsSec[6]'(by decide)) (ix := []) hlets rfl rfl

/-- What a write of a reservation leaves (R225). -/
theorem reserveWrite_waits {p : Path} {store : Bool} {v : Word} (hlets : s.lets p (reserveReg store) 4 v (reserveReg store)) (hw : s.wf = true) :
    ∃ t, exec (.secReserveWrite p store v) s = .next t ∧ t.fld (reserveReg store) 0 32 = wBits v 0 32
      ∧ t.worlds = s.worlds.reserving store (wBits v 0 32) s.tts.bell
      ∧ (raises (if store then s.worlds.resStore else s.worlds.resDram) (some (wBits v 0 32, s.tts.bell)) = true →
          t.bitAt Reg.secReserveStatus 0 = true) := by
  obtain ⟨u, huw, hfld, hworlds, htts, hrun⟩ := reserveWrite_run hlets hw
  refine ⟨_, hrun, ?_, ?_, fun hraise => ?_⟩ <;> rw [reserveOp_run]
  · rw [State.fld, rd_putFld_ne _ (by cases store <;> decide)]
    exact hfld
  · exact hworlds ▸ htts ▸ rfl
  · have hwf : ({ u with worlds := u.worlds.reserving store (wBits v 0 32) u.tts.bell } : State).wf = true := huw
    rw [bitAt_putFld hwf (by decide) (by decide) (by decide) (by decide +kernel), hworlds, htts]
    cases store
    · simp only [Worlds.reserving, Bool.false_eq_true, if_false] at hraise ⊢
      rw [hraise, Bool.true_or]
      rfl
    · simp only [Worlds.reserving, if_true] at hraise ⊢
      rw [hraise, Bool.or_true]
      rfl

/-! ### Applies of a guard (R236) -/

/-- GRDn_CTRL of a guard, its bits and its reset value. -/
theorem grdCtrl_row : ∀ n < 28, regFind (Reg.grdCtrl n) = some (regsGrd[3]'(by decide), [n]) ∧ regImpl (Reg.grdCtrl n) = 0x27F := by
  decide +kernel

theorem reactReg_grdCtrl {n : Nat} (hn : n < 28) : reactReg (Reg.grdCtrl n) = false := reactReg_low (by unfold Reg.grdCtrl; omega)

/-- No register of a region is GRDn_CTRL. -/
theorem regionRegs_ne_grdCtrl {n m off : Nat} (hm : m < 64) (h : off ∈ regionRegs n m) : off ≠ Reg.grdCtrl n := by
  simp only [regionRegs, List.mem_cons, List.not_mem_nil, or_false] at h
  unfold Reg.grdBase Reg.grdLimit Reg.grdAttr at h
  unfold Reg.grdCtrl
  omega

/-- apply_busy set or cleared. -/
theorem applyBusy_putFld {n : Nat} (hn : n < 28) (hw : s.wf = true) (b : Bool) : (s.putFld (Reg.grdCtrl n) 9 1 (b2n b)).bitAt (Reg.grdCtrl n) 9 = b := by
  rw [bitAt_putFld hw (by decide) (by decide) (by decide) (by rw [(grdCtrl_row n hn).2]; decide)]
  cases b <;> rfl

/-- A write of GRDn_CTRL is `grdCtrlWrite`. -/
theorem registerWrite_grdCtrl {n : Nat} (hn : n < 28) (p : Path) (f : RegFam) (w m : Word) :
    registerWrite p f false (Reg.grdCtrl n) 4 w m = grdCtrlWrite p f (Reg.grdCtrl n) w m := by
  have hoff : Reg.grdCtrl n = 0x420800 + 0x1000 * n := by unfold Reg.grdCtrl; omega
  have hothers : ∀ k ∈ [Reg.stoEccCtrl, Reg.dmcEccCtrl, Reg.stoTestCmd, Reg.dmcTestCmd], Reg.grdCtrl n ≠ k := fun k hk => by
    have hlt : ∀ k ∈ [Reg.stoEccCtrl, Reg.dmcEccCtrl, Reg.stoTestCmd, Reg.dmcTestCmd], k < 0x420000 := by decide
    have := hlt k hk
    omega
  have hguard : (decide (0x420000 ≤ Reg.grdCtrl n) && decide (Reg.grdCtrl n < 0x440000) && Reg.grdCtrl n % 0x1000 = 0x800) = true := by
    simp only [Bool.and_eq_true, decide_eq_true_eq]
    omega
  rw [registerWrite, if_neg (by omega), if_neg (by omega), if_pos (by omega), memoryWrite, if_neg (hothers _ (by decide)), if_neg (hothers _ (by decide)),
    if_neg (hothers _ (by decide)), if_neg (hothers _ (by decide)), if_pos hguard]

/-- What the secure world's apply takes: the shadows of every region of the guard. -/
def State.shadows (s : State) (n : Nat) : List (Nat × Word) := ((List.range 64).map fun m => (regionRegs n m).map fun r => (r, s.rd r)).flatten

/-- They do not depend on GRDn_CTRL. -/
theorem shadows_putReg (s : State) (n : Nat) (v : Word) : (s.putReg (Reg.grdCtrl n) v).shadows n = s.shadows n := by
  unfold State.shadows
  refine congrArg List.flatten (List.map_congr_left fun m hm => List.map_congr_left fun r hr => ?_)
  rw [rd_putReg_ne s (regionRegs_ne_grdCtrl (List.mem_range.mp hm) hr)]

/-- An apply of the secure world, while none is in progress: apply_busy is set, every shadow is taken. -/
theorem grdApplyOp_run {n : Nat} (hn : n < 28) (hbusy : s.bitAt (Reg.grdCtrl n) 9 = false) : runAct (grdApplyOp n true) s =
    ({ s with memc := { s.memc with applying := (s.memc.applying.filter fun x => x.1 != n) ++ [(n, s.shadows n)] } } : State).putFld
      (Reg.grdCtrl n) 9 1 1 := by
  have hall : rangeFrom 0 64 = List.range 64 := by decide
  rw [grdApplyOp, runAct_ask, if_neg (by simp [hbusy]), runAct_acts, setFld_run_left _ _ _ _ _ _ (reactReg_grdCtrl hn)]
  simp only [if_true, hall]
  rfl

/-- The write that begins an apply, from the secure world. -/
theorem grdApply_run {n : Nat} (hn : n < 28) (hw : s.wf = true) (hbusy : s.bitAt (Reg.grdCtrl n) 9 = false)
    (hlets : s.lets .sec (Reg.grdCtrl n) 4 (s.rd (Reg.grdCtrl n) ||| 0x100) (Reg.grdCtrl n)) :
    ∃ v, (s.putReg (Reg.grdCtrl n) v).bitAt (Reg.grdCtrl n) 9 = false
      ∧ exec (.grdApply .sec n) s = .next (runAct (grdApplyOp n true) (s.putReg (Reg.grdCtrl n) v)) := by
  obtain ⟨hfind, -⟩ := grdCtrl_row n hn
  have h8 : Reg.grdCtrl n % 8 = 0 := by unfold Reg.grdCtrl; omega
  have hslot : Reg.grdCtrl n / 8 * 8 = Reg.grdCtrl n := by omega
  have hmask : coverMask (Reg.grdCtrl n) 4 = 0xFFFFFFFF := by
    rw [coverMask, h8]
    rfl
  refine ⟨writeWord (regsGrd[3]'(by decide)) false (s.rd (Reg.grdCtrl n)) (coverWord (Reg.grdCtrl n) 4 (s.rd (Reg.grdCtrl n) ||| 0x100)) 0xFFFFFFFF, ?_, ?_⟩
  · rw [State.bitAt, wBit_eq, rd_putReg hw, regMask, BitVec.toNat_and, Nat.testBit_and,
      writeWord_testBit (rep := 0x7F) (by decide +kernel) (by decide +kernel) (by decide +kernel), if_neg (by decide), ← wBit_eq, ← State.bitAt, hbusy]
    rfl
  · have hgo : wBit (coverWord (Reg.grdCtrl n) 4 (s.rd (Reg.grdCtrl n) ||| 0x100) &&& coverMask (Reg.grdCtrl n) 4) 8 = true := by
      rw [wBit_cover h8 (Or.inl rfl) _ (by decide), wBit_eq, BitVec.toNat_or, Nat.testBit_or]
      exact Bool.or_true _
    have hindex : (grdIndex (Reg.grdCtrl n)).1 = n := by
      unfold grdIndex Reg.grdCtrl
      omega
    have hfind' : regFind (Reg.grdCtrl n / 8 * 8) = some (regsGrd[3]'(by decide), [n]) := by rw [hslot, hfind]
    refine (setCommand_adds (bits := 2 ^ 8) (by decide) hlets hfind' (decide_eq_true hn)).trans (congrArg _ ?_)
    rw [hslot, registerWrite_grdCtrl hn, grdCtrlWrite, hgo, hindex, hmask]
    exact slotWrite_run (reactReg_grdCtrl hn) _ _ _ _ _ s

/-! ### The end of an apply -/

/-- The committed values with those of a list set one after another. -/
def regPuts (xs : List (Nat × Word)) (m : List (Nat × Word)) : List (Nat × Word) := xs.foldl (fun m x => regPut x.1 x.2 m) m

theorem eachCom_run (xs : List (Nat × Word)) (a : Act) (s : State) :
    runAct (.seq (each xs fun r => .eff (.com r.1 r.2)) a) s = runAct a { s with com := regPuts xs s.com } := by
  induction xs generalizing s with
  | nil => exact runAct_skip_left a s
  | cons x xs ih =>
    rw [each_cons, runAct_acts_left, run_com]
    exact ih _

/-- A register that the list does not name keeps its committed value. -/
theorem mapGet_regPuts_ne {xs : List (Nat × Word)} {off : Nat} (h : off ∉ xs.map Prod.fst) (m : List (Nat × Word)) :
    mapGet regDflt off (regPuts xs m) = mapGet regDflt off m := by
  induction xs generalizing m with
  | nil => rfl
  | cons x xs ih =>
    rw [List.map_cons, List.mem_cons, not_or] at h
    exact (ih h.2 _).trans (mapGet_put_ne regDflt h.1 _ _)

theorem wf_com (hw : s.wf = true) : mapWf regDflt s.com = true := by
  obtain ⟨-, -, -, hcom, -⟩ := (wf_iff s).mp hw
  exact (Bool.and_eq_true_iff.mp hcom).1

/-- Each register of the list takes its own, where no two are the same. -/
theorem mapGet_regPuts {xs : List (Nat × Word)} (hxs : (xs.map Prod.fst).Nodup) {r : Nat} {v : Word} (h : (r, v) ∈ xs) {m : List (Nat × Word)}
    (hm : mapWf regDflt m = true) : mapGet regDflt r (regPuts xs m) = regMask r v := by
  induction xs generalizing m with
  | nil => cases h
  | cons x xs ih =>
    rw [List.map_cons, List.nodup_cons] at hxs
    rcases List.mem_cons.mp h with rfl | hlater
    · exact (mapGet_regPuts_ne hxs.1 _).trans (mapGet_put_wf regDflt _ _ _ hm)
    · exact ih hxs.2 hlater (mapWf_put regDflt _ _ _ hm)

/-- GRD_APPLY_DONE while an apply is in progress. -/
theorem grdApplyDone_run {n : Nat} (hn : n < 28) (hl : s.live) {snap : List (Nat × Word)}
    (hsnap : (s.memc.applying.find? fun x => x.1 = n) = some (n, snap)) : exec (.grdApplyDone n) s =
      .next (({ s with com := regPuts snap s.com, memc := { s.memc with applying := s.memc.applying.filter fun y => y.1 != n } } : State).putFld
        (Reg.grdCtrl n) 9 1 0) := by
  refine (live_next hl (decide_eq_true hn) _).trans (congrArg _ ?_)
  rw [runAct_ask, hsnap, actOpt_some, runAct_acts, eachCom_run, runAct_acts, run_memc, acts_one, setFld_run _ _ _ _ _ (reactReg_grdCtrl hn)]
  rfl

/-! ### The obligation -/

/-- Settles O20: a reservation's write (`reserveWrite_waits`), the begin of an apply (`grdApply_run`, `grdApplyOp_run`) and its end (`grdApplyDone_run`). -/
theorem reservationsAndGuards : Obligations.ReservationsAndGuards := by
  refine ⟨fun p v s hw => ⟨fun hlets => ?_, fun hlets => ?_⟩, fun n s hn hw => ⟨?_, fun snap hl hsnap hdistinct => ?_⟩⟩
  · obtain ⟨t, hrun, hfld, hworlds, hraise⟩ := reserveWrite_waits (store := false) hlets hw
    exact ⟨t, hrun, hfld, hworlds, fun h => hraise (decide_eq_true h)⟩
  · obtain ⟨t, hrun, hfld, hworlds, hraise⟩ := reserveWrite_waits (store := true) hlets hw
    exact ⟨t, hrun, hfld, hworlds, fun h => hraise (decide_eq_true h)⟩
  · rintro p hlets rfl hbusy
    obtain ⟨v, hidle, hrun⟩ := grdApply_run hn hw hbusy hlets
    refine ⟨_, hrun, ?_⟩
    rw [grdApplyOp_run hn hidle, shadows_putReg]
    refine ⟨?_, List.mem_append_right _ (List.mem_singleton_self _), rfl⟩
    exact applyBusy_putFld hn (putReg_wf hw _ v) true
  · refine ⟨_, grdApplyDone_run hn hl hsnap, ?_, fun r v hr => mapGet_regPuts hdistinct hr (wf_com hw), fun off hoff => mapGet_regPuts_ne hoff s.com⟩
    exact applyBusy_putFld hn hw false

end Sys2Proof.Machine
end

section
/-!
PROOFS. Trusted restarts (O18): what the notice to the seats leaves (R232, R241), how a restart begins (R241, R242) and ends (R244), and the detection that
comes before the one that the hall monitor of the secure core begins (R545).
-/

namespace Sys2Proof.Machine

variable {s u : State}

/-! ### The notice to the seats (R232, R241) -/

/-- What a notice leaves of a state, whatever the seats read: the registers below the seat pages, SEC_STATE among them, and the worlds. -/
structure State.Unnoticed (s u : State) : Prop where
  sound : u.Sound
  low : ∀ off, off < 0x800000 → u.rd off = s.rd off
  worlds : u.worlds = s.worlds

theorem unnoticed_self (hs : s.Sound) : s.Unnoticed s := ⟨hs, fun _ _ => rfl, rfl⟩

theorem State.Unnoticed.trans {t : State} (h : s.Unnoticed u) (h' : u.Unnoticed t) : s.Unnoticed t :=
  ⟨h'.sound, fun off ho => (h'.low off ho).trans (h.low off ho), h'.worlds.trans h.worlds⟩

/-- A field of a seat's page is written. -/
theorem setFld_unnoticed {off : Nat} (ho : 0x800000 ≤ off) (lo w x : Nat) : (setFld off lo w x).Takes s.Unnoticed s.Unnoticed := fun u hu => by
  have hput : (runGo (setFld off lo w x) u).1 = u.putFld off lo w x := setFld_run off lo w x u (reactReg_page (by omega))
  refine ⟨rfl, ?_⟩
  rw [hput]
  have hcalm : (u.putFld off lo w x).calm := by
    rw [State.putFld, ← applyEff_csr (reactReg_page (by omega))]
    exact calm_soft rfl hu.sound.1
  exact ⟨⟨hcalm, putFld_wf hu.sound.2 _ _ _ _⟩, fun o h => (rd_putFld_ne u (by omega) lo w x).trans (hu.low o h), hu.worlds⟩

theorem seatState_high (n : Nat) : 0x800000 ≤ Reg.seatState n := by
  unfold Reg.seatState
  omega

/-- secure_unavailable of a seat as it is set. -/
theorem secureUnavailable_set {n : Nat} (hn : n < 512) (v : Nat) :
    (setFld (Reg.seatState n) 4 1 v).Takes s.Unnoticed fun u => s.Unnoticed u ∧ u.fld (Reg.seatState n) 4 1 = v % 2 := fun u hu => by
  obtain ⟨hend, hnext⟩ := setFld_unnoticed (seatState_high _) 4 1 v u hu
  refine ⟨hend, hnext, ?_⟩
  rw [show (runGo (setFld (Reg.seatState n) 4 1 v) u).1 = u.putFld (Reg.seatState n) 4 1 v from setFld_run _ 4 1 v u (reactReg_seatState n)]
  exact fld_putFld hu.sound.2 (by decide) (by rw [regImpl_seatState hn]; decide) v

/-- It is kept while another seat's, or its own, is set to the same. -/
theorem secureUnavailable_kept {n : Nat} (hn : n < 512) (m v : Nat) :
    (setFld (Reg.seatState m) 4 1 v).Takes (fun u => s.Unnoticed u ∧ u.fld (Reg.seatState n) 4 1 = v % 2)
      fun u => s.Unnoticed u ∧ u.fld (Reg.seatState n) 4 1 = v % 2 := fun u ⟨hu, hv⟩ => by
  by_cases h : n = m
  · subst h
    exact secureUnavailable_set hn v u hu
  · obtain ⟨hend, hnext⟩ := setFld_unnoticed (seatState_high _) 4 1 v u hu
    refine ⟨hend, hnext, ?_⟩
    rw [show (runGo (setFld (Reg.seatState m) 4 1 v) u).1 = u.putFld (Reg.seatState m) 4 1 v from setFld_run _ 4 1 v u (reactReg_seatState m), State.fld,
      rd_putFld_ne u fun he => h (seatState_inj he)]
    exact hv

/-- A notice to seats touches no register but IRQ_PEND. -/
theorem seatsNotify_leaves {K : Nat → Prop} (hirq : ∀ n, ¬ K (Reg.irqPend n)) (p : Nat → Bool) (bit : Nat) : (seatsNotify p bit).Foot (Leaves K) := by
  simp only [seatsNotify, foot_ask, foot_each]
  exact fun _ _ n _ => irqSet_leaves_page hirq n bit

/-- The program from a sound state: registers that it leaves alone, and the worlds where its class does not hold them. -/
theorem runAct_keeps {K : Nat → Prop} {T : Nat} {a : Act} (hK : a.Foot (Leaves K)) (hT : a.Foot (In T)) (hsoft : softClass T = true)
    (hworlds : Part.spared T .secureIrqs = true) (hs : s.Sound) :
    (runAct a s).Sound ∧ (∀ off, K off → (runAct a s).rd off = s.rd off) ∧ (runAct a s).worlds = s.worlds :=
  ⟨(sound_foot hT hsoft).run hs, (runGo_leaves hK hs.1).2.2, (runAct_same hsoft hT hs.1).2 .secureIrqs hworlds⟩

/-- What the secure notice leaves. -/
theorem secureNotice_run (hs : s.Sound) (v : Nat) :
    s.Unnoticed (runAct (secureNotice v) s) ∧ ∀ n, n < 512 → (runAct (secureNotice v) s).fld (Reg.seatState n) 4 1 = v % 2 := by
  have hset : ∀ n, n < 512 → (each (List.range 512) fun n => setFld (Reg.seatState n) 4 1 v).Takes s.Unnoticed
      fun u => s.Unnoticed u ∧ u.fld (Reg.seatState n) 4 1 = v % 2 := fun n hn =>
    takes_each_reaching (List.mem_range.mpr hn) (fun m _ => setFld_unnoticed (seatState_high _) 4 1 v) (secureUnavailable_set hn v)
      fun m _ => secureUnavailable_kept hn m v
  have hmarked := fun n hn => (hset n hn).run (unnoticed_self hs)
  rw [secureNotice, runAct_takes_cons (hset 0 (by decide)) (unnoticed_self hs), acts_one]
  have hu := (hmarked 0 (by decide)).1
  obtain ⟨hsound, hrd, hworlds⟩ := runAct_keeps (T := 0x801) (K := fun off => ∀ n, off ≠ Reg.irqPend n)
    (seatsNotify_leaves (fun n h => h n rfl) (fun _ => true) 11) (seatsNotify_foot _ _ rfl) rfl rfl hu.sound
  refine ⟨hu.trans ⟨hsound, fun off ho => hrd off fun n => by unfold Reg.irqPend; omega, hworlds⟩, fun n hn => ?_⟩
  rw [State.fld, hrd _ fun m => by unfold Reg.seatState Reg.irqPend; omega]
  exact (hmarked n hn).2

/-! ### The beginning of a restart (R241, R242) -/

/-- The word of SEC_STATE as a restart begins: restarting, the number of restarts, last_cause. -/
def restartWord (count : Nat) (byGo : Bool) : Word := BitVec.ofNat 64 (1 + 2 * count + 8 * b2n byGo)

/-- The state as a restart begins, before the seats are told. -/
def State.restarted (s : State) (byGo : Bool) : State :=
  ({ s with worlds := { s.worlds with restarts := s.tts.bell :: s.recentRestarts, beyloth := false, measuring := false } } : State).putReg Reg.secState
    (restartWord (s.recentRestarts.length + 1) byGo)

/-- A trigger, while fewer than three restarts have begun and the chip is not in DEEP_SLEEP. -/
theorem restartTrigger_run (hpst : s.pst ≠ 4) (hfew : s.recentRestarts.length < 3) (byGo : Bool) :
    runAct (restartTrigger byGo) s = runAct (secureNotice 1) (s.restarted byGo) := by
  rw [restartTrigger, runAct_ask, if_neg (show ¬ s.fld Reg.pwrStatus 0 3 = 4 from hpst), if_neg (by omega), runAct_acts, run_worlds, runAct_acts,
    setReg_run_left _ _ _ _ (by decide), acts_one]
  rfl

/-- A trigger after three enters the safe state. -/
theorem restartTrigger_fourth (hpst : s.pst ≠ 4) (hmany : 3 ≤ s.recentRestarts.length) (byGo : Bool) :
    runAct (restartTrigger byGo) s = runAct (enterSafe stSec 5 false) s := by
  rw [restartTrigger, runAct_ask, if_neg (show ¬ s.fld Reg.pwrStatus 0 3 = 4 from hpst), if_pos hmany]

theorem putReg_sound (hs : s.Sound) {off : Nat} (ho : reactReg off = false) (v : Word) : (s.putReg off v).Sound := by
  rw [← applyEff_csr ho]
  exact ⟨calm_soft rfl hs.1, applyEff_wf _ s hs.2⟩

/-- SEC_STATE as a restart begins reads what it was set to. -/
theorem restarted_fields (hw : s.wf = true) (hfew : s.recentRestarts.length < 3) (byGo : Bool) :
    (s.restarted byGo).bitAt Reg.secState 0 = true ∧ (s.restarted byGo).fld Reg.secState 1 2 = s.recentRestarts.length + 1
      ∧ (s.restarted byGo).bitAt Reg.secState 3 = byGo := by
  have hfld : ∀ lo w, nBits (regImpl Reg.secState % 2 ^ 64) lo w = 2 ^ w - 1 → lo + w ≤ 64 →
      (s.restarted byGo).fld Reg.secState lo w = (1 + 2 * (s.recentRestarts.length + 1) + 8 * b2n byGo) / 2 ^ lo % 2 ^ w := fun lo w hm h64 => by
    rw [State.restarted, fld_putReg (by exact hw) hm, restartWord, ofNat_fld _ _ _ h64]
  refine ⟨?_, ?_, ?_⟩
  · rw [bitAt_iff, hfld 0 1 (by decide +kernel) (by decide), decide_eq_true_eq]
    omega
  · rw [hfld 1 2 (by decide +kernel) (by decide)]
    cases byGo <;> simp only [b2n] <;> omega
  · rw [bitAt_iff, hfld 3 1 (by decide +kernel) (by decide)]
    cases byGo <;> simp [b2n] <;> omega

/-- What a restart leaves as it begins; of the registers below the seat pages it touches SEC_STATE alone. -/
theorem restartTrigger_begins (hs : s.Sound) (hpst : s.pst ≠ 4) (hfew : s.recentRestarts.length < 3) (byGo : Bool) :
    restartBegun s (runAct (restartTrigger byGo) s) byGo
      ∧ ∀ off, off < 0x800000 → off ≠ Reg.secState → (runAct (restartTrigger byGo) s).rd off = s.rd off := by
  rw [restartTrigger_run hpst hfew]
  have hbegun : (s.restarted byGo).Sound := putReg_sound (s := { s with worlds := _ }) hs (by decide) _
  obtain ⟨hu, hseats⟩ := secureNotice_run hbegun 1
  obtain ⟨hrestarting, hcount, hcause⟩ := restarted_fields hs.2 hfew byGo
  have hstate : (runAct (secureNotice 1) (s.restarted byGo)).rd Reg.secState = (s.restarted byGo).rd Reg.secState := hu.low _ (by decide)
  refine ⟨⟨hu.worlds, ?_, ?_, ?_, fun n hn => ?_⟩, fun off ho hne => (hu.low off ho).trans (rd_putReg_ne _ hne _)⟩
  · exact (congrArg (wBit · 0) hstate).trans hrestarting
  · exact (congrArg (wBits · 1 2) hstate).trans hcount
  · exact (congrArg (wBit · 3) hstate).trans hcause
  · rw [bitAt_iff, hseats n hn]
    rfl

/-! ### The triggers -/

/-- SEC_RESTART's write, by the codes of its fields. -/
def State.restartWritten (s : State) (v : Word) : State :=
  s.putReg Reg.secRestart (writeWord (regsSec[1]'(by decide)) false (s.rd Reg.secRestart) (coverWord Reg.secRestart 4 v) (coverMask Reg.secRestart 4))

/-- go and ready read 0 (R7). -/
theorem secRestart_reads_zero (hw : s.wf = true) {i : Nat} (hi : i < 2) : (s.rd Reg.secRestart).toNat.testBit i = false := by
  have himpl : ∀ i < 2, (BitVec.ofNat 64 (regImpl Reg.secRestart)).toNat.testBit i = false := by decide +kernel
  rw [← rd_mask hw Reg.secRestart (by decide +kernel), regMask, BitVec.toNat_and, Nat.testBit_and, himpl i hi, Bool.and_false]

/-- So a write that sets some of its bits writes them alone. -/
theorem secRestart_writes (hw : s.wf = true) (b : Word) {i : Nat} (hi : i < 2) : wBit (s.rd Reg.secRestart ||| b) i = b.toNat.testBit i := by
  rw [wBit_eq, BitVec.toNat_or, Nat.testBit_or, secRestart_reads_zero hw hi, Bool.false_or]

/-- A write of SEC_RESTART is that of its fields, then of go and of ready. -/
theorem secRestart_write {p : Path} {bits : Nat} {b : Word} (hb : BitVec.ofNat 64 bits = b)
    (hlets : s.lets p Reg.secRestart 4 (s.rd Reg.secRestart ||| b) Reg.secRestart) : setCommand true p Reg.secRestart 4 bits 0 s =
      .next (runAct (acts [actIf (wBit (s.rd Reg.secRestart ||| b) 0) secRestartGoOp, actIf (wBit (s.rd Reg.secRestart ||| b) 1) secRestartReadyOp])
        (s.restartWritten (s.rd Reg.secRestart ||| b))) := by
  refine (setCommand_adds (f := regsSec[1]'(by decide)) (ix := []) hb hlets rfl rfl).trans (congrArg _ ?_)
  rw [← wBit_cover (a := Reg.secRestart) (size := 4) rfl (Or.inl rfl) (s.rd Reg.secRestart ||| b) (i := 0) (by decide),
    ← wBit_cover (a := Reg.secRestart) (size := 4) rfl (Or.inl rfl) (s.rd Reg.secRestart ||| b) (i := 1) (by decide)]
  exact slotWrite_run (off := Reg.secRestart) (by decide) _ _ _ _ _ s

/-- SEC_RESTART.go is a trigger. -/
theorem secRestartGo_run {p : Path} (hw : s.wf = true) (hlets : s.lets p Reg.secRestart 4 (s.rd Reg.secRestart ||| 1) Reg.secRestart) :
    exec (.secRestartGo p) s = .next (runAct (restartTrigger true) (s.restartWritten (s.rd Reg.secRestart ||| 1))) := by
  refine (secRestart_write (bits := 1) (b := 1) (by decide) hlets).trans (congrArg _ ?_)
  rw [secRestart_writes hw 1 (by decide), secRestart_writes hw 1 (by decide)]
  exact runAct_skip_right _ _

/-- SEC_RESTART.ready is the end of a restart, where one runs and Beyloth does. -/
theorem secRestartReady_run {p : Path} (hw : s.wf = true) (hlets : s.lets p Reg.secRestart 4 (s.rd Reg.secRestart ||| 2) Reg.secRestart) :
    exec (.secRestartReady p) s = .next (runAct secRestartReadyOp (s.restartWritten (s.rd Reg.secRestart ||| 2))) := by
  refine (secRestart_write (bits := 2) (b := 2) (by decide) hlets).trans (congrArg _ ?_)
  rw [secRestart_writes hw 2 (by decide), secRestart_writes hw 2 (by decide)]
  exact runAct_skip_left _ _

/-- The fields of SEC_RESTART apart, the write changes nothing. -/
theorem restartWritten_sound (hs : s.Sound) (v : Word) : (s.restartWritten v).Sound := putReg_sound hs (by decide) _

theorem rd_restartWritten {off : Nat} (h : off ≠ Reg.secRestart) (s : State) (v : Word) : (s.restartWritten v).rd off = s.rd off := rd_putReg_ne s h _

/-- What the end of a restart leaves (R244): restarting and secure_unavailable are 0, the interrupts that were held are delivered. -/
theorem secRestartReadyOp_ends (hs : s.Sound) (hrestarting : s.bitAt Reg.secState 0 = true) (hup : s.worlds.beyloth = true) :
    (runAct secRestartReadyOp s).bitAt Reg.secState 0 = false
      ∧ (∀ n, n < 512 → (runAct secRestartReadyOp s).bitAt (Reg.seatState n) 4 = false)
      ∧ (runAct secRestartReadyOp s).worlds = { s.worlds with secIrq := s.worlds.secHeld.reverse ++ s.worlds.secIrq, secHeld := [] } := by
  have hput : (s.putFld Reg.secState 0 1 0).Sound := putReg_sound hs (by decide) _
  have hrun : runAct secRestartReadyOp s = applyEff (.worlds fun w => { w with secIrq := w.secHeld.reverse ++ w.secIrq, secHeld := [] })
      (runAct (secureNotice 0) (s.putFld Reg.secState 0 1 0)) := by
    rw [secRestartReadyOp, runAct_ask, runAct_actIf, hrestarting, hup, if_pos (by decide), runAct_acts, setFld_run_left _ _ _ _ _ _ (by decide), runAct_acts,
      runAct_seq (T := 0x801) rfl (secureNotice_foot 0 rfl) _ hput.1, acts_one, runAct_eff]
  obtain ⟨hu, hseats⟩ := secureNotice_run hput 0
  rw [hrun]
  refine ⟨?_, fun n hn => ?_, ?_⟩
  · rw [eff_worlds_bitAt, State.bitAt, hu.low _ (by decide)]
    exact bitAt_putFld hs.2 (by decide) (by decide) (by decide) (by decide +kernel) 0
  · rw [eff_worlds_bitAt, bitAt_iff, hseats n hn]
    rfl
  · rw [eff_worlds_worlds, hu.worlds]
    rfl

/-! ### The hall monitor of the secure core (R545) -/

/-- The reactions to SEC_EXPIRED touch FAULT_N's register alone. -/
theorem milder_secExpired_leaves {K : Nat → Prop} (hpin : ¬ K Reg.fltPin) (m : Nat) : (milder stHmn 5 none m).Foot (Leaves K) := by
  have hreset : (blockReset stHmn).Foot (Leaves K) := (blockReset_plain (T := 0x80000) (st := stHmn) rfl rfl).mono fun _ => leaves_of_in rfl rfl
  have hirq : (irqReact stHmn 5 none).Foot (Leaves K) := by
    simp [irqReact, secIrq, stHmn]
  have hother : (if stHmn = 14 && 5 = 4 then 11 else stHmn) = stHmn := rfl
  simp only [milder, hother, foot_acts_cons, foot_acts_nil, foot_actIf, setFld_leaves hpin, hreset, hirq, foot_eff, leaves_flt, implies_true, and_true]

/-- What the detection of SEC_EXPIRED leaves that a trigger reads, beside its record. -/
theorem secExpired_detected (hs : s.Sound) : (runAct (raise stHmn 5) s).Sound ∧ s.logs (runAct (raise stHmn 5) s) 14 5 0
    ∧ (runAct (raise stHmn 5) s).pst = s.pst ∧ (runAct (raise stHmn 5) s).recentRestarts = s.recentRestarts := by
  have hfoot : (raise stHmn 5).Foot (In 0x300FDE01) := raise_foot stHmn 5 rfl rfl
  have hleaves : (raise stHmn 5).Foot (Leaves (· = Reg.pwrStatus)) :=
    raiseSrc_leaves (fun off h1 h2 => by
      have := stationRegs_range h1
      rw [h2] at this
      exact absurd this.1 (by decide)) (milder_secExpired_leaves (by decide)) rfl
  obtain ⟨-, hsame⟩ := runAct_same rfl hfoot hs.1
  have hworlds : (runAct (raise stHmn 5) s).worlds.restarts = s.worlds.restarts := by
    have h : Part.worlds.same s (runAct (raise stHmn 5) s) := hsame .worlds rfl
    rw [h]
  have htts : (runAct (raise stHmn 5) s).tts = s.tts := hsame .tts rfl
  refine ⟨(sound_foot hfoot rfl).run hs, ((raiseSrc_logged (st := 14) (src := 5) rfl rfl).run (awaits_self hs)).2, ?_, ?_⟩
  · exact congrArg (wBits · 0 3) ((runGo_leaves hleaves hs.1).2.2 _ rfl)
  · rw [State.recentRestarts, hworlds, htts, State.recentRestarts]

/-- SEC_EXPIRED: the detection, then a trigger. -/
theorem secExpired_run (hl : s.live) (hs : s.Sound) (hup : s.worlds.beyloth = true) (hidle : s.bitAt Reg.secState 0 = false) :
    exec .secExpired s = .next (runAct (restartTrigger false) (runAct (raise stHmn 5) s)) := by
  refine (live_next hl rfl _).trans (congrArg _ ?_)
  rw [runAct_whenS, hup, hidle, if_pos (by decide), runAct_acts, runAct_seq (T := 0x300FDE01) rfl (raise_foot stHmn 5 rfl rfl) _ hs.1, acts_one]

/-! ### A measurement that fails (Table 7.9 step 4) -/

/-- The boot ROM has measured, and Beyloth does not run. -/
def State.measured (s : State) : State := { s with worlds := { s.worlds with measuring := false, beyloth := false } }

theorem measureFailed_run (hl : s.live) (hm : s.worlds.measuring = true) (hboot : 2 ≤ s.pwr.boot) :
    exec (.beylothMeasureDone false) s = .next (runAct (raise stSec 5) s.measured) := by
  refine (live_next hl rfl _).trans (congrArg _ ?_)
  rw [runAct_ask, runAct_actIf, hm, decide_eq_true hboot, if_pos (by decide), runAct_acts, run_worlds, acts_one, if_neg (by decide)]
  rfl

/-! ### The obligation -/

/-- Settles O18: every trigger runs `restartTrigger`, which begins a restart (`restartTrigger_begins`) or after three enters the safe state
(`restartTrigger_fourth`); ready ends it (`secRestartReadyOp_ends`). -/
theorem trustedRestarts : Obligations.TrustedRestarts := by
  refine ⟨fun s hl hc hw hpst hfew => ?_, fun s hl hc hw => ⟨fun hup hpst hmany => ?_, fun hm hboot hsafe => ?_⟩, fun p s hc hw hlets hrestarting hup => ?_⟩
  · have hs : s.Sound := ⟨hc, hw⟩
    refine ⟨fun p hlets => ?_, fun hup => ?_, fun hwaits => ?_, fun hup hidle => ?_⟩
    · have hpst' : (s.restartWritten (s.rd Reg.secRestart ||| 1)).pst ≠ 4 := by
        rwa [State.pst, State.fld, rd_restartWritten (by decide)]
      exact ⟨_, secRestartGo_run hw hlets, (restartTrigger_begins (restartWritten_sound hs _) hpst' hfew true).1⟩
    · refine ⟨_, live_next hl rfl _, ?_⟩
      rw [runAct_whenS, if_pos hup]
      exact (restartTrigger_begins hs hpst hfew false).1
    · refine ⟨_, live_next hl rfl _, ?_⟩
      rw [runAct_whenS, if_pos (by simpa using hwaits)]
      exact (restartTrigger_begins hs hpst hfew false).1
    · obtain ⟨hs', hlogs, hpst', hrecent⟩ := secExpired_detected hs
      obtain ⟨⟨hworlds, hbegun, -⟩, hrd⟩ := restartTrigger_begins hs' (hpst' ▸ hpst) (hrecent ▸ hfew) false
      refine ⟨_, secExpired_run hl hs hup hidle, logs_congr rfl (fun _ _ => rfl) (fun off ho => ?_) hlogs, by rw [hworlds], hbegun⟩
      have := stationRegs_range ho
      exact hrd off (by omega) (by unfold Reg.secState; omega)
  · refine ⟨_, live_next hl rfl _, ?_⟩
    rw [runAct_whenS, if_pos hup, restartTrigger_fourth hpst hmany]
    exact enterSafe_goes hc hw (by decide) (by decide)
  · exact ⟨_, measureFailed_run hl hm hboot, raiseSrc_goes (s := s.measured) hc hw 0 none (by decide) (by decide) rfl hsafe⟩
  · exact ⟨_, secRestartReady_run hw hlets, secRestartReadyOp_ends (restartWritten_sound ⟨hc, hw⟩ _)
      ((congrArg (wBit · 0) (rd_restartWritten (by decide) s _)).trans hrestarting) hup⟩

end Sys2Proof.Machine
end

section
/-!
PROOFS. Hand-overs (O19): the registers of SEC that no reset of a unit, no clock gate and no notice touches, the request (R226, R227), the bus-idle
acknowledgements (R226, R578), and the units' change of world (R230, R232).
-/

namespace Sys2Proof.Machine

variable {s u : State}

/-! ### Registers that the work of a hand-over leaves alone -/

/-- SEC_STATE to the world maps, SEC_HO_STATUS among them. -/
def secRegs (off : Nat) : Prop := 0x50000 ≤ off ∧ off < 0x50140

theorem secHoStatus_sec : secRegs Reg.secHoStatus := ⟨by decide, by decide⟩

theorem secWorldMap_sec {k : Nat} (hk : k < 7) : secRegs (Reg.secWorldMap k) := by
  unfold Reg.secWorldMap secRegs
  omega

theorem not_secRegs_low {off : Nat} (h : off < 0x50000) : ¬ secRegs off := fun ⟨h1, _⟩ => by omega
theorem not_secRegs_high {off : Nat} (h : 0x50140 ≤ off) : ¬ secRegs off := fun ⟨_, h2⟩ => by omega

theorem secNotify_leaves (p : Nat → Bool) (bit : Nat) : (seatsNotify p bit).Foot (Leaves secRegs) :=
  seatsNotify_leaves (fun n => not_secRegs_high (by unfold Reg.irqPend; omega)) p bit

theorem handoverNotice_leaves (moving : List Nat) : (handoverNotice moving).Foot (Leaves secRegs) :=
  .ask fun _ _ => secNotify_leaves _ 11

theorem capRegs_leaves : capRegs.Foot (Leaves secRegs) := by
  simp only [capRegs, coresNowReg, foot_acts_cons, foot_acts_nil, foot_each, foot_ask, and_true]
  refine ⟨fun q _ _ _ => setFld_leaves (not_secRegs_high ?_) _ _ _, fun s _ k hk => ⟨setFld_leaves (not_secRegs_low ?_) _ _ _,
    setFld_leaves (not_secRegs_low ?_) _ _ _⟩⟩
  · unfold Reg.rndQueueCfg
    omega
  all_goals have := List.mem_range.mp hk
  · unfold Reg.admCap
    omega
  · unfold Reg.admFree
    omega

theorem ungate_leaves (b : Nat) : (ungate b).Foot (Leaves secRegs) := by
  have hgate : ¬ secRegs (Reg.clkGate b) := not_secRegs_high (by unfold Reg.clkGate; omega)
  simp [ungate, setFld_leaves hgate]

theorem gateReview_leaves (trans : Bool) (b : Nat) : (gateReview trans b).Foot (Leaves secRegs) := by
  simp [gateReview, ungate_leaves]

/-! ### The reset of a unit (R230) -/

theorem windowReset_leaves {first size : Nat} (h : size = 0 ∨ 0x50140 ≤ first) : (windowReset first size).Foot (Leaves secRegs) := by
  simp only [windowReset, resetReg, foot_ask, foot_each, foot_acts_cons, foot_acts_nil, foot_eff, leaves_com, leaves_csr, and_true, List.mem_filter,
    Bool.and_eq_true, decide_eq_true_eq]
  exact fun s _ k hk => not_secRegs_high (by omega)

/-- The registers of an assignable unit lie above those of SEC; a render core has none. -/
theorem unitWindow_apart (u : Nat) : (unitWindow u).2 = 0 ∨ 0x50140 ≤ (unitWindow u).1 := by
  unfold unitWindow
  repeat' split
  all_goals
    dsimp only
    omega

theorem headLeave_leaves (h : Nat) : (headLeave h).Foot (Leaves secRegs) := by
  have hpool : ¬ secRegs Reg.cmpPoolFree := not_secRegs_high (by decide)
  simp [headLeave, canvasUpd, headUpd, poolFree, setFld_leaves hpool]

theorem chkUnserve_leaves : chkUnserve.Foot (Leaves secRegs) := by
  have hcfg : ∀ n, ¬ secRegs (Reg.chkCfg n) := fun n => not_secRegs_high (by unfold Reg.chkCfg; omega)
  simp [chkUnserve, setFld_leaves (hcfg _)]

theorem dmaSuspend_leaves (k : Nat) : (dmaSuspend k).Foot (Leaves secRegs) := by
  have hstatus : ¬ secRegs (Reg.dmaStatus k) := not_secRegs_high (by unfold Reg.dmaStatus; omega)
  simp only [dmaSuspend, foot_ask]
  intro s _
  split
  · simp [dmaUnload, setFld_leaves hstatus]
  · exact .skip

theorem unitClear_leaves (u : Nat) : (unitClear u).Foot (Leaves secRegs) := by
  simp [unitClear, headLeave_leaves, chkUnserve_leaves, dmaSuspend_leaves, cmdEnd_leaves]

theorem unitReset_leaves (u : Nat) : (unitReset u).Foot (Leaves secRegs) := by
  have hpage : ∀ i, ¬ secRegs (Reg.fsStatus i) ∧ ¬ secRegs (Reg.fsFirst i) ∧ ¬ secRegs (Reg.fsCount i) := fun i =>
    ⟨not_secRegs_high (by unfold Reg.fsStatus; omega), not_secRegs_high (by unfold Reg.fsFirst; omega), not_secRegs_high (by unfold Reg.fsCount; omega)⟩
  simp [unitReset, unitClear_leaves, windowReset_leaves (unitWindow_apart u), setReg_leaves (hpage _).1, setReg_leaves (hpage _).2.1,
    setReg_leaves (hpage _).2.2]

/-! ### The request (R226, R227) -/

/-- A part of a field that was set reads that part of the value. -/
theorem fld_putFld_within (hw : s.wf = true) {off lo w lo' w' : Nat} (h64 : lo + w ≤ 64) (hlo : lo ≤ lo') (hhi : lo' + w' ≤ lo + w)
    (hm : nBits (regImpl off % 2 ^ 64) lo' w' = 2 ^ w' - 1) (x : Nat) : (s.putFld off lo w x).fld off lo' w' = nBits x (lo' - lo) w' := by
  rw [State.fld, State.putFld, rd_putReg hw, regMask, wBits_mask _ _ _ _ hm]
  apply Nat.eq_of_testBit_eq
  intro i
  rw [wBits_testBit, wSet_toNat _ h64, nSet_testBit, nBits_testBit]
  by_cases hi : i < w'
  · rw [if_pos (by omega), show lo' + i - lo = lo' - lo + i by omega]
  · simp [hi]

theorem secHoGo_run {p : Path} (hlets : s.lets p Reg.secHoCtrl 4 1 Reg.secHoCtrl) : exec (.secHoGo p) s = .next (runAct secHoGoOp s) := by
  refine (writeCommand_lets (f := regsSec[2]'(by decide)) (ix := []) hlets rfl rfl).trans (congrArg _ ?_)
  change runAct (actIf (wBit (coverWord Reg.secHoCtrl 4 1 &&& coverMask Reg.secHoCtrl 4) 0) secHoGoOp) s = _
  rw [wBit_cover rfl (Or.inl rfl) 1 (by decide)]
  rfl

/-- A hand-over has been requested: SEC_HO_STATUS reads QUIESCE, the units begin to move. -/
def State.handingOver (s : State) : State :=
  { s.putFld Reg.secHoStatus 0 6 1 with worlds := { s.worlds with moving := s.hoMoving, hoBell := s.tts.bell, idle := [] } }

/-- What follows a request: the moving units are clocked, the seats are told, the capacities change. -/
def State.handingOverWork (s : State) : Act :=
  acts [actIf (decide (2 ≤ s.pst)) (each (s.hoMoving.map idleStation).eraseDups ungate), handoverNotice s.hoMoving, capRegs]

theorem handingOverWork_leaves (s : State) : s.handingOverWork.Foot (Leaves secRegs) := by
  simp only [State.handingOverWork, foot_acts_cons, foot_acts_nil, foot_actIf, foot_each, and_true]
  exact ⟨fun _ b _ => ungate_leaves b, handoverNotice_leaves _, capRegs_leaves⟩

theorem handingOverWork_foot (s : State) : s.handingOverWork.Foot (In 0x20100801) := by
  simp only [State.handingOverWork, foot_acts_cons, foot_acts_nil, foot_actIf, foot_each, and_true]
  exact ⟨fun _ b _ => ungate_foot b rfl, handoverNotice_foot _ rfl, capRegs_foot rfl⟩

/-- A request, while no hand-over, restart or entry of DEEP_SLEEP is in progress. -/
theorem secHoGoOp_run (hidle : s.fld Reg.secHoStatus 0 2 = 0) (hup : s.bitAt Reg.secState 0 = false) (hpst : s.pst ≠ 3) : runAct secHoGoOp s =
    if s.hoCheck s.hoMoving = 0 then runAct s.handingOverWork s.handingOver else s.putFld Reg.secHoStatus 2 4 (s.hoCheck s.hoMoving) := by
  have hfree : ¬ (s.fld Reg.secHoStatus 0 2 != 0 || s.bitAt Reg.secState 0 || s.fld Reg.pwrStatus 0 3 = 3) = true := by
    have hawake : ¬ s.fld Reg.pwrStatus 0 3 = 3 := hpst
    simp [hidle, hup, hawake]
  rw [secHoGoOp, runAct_ask, if_neg hfree]
  by_cases hcheck : s.hoCheck s.hoMoving = 0
  · rw [if_pos hcheck, if_neg (by simp [hcheck]), runAct_acts, setFld_run_left _ _ _ _ _ _ (by decide), runAct_acts, run_worlds]
    rfl
  · rw [if_neg hcheck, if_pos (by simp [hcheck]), setFld_run _ _ _ _ _ (by decide)]

theorem secHoStatus_impl : nBits (regImpl Reg.secHoStatus % 2 ^ 64) 0 2 = 2 ^ 2 - 1 ∧ nBits (regImpl Reg.secHoStatus % 2 ^ 64) 2 4 = 2 ^ 4 - 1 := by
  decide +kernel

theorem handingOver_sound (hs : s.Sound) : s.handingOver.Sound := putReg_sound (s := { s with worlds := _ }) hs (by decide) _

/-- What a request that starts leaves. -/
theorem handOver_started (hs : s.Sound) : (runAct s.handingOverWork s.handingOver).fld Reg.secHoStatus 0 2 = 1
      ∧ (runAct s.handingOverWork s.handingOver).worlds = { s.worlds with moving := s.hoMoving, hoBell := s.tts.bell, idle := [] }
      ∧ ∀ u, u < 211 → (runAct s.handingOverWork s.handingOver).unitSec u = s.unitSec u := by
  obtain ⟨-, hrd, hworlds⟩ := runAct_keeps (handingOverWork_leaves s) (handingOverWork_foot s) rfl rfl (handingOver_sound hs)
  refine ⟨?_, hworlds, fun u hu => ?_⟩
  · rw [State.fld, hrd _ secHoStatus_sec]
    exact fld_putFld_within hs.2 (by decide) (by decide) (by decide) secHoStatus_impl.1 1
  · have hmap : Reg.secWorldMap (u / 32) ≠ Reg.secHoStatus := by
      unfold Reg.secWorldMap Reg.secHoStatus
      omega
    rw [State.unitSec, State.bitAt, hrd _ (secWorldMap_sec (by omega))]
    exact congrArg (wBit · (u % 32)) (rd_putFld_ne s hmap 0 6 1)

/-! ### Bus-idle acknowledgements (R226, R578) -/

theorem reactReg_clkGate {b : Nat} (hb : b < 256) : reactReg (Reg.clkGate b) = false := reactReg_low (by unfold Reg.clkGate; omega)

/-- An acknowledgement of a gate request gates the block. -/
theorem busIdle_gates {b : Nat} (hl : s.live) (hb : b < 256) (hreq : (s.clk.gateReq.any fun x => x.1 = b) = true)
    (hmoving : s.fld Reg.secHoStatus 0 2 ≠ 2) : exec (.busIdleAcknowledgement b) s = .next { s.putFld (Reg.clkGate b) 3 1 1 with
      clk := { s.clk with gateReq := s.clk.gateReq.filter fun x => x.1 != b } } := by
  refine (live_next hl (decide_eq_true hb) _).trans (congrArg _ ?_)
  rw [runAct_ask, runAct_acts, runAct_actIf_left, if_pos hreq, runAct_acts_left, run_clk, acts_one, setFld_run_left _ _ _ _ _ _ (reactReg_clkGate hb),
    acts_one, runAct_actIf, if_neg (by simp [hmoving])]
  rfl

/-- An acknowledgement for a block of moving units is noted. -/
theorem busIdle_noted {b : Nat} (hl : s.live) (hb : b < 256) (hreq : (s.clk.gateReq.any fun x => x.1 = b) = false)
    (hstate : s.fld Reg.secHoStatus 0 2 = 2) (hmoving : (s.worlds.moving.any fun u => idleStation u = b) = true) (hnew : b ∉ s.worlds.idle) :
    exec (.busIdleAcknowledgement b) s = .next { s with worlds := { s.worlds with idle := s.worlds.idle ++ [b] } } := by
  refine (live_next hl (decide_eq_true hb) _).trans (congrArg _ ?_)
  rw [runAct_ask, runAct_acts, runAct_actIf_left, if_neg (by simp [hreq]), acts_one, runAct_actIf, if_pos (by simp only [hstate, hmoving]; decide), runAct_eff]
  simp only [applyEff, List.contains_iff_mem, if_neg hnew]

/-! ### The change of world (R230, R232) -/

/-- A unit's bit of its world map turned. -/
def State.turned (s : State) (u : Nat) : State :=
  s.putReg (Reg.secWorldMap (u / 32)) (s.rd (Reg.secWorldMap (u / 32)) ^^^ BitVec.ofNat 64 (2 ^ (u % 32)))

theorem reactReg_secWorldMap {u : Nat} (hu : u < 211) : reactReg (Reg.secWorldMap (u / 32)) = false :=
  reactReg_low (by unfold Reg.secWorldMap; omega)

theorem secWorldMap_impl : ∀ k < 7, regImpl (Reg.secWorldMap k) = 2 ^ 32 - 1 := by decide +kernel

/-- The unit changes its world, and no other does. -/
theorem unitSec_turned (hw : s.wf = true) {u v : Nat} (hu : u < 211) : (s.turned u).unitSec v = if v = u then !s.unitSec v else s.unitSec v := by
  by_cases hk : v / 32 = u / 32
  · have hbit : (s.turned u).unitSec v = ((s.unitSec v) ^^ decide (u % 32 = v % 32)) := by
      have hlt : v % 32 < 32 := Nat.mod_lt _ (by decide)
      rw [State.unitSec, State.bitAt, hk, State.turned, rd_putReg hw, regMask, wBit_eq, secWorldMap_impl _ (by omega), BitVec.toNat_and, BitVec.toNat_xor,
        Nat.testBit_and, Nat.testBit_xor, ofNat_mod64 (2 ^ 32 - 1) (by decide),
        ofNat_mod64 (2 ^ (u % 32)) (Nat.pow_lt_pow_right (by decide) (by omega)),
        Nat.testBit_two_pow_sub_one, Nat.testBit_two_pow, decide_eq_true hlt, Bool.and_true, ← wBit_eq, State.unitSec, State.bitAt, hk]
    rw [hbit]
    by_cases hv : v = u
    · simp [hv]
    · simp [hv, show ¬ u % 32 = v % 32 by omega]
  · have hmap : Reg.secWorldMap (v / 32) ≠ Reg.secWorldMap (u / 32) := by
      unfold Reg.secWorldMap
      omega
    rw [if_neg (by rintro rfl; exact hk rfl)]
    exact congrArg (wBit · (v % 32)) (rd_putReg_ne s hmap _)

/-- The moving units change their worlds, one after another. -/
theorem eachTurned_run {ms : List Nat} (hms : ∀ u ∈ ms, u < 211) (a : Act) (s : State) :
    runAct (.seq (each ms fun u => .ask fun s =>
      setReg (Reg.secWorldMap (u / 32)) (s.rd (Reg.secWorldMap (u / 32)) ^^^ BitVec.ofNat 64 (2 ^ (u % 32)))) a) s = runAct a (ms.foldl State.turned s) := by
  induction ms generalizing s with
  | nil => exact runAct_skip_left a s
  | cons m ms ih =>
    rw [each_cons, runAct_acts_left, runAct_ask_left, setReg_run_left _ _ _ _ (reactReg_secWorldMap (hms m List.mem_cons_self))]
    exact ih (fun u hu => hms u (List.mem_cons_of_mem m hu)) _

theorem eachTurned_sound {ms : List Nat} (hms : ∀ u ∈ ms, u < 211) (hs : s.Sound) :
    (ms.foldl State.turned s).Sound ∧ (ms.foldl State.turned s).worlds = s.worlds := by
  induction ms generalizing s with
  | nil => exact ⟨hs, rfl⟩
  | cons m ms ih =>
    exact ih (fun u hu => hms u (List.mem_cons_of_mem m hu)) (s := s.turned m) (putReg_sound hs (reactReg_secWorldMap (hms m List.mem_cons_self)) _)

/-- Each of them has changed its world, and no other unit has. -/
theorem unitSec_eachTurned {ms : List Nat} (hms : ∀ u ∈ ms, u < 211) (hdistinct : ms.Nodup) (hw : s.wf = true) (v : Nat) :
    (ms.foldl State.turned s).unitSec v = if ms.contains v then !s.unitSec v else s.unitSec v := by
  induction ms generalizing s with
  | nil => rfl
  | cons m ms ih =>
    obtain ⟨hm, hrest⟩ := List.nodup_cons.mp hdistinct
    rw [List.foldl_cons, ih (fun u hu => hms u (List.mem_cons_of_mem m hu)) hrest (show (s.turned m).wf = true from putReg_wf hw _ _),
      unitSec_turned hw (hms m List.mem_cons_self)]
    by_cases hv : v = m
    · subst hv
      simp [hm]
    · simp [hv]

/-- The hand-over is over: no unit moves, SEC_HO_STATUS reads IDLE and DONE, the secure core is told. -/
def State.handedDone (s : State) : State :=
  ({ s with worlds := { s.worlds with moving := [], idle := [], hoDone := s.worlds.hoDone + 1 } } : State).putFld Reg.secHoStatus 0 6 4

/-- What follows: the moving units' clocks, the notice to the seats, the capacities. -/
def handedWork (moving : List Nat) : Act := acts [each (moving.map idleStation).eraseDups (gateReview true), handoverNotice moving, capRegs]

theorem handedWork_leaves (moving : List Nat) : (handedWork moving).Foot (Leaves secRegs) := by
  simp only [handedWork, foot_acts_cons, foot_acts_nil, foot_each, and_true]
  exact ⟨fun b _ => gateReview_leaves true b, handoverNotice_leaves _, capRegs_leaves⟩

theorem handedWork_foot (moving : List Nat) : (handedWork moving).Foot (In 0x20100801) := by
  simp only [handedWork, foot_acts_cons, foot_acts_nil, foot_each, and_true]
  exact ⟨fun b _ => gateReview_foot true b rfl, handoverNotice_foot _ rfl, capRegs_foot rfl⟩

/-- The resets of the moving units leave the worlds and the registers of SEC. -/
theorem unitResets_keep (hs : s.Sound) (ms : List Nat) : (runAct (each ms unitReset) s).Sound
    ∧ (∀ off, secRegs off → (runAct (each ms unitReset) s).rd off = s.rd off) ∧ (runAct (each ms unitReset) s).worlds = s.worlds :=
  runAct_keeps ((foot_each _ _).mpr fun u _ => unitReset_leaves u) ((foot_each _ _).mpr fun u _ => unitReset_foot (T := 0x2007C605) u rfl) rfl rfl hs

/-- HANDOVER_RESET, once every moving unit is idle. -/
theorem handoverReset_run (hl : s.live) (hs : s.Sound) (hstate : s.fld Reg.secHoStatus 0 2 = 2)
    (hidle : ∀ u ∈ s.worlds.moving, idleStation u ∈ s.worlds.idle ∧ u < 211) : exec .handoverReset s =
      .next (runAct (handedWork s.worlds.moving) (s.worlds.moving.foldl State.turned (runAct (each s.worlds.moving unitReset) s)).handedDone) := by
  have hready : (decide (s.fld Reg.secHoStatus 0 2 = 2) && s.worlds.moving.all fun u => s.worlds.idle.contains (idleStation u)) = true := by
    rw [decide_eq_true hstate, Bool.true_and, List.all_eq_true]
    exact fun u hu => List.contains_iff_mem.mpr (hidle u hu).1
  have hfoot : (each s.worlds.moving unitReset).Foot (In 0x2007C605) := (foot_each _ _).mpr fun u _ => unitReset_foot u rfl
  refine (live_next hl rfl _).trans (congrArg _ ?_)
  rw [runAct_ask, runAct_actIf, if_pos hready, runAct_acts, runAct_seq (T := 0x2007C605) rfl hfoot _ hs.1, runAct_acts,
    eachTurned_run fun u hu => (hidle u hu).2, runAct_acts, run_worlds, runAct_acts, setFld_run_left _ _ _ _ _ _ (by decide)]
  rfl

/-! ### The obligation -/

/-- Settles O19: the request (`secHoGoOp_run`), the acknowledgements (`busIdle_gates`, `busIdle_noted`), the change of world (`handoverReset_run`,
`unitSec_eachTurned`). -/
theorem handOvers : Obligations.HandOvers := by
  refine ⟨fun p s hc hw hlets hidle hup hpst => ⟨fun hcheck => ?_, fun hcheck => ?_⟩,
    fun b s hl hb => ⟨busIdle_gates hl hb, busIdle_noted hl hb⟩, fun s hl hc hw hstate hidle hdistinct => ?_⟩
  · refine ⟨_, secHoGo_run hlets, ?_⟩
    rw [secHoGoOp_run hidle hup hpst, if_pos hcheck]
    exact handOver_started ⟨hc, hw⟩
  · rw [secHoGo_run hlets, secHoGoOp_run hidle hup hpst, if_neg hcheck]
  · have hs : s.Sound := ⟨hc, hw⟩
    have hms : ∀ u ∈ s.worlds.moving, u < 211 := fun u hu => (hidle u hu).2
    obtain ⟨hreset, hregs, hworlds⟩ := unitResets_keep hs s.worlds.moving
    refine ⟨_, handoverReset_run hl hs hstate hidle, ?_⟩
    obtain ⟨hturned, hturnedWorlds⟩ := eachTurned_sound hms hreset
    have hunits := unitSec_eachTurned hms hdistinct hreset.2
    generalize s.worlds.moving.foldl State.turned (runAct (each s.worlds.moving unitReset) s) = u at hturned hturnedWorlds hunits ⊢
    have hdone : u.handedDone.Sound := putReg_sound (s := { u with worlds := _ }) hturned (by decide) _
    obtain ⟨-, hrd, hdoneWorlds⟩ := runAct_keeps (handedWork_leaves s.worlds.moving) (handedWork_foot s.worlds.moving) rfl rfl hdone
    refine ⟨fun v hv => ?_, ?_, ?_, ?_⟩
    · have hmap : Reg.secWorldMap (v / 32) ≠ Reg.secHoStatus := by
        unfold Reg.secWorldMap Reg.secHoStatus
        omega
      have hdoneUnit : u.handedDone.unitSec v = u.unitSec v := congrArg (wBit · (v % 32)) (rd_putFld_ne { u with worlds := _ } hmap 0 6 4)
      have hresetUnit : (runAct (each s.worlds.moving unitReset) s).unitSec v = s.unitSec v :=
        congrArg (wBit · (v % 32)) (hregs _ (secWorldMap_sec (by omega)))
      rw [State.unitSec, State.bitAt, hrd _ (secWorldMap_sec (by omega))]
      exact (hdoneUnit.trans (hunits v)).trans (by rw [hresetUnit])
    · rw [State.fld, hrd _ secHoStatus_sec]
      exact fld_putFld_within (s := { u with worlds := _ }) hturned.2 (by decide) (by decide) (by decide) secHoStatus_impl.1 4
    · rw [State.fld, hrd _ secHoStatus_sec]
      exact fld_putFld_within (s := { u with worlds := _ }) hturned.2 (by decide) (by decide) (by decide) secHoStatus_impl.2 4
    · rw [hdoneWorlds]
      exact hworlds ▸ hturnedWorlds ▸ rfl

end Sys2Proof.Machine
end

section
/-!
PROOFS. Links of the output ports (O59): what HPD, a lost lock and a bring-up leave of a port, of DPTn_STATUS, of the sink's EDID and of the heads (R380,
R381, R386, R389, R391). Each step writes registers of ports and heads (`State.Writes`); a detection at the port's station comes last, or before the start
of a bring-up, and leaves those registers alone (`dptRaise_run`).
-/

namespace Sys2Proof.Machine

variable {s u v : State} {n : Nat} {K : Nat → Prop}

/-! ### DPTn_STATUS (Table 11.12) -/

theorem dptStatus_impl : ∀ n < 16, regImpl (Reg.dptStatus n) = 0x3F0001FFFF := by decide +kernel

theorem reactReg_dptStatus (hn : n < 16) : reactReg (Reg.dptStatus n) = false := reactReg_low (by unfold Reg.dptStatus; omega)

/-- The fields of DPTn_STATUS below bit 17 lie next to each other. -/
theorem dptStatus_mask (hn : n < 16) {lo w : Nat} (h : lo + w ≤ 17) : nBits (regImpl (Reg.dptStatus n) % 2 ^ 64) lo w = 2 ^ w - 1 := by
  have hall : ∀ lo < 18, ∀ w < 18, lo + w ≤ 17 → nBits (0x3F0001FFFF % 2 ^ 64) lo w = 2 ^ w - 1 := by decide
  rw [dptStatus_impl n hn]
  exact hall lo (by omega) w (by omega) h

theorem dptStatus_set (hn : n < 16) (hw : u.wf = true) {lo w : Nat} (h : lo + w ≤ 17) (x : Nat) :
    (u.putFld (Reg.dptStatus n) lo w x).fld (Reg.dptStatus n) lo w = x % 2 ^ w :=
  fld_putFld hw (by omega) (dptStatus_mask hn h) x

theorem dptStatus_kept (hn : n < 16) (hw : u.wf = true) {lo w lo' w' : Nat} (h : lo + w ≤ 17) (h' : lo' + w' ≤ 17) (hd : lo' + w' ≤ lo ∨ lo + w ≤ lo')
    (x : Nat) : (u.putFld (Reg.dptStatus n) lo w x).fld (Reg.dptStatus n) lo' w' = u.fld (Reg.dptStatus n) lo' w' :=
  fld_putFld_ne hw (by omega) hd (dptStatus_mask hn h') x

/-! ### DPTn_SINKi_EDIDj -/

/-- A register of a family with three indices. -/
theorem fam_hit3 {off : Nat} {f : RegFam} {fs : List RegFam} (s m s2 m2 s3 m3 i j k : Nat) (hd : f.dims = [(s, m), (s2, m2), (s3, m3)])
    (ho : off = f.base + (s * i + (s2 * j + s3 * k))) (hs3 : 0 < s3) (hs2 : s3 * m3 ≤ s2) (hs : s2 * m2 ≤ s) (hi : i < m) (hj : j < m2) (hk : k < m3)
    (h : regInstance f [i, j, k] = true) : famFind off (f :: fs) = some (f, [i, j, k]) := by
  have hword : s3 * k < s2 := Nat.lt_of_lt_of_le (Nat.mul_lt_mul_of_pos_left hk hs3) hs2
  have hsink : s2 * j + s3 * k < s := calc
    s2 * j + s3 * k < s2 * j + s2 := Nat.add_lt_add_left hword _
    _ = s2 * (j + 1) := (Nat.mul_succ s2 j).symm
    _ ≤ s2 * m2 := Nat.mul_le_mul_left s2 hj
    _ ≤ s := hs
  have hix : dimsIndex f.dims (off - f.base) = some [i, j, k] := by
    rw [hd, show off - f.base = s * i + (s2 * j + s3 * k) by omega]
    simp [dimsIndex, Nat.mul_add_div (Nat.zero_lt_of_lt hsink), Nat.mul_add_div (Nat.zero_lt_of_lt hword), Nat.div_eq_of_lt hsink,
      Nat.div_eq_of_lt hword, Nat.mod_eq_of_lt hsink, Nat.mod_eq_of_lt hword, Nat.mul_div_cancel_left k hs3, hi, hj, hk]
  rw [famFind, if_pos (by omega), hix]
  exact if_pos h

theorem regFind_dptEdid (hn : n < 16) {i j : Nat} (hi : i < 4) (hj : j < 64) :
    regFind (Reg.dptEdid n i j) = some (regsDpt[3]'(by decide), [n, i, j]) := by
  have hoff : Reg.dptEdid n i j = 0x510800 + (0x1000 * n + (0x200 * i + 8 * j)) := by unfold Reg.dptEdid; omega
  rw [hoff, regFind_window (a := 0x510000) (n := 0x10000) (regWindows.take 25) (regWindows.drop 26) rfl (by decide) (by omega) (by omega)]
  unfold regsDpt
  rw [fam_skip1 0x1000 16 n (0x800 + 0x200 * i + 8 * j) rfl (by show _ = 0x510000 + _ + _; omega) (by omega) (by omega),
    fam_skip1 0x1000 16 n (0x800 + 0x200 * i + 8 * j - 8) rfl (by show _ = 0x510008 + _ + _; omega) (by omega) (by omega),
    fam_skip2 0x1000 16 8 4 n (0x800 + 0x200 * i + 8 * j - 16) rfl (by show _ = 0x510010 + _ + _; omega) (by omega) (by omega)]
  exact fam_hit3 0x1000 16 0x200 4 8 64 n i j rfl rfl (by decide) (by decide) (by decide) hn hi hj rfl

/-- A word of the EDID has no reserved bit. -/
theorem regMask_dptEdid (hn : n < 16) {i j : Nat} (hi : i < 4) (hj : j < 64) (x : Word) : regMask (Reg.dptEdid n i j) x = x := by
  have himpl : regImpl (Reg.dptEdid n i j) = 2 ^ 64 - 1 := by rw [regImpl, regFind_dptEdid hn hi hj]; rfl
  rw [regMask, himpl]
  exact BitVec.and_allOnes

/-! ### Detections at a port -/

/-- The registers of heads and ports, and others between the chip's and the stations'. -/
def outputRegs (off : Nat) : Prop := 0x200000 ≤ off ∧ off < 0x600000

theorem outputRegs_dptStatus (hn : n < 16) : outputRegs (Reg.dptStatus n) := by
  unfold outputRegs Reg.dptStatus
  omega

theorem outputRegs_dptEdid (hn : n < 16) {i j : Nat} (hi : i < 4) (hj : j < 64) : outputRegs (Reg.dptEdid n i j) := by
  unfold outputRegs Reg.dptEdid
  omega

theorem outputRegs_hdStatus {h : Nat} (hh : h < 32) : outputRegs (Reg.hdStatus h) := by
  unfold outputRegs Reg.hdStatus
  omega

theorem dpt_sources : ∀ n < 16, srcExists (stDpt n) 4 = true ∧ srcExists (stDpt n) 5 = true := by decide

/-- A detection of a port is recorded, and leaves pictures and registers of heads and ports alone. -/
theorem dptRaise_run (hn : n < 16) {src : Nat} (hsrc : src = 4 ∨ src = 5) (hu : s.Awaits (stDpt n) u) :
    s.logs (runAct (raise (stDpt n) src) u) (stDpt n) src 0 ∧ (runAct (raise (stDpt n) src) u).wf = true
      ∧ (runAct (raise (stDpt n) src) u).pic = u.pic ∧ ∀ off, outputRegs off → (runAct (raise (stDpt n) src) u).rd off = u.rd off := by
  have hx : srcExists (stDpt n) src = true := by
    rcases hsrc with rfl | rfl
    · exact (dpt_sources n hn).1
    · exact (dpt_sources n hn).2
  have hg : gravest (stDpt n) src = false := gravest_dpt n (by omega)
  have hplain : plainSt (stDpt n) = true := by
    have hall : ∀ n < 16, plainSt (stDpt n) = true := by decide
    exact hall n hn
  have h14 : stDpt n ≠ 14 := by unfold stDpt; omega
  have hleaves : (raise (stDpt n) src).Foot (Leaves outputRegs) :=
    raiseSrc_leaves (fun off ho hout => by have := stationRegs_range ho; unfold outputRegs at hout; omega)
      (milder_leaves_plain hplain h14 (by unfold outputRegs Reg.fltPin; omega) fun k => by unfold outputRegs Reg.irqPend; omega) hg
  obtain ⟨hc, hw⟩ := hu.1
  exact ⟨((raiseSrc_logged hx hg).run hu).2, runAct_wf _ hw,
    (runAct_same (T := 0x81801) rfl (raiseSrc_plain hplain h14 hg 0 none rfl) hc).2 .pic rfl, (runGo_leaves hleaves hc).2.2⟩

/-! ### Writes of ports and heads -/

/-- The state with what a port keeps replaced. -/
def State.withPort (s : State) (n : Nat) (p : PortSt) : State := { s with pic := { s.pic with ports := mapPut portNone n p s.pic.ports } }

theorem port_withPort {p : PortSt} (h : mapWf portNone s.pic.ports = true ∨ p ≠ portNone n) : (s.withPort n p).port n = p :=
  h.elim (mapGet_put_wf portNone n p _) fun h => mapGet_put_of_ne_default h _

theorem portUpd_run (n : Nat) (f : PortSt → PortSt) (s : State) : runAct (portUpd n f) s = s.withPort n (f (s.port n)) := rfl

theorem portUpd_run_left (n : Nat) (f : PortSt → PortSt) (a : Act) (s : State) :
    runAct (.seq (portUpd n f) a) s = runAct a (s.withPort n (f (s.port n))) := by
  simp [portUpd, State.withPort, applyEff]

theorem port_of_ports (h : v.pic.ports = u.pic.ports) : v.port n = u.port n := congrArg (mapGet portNone n) h

/-- The states that the writes of a step reach from `u`: they touch registers of `K` alone, no port, and no station of port `n`, which awaits a detection
since `s`. -/
structure State.Writes (s : State) (n : Nat) (K : Nat → Prop) (u v : State) : Prop where
  awaits : s.Awaits (stDpt n) v
  ports : v.pic.ports = u.pic.ports
  rd : ∀ off, ¬ K off → v.rd off = u.rd off

theorem writes_self (hu : s.Awaits (stDpt n) u) : s.Writes n K u u := ⟨hu, rfl, fun _ _ => rfl⟩

theorem awaits_putReg (hu : s.Awaits (stDpt n) u) {off : Nat} (ho : outputRegs off) (x : Word) : s.Awaits (stDpt n) (u.putReg off x) := by
  obtain ⟨hsound, hbell, hrd⟩ := hu
  have hreact : reactReg off = false := reactReg_low ho.2
  refine ⟨putReg_sound hsound hreact x, hbell, fun o h => (rd_putReg_ne u ?_ x).trans (hrd o h)⟩
  have := stationRegs_range h
  unfold outputRegs at ho
  omega

theorem writes_putReg (hv : s.Writes n K u v) {off : Nat} (ho : outputRegs off) (hK : K off) (x : Word) : s.Writes n K u (v.putReg off x) :=
  ⟨awaits_putReg hv.awaits ho x, hv.ports, fun o h => (rd_putReg_ne v (by rintro rfl; exact h hK) x).trans (hv.rd o h)⟩

/-- Each of several programs leaves what it leaves, where none of the others touches it. -/
theorem takes_each_all {α : Type} {xs : List α} {f : α → Act} {J : State → Prop} {P : α → State → Prop}
    (hset : ∀ x ∈ xs, (f x).Takes J fun v => J v ∧ P x v)
    (hkeep : ∀ x ∈ xs, ∀ y ∈ xs, x ≠ y → (f y).Takes (fun v => J v ∧ P x v) fun v => J v ∧ P x v) {x : α} (hx : x ∈ xs) :
    (each xs f).Takes J fun v => J v ∧ P x v := by
  refine takes_each_reaching hx (fun y hy => (hset y hy).weaken (fun _ h => h) fun _ h => h.1) (hset x hx) fun y hy => ?_
  by_cases hxy : x = y
  · subst hxy
    exact (hset x hx).weaken (fun _ h => h.1) fun _ h => h
  · exact hkeep x hx y hy hxy

/-! ### Reading of the EDID (R380) -/

/-- Sink and word of each register of a port's EDID. -/
def edidIndices : List (Nat × Nat) := ((List.range 4).map fun i => (List.range 64).map fun j => (i, j)).flatten

theorem mem_edidIndices {x : Nat × Nat} : x ∈ edidIndices ↔ x.1 < 4 ∧ x.2 < 64 := by
  constructor
  · intro h
    obtain ⟨l, hl, hx⟩ := List.mem_flatten.mp h
    obtain ⟨i, hi, rfl⟩ := List.mem_map.mp hl
    obtain ⟨j, hj, rfl⟩ := List.mem_map.mp hx
    exact ⟨List.mem_range.mp hi, List.mem_range.mp hj⟩
  · intro ⟨hi, hj⟩
    exact List.mem_flatten.mpr ⟨_, List.mem_map.mpr ⟨x.1, List.mem_range.mpr hi, rfl⟩, List.mem_map.mpr ⟨x.2, List.mem_range.mpr hj, rfl⟩⟩

/-- The EDID registers of a port, set to words `e`. -/
def edidPut (n : Nat) (e : Nat → Nat → Word) : Act := each edidIndices fun x => setReg (Reg.dptEdid n x.1 x.2) (e x.1 x.2)

/-- The EDID registers of a port. -/
def edidRegs (n off : Nat) : Prop := ∃ i j, off = Reg.dptEdid n i j

theorem dptEdid_inj {i j k l : Nat} (hj : j < 64) (hl : l < 64) (h : Reg.dptEdid n i j = Reg.dptEdid n k l) : i = k ∧ j = l := by
  unfold Reg.dptEdid at h
  omega

theorem edidSet_takes (hn : n < 16) (e : Nat → Nat → Word) {x : Nat × Nat} (hx : x ∈ edidIndices) :
    (setReg (Reg.dptEdid n x.1 x.2) (e x.1 x.2)).Takes (s.Writes n (edidRegs n) u) fun v =>
      s.Writes n (edidRegs n) u v ∧ v.rd (Reg.dptEdid n x.1 x.2) = e x.1 x.2 := by
  obtain ⟨hi, hj⟩ := mem_edidIndices.mp hx
  have ho := outputRegs_dptEdid hn hi hj
  refine takes_eff rfl fun v hv => ?_
  rw [applyEff_csr (reactReg_low ho.2)]
  exact ⟨writes_putReg hv ho ⟨_, _, rfl⟩ _, (rd_putReg hv.awaits.1.2 _ _).trans (regMask_dptEdid hn hi hj _)⟩

/-- What setting an EDID leaves. -/
theorem edidPut_run (hn : n < 16) (e : Nat → Nat → Word) (hu : s.Awaits (stDpt n) u) : s.Writes n (edidRegs n) u (runAct (edidPut n e) u)
      ∧ ∀ i j, i < 4 → j < 64 → (runAct (edidPut n e) u).rd (Reg.dptEdid n i j) = e i j := by
  have hword : ∀ {x}, x ∈ edidIndices → (edidPut n e).Takes (s.Writes n (edidRegs n) u) fun v =>
      s.Writes n (edidRegs n) u v ∧ v.rd (Reg.dptEdid n x.1 x.2) = e x.1 x.2 := by
    refine takes_each_all (fun x => edidSet_takes hn e) fun x hx y hy hxy v ⟨hv, hword⟩ =>
      ⟨rfl, ((edidSet_takes hn e hy).run hv).1, (rd_put_ne v (fun he => hxy ?_) _).trans hword⟩
    obtain ⟨h1, h2⟩ := dptEdid_inj (mem_edidIndices.mp hx).2 (mem_edidIndices.mp hy).2 he
    exact Prod.ext h1 h2
  exact ⟨((hword (x := (0, 0)) (mem_edidIndices.mpr (by decide))).run (writes_self hu)).1,
    fun i j hi hj => ((hword (x := (i, j)) (mem_edidIndices.mpr ⟨hi, hj⟩)).run (writes_self hu)).2⟩

/-- What follows an EDID is run from the state that it leaves. -/
theorem edidPut_run_left (hc : u.calm) (e : Nat → Nat → Word) (a : Act) : runAct (.seq (edidPut n e) a) u = runAct a (runAct (edidPut n e) u) :=
  runAct_seq (T := 0x20000001) rfl (by simp [edidPut, setReg]) a hc

/-! ### Heads that leave self-refresh (Table 11.14) -/

/-- Heads enter ACTIVE. -/
def headsWake (hs : List Nat) : Act :=
  each hs fun h => acts [setFld (Reg.hdStatus h) 0 3 2, headUpd h fun x => { x with idle := 0, capture := none }]

/-- HDh_STATUS of some heads. -/
def stateRegs (hs : List Nat) (off : Nat) : Prop := ∃ h ∈ hs, off = Reg.hdStatus h

theorem hdStatus_inj {h k : Nat} (he : Reg.hdStatus h = Reg.hdStatus k) : h = k := by
  unfold Reg.hdStatus at he
  omega

theorem hdStatus_impl : ∀ h < 32, nBits (regImpl (Reg.hdStatus h) % 2 ^ 64) 0 3 = 2 ^ 3 - 1 := by decide +kernel

/-- A write of a head's state takes what holds before it to what holds of the state with that field set; what the head keeps beside registers is no
matter. -/
theorem headWake_takes {J L : State → Prop} {h : Nat} (hh : h < 32) (f : HeadSt → HeadSt) (hput : ∀ v, J v → L (v.putFld (Reg.hdStatus h) 0 3 2))
    (hheads : ∀ v heads, L v → L { v with pic := { v.pic with heads := heads } }) : (acts [setFld (Reg.hdStatus h) 0 3 2, headUpd h f]).Takes J L := by
  have hreact := reactReg_low (outputRegs_hdStatus hh).2
  have hfield : (setFld (Reg.hdStatus h) 0 3 2).Takes J L := fun v hv =>
    ⟨rfl, (show L (runAct _ v) from setFld_run (Reg.hdStatus h) 0 3 2 v hreact ▸ hput v hv)⟩
  exact takes_acts_cons hfield (takes_ask fun t _ => takes_eff rfl fun v hv => hheads v _ hv)

/-- What the heads' leaving self-refresh leaves. -/
theorem headsWake_run {hs : List Nat} (hhs : ∀ h ∈ hs, h < 32) (hu : s.Awaits (stDpt n) u) : s.Writes n (stateRegs hs) u (runAct (headsWake hs) u)
      ∧ ∀ h ∈ hs, (runAct (headsWake hs) u).hdState h = 2 := by
  have hput : ∀ h ∈ hs, ∀ v, s.Writes n (stateRegs hs) u v → s.Writes n (stateRegs hs) u (v.putFld (Reg.hdStatus h) 0 3 2) := fun h hm v hv =>
    writes_putReg hv (outputRegs_hdStatus (hhs h hm)) ⟨h, hm, rfl⟩ _
  have hheads : ∀ v heads, s.Writes n (stateRegs hs) u v → s.Writes n (stateRegs hs) u { v with pic := { v.pic with heads := heads } } :=
    fun v heads hv => ⟨hv.awaits, hv.ports, hv.rd⟩
  have hset : ∀ h ∈ hs, (headsWake hs).Takes (s.Writes n (stateRegs hs) u) fun v => s.Writes n (stateRegs hs) u v ∧ v.hdState h = 2 := fun h =>
    takes_each_all
      (fun h hm => headWake_takes (hhs h hm) _ (fun v hv => ⟨hput h hm v hv, fld_putFld hv.awaits.1.2 (by decide) (hdStatus_impl h (hhs h hm)) 2⟩)
        fun v heads hv => ⟨hheads v heads hv.1, hv.2⟩)
      fun h hm k hk hne => headWake_takes (hhs k hk) _
        (fun v hv => ⟨hput k hk v hv.1, (congrArg (wBits · 0 3) (rd_putFld_ne v (fun he => hne (hdStatus_inj he)) 0 3 2)).trans hv.2⟩)
        fun v heads hv => ⟨hheads v heads hv.1, hv.2⟩
  have hall : (headsWake hs).Takes (s.Writes n (stateRegs hs) u) (s.Writes n (stateRegs hs) u) :=
    takes_each fun h hm => headWake_takes (hhs h hm) _ (hput h hm) hheads
  exact ⟨hall.run (writes_self hu), fun h hm => ((hset h hm).run (writes_self hu)).2⟩

/-- What follows is run from the state that the heads leave. -/
theorem headsWake_run_left (hc : u.calm) (hs : List Nat) (a : Act) : runAct (.seq (headsWake hs) a) u = runAct a (runAct (headsWake hs) u) :=
  runAct_seq (T := 0x20010001) rfl (by simp [headsWake]) a hc

/-! ### The beginning of a bring-up (R380) -/

/-- Bring-up begins where the port is in use; else the link is DOWN. -/
theorem bringUp_run (hn : n < 16) (u : State) : runAct (bringUp n) u =
    (u.putFld (Reg.dptStatus n) 0 3 (b2n (portMode (u.port n) != 0))).withPort n { u.port n with bringup := portMode (u.port n) != 0 } := by
  rw [bringUp, runAct_ask]
  by_cases hmode : portMode (u.port n) = 0
  · rw [if_pos hmode, runAct_acts, setFld_run_left _ _ _ _ _ _ (reactReg_dptStatus hn), acts_one, portUpd_run, hmode]
    rfl
  · rw [if_neg hmode, runAct_acts, setFld_run_left _ _ _ _ _ _ (reactReg_dptStatus hn), acts_one, portUpd_run, bne_iff_ne.mpr hmode]
    rfl

/-- What the beginning of a bring-up leaves. -/
theorem bringUp_leaves (hn : n < 16) (hw : u.wf = true) : (∀ off, off ≠ Reg.dptStatus n → (runAct (bringUp n) u).rd off = u.rd off)
      ∧ (runAct (bringUp n) u).fld (Reg.dptStatus n) 3 1 = u.fld (Reg.dptStatus n) 3 1
      ∧ (runAct (bringUp n) u).fld (Reg.dptStatus n) 0 3 = b2n (portMode (u.port n) != 0)
      ∧ (portMode (u.port n) ≠ 0 → (runAct (bringUp n) u).port n = { u.port n with bringup := true }) := by
  rw [bringUp_run hn]
  refine ⟨fun off ho => rd_putFld_ne u ho _ _ _, dptStatus_kept hn hw (by decide) (by decide) (.inr (by decide)) _,
    (dptStatus_set hn hw (by decide) _).trans (Nat.mod_eq_of_lt (by cases portMode (u.port n) != 0 <;> decide)), fun hmode => ?_⟩
  have hdefault : ({ u.port n with bringup := true } : PortSt) ≠ portNone n := fun he => nomatch congrArg PortSt.bringup he
  rw [bne_iff_ne.mpr hmode]
  exact port_withPort (.inr hdefault)

/-! ### HPD (R381) -/

theorem awaits_putFld (hn : n < 16) (hu : s.Awaits (stDpt n) u) (lo w x : Nat) : s.Awaits (stDpt n) (u.putFld (Reg.dptStatus n) lo w x) :=
  awaits_putReg hu (outputRegs_dptStatus hn) _

theorem awaits_withPort (hu : s.Awaits (stDpt n) u) (p : PortSt) : s.Awaits (stDpt n) (u.withPort n p) := hu

/-- What follows a detection of a port is run from the state that it leaves. -/
theorem dptRaise_run_left {src : Nat} (hsrc : src < 7) (hc : u.calm) (a : Act) :
    runAct (.seq (raise (stDpt n) src) a) u = runAct a (runAct (raise (stDpt n) src) u) :=
  runAct_seq (T := 0x300FDE01) rfl (raise_foot _ _ (gravest_dpt n hsrc) rfl) a hc

theorem hpdRise_run (hn : n < 16) (hl : s.live) (hs : s.Sound) : exec (.hpdRise n) s =
    .next (runAct (bringUp n) (runAct (raise (stDpt n) 5) (s.putFld (Reg.dptStatus n) 3 1 1))) := by
  refine (live_next hl (decide_eq_true hn) _).trans (congrArg _ ?_)
  rw [runAct_acts, setFld_run_left _ _ _ _ _ _ (reactReg_dptStatus hn), runAct_acts,
    dptRaise_run_left (by decide) (awaits_putFld hn (awaits_self hs) 3 1 1).1.1, acts_one]

/-- The heads of a port that are in self-refresh. -/
def State.portSleepers (s : State) (n : Nat) : List Nat := (portHeads (s.port n)).filter fun h => s.hdState h = 3

theorem portHeads_lt {p : PortSt} {h : Nat} (hm : h ∈ portHeads p) : h < 32 := by
  obtain ⟨i, -, rfl⟩ := List.mem_map.mp hm
  exact nBits_lt _ _ _

theorem portSleepers_lt {h : Nat} (hm : h ∈ s.portSleepers n) : h < 32 := portHeads_lt (List.mem_filter.mp hm).1

/-- HPD has fallen: the port, before its EDID is cleared. -/
def State.unplugged (s : State) (n : Nat) : State :=
  ((s.putFld (Reg.dptStatus n) 3 1 0).putFld (Reg.dptStatus n) 0 3 0).withPort n { s.port n with bringup := false }

theorem unplugged_awaits (hn : n < 16) (hs : s.Sound) : s.Awaits (stDpt n) (s.unplugged n) :=
  awaits_withPort (awaits_putFld hn (awaits_putFld hn (awaits_self hs) _ _ _) _ _ _) _

theorem unplugged_status (hn : n < 16) (hw : s.wf = true) :
    (s.unplugged n).fld (Reg.dptStatus n) 3 1 = 0 ∧ (s.unplugged n).fld (Reg.dptStatus n) 0 3 = 0 := by
  have hw' : (s.putFld (Reg.dptStatus n) 3 1 0).wf = true := putFld_wf hw _ _ _ _
  exact ⟨(dptStatus_kept hn hw' (by decide) (by decide) (.inr (by decide)) 0).trans (dptStatus_set hn hw (by decide) 0),
    dptStatus_set hn hw' (by decide) 0⟩

/-- The state that the detection of a falling HPD meets. -/
def State.darkened (s : State) (n : Nat) : State := runAct (headsWake (s.portSleepers n)) (runAct (edidPut n fun _ _ => 0) (s.unplugged n))

theorem hpdFall_run (hn : n < 16) (hl : s.live) (hs : s.Sound) : exec (.hpdFall n) s = .next (runAct (raise (stDpt n) 5) (s.darkened n)) := by
  have hreact := reactReg_dptStatus hn
  have hedid := (edidPut_run hn (fun _ _ => 0) (unplugged_awaits hn hs)).1.awaits
  refine (live_next hl (decide_eq_true hn) _).trans (congrArg _ ?_)
  rw [runAct_ask, runAct_acts, setFld_run_left _ _ _ _ _ _ hreact, runAct_acts, setFld_run_left _ _ _ _ _ _ hreact, runAct_acts, portUpd_run_left, runAct_acts]
  refine (edidPut_run_left (unplugged_awaits hn hs).1.1 (fun _ _ => 0) _).trans ?_
  rw [runAct_acts]
  exact headsWake_run_left hedid.1.1 (s.portSleepers n) _

theorem dptStatus_not_edid : ¬ edidRegs n (Reg.dptStatus n) := by
  rintro ⟨i, j, he⟩
  unfold Reg.dptStatus Reg.dptEdid at he
  omega

/-- No register of a port is that of a head. -/
theorem not_stateRegs {hs : List Nat} (hhs : ∀ h ∈ hs, h < 32) {off : Nat} (ho : 0x510000 ≤ off) : ¬ stateRegs hs off := by
  rintro ⟨h, hm, rfl⟩
  have := hhs h hm
  unfold Reg.hdStatus at ho
  omega

/-- What HPD's fall leaves before it is detected: DPTn_STATUS and the port as at once, the EDID cleared, and no head of the port in self-refresh. -/
theorem darkened_leaves (hn : n < 16) (hs : s.Sound) : s.Awaits (stDpt n) (s.darkened n)
      ∧ (s.darkened n).rd (Reg.dptStatus n) = (s.unplugged n).rd (Reg.dptStatus n) ∧ (s.darkened n).port n = (s.unplugged n).port n
      ∧ (∀ i j, i < 4 → j < 64 → (s.darkened n).rd (Reg.dptEdid n i j) = 0)
      ∧ ∀ h ∈ portHeads (s.port n), (s.darkened n).hdState h = if s.hdState h = 3 then 2 else s.hdState h := by
  obtain ⟨hcleared, hzero⟩ := edidPut_run hn (fun _ _ => 0) (unplugged_awaits hn hs)
  obtain ⟨hwoken, hactive⟩ := headsWake_run (fun _ => portSleepers_lt) hcleared.awaits
  have hpage : ∀ {off}, 0x510000 ≤ off → ¬ stateRegs (s.portSleepers n) off := not_stateRegs fun _ => portSleepers_lt
  refine ⟨hwoken.awaits, ?_, port_of_ports (hwoken.ports.trans hcleared.ports), fun i j hi hj => ?_, fun h hm => ?_⟩
  · exact (hwoken.rd _ (hpage (by unfold Reg.dptStatus; omega))).trans (hcleared.rd _ dptStatus_not_edid)
  · exact (hwoken.rd _ (hpage (by unfold Reg.dptEdid; omega))).trans (hzero i j hi hj)
  · by_cases hasleep : s.hdState h = 3
    · rw [if_pos hasleep]
      exact hactive h (List.mem_filter.mpr ⟨hm, decide_eq_true hasleep⟩)
    · have hh : h < 32 := portHeads_lt hm
      have hself : ¬ stateRegs (s.portSleepers n) (Reg.hdStatus h) := by
        rintro ⟨k, hk, he⟩
        exact hasleep (of_decide_eq_true (hdStatus_inj he ▸ List.mem_filter.mp hk).2)
      have hedid : ¬ edidRegs n (Reg.hdStatus h) := by
        rintro ⟨i, j, he⟩
        unfold Reg.hdStatus Reg.dptEdid at he
        omega
      have hstatus : Reg.hdStatus h ≠ Reg.dptStatus n := by
        unfold Reg.hdStatus Reg.dptStatus
        omega
      rw [if_neg hasleep]
      exact congrArg (wBits · 0 3) (((hwoken.rd _ hself).trans (hcleared.rd _ hedid)).trans
        ((rd_putFld_ne _ hstatus 0 3 0).trans (rd_putFld_ne s hstatus 3 1 0)))

/-! ### LINK_BRINGUP_DONE (R380) -/

/-- What a sink says of itself, as DPTn_STATUS shows it from bit 4. -/
def sinkStatus (k : SinkIn) : Nat := k.rate + k.lanes * 2 ^ 4 + k.sr * 2 ^ 6 + b2n k.dsc * 2 ^ 8 + b2n k.mst * 2 ^ 9

/-- A word of a sink's EDID. -/
def sinkEdid (k : SinkIn) (i j : Nat) : Word := (k.edids.getD i []).getD j 0

/-- A port whose bring-up has ended shows the sink. -/
structure State.Shows (s : State) (n : Nat) (k : SinkIn) (u : State) : Prop where
  port : u.port n = { s.port n with bringup := false }
  status : u.fld (Reg.dptStatus n) 4 10 = sinkStatus k
  edid : ∀ i j, i < 4 → j < 64 → u.rd (Reg.dptEdid n i j) = sinkEdid k i j

variable {k : SinkIn}

theorem shows_putFld (hn : n < 16) (hw : u.wf = true) (hu : s.Shows n k u) {lo w : Nat} (h17 : lo + w ≤ 17) (hd : lo + w ≤ 4 ∨ 14 ≤ lo) (x : Nat) :
    s.Shows n k (u.putFld (Reg.dptStatus n) lo w x) :=
  ⟨hu.port, (dptStatus_kept hn hw h17 (by decide) hd.symm x).trans hu.status, fun i j hi hj =>
    (rd_putFld_ne u (fun he => dptStatus_not_edid ⟨i, j, he.symm⟩) _ _ _).trans (hu.edid i j hi hj)⟩

/-- A part of a field. -/
theorem fld_within (u : State) {off lo w lo' w' : Nat} (hhi : lo' + w' ≤ w) : u.fld off (lo + lo') w' = nBits (u.fld off lo w) lo' w' := by
  apply Nat.eq_of_testBit_eq
  intro i
  rw [State.fld, wBits_testBit, nBits_testBit, State.fld, wBits_testBit, Nat.add_assoc]
  by_cases hi : i < w'
  · simp [hi, show lo' + i < w by omega]
  · simp [hi]

/-- The fields of DPTn_STATUS that speak of the sink. -/
theorem shows_fields (hu : s.Shows n k u) (hrate : k.rate < 8) (hlanes : k.lanes < 3) (hsr : k.sr < 3) :
    u.fld (Reg.dptStatus n) 4 4 = k.rate ∧ u.fld (Reg.dptStatus n) 8 2 = k.lanes ∧ u.fld (Reg.dptStatus n) 10 2 = k.sr
      ∧ u.bitAt (Reg.dptStatus n) 12 = k.dsc ∧ u.bitAt (Reg.dptStatus n) 13 = k.mst := by
  have hpart : ∀ lo w, lo + w ≤ 10 → u.fld (Reg.dptStatus n) (4 + lo) w = sinkStatus k / 2 ^ lo % 2 ^ w := fun lo w h => by
    rw [fld_within u h, hu.status, nBits, Nat.shiftRight_eq_div_pow]
  have hdsc : b2n k.dsc < 2 := by cases k.dsc <;> decide
  have hmst : b2n k.mst < 2 := by cases k.mst <;> decide
  have hflag : ∀ b : Bool, decide (b2n b = 1) = b := by decide
  unfold sinkStatus at hpart
  refine ⟨(hpart 0 4 (by decide)).trans (by omega), (hpart 4 2 (by decide)).trans (by omega), (hpart 6 2 (by decide)).trans (by omega), ?_, ?_⟩
  · rw [bitAt_iff, hpart 8 1 (by decide)]
    exact (decide_eq_decide.mpr (by omega)).trans (hflag k.dsc)
  · rw [bitAt_iff, hpart 9 1 (by decide)]
    exact (decide_eq_decide.mpr (by omega)).trans (hflag k.mst)

/-- The sink has been read: what the port shows, before the link trains. -/
def State.sinkRead (s : State) (n : Nat) (k : SinkIn) : State :=
  runAct (edidPut n (sinkEdid k)) ((s.withPort n { s.port n with bringup := false }).putFld (Reg.dptStatus n) 4 10 (sinkStatus k))

theorem sinkRead_shows (hn : n < 16) (hs : s.Sound) (hports : mapWf portNone s.pic.ports = true) (hrate : k.rate < 8) (hlanes : k.lanes < 3)
    (hsr : k.sr < 3) : s.Awaits (stDpt n) (s.sinkRead n k) ∧ s.Shows n k (s.sinkRead n k) := by
  have hlt : sinkStatus k < 2 ^ 10 := by
    have hbit : ∀ b, b2n b < 2 := by decide
    have := hbit k.dsc
    have := hbit k.mst
    unfold sinkStatus
    omega
  obtain ⟨hread, hedid⟩ := edidPut_run hn (sinkEdid k)
    (awaits_putFld hn (awaits_withPort (awaits_self hs) { s.port n with bringup := false }) 4 10 (sinkStatus k))
  refine ⟨hread.awaits, ?_, ?_, hedid⟩
  · exact (port_of_ports hread.ports).trans (port_withPort (.inl hports))
  · rw [State.fld, State.sinkRead, hread.rd _ dptStatus_not_edid]
    exact (dptStatus_set (u := s.withPort n _) hn hs.2 (by decide) _).trans (Nat.mod_eq_of_lt hlt)

/-- What follows the reading of the sink: the port lacks it, or its link has trained, or has failed to. -/
def sinkJudged (s : State) (n : Nat) (k : SinkIn) : Act :=
  if sinkLacks (s.port n).set k then acts [setFld (Reg.dptStatus n) 0 3 3, setFld (Reg.dptStatus n) 14 3 7]
  else acts [
    actIf (s.fld (Reg.dptStatus n) 14 3 = 7) (setFld (Reg.dptStatus n) 14 3 0),
    if k.trained then setFld (Reg.dptStatus n) 0 3 2 else acts [setFld (Reg.dptStatus n) 0 3 3, raise (stDpt n) 4]]

theorem linkBringupDone_run (hn : n < 16) (hl : s.live) (hs : s.Sound) (hrate : k.rate < 8) (hlanes : k.lanes < 3) (hsr : k.sr < 3)
    (hup : (s.port n).bringup = true) : exec (.linkBringupDone n k) s = .next (runAct (sinkJudged s n k) (s.sinkRead n k)) := by
  refine (live_next hl (by simp [hn, hrate, hlanes, hsr]) _).trans (congrArg _ ?_)
  rw [runAct_ask, runAct_actIf, hup, if_pos rfl, runAct_acts, portUpd_run_left, runAct_acts, setFld_run_left _ _ _ _ _ _ (reactReg_dptStatus hn), runAct_acts]
  exact edidPut_run_left (awaits_putFld hn (awaits_withPort (awaits_self hs) _) _ _ _).1.1 (sinkEdid k) _

/-- A sink that lacks what the set asks for. -/
theorem sinkJudged_lacks (hn : n < 16) (h : sinkLacks (s.port n).set k = true) (u : State) : runAct (sinkJudged s n k) u =
    (u.putFld (Reg.dptStatus n) 0 3 3).putFld (Reg.dptStatus n) 14 3 7 := by
  have hreact := reactReg_dptStatus hn
  rw [sinkJudged, if_pos h, runAct_acts, setFld_run_left _ _ _ _ _ _ hreact, acts_one, setFld_run _ _ _ _ _ hreact]

/-- A sink that has what the set asks for takes back an earlier result SINK; then the link is UP, or FAILED and the failure is detected. -/
theorem sinkJudged_has (hn : n < 16) (h : sinkLacks (s.port n).set k = false) (u : State) : ∃ c : Bool, runAct (sinkJudged s n k) u =
    runAct (if k.trained then setFld (Reg.dptStatus n) 0 3 2 else acts [setFld (Reg.dptStatus n) 0 3 3, raise (stDpt n) 4])
      (if c then u.putFld (Reg.dptStatus n) 14 3 0 else u) := by
  refine ⟨decide (s.fld (Reg.dptStatus n) 14 3 = 7), ?_⟩
  rw [sinkJudged, if_neg (by simp [h]), runAct_acts, runAct_actIf_left, acts_one, setFld_run_left _ _ _ _ _ _ (reactReg_dptStatus hn)]
  split <;> rfl

/-- A detection leaves what the port shows. -/
theorem shows_detected {t : State} (hn : n < 16) (hu : s.Shows n k u) (hpic : t.pic = u.pic) (hrd : ∀ off, outputRegs off → t.rd off = u.rd off) :
    s.Shows n k t :=
  ⟨(port_of_ports (congrArg Pic.ports hpic)).trans hu.port, (congrArg (wBits · 4 10) (hrd _ (outputRegs_dptStatus hn))).trans hu.status,
    fun i j hi hj => (hrd _ (outputRegs_dptEdid hn hi hj)).trans (hu.edid i j hi hj)⟩

/-- What the end of a bring-up leaves, by what the sink has and whether the link has trained. -/
theorem sinkJudged_leaves (hn : n < 16) (hu : s.Awaits (stDpt n) u) (hshows : s.Shows n k u) : s.Shows n k (runAct (sinkJudged s n k) u)
      ∧ (sinkLacks (s.port n).set k = true →
          (runAct (sinkJudged s n k) u).fld (Reg.dptStatus n) 0 3 = 3 ∧ (runAct (sinkJudged s n k) u).fld (Reg.dptStatus n) 14 3 = 7)
      ∧ (sinkLacks (s.port n).set k = false → k.trained = true → (runAct (sinkJudged s n k) u).fld (Reg.dptStatus n) 0 3 = 2)
      ∧ (sinkLacks (s.port n).set k = false → k.trained = false →
          (runAct (sinkJudged s n k) u).fld (Reg.dptStatus n) 0 3 = 3 ∧ s.logs (runAct (sinkJudged s n k) u) (stDpt n) 4 0) := by
  have hreact := reactReg_dptStatus hn
  cases hlacks : sinkLacks (s.port n).set k with
  | true =>
    have hput := awaits_putFld hn hu 0 3 3
    rw [sinkJudged_lacks hn hlacks]
    exact ⟨shows_putFld hn hput.1.2 (shows_putFld hn hu.1.2 hshows (by decide) (by decide) _) (by decide) (by decide) _,
      fun _ => ⟨(dptStatus_kept hn hput.1.2 (by decide) (by decide) (by decide) 7).trans (dptStatus_set hn hu.1.2 (by decide) 3),
        dptStatus_set hn hput.1.2 (by decide) 7⟩, nofun, nofun⟩
  | false =>
    obtain ⟨c, hrun⟩ := sinkJudged_has hn hlacks u
    rw [hrun]
    have hcleared : s.Awaits (stDpt n) (if c then u.putFld (Reg.dptStatus n) 14 3 0 else u)
        ∧ s.Shows n k (if c then u.putFld (Reg.dptStatus n) 14 3 0 else u) := by
      cases c
      · exact ⟨hu, hshows⟩
      · exact ⟨awaits_putFld hn hu _ _ _, shows_putFld hn hu.1.2 hshows (by decide) (by decide) _⟩
    generalize (if c then u.putFld (Reg.dptStatus n) 14 3 0 else u) = v at hcleared ⊢
    obtain ⟨hv, hvshows⟩ := hcleared
    have hset := fun x => dptStatus_set hn hv.1.2 (lo := 0) (w := 3) (by decide) x
    have hput := fun x => shows_putFld hn hv.1.2 hvshows (lo := 0) (w := 3) (by decide) (by decide) x
    cases htrained : k.trained with
    | true =>
      rw [if_pos rfl, setFld_run _ _ _ _ _ hreact]
      exact ⟨hput 2, nofun, fun _ _ => hset 2, nofun⟩
    | false =>
      obtain ⟨hlogs, -, hpic, hrd⟩ := dptRaise_run hn (.inl rfl) (awaits_putFld hn hv 0 3 3)
      rw [if_neg (by decide), runAct_acts, setFld_run_left _ _ _ _ _ _ hreact, acts_one]
      exact ⟨shows_detected hn (hput 3) hpic hrd, nofun, nofun,
        fun _ _ => ⟨(congrArg (wBits · 0 3) (hrd _ (outputRegs_dptStatus hn))).trans (hset 3), hlogs⟩⟩

/-! ### The obligation -/

/-- hpd of DPTn_STATUS, read as a field. -/
theorem hpd_of_fld (u : State) (n : Nat) {b : Bool} (h : u.fld (Reg.dptStatus n) 3 1 = b2n b) : u.bitAt (Reg.dptStatus n) 3 = b := by
  rw [bitAt_iff, h]
  cases b <;> rfl

/-- What HPD_RISE leaves. -/
theorem hpdRise_leaves (hn : n < 16) (hl : s.live) (hs : s.Sound) : ∃ t, exec (.hpdRise n) s = .next t ∧ t.bitAt (Reg.dptStatus n) 3 = true
      ∧ s.logs t (stDpt n) 5 0
      ∧ (portMode (s.port n) ≠ 0 → t.fld (Reg.dptStatus n) 0 3 = 1 ∧ t.port n = { s.port n with bringup := true })
      ∧ (portMode (s.port n) = 0 → t.fld (Reg.dptStatus n) 0 3 = 0) := by
  obtain ⟨hlogs, hw, hpic, hrd⟩ := dptRaise_run hn (.inr rfl) (awaits_putFld hn (awaits_self hs) 3 1 1)
  refine ⟨_, hpdRise_run hn hl hs, ?_⟩
  generalize runAct (raise (stDpt n) 5) (s.putFld (Reg.dptStatus n) 3 1 1) = u at hlogs hw hpic hrd ⊢
  have hport : u.port n = s.port n := port_of_ports (congrArg Pic.ports hpic)
  have hrisen : u.fld (Reg.dptStatus n) 3 1 = 1 :=
    (congrArg (wBits · 3 1) (hrd _ (outputRegs_dptStatus hn))).trans (dptStatus_set hn hs.2 (by decide) 1)
  obtain ⟨hother, hhpd, hlink, hbringup⟩ := bringUp_leaves hn hw
  rw [hport] at hlink hbringup
  refine ⟨hpd_of_fld _ n (hhpd.trans hrisen), logs_congr rfl (fun _ _ => rfl) (fun off ho => hother off ?_) hlogs,
    fun hmode => ⟨?_, hbringup hmode⟩, fun hmode => ?_⟩
  · have := stationRegs_range ho
    unfold Reg.dptStatus
    omega
  · rw [hlink, bne_iff_ne.mpr hmode]
    rfl
  · rw [hlink, hmode]
    rfl

/-- What HPD_FALL leaves. -/
theorem hpdFall_leaves (hn : n < 16) (hl : s.live) (hs : s.Sound) (hports : mapWf portNone s.pic.ports = true) : ∃ t, exec (.hpdFall n) s = .next t
      ∧ t.bitAt (Reg.dptStatus n) 3 = false ∧ t.fld (Reg.dptStatus n) 0 3 = 0 ∧ t.port n = { s.port n with bringup := false }
      ∧ s.logs t (stDpt n) 5 0 ∧ (∀ i j, i < 4 → j < 64 → t.rd (Reg.dptEdid n i j) = 0)
      ∧ ∀ h ∈ portHeads (s.port n), t.hdState h = if s.hdState h = 3 then 2 else s.hdState h := by
  obtain ⟨hdark, hstatus, hport, hedid, hheads⟩ := darkened_leaves hn hs
  obtain ⟨hlogs, -, hpic, hrd⟩ := dptRaise_run hn (.inr rfl) hdark
  obtain ⟨hhpd, hlink⟩ := unplugged_status hn hs.2
  have hread := (hrd _ (outputRegs_dptStatus hn)).trans hstatus
  refine ⟨_, hpdFall_run hn hl hs, hpd_of_fld _ n ((congrArg (wBits · 3 1) hread).trans hhpd), (congrArg (wBits · 0 3) hread).trans hlink, ?_, hlogs,
    fun i j hi hj => (hrd _ (outputRegs_dptEdid hn hi hj)).trans (hedid i j hi hj), fun h hm => ?_⟩
  · have hdown : (s.unplugged n).port n = { s.port n with bringup := false } := port_withPort (.inl hports)
    exact (port_of_ports (congrArg Pic.ports hpic)).trans (hport.trans hdown)
  · exact (congrArg (wBits · 0 3) (hrd _ (outputRegs_hdStatus (portHeads_lt hm)))).trans (hheads h hm)

/-- Settles O59: HPD and a lost lock by what a bring-up's beginning, the clearing of the EDID, the heads' leaving self-refresh and a detection each leave;
the end of a bring-up by what the sink has and whether the link trains (`sinkJudged_leaves`). -/
theorem linksTrain : Obligations.LinksTrain := by
  refine ⟨fun n s hl hn => ⟨fun hc hw => hpdRise_leaves hn hl ⟨hc, hw⟩, fun hc hw hports => hpdFall_leaves hn hl ⟨hc, hw⟩ hports,
    fun hw hmode => ?_, fun hwaking => ?_, live_next hl (decide_eq_true hn) _⟩, fun n k s hl hc hw hn hrate hlanes hsr hup hports => ?_⟩
  · obtain ⟨-, -, hlink, hbringup⟩ := bringUp_leaves hn hw
    exact ⟨_, live_next hl (decide_eq_true hn) _, by rw [hlink, bne_iff_ne.mpr hmode]; rfl, hbringup hmode⟩
  · refine (live_next hl (decide_eq_true hn) _).trans (congrArg _ ?_)
    rw [runAct_whenS, if_pos (decide_eq_true hwaking), setFld_run _ _ _ _ _ (reactReg_dptStatus hn)]
  · have hs : s.Sound := ⟨hc, hw⟩
    obtain ⟨hawaits, hread⟩ := sinkRead_shows hn hs hports hrate hlanes hsr
    obtain ⟨hshows, hlack, htrained, hfailed⟩ := sinkJudged_leaves hn hawaits hread
    obtain ⟨hr, hla, hself, hdsc, hmst⟩ := shows_fields hshows hrate hlanes hsr
    exact ⟨_, linkBringupDone_run hn hl hs hrate hlanes hsr hup, hshows.port, hr, hla, hself, hdsc, hmst, hshows.edid, hlack, htrained, hfailed⟩

end Sys2Proof.Machine
end

section
/-!
PROOFS. The end of a compilation (O52): the programs as it leaves them, and the load that ends with what R404 says of it; the counting of pools and quotas
that follows touches registers alone.
-/

namespace Sys2Proof.Machine

variable {s : State} {id : Nat} {c : Cmd} {ps : List Prog}

/-- A state with certain programs, in which a command is outstanding as it is given. -/
structure State.Loading (ps : List Prog) (id : Nat) (c : Cmd) (s : State) : Prop where
  progs : s.vid.progs = ps
  cmd : s.cmd? id = some c

/-- The command as it ends in a bell. -/
def Cmd.endedIn (c : Cmd) (bell next : Nat) : Cmd := { c with stage := .ended, endBell := bell, endId := next }

/-- A command that is changed is found changed. -/
theorem cmd?_cmdUpd {f : Cmd → Cmd} (hid : ∀ x, (f x).id = x.id) (h : s.cmd? id = some c) : (runAct (cmdUpd id f) s).cmd? id = some (f c) := by
  have hc : c.id = id := by simpa using List.find?_some h
  have hkey : ((fun x : Cmd => decide (x.id = id)) ∘ fun x => if x.id = id then f x else x) = fun x => decide (x.id = id) := by
    funext x
    by_cases hx : x.id = id <;> simp [hx, hid]
  have hfound : s.cfe.cmds.find? (fun x => decide (x.id = id)) = some c := h
  simp only [cmdUpd, runAct_eff, applyEff, State.cmd?, mapIf, List.find?_map, decide_eq_true_eq, hkey, hfound, Option.map_some, if_pos hc]

/-- Registers hold neither programs nor commands. -/
theorem setFld_loading (off lo w x : Nat) : (setFld off lo w x).Takes (State.Loading ps id c) (State.Loading ps id c) :=
  takes_ask fun _ _ => takes_eff rfl fun _ hs => ⟨hs.progs, hs.cmd⟩

theorem rndPools_loading : rndPools.Takes (State.Loading ps id c) (State.Loading ps id c) :=
  takes_ask fun _ _ => takes_acts_cons (setFld_loading _ _ _ _) (setFld_loading _ _ _ _)

theorem overUpdate_loading (seat : Nat) : (overUpdate seat).Takes (State.Loading ps id c) (State.Loading ps id c) :=
  takes_ask fun _ _ => setFld_loading _ _ _ _

/-- A command that ends, in whichever bell. -/
theorem cmdEnd_loading {f : Cmd → Cmd} (hid : ∀ x, (f x).id = x.id) (hc : c.stage ≠ .ended) :
    (cmdEnd id f).Takes (State.Loading ps id c) fun s => ∃ bell next, State.Loading ps id ((f c).endedIn bell next) s := by
  refine takes_ask fun s hs => ?_
  rw [hs.cmd]
  dsimp only
  rw [if_neg hc]
  have hend : (cmdUpd id fun c => (f c).endedIn s.tts.bell s.cfe.nextId).Takes (State.Loading ps id c)
      (State.Loading ps id ((f c).endedIn s.tts.bell s.cfe.nextId)) :=
    fun u hu => ⟨rfl, hu.progs, cmd?_cmdUpd (f := fun c => (f c).endedIn s.tts.bell s.cfe.nextId) hid hu.cmd⟩
  exact takes_acts_cons hend (takes_ask fun _ _ => takes_eff rfl fun _ hu => ⟨_, _, hu.progs, hu.cmd⟩)

/-- A load whose program is ready: the entry points compiled, and its detail (R404). -/
def Cmd.loaded (entries detail : Nat) (c : Cmd) : Cmd := { c with unitsDone := 1000, part := entries, detail := detail }

/-- A load whose compilation failed, with its detail (R404). -/
def Cmd.loadFailed (detail : Nat) (c : Cmd) : Cmd := { c with overrun := true, detail := detail }

/-- What follows the change of a program when its compilation is done: its load ends, the pools and the seat's quota are counted anew. -/
def loadEnd (id : Nat) (f : Cmd → Cmd) : Act :=
  acts [cmdEnd id f, rndPools, .ask fun s => overUpdate (s.cmd? id |>.map Cmd.seat |>.getD 0)]

theorem loadEnd_loading {f : Cmd → Cmd} (hid : ∀ x, (f x).id = x.id) (hc : c.stage ≠ .ended) :
    (loadEnd id f).Takes (State.Loading ps id c) fun s => ∃ bell next, State.Loading ps id ((f c).endedIn bell next) s := by
  have hover : ∀ c', (Act.ask fun u => overUpdate (u.cmd? id |>.map Cmd.seat |>.getD 0)).Takes (State.Loading ps id c') (State.Loading ps id c') :=
    fun _ => takes_ask fun _ _ => overUpdate_loading _
  refine takes_acts_cons (cmdEnd_loading hid hc) fun s ⟨bell, next, hs⟩ => ?_
  obtain ⟨hwhole, hend⟩ := takes_acts_cons (as := [_]) rndPools_loading (hover _) s hs
  exact ⟨hwhole, bell, next, hend⟩

/-- A program as its compilation leaves it (R404). -/
def Prog.compiled (p : Prog) (models : List Nat) (kib : Nat) : Prog :=
  { p with load := none, models := models, pages := p.pages.take (ceilDiv kib 4), kib := 4 * ceilDiv kib 4, ready := true }

variable {p : Prog} {models : List Nat} {kib cause : Nat}

/-- Code that fits in the pages reserved, with no more entry points than Table 12.4 allows: the program is ready and its load ends. -/
theorem compileOp_compiles (hp : (s.vid.progs.find? fun x => x.load = some id) = some p) (hc : s.cmd? id = some c) (hstage : c.stage = .started)
    (hmodels : models.length ≤ 64) (hkib : kib ≤ 4 * p.pages.length) : ∃ bell next,
      State.Loading (mapIf (fun x => x.load = some id) (fun x => x.compiled models kib) s.vid.progs) id
        ((c.loaded models.length (p.id + models.length * 2 ^ 16)).endedIn bell next)
        (runAct (compileOp id models kib 0) s) := by
  have hwhy : (if 64 < models.length then 3 else if 4 * p.pages.length < kib then 4 else 0) = 0 := by
    rw [if_neg (by omega), if_neg (by omega)]
  rw [compileOp, runAct_ask, hp, actOpt_some, onCmd, runAct_ask, hc]
  dsimp only
  rw [if_neg (by simp [hstage]), if_pos (by simpa using hwhy), runAct_acts, run_vid]
  exact (loadEnd_loading (f := Cmd.loaded _ _) (fun _ => rfl) (by simp [hstage])).run ⟨rfl, hc⟩

/-- A compilation that fails: the program is gone and its load overruns with the cause. -/
theorem compileOp_fails (hp : (s.vid.progs.find? fun x => x.load = some id) = some p) (hc : s.cmd? id = some c) (hstage : c.stage = .started)
    (hcause : cause ≠ 0) : ∃ bell next,
      State.Loading (s.vid.progs.filter fun x => x.load != some id) id ((c.loadFailed (p.id + cause * 2 ^ 32)).endedIn bell next)
        (runAct (compileOp id models kib cause) s) := by
  rw [compileOp, runAct_ask, hp, actOpt_some, onCmd, runAct_ask, hc]
  dsimp only
  rw [if_neg (by simp [hstage]), if_pos (bne_iff_ne.mpr hcause), if_neg hcause, runAct_acts, run_vid]
  exact (loadEnd_loading (f := Cmd.loadFailed _) (fun _ => rfl) (by simp [hstage])).run ⟨rfl, hc⟩

/-- Settles O52: `compileOp_compiles` for a cause of 0, `compileOp_fails` for any other. -/
theorem programsCompile : Obligations.ProgramsCompile := by
  intro id models kib cause p c s hl hbound hp hc hstage
  have hnext := live_next hl (decide_eq_true hbound) (compileOp id models kib cause)
  refine ⟨fun h0 hmodels hkib => ?_, fun hcause => ?_⟩
  · subst h0
    obtain ⟨bell, next, hprogs, hend⟩ := compileOp_compiles hp hc hstage hmodels hkib
    have hready : p.compiled models kib ∈ (runAct (compileOp id models kib 0) s).vid.progs :=
      hprogs ▸ List.mem_map.mpr ⟨p, List.mem_of_find?_eq_some hp, if_pos (List.find?_some hp)⟩
    exact ⟨_, _, hnext, ⟨_, hready, rfl, rfl, rfl, rfl, rfl, rfl, rfl⟩, hend, rfl, rfl, rfl, rfl⟩
  · obtain ⟨bell, next, hprogs, hend⟩ := compileOp_fails (models := models) (kib := kib) hp hc hstage hcause
    refine ⟨_, _, hnext, fun x hx => ?_, hend, rfl, rfl, rfl⟩
    rw [hprogs] at hx
    simpa using (List.mem_filter.mp hx).2

end Sys2Proof.Machine
end

section
/-!
SUPPORT. The secure submission of the render engine (R432): what a write of RND_SECQ_CTRL does, the fields of RND_SECQ_STATUS, and what the reads of a
submission and the cores leave of both and of its run.
-/

namespace Sys2Proof.Machine

variable {s : State} {p : Path} {v : Word} {r : RndRun} {rs : List RndRun} {k : Nat}

/-! ### Writes of RND_SECQ_CTRL -/

/-- A write that reaches every bit that a register stores, all of them with access RW or RWC, leaves the word written. -/
theorem regMask_writeWord {f : RegFam} {off : Nat} {m rep : Word}
    (hrep : accBits f (fun a => a = .rw || a = .rwc || (a = .rwl && !false)) &&& m = rep)
    (hclr : accBits f (fun a => a = .w1c) &&& m = 0) (hset : accBits f (fun a => a = .w1s) &&& m = 0)
    (himpl : BitVec.ofNat 64 (regImpl off) = rep) (old w : Word) : regMask off (writeWord f false old w m) = regMask off (w &&& m) := by
  refine BitVec.eq_of_toNat_eq (Nat.eq_of_testBit_eq fun i => ?_)
  simp only [regMask, himpl, BitVec.toNat_and, Nat.testBit_and _ rep.toNat, writeWord_testBit hrep hclr hset]
  cases hi : rep.toNat.testBit i <;> simp

theorem secqCtrl_row : regFind Reg.rndSecqCtrl = some (regsRnd[10]'(by decide), []) ∧ BitVec.ofNat 64 (regImpl Reg.rndSecqCtrl) = 0x3FFFFFCFFFF := by
  decide +kernel

/-- The write of RND_SECQ_CTRL stores its word, then goes or aborts. -/
theorem secqCtrl_write (s : State) (p : Path) (v : Word) :
    runAct (registerWrite p (regsRnd[10]'(by decide)) false Reg.rndSecqCtrl 8 (coverWord Reg.rndSecqCtrl 8 v) (coverMask Reg.rndSecqCtrl 8)) s =
      runAct (acts [actIf (wBit v 16) secqGoOp, actIf (wBit v 17) secqAbortOp]) (s.putReg Reg.rndSecqCtrl v) := by
  have hput : s.putReg Reg.rndSecqCtrl (writeWord (regsRnd[10]'(by decide)) false (s.rd Reg.rndSecqCtrl) (coverWord Reg.rndSecqCtrl 8 v)
      (coverMask Reg.rndSecqCtrl 8)) = s.putReg Reg.rndSecqCtrl v := by
    rw [State.putReg, regPut, regMask_writeWord (rep := 0x3FFFFFCFFFF) (by decide) (by decide) (by decide) secqCtrl_row.2, cover_whole]
    rfl
  change runAct (acts [slotWrite _ _ _ _ _, actIf (wBit (coverWord Reg.rndSecqCtrl 8 v &&& coverMask Reg.rndSecqCtrl 8) 16) secqGoOp,
    actIf (wBit (coverWord Reg.rndSecqCtrl 8 v &&& coverMask Reg.rndSecqCtrl 8) 17) secqAbortOp]) s = _
  rw [cover_whole, runAct_acts, slotWrite_run (off := Reg.rndSecqCtrl) (by decide), hput]

/-- A go, where no abort comes with it. -/
theorem rndSecqGo_run (hlets : s.lets p Reg.rndSecqCtrl 8 v Reg.rndSecqCtrl) (hgo : wBit v 16 = true) (habort : wBit v 17 = false) :
    exec (.rndSecqGo p v) s = .next (runAct secqGoOp (s.putReg Reg.rndSecqCtrl v)) := by
  refine (writeCommand_lets hlets secqCtrl_row.1 hgo).trans (congrArg _ ((secqCtrl_write s p v).trans ?_))
  rw [hgo, habort]
  exact runAct_skip_right _ _

/-- go reads 0 (R7). -/
theorem secqCtrl_go_reads_zero (hw : s.wf = true) : wBit (s.rd Reg.rndSecqCtrl) 16 = false := by
  rw [← rd_mask hw Reg.rndSecqCtrl (by decide +kernel), regMask, secqCtrl_row.2, wBit_eq, BitVec.toNat_and, Nat.testBit_and]
  exact Bool.and_false _

/-- An abort. -/
theorem rndSecqAbort_run (hw : s.wf = true) (hlets : s.lets p Reg.rndSecqCtrl 8 (s.rd Reg.rndSecqCtrl ||| 0x20000) Reg.rndSecqCtrl) :
    exec (.rndSecqAbort p) s = .next (runAct secqAbortOp (s.putReg Reg.rndSecqCtrl (s.rd Reg.rndSecqCtrl ||| 0x20000))) := by
  have hgo : wBit (s.rd Reg.rndSecqCtrl ||| 0x20000) 16 = false := by
    rw [wBit_eq, BitVec.toNat_or, Nat.testBit_or, ← wBit_eq, secqCtrl_go_reads_zero hw]
    decide
  have habort : wBit (s.rd Reg.rndSecqCtrl ||| 0x20000) 17 = true := by
    rw [wBit_eq, BitVec.toNat_or, Nat.testBit_or]
    exact Bool.or_true _
  refine (setCommand_adds (bits := 2 ^ 17) (by decide) hlets secqCtrl_row.1 rfl).trans (congrArg _ ((secqCtrl_write s p _).trans ?_))
  rw [hgo, habort]
  exact runAct_skip_left _ _

/-! ### The submission's status and its run -/

/-- The fields of RND_SECQ_STATUS lie next to each other. -/
theorem secqStatus_mask {lo w : Nat} (h : lo + w ≤ 42) : nBits (regImpl Reg.rndSecqStatus % 2 ^ 64) lo w = 2 ^ w - 1 := by
  have himpl : regImpl Reg.rndSecqStatus = 2 ^ 42 - 1 := by decide +kernel
  rw [himpl, Nat.mod_eq_of_lt (by decide)]
  apply Nat.eq_of_testBit_eq
  intro i
  rw [nBits_testBit, Nat.testBit_two_pow_sub_one, Nat.testBit_two_pow_sub_one]
  by_cases hi : i < w
  · simp [hi, show lo + i < 42 by omega]
  · simp [hi]

/-- A sound state in which the secure submission is in state `k` (Table 12.16) and the engine works on certain runs. -/
structure State.Submits (k : Nat) (rs : List RndRun) (s : State) : Prop where
  sound : s.Sound
  status : s.fld Reg.rndSecqStatus 0 2 = k
  runs : s.vid.runs = rs

/-- Programs that spare the registers below the seats' and the engines for video, as reads of device memory do. -/
theorem submits_foot {T : Nat} {a : Act} (ha : a.Foot (In T)) (hT : softClass T = true) (hv : Part.spared T .vid = true)
    (hlow : Part.spared T .lowRegisters = true) : a.Takes (State.Submits k rs) (State.Submits k rs) :=
  takes_of_foot ha (fun _ h => h.sound.1) (fun _ he => in_soft hT he) fun e s he ⟨⟨hc, hw⟩, hk, hr⟩ => by
    have hsoft : e.soft = true := in_soft hT he
    have hvid : (applyEff e s).vid = s.vid := eff_same he hsoft hv s
    have hsame : Part.lowRegisters.same s (applyEff e s) := eff_same he hsoft hlow s
    exact ⟨⟨calm_soft hsoft hc, applyEff_wf e s hw⟩, by rw [State.fld, hsame _ (by decide) (by decide)]; exact hk, hvid ▸ hr⟩

theorem secqRead_submits (u : State) (a n : Nat) : (u.secqRead a n).act.Takes (State.Submits k rs) (State.Submits k rs) :=
  submits_foot (T := 0x83801) (devRead_foot _ _ _ _ _ rfl) rfl rfl rfl

theorem submits_putState {j : Nat} (hj : j < 4) (hs : s.Submits k rs) : (s.putFld Reg.rndSecqStatus 0 2 j).Submits j rs := by
  obtain ⟨hsound, -, hr⟩ := hs
  refine ⟨putReg_sound hsound (by decide) _, ?_, hr⟩
  rw [fld_putFld hsound.2 (by decide) (secqStatus_mask (by decide))]
  exact Nat.mod_eq_of_lt hj

theorem submits_putDone (hs : s.Submits k rs) (n : Nat) : (s.putFld Reg.rndSecqStatus 10 32 n).Submits k rs := by
  obtain ⟨hsound, hk, hr⟩ := hs
  refine ⟨putReg_sound hsound (by decide) _, ?_, hr⟩
  rw [fld_putFld_ne hsound.2 (by decide) (.inl (by decide)) (secqStatus_mask (by decide)), hk]

/-- A field of a register but a reaction mask. -/
theorem setFld_takes {J K : State → Prop} {off lo w x : Nat} (hr : reactReg off = false) (h : ∀ s, J s → K (s.putFld off lo w x)) :
    (setFld off lo w x).Takes J K := fun s hs => ⟨rfl, by
  have hrun : (runGo (setFld off lo w x) s).1 = s.putFld off lo w x := setFld_run off lo w x s hr
  exact hrun ▸ h s hs⟩

theorem submits_vid {f : Vid → Vid} {rs' : List RndRun} (h : ∀ v, v.runs = rs → (f v).runs = rs') :
    (Act.eff (.vid f)).Takes (State.Submits k rs) (State.Submits k rs') :=
  takes_eff rfl fun s ⟨hs, hk, hr⟩ => ⟨⟨calm_soft (e := .vid f) rfl hs.1, applyEff_wf (.vid f) s hs.2⟩, hk, h _ hr⟩

/-! ### A run of the secure submission that moves on -/

/-- Whether binning ends as a run moves on (R413). -/
def RndRun.binned (r : RndRun) : Bool := r.isPass && r.begun && r.tiles.isNone && !r.stop && !r.fault && decide (r.drawn.length = r.draws.length)

/-- Where binning does not end, its progress is counted, and it ends if no turn is left. -/
theorem runSettle_secure (hr : s.run? none = some r) (hbin : r.binned = false) : ∃ n, runAct (runSettle none) s =
    runAct (actIf (s.runFinished r) (secqEnd r)) (s.putFld Reg.rndSecqStatus 10 32 n) := by
  have hcmd : r.cmd = none := run?_cmd hr
  have hlive : s.runLive r = true := by rw [State.runLive, hcmd]
  refine ⟨if r.isPass then r.written + r.skipped else r.groups, ?_⟩
  unfold RndRun.binned at hbin
  rw [runSettle, runAct_onRun hr, hlive, if_neg (by decide), hbin, runAct_acts, runAct_actIf_left, if_neg (by decide), acts_one, runAct_onRun hr,
    runAct_acts, runProgress, hcmd]
  exact setFld_run_left _ _ _ _ _ _ (by decide)

/-- The final code of a submission that is being aborted (Table 12.16). -/
theorem secqEnd_aborted (hw : s.wf = true) (hk : s.fld Reg.rndSecqStatus 0 2 = 2) : (runAct (secqEnd r) s).fld Reg.rndSecqStatus 0 2 = 0
    ∧ (runAct (secqEnd r) s).fld Reg.rndSecqStatus 2 8 = if r.fault then 0x22 else 0x21 := by
  have hread : ∀ lo w, lo + w ≤ 10 →
      (runAct (secqEnd r) s).fld Reg.rndSecqStatus lo w = nBits ((if r.fault then 0x22 else 0x21) * 4) lo w := fun lo w h => by
    have hrun : (runAct (secqEnd r) s).rd Reg.rndSecqStatus =
        (s.putFld Reg.rndSecqStatus 0 10 ((if r.fault then 0x22 else 0x21) * 4)).rd Reg.rndSecqStatus := by
      rw [secqEnd, runAct_ask, hk]
      cases r.fault <;> simp [setFld_run_left _ _ _ _ _ _ (show reactReg Reg.rndSecqStatus = false by decide)]
    rw [State.fld, hrun, ← State.fld, fld_putFld_within hw (by decide) (Nat.zero_le _) (by omega) (secqStatus_mask (by omega)), Nat.sub_zero]
  rw [hread 0 2 (by decide), hread 2 8 (by decide)]
  cases r.fault <;> decide

/-! ### A pass that begins -/

/-- A run of the secure submission that is a pass of draws without set tables, before it has begun: nothing of it is binned yet. -/
structure RndRun.SecurePass (r : RndRun) : Prop where
  cmd : r.cmd = none
  pass : r.isPass = true
  fresh : r.begun = false ∧ r.stop = false ∧ r.fault = false ∧ r.tiles = none
  waits : r.drawn.length ≠ r.draws.length
  tables : r.tables [] = []

/-- A run whose work has begun. -/
def RndRun.begins (r : RndRun) : RndRun := { r with begun := true }

/-- Settling counts the progress of such a pass and nothing more: binning has still to end. -/
theorem settle_submits (hr : r.SecurePass) : (runSettle r.begins.cmd).Takes (State.Submits k [r.begins]) (State.Submits k [r.begins]) := by
  obtain ⟨hcmd, hpass, ⟨-, hstop, hfault, htiles⟩, hwaits, -⟩ := hr
  rw [show r.begins.cmd = none from hcmd]
  intro s hs
  have hrun : s.run? none = some r.begins := by
    rw [State.run?, hs.runs]
    exact List.find?_cons_of_pos (decide_eq_true hcmd)
  have hbin : r.begins.binned = false := by simp [RndRun.binned, RndRun.begins, hwaits]
  have hfin : s.runFinished r.begins = false := by
    rw [State.runFinished, show r.begins.isPass = true from hpass, show r.begins.stop = false from hstop, show r.begins.fault = false from hfault,
      show r.begins.tiles = none from htiles]
    simp
  obtain ⟨n, hsettle⟩ := runSettle_secure hrun hbin
  rw [hfin] at hsettle
  refine ⟨((sound_foot (T := 0x300FFE19) (runSettle_foot none rfl) rfl) s hs.sound).1, ?_⟩
  change State.Submits k _ (runAct (runSettle none) s)
  rw [hsettle]
  exact submits_putDone hs n

theorem begin_submits (hr : r.SecurePass) : (runBegin r [] .ok).Takes (State.Submits k [r]) (State.Submits k [r.begins]) := by
  obtain ⟨hcmd, -, -, -, htables⟩ := hr
  rw [runBegin, htables, hcmd]
  exact takes_acts_cons takes_skip (submits_vid fun v hv => by simp [hv, mapIf, hcmd, RndRun.begins])

theorem coreTake_submits (c : Nat) : (coreTake c).Takes (State.Submits k rs) (State.Submits k rs) :=
  takes_ask fun s _ => takes_ite (fun _ => takes_skip) fun _ => by
    cases s.corePick c with
    | none => exact takes_skip
    | some x => exact takes_actOpt fun _ _ => submits_vid fun _ hv => hv

/-- The cores begin such a pass and take its turns. -/
theorem coresTake_submits (hr : r.SecurePass) : coresTake.Takes (State.Submits k [r]) (State.Submits k [r.begins]) := by
  refine takes_acts_cons (K := State.Submits k [r.begins]) (takes_ask fun s hs => ?_)
    (takes_acts_cons (takes_ask fun s hs => ?_) (takes_each fun c _ => coreTake_submits c))
  · have hlive : s.runLive r = true := by rw [State.runLive, hr.cmd]
    obtain ⟨hbegun, hstop, -⟩ := hr.fresh
    rw [hs.runs, List.filter_cons_of_pos (by simp [hlive, hr.pass, hbegun, hstop])]
    exact begin_submits hr
  · rw [hs.runs]
    exact settle_submits hr

end Sys2Proof.Machine
end

section
/-!
PROOFS. The secure submission (O37): a go that is refused, a go that begins a pass, an abort (R432, Table 12.16).
-/

namespace Sys2Proof.Machine

variable {s : State} {r : RndRun} {rs : List RndRun}

/-! ### An abort -/

theorem unitsRunning_putReg (s : State) (off : Nat) (v : Word) (j : Option Nat) : (s.putReg off v).unitsRunning j = s.unitsRunning j := rfl

/-- A run that starts no further turn. -/
def RndRun.stopped (r : RndRun) : RndRun := { r with stop := true }

/-- The run of the secure submission stops. -/
theorem run?_stopped (hr : s.run? none = some r) : (runAct (runUpd none RndRun.stopped) s).run? none = some r.stopped := by
  rw [run?_runUpd (f := RndRun.stopped) (fun _ => rfl), hr, Option.map_some, if_pos (run?_cmd hr)]

/-- What an abort comes to: SETTLING while turns run, else the end. -/
theorem secqAbortOp_run (hs : s.Submits 1 rs) (hr : s.run? none = some r) : ∃ u : State, u.wf = true ∧ u.fld Reg.rndSecqStatus 0 2 = 2 ∧
    runAct secqAbortOp s = runAct (actIf (s.unitsRunning none).isEmpty (secqEnd r.stopped)) u := by
  obtain ⟨hstate, hk, -⟩ := submits_putState (j := 2) (by decide) hs
  let u := runAct (runUpd none RndRun.stopped) (s.putFld Reg.rndSecqStatus 0 2 2)
  have hu : u.run? none = some r.stopped := run?_stopped (s := s.putFld Reg.rndSecqStatus 0 2 2) hr
  obtain ⟨n, hsettle⟩ := runSettle_secure hu (by simp [RndRun.binned, RndRun.stopped])
  have hfinished : u.runFinished r.stopped = (s.unitsRunning none).isEmpty := by
    rw [State.runFinished, run?_cmd hu]
    exact Bool.and_true _
  have hwf : u.wf = true := runAct_wf _ hstate.2
  refine ⟨u.putFld Reg.rndSecqStatus 10 32 n, putFld_wf hwf _ _ _ _, ?_, ?_⟩
  · rw [fld_putFld_ne hwf (by decide) (.inl (by decide)) (secqStatus_mask (by decide))]
    exact hk
  · rw [secqAbortOp, runAct_ask, runAct_actIf, if_pos (decide_eq_true hs.status), runAct_acts, setFld_run_left _ _ _ _ _ _ (by decide), runAct_acts]
    rw [hfinished] at hsettle
    exact hsettle

/-! ### A go -/

variable {ws : List Word} {draws : List (List Word)}

/-- The words of the submission as a go reads them. -/
def State.submission (s : State) : MemOut := s.secqRead (s.rd Reg.rndSecqBase).toNat (8 * s.fld Reg.rndSecqCtrl 0 16)

theorem submission_submits {k : Nat} (s : State) : s.submission.act.Takes (State.Submits k rs) (State.Submits k rs) := secqRead_submits s _ _

/-- Words that are no submission: the outcome is 0x14, nothing runs. -/
theorem secqGoOp_refused (hs : s.Submits 0 rs) (hup : s.bitAt Reg.secState 0 = false)
    (herr : s.submission.err = false) (hparse : secParse (bytesWords s.submission.bytes) = none) :
    (runAct secqGoOp s).Submits 0 rs ∧ (runAct secqGoOp s).fld Reg.rndSecqStatus 2 8 = 0x14 := by
  obtain ⟨hsound, hk, hruns⟩ := (submission_submits s).run hs
  rw [secqGoOp, runAct_ask, hs.status, hup, if_neg (by decide)]
  dsimp only
  rw [← State.submission, herr, if_neg (by decide), hparse, runAct_takes_cons (submission_submits s) hs, acts_one,
    setFld_run _ _ _ _ _ (by decide)]
  refine ⟨⟨putReg_sound hsound (by decide) _, ?_, hruns⟩, ?_⟩
  · rw [fld_putFld_ne hsound.2 (by decide) (.inl (by decide)) (secqStatus_mask (by decide)), hk]
  · exact (fld_putFld hsound.2 (by decide) (secqStatus_mask (by decide)) _).trans (by decide)

/-- The target description of a pass, as a go reads it. -/
def State.passTarget (s : State) (ws : List Word) : MemOut := s.secqRead (fw ws 1 0 64) 320

/-- The state blocks of its draws, as a go reads them. -/
def State.passStates (s : State) (draws : List (List Word)) : List MemOut := draws.map fun d => s.secqRead (fw d 4 0 64) 96

/-- Whether a pass is refused, with its target and its state blocks as they read. -/
def State.refusesPass (s : State) (ws : List Word) (draws : List (List Word)) : Bool :=
  let t := s.passTarget ws
  let tw := bytesWords t.bytes
  let states := (s.passStates draws).map fun x => bytesWords x.bytes
  t.err || readsFailed (s.passStates draws) || decide (fw ws 2 16 16 < draws.length) || !(draws.all drawLenOk) || !passWordsOk ws
    || !(draws.all drawWordsOk) || !passEnvelopeOk s.rndPeriod ws || !(states.all stateOk) || !targetOk ws tw states
    || !s.secExtentsOk ws tw draws || !(fw tw 1 0 64 = 0 || isStore (fw tw 1 0 64))

/-- What a pass must meet so as not to be refused. -/
theorem refusesPass_eq_false : s.refusesPass ws draws = false ↔
    (s.passTarget ws).err = false ∧ readsFailed (s.passStates draws) = false ∧ draws.length ≤ fw ws 2 16 16 ∧ draws.all drawLenOk = true
      ∧ passWordsOk ws = true ∧ draws.all drawWordsOk = true ∧ passEnvelopeOk s.rndPeriod ws = true
      ∧ ((s.passStates draws).map fun x => bytesWords x.bytes).all stateOk = true
      ∧ targetOk ws (bytesWords (s.passTarget ws).bytes) ((s.passStates draws).map fun x => bytesWords x.bytes) = true
      ∧ s.secExtentsOk ws (bytesWords (s.passTarget ws).bytes) draws = true
      ∧ (fw (bytesWords (s.passTarget ws).bytes) 1 0 64 = 0 ∨ isStore (fw (bytesWords (s.passTarget ws).bytes) 1 0 64) = true) := by
  simp only [State.refusesPass, Bool.or_eq_false_iff, Bool.not_eq_false', decide_eq_false_iff_not, Nat.not_lt, Bool.or_eq_true, decide_eq_true_eq,
    and_assoc]

/-- The run of a pass that is accepted. -/
def State.securePass (s : State) (ws : List Word) (draws : List (List Word)) : RndRun :=
  rndRunNew none none ws draws (bytesWords (s.passTarget ws).bytes) ((s.passStates draws).map fun x => bytesWords x.bytes)

/-- Draws without set tables name none. -/
theorem securePass_fresh (hop : hdrOp (ws.headD 0) = 0x0301) (hne : draws ≠ []) (htables : ∀ d ∈ draws, d.length = 5 + b2n (drawIndexed d)) :
    (s.securePass ws draws).SecurePass := by
  have hpass : (s.securePass ws draws).isPass = true := decide_eq_true hop
  refine ⟨rfl, hpass, ⟨rfl, rfl, rfl, rfl⟩, fun h => hne (List.eq_nil_of_length_eq_zero h.symm), ?_⟩
  rw [RndRun.tables, if_pos hpass, List.flatten_eq_nil_iff]
  intro l hl
  obtain ⟨d, hd, rfl⟩ := List.mem_map.mp hl
  have hlt : d < draws.length := List.mem_range.mp hd
  have hget : (s.securePass ws draws).draws.getD d [] = draws[d] := by
    change draws.getD d [] = draws[d]
    rw [List.getD_eq_getElem?_getD, List.getElem?_eq_getElem hlt, Option.getD_some]
  have hlen := htables _ (List.getElem_mem hlt)
  dsimp only
  rw [hget, hlen, Nat.sub_self, List.range_zero, List.map_nil]

/-- A pass that is accepted: RUNNING, its run has begun. -/
theorem secqGoOp_starts (hs : s.Submits 0 []) (hup : s.bitAt Reg.secState 0 = false)
    (herr : s.submission.err = false) (hparse : secParse (bytesWords s.submission.bytes) = some (ws, draws))
    (hop : hdrOp (ws.headD 0) = 0x0301) (hok : s.refusesPass ws draws = false) (hr : (s.securePass ws draws).SecurePass) :
    (runAct secqGoOp s).Submits 1 [(s.securePass ws draws).begins] := by
  have hreads : (readsAct (s.passStates draws)).Takes (State.Submits 0 []) (State.Submits 0 []) :=
    takes_each fun o ho => by
      obtain ⟨d, -, rfl⟩ := List.mem_map.mp ho
      exact secqRead_submits s _ _
  have hstart : (acts [setFld Reg.rndSecqStatus 0 2 1, setFld Reg.rndSecqStatus 10 32 0,
      .eff (.vid fun v => { v with runs := v.runs ++ [s.securePass ws draws] })]).Takes (State.Submits 0 []) (State.Submits 1 [s.securePass ws draws]) :=
    takes_acts_cons (setFld_takes (by decide) fun _ h => submits_putState (by decide) h)
      (takes_acts_cons (setFld_takes (by decide) fun _ h => submits_putDone h 0) (submits_vid fun v hv => by rw [hv]; rfl))
  suffices h : secqGoOp.Takes (· = s) (State.Submits 1 [(s.securePass ws draws).begins]) from h.run rfl
  refine takes_ask fun u hu => ?_
  subst hu
  rw [hs.status, hup, if_neg (by decide)]
  dsimp only
  rw [← State.submission, herr, if_neg (by decide), hparse]
  refine takes_acts_cons ((submission_submits u).weaken (fun _ h => h ▸ hs) fun _ h => h) ?_
  rw [acts_one]
  dsimp only
  rw [if_neg (by rw [hop]; decide)]
  refine takes_acts_cons (secqRead_submits u _ _) (takes_acts_cons hreads ?_)
  rw [acts_one, if_neg (by exact Bool.eq_false_iff.mp hok)]
  exact takes_acts_cons hstart (coresTake_submits hr)

/-- Settles O37: a go writes its register and reads the submission (`secqGoOp_refused`, `secqGoOp_starts`), an abort stops its run (`secqAbortOp_run`). -/
theorem secureRenders : Obligations.SecureRenders := by
  refine fun p s hc hw => ⟨fun v hgo habort hlets hidle hup hruns => ?_, fun r hlets hrunning hr => ?_⟩
  · have hgoes := rndSecqGo_run hlets hgo habort
    intro s1 o
    have hs1 : s1.Submits 0 [] :=
      ⟨putReg_sound ⟨hc, hw⟩ (by decide) v, (congrArg (wBits · 0 2) (rd_putReg_ne s (by decide) v)).trans hidle, hruns⟩
    have hup1 : s1.bitAt Reg.secState 0 = false := (congrArg (wBit · 0) (rd_putReg_ne s (by decide) v)).trans hup
    have hread : o = s1.submission := by
      rw [State.submission, show s1.rd Reg.rndSecqBase = s.rd Reg.rndSecqBase from rd_putReg_ne s (by decide) v,
        show s1.fld Reg.rndSecqCtrl 0 16 = wBits v 0 16 from fld_putReg hw (by decide +kernel) v]
    refine ⟨fun herr hparse => ?_, fun ws draws herr hparse hop ht hsts hne hmax hlens hpass hdraws henv hstates htarget hextents hstamp htables => ?_⟩
    · obtain ⟨⟨-, hk, hnone⟩, hout⟩ := secqGoOp_refused hs1 hup1 (hread ▸ herr) (hread ▸ hparse)
      exact ⟨_, hgoes, hk, hout, hnone⟩
    · have hok : s1.refusesPass ws draws = false :=
        refusesPass_eq_false.mpr ⟨ht, hsts, hmax, hlens, hpass, hdraws, henv, hstates, htarget, hextents, hstamp⟩
      obtain ⟨-, hk, hone⟩ := secqGoOp_starts hs1 hup1 (hread ▸ herr) (hread ▸ hparse) hop hok (securePass_fresh hop hne htables)
      exact ⟨_, hgoes, hk, _, hone ▸ List.mem_singleton_self _, rfl, rfl, rfl⟩
  · have hs1 : (s.putReg Reg.rndSecqCtrl (s.rd Reg.rndSecqCtrl ||| 0x20000)).Submits 1 s.vid.runs :=
      ⟨putReg_sound ⟨hc, hw⟩ (by decide) _, (congrArg (wBits · 0 2) (rd_putReg_ne s (by decide) _)).trans hrunning, rfl⟩
    obtain ⟨u, hu, hk, hrun⟩ := secqAbortOp_run hs1 hr
    have habort := rndSecqAbort_run hw hlets
    rw [hrun, runAct_actIf, unitsRunning_putReg] at habort
    refine ⟨fun hunits => ⟨u, ?_, hk⟩, fun hunits => ⟨_, ?_, secqEnd_aborted (r := r.stopped) hu hk⟩⟩
    · rw [habort, if_neg (by simpa using hunits)]
    · rw [habort, if_pos (by simpa using hunits)]

end Sys2Proof.Machine
end

section
/-!
SUPPORT. The secure pipes of the codec (R472): what a write of VDC_SECPp_CTRL does, the fields of VDC_SECPp_STATUS, what the reads of a packet leave of the
sessions, and how a run that is to stop settles.
-/

namespace Sys2Proof.Machine

variable {s u : State} {p : Path} {n : Nat} {v : Word} {r : CodecRun}

/-! ### Writes of VDC_SECPp_CTRL -/

/-- A canonical map in which a key is given the value that it has is the same map. -/
theorem mapPut_mapGet {α : Type} [DecidableEq α] {d : Nat → α} {k b : Nat} {m : List (Nat × α)} (hm : mapAbove d b m = true) :
    mapPut d k (mapGet d k m) m = m := by
  induction m generalizing b with
  | nil => exact if_pos rfl
  | cons e m ih =>
    obtain ⟨k', v'⟩ := e
    simp only [mapAbove, Bool.and_eq_true, decide_eq_true_eq] at hm
    obtain ⟨⟨-, hv⟩, habove⟩ := hm
    rcases Nat.lt_trichotomy k k' with hlt | rfl | hgt
    · have hget : mapGet d k ((k', v') :: m) = d k := by
        rw [mapGet, if_neg (by omega)]
        exact mapGet_below d m habove (by omega)
      rw [hget, mapPut, if_pos hlt, if_pos rfl]
    · rw [mapGet, if_pos rfl, mapPut, if_neg (by omega), if_pos rfl, if_neg hv]
    · rw [mapGet, if_neg (by omega), mapPut, if_neg (by omega), if_neg (by omega), ih habove]

/-- A register that is set to what it reads changes nothing. -/
theorem putReg_rd (hw : s.wf = true) {off : Nat} (hd : regMask off (regDflt off) = regDflt off) : s.putReg off (s.rd off) = s := by
  rw [State.putReg, regPut, rd_mask hw off hd, State.rd, mapPut_mapGet (State.wf_csr hw)]

/-- A register none of whose fields takes a written bit keeps its word (R7). -/
theorem writeWord_keeps {f : RegFam} (hrep : accBits f (fun a => a = .rw || a = .rwc || (a = .rwl && !false)) = 0)
    (hclr : accBits f (fun a => a = .w1c) = 0) (hset : accBits f (fun a => a = .w1s) = 0) (old w m : Word) : writeWord f false old w m = old := by
  simp only [writeWord, hrep, hclr, hset, show (0 : Word) &&& m = 0 from BitVec.zero_and, show (0 : Word) &&& w = 0 from BitVec.zero_and, and_not_zero]
  rw [show w &&& 0 = 0 from BitVec.and_zero]
  exact (BitVec.or_zero).trans BitVec.or_zero

theorem vdcCtrl_row : ∀ n < 10, regFind (Reg.vdcCtrl n / 8 * 8) = some (regsVdc[1]'(by decide), [n])
    ∧ regMask (Reg.vdcCtrl n) (regDflt (Reg.vdcCtrl n)) = regDflt (Reg.vdcCtrl n) := by
  decide +kernel

/-- A write of VDC_SECPp_CTRL of a secure pipe stores nothing; it goes or aborts. -/
theorem vdcCtrl_write (hw : s.wf = true) (hn : n < 10) (hsec : s.unitSec (113 + n) = true) (p : Path) (v : Word) :
    runAct (registerWrite p (regsVdc[1]'(by decide)) false (Reg.vdcCtrl n / 8 * 8) 4 (coverWord (Reg.vdcCtrl n) 4 v) (coverMask (Reg.vdcCtrl n) 4)) s =
      runAct (acts [actIf (wBit v 0) (secpGoOp n), actIf (wBit v 1) (secpAbortOp n)]) s := by
  have hoff : Reg.vdcCtrl n = 0x300008 + 0x20 * n := rfl
  have hne : Reg.vdcCtrl n ≠ Reg.rndSecqCtrl := by unfold Reg.rndSecqCtrl; omega
  have hpipe : (decide (0x300000 ≤ Reg.vdcCtrl n) && decide (Reg.vdcCtrl n < 0x310000) && Reg.vdcCtrl n % 0x20 = 8) = true := by
    simp only [Bool.and_eq_true, decide_eq_true_eq]
    omega
  have hix : regIx (Reg.vdcCtrl n) 0x300000 0x20 = n := by unfold regIx; omega
  rw [show Reg.vdcCtrl n / 8 * 8 = Reg.vdcCtrl n by omega, registerWrite, if_neg (by omega), if_pos (by omega), mediaWrite, if_neg hne, if_pos hpipe]
  dsimp only
  rw [hix, runAct_acts, slotWrite_run (reactReg_low (by omega)), writeWord_keeps (by decide) (by decide) (by decide), putReg_rd hw (vdcCtrl_row n hn).2,
    wBit_cover (by omega) (.inl rfl) v (by decide), wBit_cover (by omega) (.inl rfl) v (by decide), acts_one, secureGo, runAct_whenS, if_pos hsec]

/-- A go, where no abort comes with it. -/
theorem vdcSecpGo_run (hw : s.wf = true) (hn : n < 10) (hsec : s.unitSec (113 + n) = true) (hlets : s.lets p (Reg.vdcCtrl n) 4 v (Reg.vdcCtrl n))
    (hgo : wBit v 0 = true) (habort : wBit v 1 = false) : exec (.vdcSecpGo p n v) s = .next (runAct (secpGoOp n) s) := by
  refine (writeCommand_lets hlets (vdcCtrl_row n hn).1 (by rw [hgo, decide_eq_true hn]; rfl)).trans (congrArg _ ((vdcCtrl_write hw hn hsec p v).trans ?_))
  rw [hgo, habort]
  exact runAct_skip_right _ _

/-- An abort. -/
theorem vdcSecpAbort_run (hw : s.wf = true) (hn : n < 10) (hsec : s.unitSec (113 + n) = true)
    (hlets : s.lets p (Reg.vdcCtrl n) 4 2 (Reg.vdcCtrl n)) : exec (.vdcSecpAbort p n) s = .next (runAct (secpAbortOp n) s) :=
  (writeCommand_lets hlets (vdcCtrl_row n hn).1 (decide_eq_true hn)).trans
    (congrArg _ ((vdcCtrl_write hw hn hsec p 2).trans (runAct_skip_left _ _)))

/-! ### VDC_SECPp_STATUS (Table 13.10) -/

theorem vdcStatus_impl : ∀ n < 10, regImpl (Reg.vdcStatus n) = 0xFFFFFFFF000003FF := by decide +kernel

/-- State and outcome lie next to each other. -/
theorem vdcStatus_mask (hn : n < 10) {lo w : Nat} (h : lo + w ≤ 10) : nBits (regImpl (Reg.vdcStatus n) % 2 ^ 64) lo w = 2 ^ w - 1 := by
  have hall : ∀ lo < 11, ∀ w < 11, lo + w ≤ 10 → nBits (0xFFFFFFFF000003FF % 2 ^ 64) lo w = 2 ^ w - 1 := by decide
  rw [vdcStatus_impl n hn]
  exact hall lo (by omega) w (by omega) h

theorem reactReg_vdcStatus (hn : n < 10) : reactReg (Reg.vdcStatus n) = false := reactReg_low (by unfold Reg.vdcStatus; omega)

/-- An outcome that is given. -/
theorem secpRefuse_run (hn : n < 10) (code : Nat) (u : State) : runAct (secpRefuse n code) u = u.putFld (Reg.vdcStatus n) 2 8 code :=
  setFld_run _ _ _ _ _ (reactReg_vdcStatus hn)

/-- It is read, and the state of the pipe is as it was. -/
theorem outcome_reads (hn : n < 10) (hw : u.wf = true) {code : Nat} (hcode : code < 2 ^ 8) :
    (u.putFld (Reg.vdcStatus n) 2 8 code).fld (Reg.vdcStatus n) 2 8 = code
      ∧ (u.putFld (Reg.vdcStatus n) 2 8 code).fld (Reg.vdcStatus n) 0 2 = u.fld (Reg.vdcStatus n) 0 2 :=
  ⟨(fld_putFld hw (by decide) (vdcStatus_mask hn (by decide)) code).trans (Nat.mod_eq_of_lt hcode),
    fld_putFld_ne hw (by decide) (.inl (by decide)) (vdcStatus_mask hn (by decide)) code⟩

/-! ### The reads of a packet -/

/-- A sound state after reads of device memory: the sessions and the registers of the pipes are those of `s`. -/
structure State.Fetched (s u : State) : Prop where
  sound : u.Sound
  vid : u.vid = s.vid
  regs : Part.lowRegisters.same s u

theorem fetched_self (hs : s.Sound) : s.Fetched s := ⟨hs, rfl, Part.same_refl _ s⟩

theorem ownerRead_fetched (t : State) (st a len : Nat) (h : HostAns) : (ownerRead t st none a len h).act.Takes s.Fetched s.Fetched :=
  takes_of_foot (devRead_foot (T := 0x83801) _ _ _ _ _ rfl) (fun _ hu => hu.sound.1) (fun _ he => in_soft rfl he) fun e u he hu => by
    have hsoft : e.soft = true := in_soft rfl he
    have hvid : Part.vid.same u (applyEff e u) := eff_same he hsoft rfl u
    have hregs : Part.lowRegisters.same u (applyEff e u) := eff_same he hsoft rfl u
    exact ⟨⟨calm_soft hsoft hu.sound.1, applyEff_wf e u hu.sound.2⟩, Eq.trans hvid hu.vid, Part.same_trans _ hu.regs hregs⟩

/-- The header of the packet at VDC_SECPp_BASE, as a read gives it. -/
def State.pipeHeader (s : State) (n : Nat) : MemOut := ownerRead s stVdc none (s.rd (Reg.vdcBase n)).toNat 8 .ok

/-- The packet at VDC_SECPp_BASE, as a read gives it. -/
def State.pipePacket (s : State) (n : Nat) : MemOut :=
  ownerRead s stVdc none (s.rd (Reg.vdcBase n)).toNat (8 * hdrLen (bytesWord (s.pipeHeader n).bytes)) .ok

/-- Whether a go refuses the packet for its header or for a read that failed. -/
def State.packetMalformed (s : State) (n : Nat) : Bool :=
  let hdr := bytesWord (s.pipeHeader n).bytes
  (s.pipeHeader n).err || (s.pipePacket n).err || hdrLen hdr = 0 || hdrReserved hdr || !lengthOk (hdrOp hdr) (hdrLen hdr)

/-- What a packet that is well-formed does on a secure pipe, by its operation. -/
def packetAct (n op : Nat) (ws : List Word) : Act :=
  match op with
  | 0x0500 => if fb ws 1 0 then secpClose n ws else secpOpen n ws
  | 0x0501 => secpDecode n ws
  | 0x0502 => secpEncode n ws
  | 0x0503 => secpKey n ws
  | _ => secpRefuse n rjMalformed

/-- What a go does once it has read its packet. -/
def State.packetDoes (s : State) (n : Nat) : Act :=
  if s.packetMalformed n then secpRefuse n rjMalformed
  else packetAct n (hdrOp (bytesWord (s.pipeHeader n).bytes)) (bytesWords (s.pipePacket n).bytes)

/-- A go on an idle pipe reads its packet, then refuses it or does what it says. -/
theorem secpGoOp_run (hs : s.Sound) (hidle : s.fld (Reg.vdcStatus n) 0 2 = 0) (hup : s.bitAt Reg.secState 0 = false) :
    ∃ u, s.Fetched u ∧ runAct (secpGoOp n) s = runAct (s.packetDoes n) u := by
  let long := !(s.pipeHeader n).err && hdrLen (bytesWord (s.pipeHeader n).bytes) != 0
  have hself := fetched_self hs
  have hheader : (s.pipeHeader n).act.Takes s.Fetched s.Fetched := ownerRead_fetched _ _ _ _ _
  have hbody : (actIf long (s.pipePacket n).act).Takes s.Fetched s.Fetched := takes_actIf fun _ => ownerRead_fetched _ _ _ _ _
  refine ⟨_, hbody.run (hheader.run hself), ?_⟩
  calc runAct (secpGoOp n) s
    _ = runAct (acts [(s.pipeHeader n).act, actIf long (s.pipePacket n).act, s.packetDoes n]) s := by
      rw [secpGoOp, runAct_ask, hidle, hup, if_neg (by decide)]
      rfl
    _ = _ := by rw [runAct_takes_cons hheader hself, runAct_takes_cons hbody (hheader.run hself), acts_one]

/-! ### A run that is to stop -/

theorem codecRun?_key (hr : s.codecRun? none n = some r) : r.cmd = none ∧ r.pipe = n := by
  simpa using List.find?_some hr

/-- A run that takes no further picture. -/
def CodecRun.stopped (r : CodecRun) : CodecRun := { r with stop := true }

theorem codecRun?_stopped (hr : s.codecRun? none n = some r) :
    (runAct (codecUpd none n CodecRun.stopped) s).codecRun? none n = some r.stopped := by
  have hkey : ((fun x : CodecRun => decide (x.cmd = none) && decide (x.pipe = n)) ∘
      fun x => if (decide (x.cmd = none) && decide (x.pipe = n)) = true then x.stopped else x) =
      fun x => decide (x.cmd = none) && decide (x.pipe = n) := by
    funext x
    dsimp only [Function.comp]
    split <;> rfl
  obtain ⟨hcmd, hpipe⟩ := codecRun?_key hr
  simp only [codecUpd, runAct_eff, applyEff, State.codecRun?, mapIf, List.find?_map, hkey] at hr ⊢
  rw [hr, Option.map_some, if_pos (by simp [hcmd, hpipe])]

/-- It is done where no picture is at work. -/
theorem codecDone_stopped (u : State) (r : CodecRun) : u.codecDone r.stopped = !r.active := by
  simp [State.codecDone, CodecRun.stopped]

/-- The end of a run of a secure pipe: it is taken away, its outcome is given (R472). -/
def State.secpEnd (s : State) (n : Nat) (r : CodecRun) : Act :=
  acts [.eff (.vid fun v => { v with codec := v.codec.filter fun y => !(y.cmd = none && y.pipe = n) }),
    setFld (Reg.vdcStatus n) 0 10 (s.secpOutcome r * 4)]

/-- Settling counts the progress of such a run in `done`, and ends it where no picture is at work. -/
theorem codecSettle_stopped (hn : n < 10) (hw : s.wf = true) (hr : s.codecRun? none n = some r.stopped) : ∃ u : State, u.wf = true
    ∧ u.fld (Reg.vdcStatus n) 0 2 = s.fld (Reg.vdcStatus n) 0 2
    ∧ runAct (codecSettle none n) s = runAct (actIf (!r.active) (u.secpEnd n r.stopped)) u := by
  obtain ⟨hcmd, hpipe⟩ := codecRun?_key hr
  have hflush : (s.codecDone r.stopped && !r.stopped.isEnc && fb r.stopped.words 1 8 && !r.stopped.stop && !s.codecBroken r.stopped) = false := by
    simp [CodecRun.stopped]
  have hend : ∀ u : State, u.vid = s.vid → runAct (actOpt (u.codecRun? none n) fun r => if !u.codecDone r then .skip else u.secpEnd n r) u =
      runAct (actIf (!r.active) (u.secpEnd n r.stopped)) u := fun u hu => by
    rw [State.codecRun?, hu, ← State.codecRun?, hr, actOpt_some, codecDone_stopped]
    cases r.active <;> rfl
  rw [codecSettle, runAct_acts, onCodec, runAct_ask_left, hr]
  dsimp only
  cases hx : s.vid.sess.find? fun x => x.id = r.stopped.sess with
  | none => exact ⟨s, hw, rfl, (runAct_skip_left _ _).trans (hend s rfl)⟩
  | some x =>
    refine ⟨s.putFld (Reg.vdcStatus n) 32 32 ((if r.isEnc then r.bytes else r.output) % 2 ^ 32), putFld_wf hw _ _ _ _,
      fld_putFld_ne hw (by decide) (.inl (by decide)) (vdcStatus_mask hn (by decide)) _, Eq.trans ?_ (hend _ rfl)⟩
    dsimp only
    rw [hflush, runAct_acts_left, runAct_actIf_left, if_neg (by decide), acts_one, onCodec, runAct_ask_left, hr]
    dsimp only
    rw [hx]
    dsimp only
    rw [codecProgress, hcmd, hpipe]
    exact setFld_run_left _ _ _ _ _ _ (reactReg_vdcStatus hn)

/-- The outcome of an abort (Table 13.10): the pipe is idle and works on no run. -/
theorem secpEnd_aborted (hn : n < 10) (hpipe : r.pipe = n) (hw : u.wf = true) (hk : u.fld (Reg.vdcStatus n) 0 2 = 2) :
    (runAct (u.secpEnd n r) u).fld (Reg.vdcStatus n) 0 2 = 0 ∧ (runAct (u.secpEnd n r) u).fld (Reg.vdcStatus n) 2 8 = (if r.fault then 0x22 else 0x21)
      ∧ (runAct (u.secpEnd n r) u).codecRun? none n = none := by
  let v := applyEff (.vid fun v => { v with codec := v.codec.filter fun y => !(y.cmd = none && y.pipe = n) }) u
  have hout : u.secpOutcome r = if r.fault then 0x22 else 0x21 := by rw [State.secpOutcome, hpipe, hk, if_pos rfl]
  have hrun : runAct (u.secpEnd n r) u = v.putFld (Reg.vdcStatus n) 0 10 ((if r.fault then 0x22 else 0x21) * 4) := by
    rw [State.secpEnd, hout, runAct_acts, runAct_eff_left _ _ _ rfl, acts_one, setFld_run _ _ _ _ _ (reactReg_vdcStatus hn)]
  have hread : ∀ lo w, lo + w ≤ 10 → (v.putFld (Reg.vdcStatus n) 0 10 ((if r.fault then 0x22 else 0x21) * 4)).fld (Reg.vdcStatus n) lo w =
      nBits ((if r.fault then 0x22 else 0x21) * 4) lo w := fun lo w h =>
    fld_putFld_within (applyEff_wf _ _ hw) (by decide) (Nat.zero_le _) (by omega) (vdcStatus_mask hn h) _
  rw [hrun, hread 0 2 (by decide), hread 2 8 (by decide)]
  refine ⟨by cases r.fault <;> decide, by cases r.fault <;> decide, List.find?_eq_none.mpr fun y hy => ?_⟩
  exact fun hkey => absurd (List.mem_filter.mp hy).2 (by simpa using hkey)

end Sys2Proof.Machine
end

section
/-!
PROOFS. The secure submission of the codec's pipes (O38): a go that is refused, a close, a key request, an abort (R472, Table 13.10).
-/

namespace Sys2Proof.Machine

variable {s u : State} {n : Nat} {ws : List Word} {x : Session} {r : CodecRun}

/-! ### A go -/

theorem secSess_fetched (hu : s.Fetched u) (n id : Nat) : u.secSess n id = s.secSess n id := by
  rw [State.secSess, hu.vid, ← State.secSess]

theorem fetched_state (hn : n < 10) (hu : s.Fetched u) : u.fld (Reg.vdcStatus n) 0 2 = s.fld (Reg.vdcStatus n) 0 2 := by
  rw [State.fld, hu.regs _ (by unfold Reg.vdcStatus; omega) (by unfold Reg.vdcStatus Reg.fltPin; omega), ← State.fld]

/-- The packet at VDC_SECPp_BASE is read whole, has a well-formed header, and asks for the operation `op`. -/
structure State.Offers (s : State) (n op : Nat) : Prop where
  header : (s.pipeHeader n).err = false
  packet : (s.pipePacket n).err = false
  length : hdrLen (bytesWord (s.pipeHeader n).bytes) ≠ 0
  reserved : hdrReserved (bytesWord (s.pipeHeader n).bytes) = false
  known : lengthOk (hdrOp (bytesWord (s.pipeHeader n).bytes)) (hdrLen (bytesWord (s.pipeHeader n).bytes)) = true
  op : hdrOp (bytesWord (s.pipeHeader n).bytes) = op

theorem packetDoes_reserved (hres : hdrReserved (bytesWord (s.pipeHeader n).bytes) = true) : s.packetDoes n = secpRefuse n rjMalformed :=
  if_pos (by simp [State.packetMalformed, hres])

theorem packetDoes_offers {op : Nat} (ho : s.Offers n op) : s.packetDoes n = packetAct n op (bytesWords (s.pipePacket n).bytes) := by
  obtain ⟨hheader, hpacket, hlen, hres, hknown, rfl⟩ := ho
  exact if_neg (by simp [State.packetMalformed, hheader, hpacket, hlen, hres, hknown])

/-- A close whose reserved words are 0: its session is gone, the outcome is DONE. -/
theorem secpClose_run (hn : n < 10) (hx : u.secSess n (fw ws 1 24 8) = some x) (hzero : ((rangeFrom 2 6).all fun i => fw ws i 0 64 = 0) = true) :
    runAct (secpClose n ws) u =
      (applyEff (.vid fun v => { v with sess := v.sess.filter fun y => y.id != x.id }) u).putFld (Reg.vdcStatus n) 2 8 stDone := by
  rw [secpClose, runAct_ask, hx]
  dsimp only
  rw [if_pos hzero, runAct_acts, sessDrop, runAct_eff_left _ _ _ rfl, acts_one, secpRefuse_run hn]

/-- A key request to an encode session: the session holds it, the outcome is DONE. -/
theorem secpKey_run (hn : n < 10) (hx : u.secSess n (fw ws 1 0 8) = some x) (hzero : fw ws 1 8 56 = 0) (henc : fb x.words 1 1 = true) :
    runAct (secpKey n ws) u = (applyEff (.vid fun v => { v with sess := mapIf (fun y => y.id = x.id) (fun y => { y with keys := y.keys ++ [none] }) v.sess })
      u).putFld (Reg.vdcStatus n) 2 8 stDone := by
  rw [secpKey, runAct_ask, hx]
  dsimp only
  rw [hzero, henc, if_neg (by decide), runAct_acts, sessUpd, runAct_eff_left _ _ _ rfl, acts_one, secpRefuse_run hn]

theorem mem_mapIf {α : Type} {p : α → Bool} {f : α → α} {xs : List α} {a : α} (ha : a ∈ xs) (hp : p a = true) : f a ∈ mapIf p f xs :=
  List.mem_map.mpr ⟨a, ha, if_pos hp⟩

/-! ### An abort -/

/-- What an abort comes to: ABORTING, and the end where no picture is at work. -/
theorem secpAbortOp_run (hn : n < 10) (hw : s.wf = true) (hk : s.fld (Reg.vdcStatus n) 0 2 = 1) (hr : s.codecRun? none n = some r) : ∃ u : State,
    u.wf = true ∧ u.fld (Reg.vdcStatus n) 0 2 = 2 ∧ runAct (secpAbortOp n) s = runAct (actIf (!r.active) (u.secpEnd n r.stopped)) u := by
  let a := s.putFld (Reg.vdcStatus n) 0 2 2
  have haw : a.wf = true := putFld_wf hw _ _ _ _
  have hak : a.fld (Reg.vdcStatus n) 0 2 = 2 := fld_putFld hw (by decide) (vdcStatus_mask hn (by decide)) 2
  obtain ⟨u, huw, huk, hrun⟩ := codecSettle_stopped hn (runAct_wf _ haw) (codecRun?_stopped (s := a) hr)
  refine ⟨u, huw, huk.trans hak, Eq.trans ?_ hrun⟩
  rw [secpAbortOp, runAct_ask, runAct_actIf, if_pos (decide_eq_true hk), runAct_acts, setFld_run_left _ _ _ _ _ _ (reactReg_vdcStatus hn), runAct_acts]
  rfl

/-- Settles O38: a go reads its packet and does what it says (`secpGoOp_run`), an abort stops its run (`secpAbortOp_run`). -/
theorem securePipes : Obligations.SecurePipes := by
  refine fun p n s hc hw hn hsec => ⟨fun v hgo habort hlets hidle hup => ?_, fun r hlets hrunning hr => ?_⟩
  · obtain ⟨u, hu, hrun⟩ := secpGoOp_run (n := n) ⟨hc, hw⟩ hidle hup
    have hexec := (vdcSecpGo_run hw hn hsec hlets hgo habort).trans (congrArg _ hrun)
    have huw : u.wf = true := hu.sound.2
    intro h hdr o ws herr
    refine ⟨fun hres => ?_, fun x hoerr hlen hres hknown hop hclose hx hzero => ?_, fun x hoerr hlen hres hknown hop hx hzero henc => ?_⟩
    · obtain ⟨hcode, hstate⟩ := outcome_reads (code := rjMalformed) hn huw (by decide)
      rw [packetDoes_reserved hres, secpRefuse_run hn] at hexec
      exact ⟨_, hexec, hstate.trans ((fetched_state hn hu).trans hidle), hcode, congrArg Vid.sess hu.vid⟩
    · have hdoes : s.packetDoes n = packetAct n 0x0500 ws := packetDoes_offers ⟨herr, hoerr, hlen, hres, hknown, hop⟩
      rw [hdoes, packetAct, if_pos hclose, secpClose_run hn ((secSess_fetched hu _ _).trans hx) hzero] at hexec
      refine ⟨_, hexec, (outcome_reads hn (applyEff_wf _ _ huw) (by decide)).1, ?_⟩
      change u.vid.sess.filter (fun y => !decide (y.id = x.id)) = _
      rw [hu.vid]
      simp only [ne_eq, decide_not]
    · have hdoes : s.packetDoes n = packetAct n 0x0503 ws := packetDoes_offers ⟨herr, hoerr, hlen, hres, hknown, hop⟩
      rw [hdoes, packetAct, secpKey_run hn ((secSess_fetched hu _ _).trans hx) hzero henc] at hexec
      refine ⟨_, hexec, (outcome_reads hn (applyEff_wf _ _ huw) (by decide)).1, ?_⟩
      change _ ∈ mapIf _ _ u.vid.sess
      rw [hu.vid]
      exact mem_mapIf (f := fun y : Session => { y with keys := y.keys ++ [none] }) (List.mem_of_find?_eq_some hx) (decide_eq_true rfl)
  · obtain ⟨u, huw, hk, hrun⟩ := secpAbortOp_run hn hw hrunning hr
    have hexec := (vdcSecpAbort_run hw hn hsec hlets).trans (congrArg _ hrun)
    refine ⟨fun hactive => ⟨u, ?_, hk⟩, fun hactive => ⟨_, ?_, secpEnd_aborted (r := r.stopped) hn (codecRun?_key hr).2 huw hk⟩⟩
    · rwa [hactive] at hexec
    · rwa [hactive] at hexec

end Sys2Proof.Machine
end

section
/-!
PROOFS. The queue (O1, O2), the safe state and the loss of power (O6, O7), and the resets that the pins give (O8, O10): every command is one of a few
shapes of answer (`Answers`), and each of them says what a state that does not live makes of it.
-/

namespace Sys2Proof.Machine

variable {s t : State} {c : Instr}

/-! ### Shapes of answers -/

/-- What a command answers: the run of a program where the block lives, a read of a register, a line of a head, or one of the three events of supply
and POR_N. -/
inductive Answers (c : Instr) (s : State) : Prop
  | live (ok : Bool) (a : Act) (hc : readOf c = none) (h : exec c s = live ok a s)
  | read (p : Path) (off n : Nat) (ok : Bool) (hc : readOf c = some (p, off, n)) (hok : c.wf = true → ok = true)
      (h : exec c s = readCommand ok p off n s)
  | line (h line : Nat) (late odd : Bool) (hc : c = .headLineStart h line late odd)
  | powerOn (st : Straps) (hc : c = .powerOnReset st)
  | pin (st : Straps) (n : Nat) (hc : c = .pinReset st n)
  | powerOff (hc : c = .railsComeDown)

theorem exec_answers (c : Instr) (s : State) : Answers c s := by
  have indexed : ∀ {p : Path} {b : Bool}, (p.wf && b) = true → b = true := fun h => (Bool.and_eq_true_iff.mp h).2
  cases c with
  | powerOnReset st => exact .powerOn st rfl
  | pinReset st n => exact .pin st n rfl
  | railsComeDown => exact .powerOff rfl
  | headLineStart h line late odd => exact .line h line late odd rfl
  | hmnKick p k cfg => cases cfg <;> exact .live _ _ rfl rfl
  | ttsBellCountLoRead => exact .read _ _ _ true rfl (fun _ => rfl) rfl
  | admBusyCountRead => exact .read _ _ _ true rfl (fun _ => rfl) rfl
  | hmnMgtLoadRead => exact .read _ _ _ true rfl (fun _ => rfl) rfl
  | grdViolInfoRead => exact .read _ _ _ _ rfl indexed rfl
  | capnFramesRead => exact .read _ _ _ _ rfl indexed rfl
  | hdhUnderrunRead => exact .read _ _ _ _ rfl indexed rfl
  | tchnCountRead => exact .read _ _ _ _ rfl indexed rfl
  | hapnCountRead => exact .read _ _ _ _ rfl indexed rfl
  | fsCountRead => exact .read _ _ _ _ rfl indexed rfl
  | _ => exact .live _ _ rfl rfl

/-! ### States that do not live -/

/-- In the safe state and without power a program has no effect. -/
theorem live_frozen (h : ¬ s.live) (ok : Bool) (a : Act) : live ok a s = .next s := by
  have hs : (s.flt.safe || !s.pwr.rails) = true := by
    cases hsafe : s.flt.safe <;> cases hrails : s.pwr.rails <;> first | rfl | exact absurd ⟨hsafe, hrails⟩ h
  rw [live, hs, Bool.true_or, if_pos rfl]

theorem not_live_safe (h : s.flt.safe = true) : ¬ s.live := fun hl => Bool.noConfusion (hl.1.symm.trans h)
theorem not_live_dark (h : s.pwr.rails = false) : ¬ s.live := fun hl => Bool.noConfusion (h.symm.trans hl.2)

/-- JTAG and I3C read in the safe state (R549). -/
theorem readCommand_safe {p : Path} (hs : s.flt.safe = true) (hr : s.pwr.rails = true) (hp : p = .i3c ∨ p = .jtag) (off n : Nat) :
    readCommand true p off n s = .next { s with rdata := s.readValue p off n } := by
  rw [readCommand, hs, hr, if_pos (by simpa using hp)]
  rfl

/-- Any other read there, and every read without power, gives nothing. -/
theorem readCommand_frozen {ok : Bool} {p : Path} (h : ¬ s.live)
    (hno : (s.flt.safe && s.pwr.rails && ok && (decide (p = .i3c) || decide (p = .jtag))) = false) (off n : Nat) : readCommand ok p off n s = .next s := by
  rw [readCommand, hno, live_frozen h]
  rfl

/-- A line of a head in SAFE changes what the heads send, and nothing else (Table 11.4). -/
theorem safeLine_pic (h line : Nat) : ∃ x, runAct (safeLine h line) s = { s with pic := x } := by
  unfold safeLine
  rw [runAct_ask, runAct_actIf]
  split
  · exact ⟨_, rfl⟩
  · exact ⟨_, rfl⟩

theorem headLine_safe (hs : s.flt.safe = true) {h line : Nat} {late odd : Bool} (he : exec (.headLineStart h line late odd) s = .next t) :
    t = { s with pic := t.pic } := by
  change execHeadLineStart h line late odd s = _ at he
  unfold execHeadLineStart at he
  split at he
  · obtain ⟨x, hx⟩ := safeLine_pic (s := s) h line
    rw [hx] at he
    injection he with he
    exact he ▸ rfl
  · rw [live_frozen (not_live_safe hs)] at he
    injection he with he
    exact he ▸ rfl

theorem headLine_dark (hr : s.pwr.rails = false) (h line : Nat) (late odd : Bool) : exec (.headLineStart h line late odd) s = .next s := by
  change execHeadLineStart h line late odd s = _
  rw [execHeadLineStart, hr, Bool.and_false, Bool.false_and, live_frozen (not_live_dark hr)]
  rfl

/-! ### The queue -/

theorem exec_next (c : Instr) (s : State) : ∃ t, exec c s = .next t ∧ t.pending = s.pending := by
  by_cases hc : c = .railsComeDown
  · exact hc ▸ ⟨_, rfl, rfl⟩
  · obtain ⟨a, ha⟩ := ran_exec c s hc
    exact ⟨_, ha, runAct_pending a s⟩

/-- Settles O2: every command is the run of a program of effects, and no effect touches the queue (`runAct_pending`). -/
theorem commandsAnswer : Obligations.CommandsAnswer :=
  ⟨exec_next, fun s h => by rw [step, h]⟩

/-- Settles O1: that is how a step is defined. -/
theorem stepTakesFront : Obligations.StepTakesFront := fun _ _ _ => rfl

/-! ### The safe state and the loss of power -/

/-- Settles O7: without power every shape of answer but POWER_ON_RESET and the loss of power itself leaves the state as it is. -/
theorem noPowerNoEffect : Obligations.NoPowerNoEffect := by
  intro c s t hr he
  have same : exec c s = .next s → t = s := fun h => by injection he.symm.trans h
  cases exec_answers c s with
  | live ok a hc h => exact .inr (.inr (same (h.trans (live_frozen (not_live_dark hr) ok a))))
  | read p off n ok hc hok h => exact .inr (.inr (same (h.trans (readCommand_frozen (not_live_dark hr) (by simp [hr]) off n))))
  | line h line late odd hc => exact .inr (.inr (same (hc ▸ headLine_dark hr h line late odd)))
  | powerOn st hc => exact .inl ⟨st, hc⟩
  | pin st n hc =>
    refine .inr (.inr (same (hc ▸ ?_)))
    change execPinReset st n s = _
    rw [execPinReset, hr, Bool.not_false, Bool.or_true, Bool.true_or, if_pos rfl]
  | powerOff hc => exact .inr (.inl hc)

/-! ### Resets that the pins give (R587, R588, R590) -/

theorem strapsOk_of_wf {st : Straps} (h : st.wf = true) : strapsOk st = true := h

theorem pinReset_run {st : Straps} {n : Nat} (hst : st.wf = true) (hr : s.pwr.rails = true) : exec (.pinReset st n) s = .next (
    if n < 1000 then s else if 10000 ≤ n then chipResetState st 1 s
    else if Config.porPulse s.fv then chipResetState st 1 { s with fv := s.fv + 1 } else { s with fv := s.fv + 1 }) := by
  change execPinReset st n s = _
  simp only [execPinReset, strapsOk_of_wf hst, hr, Bool.not_true, Bool.false_or, decide_eq_true_eq]
  rfl

/-- Settles O6: in the safe state a program has no effect (`live_frozen`), JTAG and I3C read what stands (`readCommand_safe`), and a reset from POR_N
starts from a state that is not safe. -/
theorem safeStateFrozen : Obligations.SafeStateFrozen := by
  refine ⟨fun c s t hs he => ?_, fun c p off n s hs hr hwf hread hp => ?_, fun st n s _ hr hst hn => ?_⟩
  · have hl := not_live_safe hs
    have same : exec c s = .next s → t = s := fun h => by injection he.symm.trans h
    cases exec_answers c s with
    | live ok a hc h => exact .inr (.inr (.inr (.inr (.inr (same (h.trans (live_frozen hl ok a)))))))
    | read p off n ok hc hok h =>
      by_cases hno : (s.flt.safe && s.pwr.rails && ok && (decide (p = .i3c) || decide (p = .jtag))) = true
      · obtain ⟨⟨⟨-, hr⟩, rfl⟩, hp⟩ : ((s.flt.safe = true ∧ s.pwr.rails = true) ∧ ok = true) ∧ (p = .i3c ∨ p = .jtag) := by simpa using hno
        rw [h, readCommand_safe hs hr hp] at he
        injection he with he
        exact .inr (.inr (.inr (.inr (.inl ⟨p, off, n, hc, hp, he.symm⟩))))
      · exact .inr (.inr (.inr (.inr (.inr (same (h.trans (readCommand_frozen hl (Bool.eq_false_iff.mpr hno) off n)))))))
    | line h line late odd hc => exact .inr (.inr (.inr (.inl ⟨h, line, late, odd, hc, headLine_safe hs (hc ▸ he)⟩)))
    | powerOn st hc => exact .inl ⟨st, hc⟩
    | pin st n hc => exact .inr (.inl ⟨st, n, hc⟩)
    | powerOff hc => exact .inr (.inr (.inl hc))
  · cases exec_answers c s with
    | read p' off' n' ok hc hok h =>
      obtain ⟨rfl, rfl, rfl⟩ : p' = p ∧ off' = off ∧ n' = n := by simpa using hc.symm.trans hread
      rw [h, hok hwf, readCommand_safe hs hr hp]
    | live ok a hc h => exact absurd (hc.symm.trans hread) (by simp)
    | line h line late odd hc => exact absurd (hc ▸ hread) (by simp [readOf])
    | powerOn st hc => exact absurd (hc ▸ hread) (by simp [readOf])
    | pin st n hc => exact absurd (hc ▸ hread) (by simp [readOf])
    | powerOff hc => exact absurd (hc ▸ hread) (by simp [readOf])
  · exact ⟨_, pinReset_run hst hr, by rw [if_neg (by omega), if_pos hn]; rfl⟩

/-- Settles O10: which of the two outcomes a pulse from 1 µs to 10 µs has hangs on the free value `Config.porPulse`. -/
theorem porPulses : Obligations.PorPulses := by
  intro st n s hst hr
  refine ⟨fun hn => by rw [pinReset_run hst hr, if_pos hn], fun hlo hhi => ?_⟩
  rw [pinReset_run hst hr, if_neg (by omega : ¬ n < 1000), if_neg (by omega : ¬ 10000 ≤ n)]
  by_cases hfree : Config.porPulse s.fv = true
  · exact .inr (by rw [if_pos hfree, pinReset_run (s := { s with fv := s.fv + 1 }) hst hr]; rfl)
  · exact .inl (by rw [if_neg hfree])

/-- Memory after a power-on reset: what lies outside the chip is kept. -/
theorem mapGet_hostCells (k : Nat) (m : List Host.Cell) : mapGet memDflt k (hostCells m) = if k < 2 ^ 64 then memDflt k else mapGet memDflt k m := by
  induction m with
  | nil => exact (ite_self _).symm
  | cons x m ih =>
    obtain ⟨k', v⟩ := x
    rw [hostCells, List.filter_cons]
    by_cases hk : 2 ^ 64 ≤ k'
    · rw [if_pos (decide_eq_true hk), mapGet, mapGet]
      by_cases he : k = k'
      · rw [if_pos he, if_pos he, if_neg (by omega)]
      · rw [if_neg he, if_neg he]
        exact ih
    · rw [if_neg (by simpa using hk), mapGet]
      by_cases he : k = k'
      · rw [if_pos (show k < 2 ^ 64 by omega)]
        exact ih.trans (if_pos (by omega))
      · rw [if_neg he]
        exact ih

/-- Settles O8: nothing is listed after a power-on reset, so every register reads its reset value; memory by `mapGet_hostCells`. -/
theorem powerComesAndGoes : Obligations.PowerComesAndGoes := by
  refine ⟨fun st s hst => ⟨powerOnState st s, ?_, fun _ => ⟨rfl, rfl⟩, fun k => mapGet_hostCells k s.mem, rfl, rfl, rfl, rfl, rfl, rfl, rfl, rfl, ⟨rfl, rfl⟩,
    calm_of_csr rfl⟩, fun s => ⟨_, rfl, rfl, fun _ => ⟨rfl, rfl⟩, fun k => mapGet_hostCells k s.mem, rfl⟩⟩
  change execPowerOnReset st s = _
  rw [execPowerOnReset, if_pos (strapsOk_of_wf hst)]
  rfl

end Sys2Proof.Machine
end

section
/-!
PROOFS. Power requests (O13): a write of PWR_CTRL stores nothing and makes its request (R580 to R585).
-/

namespace Sys2Proof.Machine

variable {s : State} {p : Path} {v : Word}

theorem pwrCtrl_write (h : s.lets p Reg.pwrCtrl 4 v Reg.pwrCtrl) :
    writeCommand true p Reg.pwrCtrl 4 v s = .next (runAct (pwrRequestOp p (wBits v 0 2)) s) := by
  refine (writeCommand_lets (f := regsPwr[0]'(by decide)) (ix := []) h rfl rfl).trans (congrArg _ ?_)
  change runAct (pwrRequestOp p (wBits (coverWord Reg.pwrCtrl 4 v &&& coverMask Reg.pwrCtrl 4) 0 2)) s = _
  rw [wBits_cover rfl (Or.inl rfl) v (by decide)]

theorem pwrResult_run (k : Nat) (s : State) : runAct (pwrResult k) s = s.putFld Reg.pwrStatus 3 3 k := setFld_run _ _ _ _ s (by decide)
theorem pwrState_run_left (k : Nat) (a : Act) (s : State) : runAct (.seq (pwrState k) a) s = runAct a (s.putFld Reg.pwrStatus 0 3 k) :=
  setFld_run_left _ _ _ _ a s (by decide)
theorem pwrResult_run_left (k : Nat) (a : Act) (s : State) : runAct (.seq (pwrResult k) a) s = runAct a (s.putFld Reg.pwrStatus 3 3 k) :=
  setFld_run_left _ _ _ _ a s (by decide)

/-- The result of a request is no part of the power state. -/
theorem pst_putResult (hw : s.wf = true) (k : Nat) : (s.putFld Reg.pwrStatus 3 3 k).pst = s.pst :=
  fld_putFld_ne hw (by decide) (.inl (by decide)) (by decide +kernel) k

/-- A wake event in DEEP_SLEEP begins the wake (R585). -/
theorem wakeOp_asleep (h : s.pst = 4) (cause : Nat) : runAct (wakeOp cause) s = (s.putFld Reg.pwrStatus 0 3 5).putFld Reg.pwrStatus 6 3 cause := by
  rw [wakeOp, runAct_ask, if_pos h, runAct_acts, pwrState_run_left, acts_one, setFld_run _ _ _ _ _ (by decide)]

/-! ### Requests to RUN -/

theorem requestRun_asleep (h : s.pst = 2) : runAct (pwrRequestOp p 1) s =
    { s.putFld Reg.pwrStatus 3 3 0 with pwr := { s.pwr with runReq := true, deep := false } } := by
  rw [pwrRequestOp, runAct_ask, if_neg (by decide), if_pos rfl, if_pos h, runAct_acts, pwrResult_run_left]
  rfl

theorem requestRun_refused (h : s.pst ≠ 2) (hp : ¬ (p = .i3c ∧ (s.pst = 3 ∨ s.pst = 4))) : runAct (pwrRequestOp p 1) s = s.putFld Reg.pwrStatus 3 3 2 := by
  rw [pwrRequestOp, runAct_ask, if_neg (by decide), if_pos rfl, if_neg h, if_neg (by simpa using hp), pwrResult_run]

theorem requestRun_deep (hw : s.wf = true) (h : s.pst = 4) : runAct (pwrRequestOp .i3c 1) s =
    ((s.putFld Reg.pwrStatus 3 3 0).putFld Reg.pwrStatus 0 3 5).putFld Reg.pwrStatus 6 3 5 := by
  rw [pwrRequestOp, runAct_ask, if_neg (by decide), if_pos rfl, if_neg (by omega), if_pos (by simp [h]), runAct_acts, pwrResult_run_left, acts_one,
    wakeOp_asleep ((pst_putResult hw 0).trans h)]

/-! ### Requests to SLEEP and DEEP_SLEEP -/

/-- In RUN, 2 asks for SLEEP and 3 for DEEP_SLEEP. -/
theorem requestSleep_run {req : Nat} (hreq : 2 ≤ req) (h : s.pst = 0) : runAct (pwrRequestOp p req) s = if s.motionHeld then s.putFld Reg.pwrStatus 3 3 3
    else { ((s.putFld Reg.pwrStatus 3 3 0).putFld Reg.pwrStatus 0 3 1).putFld Reg.pwrStatus 9 1 0 with
           pwr := { s.pwr with sleepReq := s.tts.bell, deep := req = 3, runReq := false } } := by
  rw [pwrRequestOp, runAct_ask, if_neg (by omega), if_neg (by omega), if_pos h]
  by_cases hm : s.motionHeld = true
  · rw [if_pos hm, if_pos hm, pwrResult_run]
  · rw [if_neg hm, if_neg hm, runAct_acts, pwrResult_run_left, runAct_acts, pwrState_run_left, runAct_acts, setFld_run_left _ _ _ _ _ _ (by decide)]
    rfl

/-- Settles O13: each request by the state that it meets. -/
theorem powerRequests : Obligations.PowerRequests := by
  refine ⟨fun p s hlets => ⟨fun h => ?_, fun h hp => ?_, fun hw hp h => ?_⟩, fun p s h => ⟨fun hlets => ?_, fun hlets => ?_⟩⟩
  · exact (pwrCtrl_write hlets).trans (congrArg _ (requestRun_asleep h))
  · exact (pwrCtrl_write hlets).trans (congrArg _ (requestRun_refused h hp))
  · subst hp
    exact (pwrCtrl_write hlets).trans (congrArg _ (requestRun_deep hw h))
  · exact (pwrCtrl_write hlets).trans (congrArg _ (requestSleep_run (by decide) h))
  · exact (pwrCtrl_write hlets).trans (congrArg _ (requestSleep_run (by decide) h))

end Sys2Proof.Machine
end

section
/-!
PROOFS. What a write does to the bits of a register by their access codes (R7); injections, FAULT_N and the hall monitors (O17).
-/

namespace Sys2Proof.Machine

variable {s u : State} {p : Path} {v : Word} {f : RegFam} {m : Word} {lo n : Nat}

/-! ### Bits by their access codes -/

/-- The bits that take the written word, those that a written 1 clears, and those that it sets, of those that an access covers. -/
def RegFam.takes (f : RegFam) (m : Word) : Word := accBits f (fun a => a = .rw || a = .rwc || (a = .rwl && !false)) &&& m
def RegFam.clears (f : RegFam) (m : Word) : Word := accBits f (fun a => a = .w1c) &&& m
def RegFam.sets (f : RegFam) (m : Word) : Word := accBits f (fun a => a = .w1s) &&& m

theorem writeWord_bit (f : RegFam) (old w m : Word) (i : Nat) : (writeWord f false old w m).toNat.testBit i =
    (((if (f.takes m).toNat.testBit i then w.toNat.testBit i else old.toNat.testBit i) && !((f.clears m).toNat.testBit i && w.toNat.testBit i))
      || ((f.sets m).toNat.testBit i && w.toNat.testBit i)) := by
  have hword : writeWord f false old w m = (((old &&& ~~~ f.takes m) ||| (w &&& f.takes m)) &&& ~~~ (f.clears m &&& w)) ||| (f.sets m &&& w) := rfl
  rw [hword]
  by_cases hi : i < 64
  · simp only [BitVec.testBit_toNat, BitVec.getLsbD_or, BitVec.getLsbD_and, BitVec.getLsbD_not, hi, decide_true, Bool.true_and]
    cases (f.takes m).getLsbD i <;> simp
  · simp [BitVec.testBit_toNat, BitVec.getLsbD_of_ge _ i (Nat.le_of_not_lt hi)]

/-- A field in a word is whole, or absent, bit by bit. -/
theorem testBit_of_wBits_full {r : Word} (h : wBits r lo n = 2 ^ n - 1) {i : Nat} (hi : i < n) : r.toNat.testBit (lo + i) = true := by
  have hbit := congrArg (fun k => k.testBit i) h
  simpa only [wBits_testBit, Nat.testBit_two_pow_sub_one, hi, decide_true, Bool.true_and] using hbit

theorem testBit_of_wBits_zero {r : Word} (h : wBits r lo n = 0) {i : Nat} (hi : i < n) : r.toNat.testBit (lo + i) = false := by
  have hbit := congrArg (fun k => k.testBit i) h
  simpa only [wBits_testBit, Nat.zero_testBit, hi, decide_true, Bool.true_and] using hbit

/-- A field that takes the word, whatever stands beside it. -/
theorem wBits_writeWord_takes (ht : wBits (f.takes m) lo n = 2 ^ n - 1) (hc : wBits (f.clears m) lo n = 0) (hs : wBits (f.sets m) lo n = 0) (old w : Word) :
    wBits (writeWord f false old w m) lo n = wBits (w &&& m) lo n := by
  refine Nat.eq_of_testBit_eq fun i => ?_
  rw [wBits_testBit, wBits_testBit]
  by_cases hi : i < n
  · have hbit := testBit_of_wBits_full ht hi
    have hm : m.toNat.testBit (lo + i) = true := by
      rw [RegFam.takes, BitVec.toNat_and, Nat.testBit_and, Bool.and_eq_true] at hbit
      exact hbit.2
    rw [writeWord_bit, hbit, testBit_of_wBits_zero hc hi, testBit_of_wBits_zero hs hi, BitVec.toNat_and, Nat.testBit_and, hm]
    simp
  · simp [hi]

/-- A field that takes no written bit. -/
theorem wBits_writeWord_keeps (ht : wBits (f.takes m) lo n = 0) (hc : wBits (f.clears m) lo n = 0) (hs : wBits (f.sets m) lo n = 0) (old w : Word) :
    wBits (writeWord f false old w m) lo n = wBits old lo n := by
  refine Nat.eq_of_testBit_eq fun i => ?_
  rw [wBits_testBit, wBits_testBit]
  by_cases hi : i < n
  · rw [writeWord_bit, testBit_of_wBits_zero ht hi, testBit_of_wBits_zero hc hi, testBit_of_wBits_zero hs hi]
    simp
  · simp [hi]

/-- A write whose word clears and sets nothing, to fields that take nothing. -/
theorem writeWord_same {w : Word} (ht : f.takes m = 0) (hc : f.clears m &&& w = 0) (hs : f.sets m &&& w = 0) (old : Word) : writeWord f false old w m = old := by
  have hword : writeWord f false old w m = (((old &&& ~~~ f.takes m) ||| (w &&& f.takes m)) &&& ~~~ (f.clears m &&& w)) ||| (f.sets m &&& w) := rfl
  rw [hword, ht, hc, hs, and_not_zero, and_not_zero, show w &&& 0 = 0 from BitVec.and_zero]
  exact BitVec.or_zero.trans BitVec.or_zero

/-- A write of bits that a written 1 sets, and of no other. -/
theorem writeWord_sets {w : Word} (ht : f.takes m = 0) (hc : f.clears m = 0) (old : Word) : writeWord f false old w m = old ||| (f.sets m &&& w) := by
  have hword : writeWord f false old w m = (((old &&& ~~~ f.takes m) ||| (w &&& f.takes m)) &&& ~~~ (f.clears m &&& w)) ||| (f.sets m &&& w) := rfl
  rw [hword, ht, hc, show (0 : Word) &&& w = 0 from BitVec.zero_and, and_not_zero, and_not_zero, show w &&& 0 = 0 from BitVec.and_zero]
  exact congrArg (· ||| _) BitVec.or_zero

/-! ### Writes that do no more than their access codes say -/

theorem slotWrite_only {off : Nat} (h : reactReg off = false) (f : RegFam) (w m : Word) (s : State) :
    runAct (slotWrite f false off w m) s = s.putReg off (writeWord f false (s.rd off) w m) := by
  rw [slotWrite, runAct_ask, h, if_neg (by decide), setReg_run _ _ _ h]

/-! ### FS_INJECT (R551, R648) -/

theorem registerWrite_station {st o : Nat} (hst : st < 256) (ho : o < 0x100) (p : Path) (f : RegFam) (w m : Word) :
    registerWrite p f false (0x600000 + 0x100 * st + o) 4 w m =
      if o = 0x18 then acts [slotWrite f false (0x600000 + 0x100 * st + o) w m, parityInject st]
      else if o = 0x20 then slotWrite f false (0x600000 + 0x100 * st + o) (w &&& BitVec.ofNat 64 (injMaskOf st)) m
      else slotWrite f false (0x600000 + 0x100 * st + o) w m := by
  have hpage : (decide (0x600000 ≤ 0x600000 + 0x100 * st + o) && decide (0x600000 + 0x100 * st + o < 0x610000)) = true := by
    simp only [Bool.and_eq_true, decide_eq_true_eq]; omega
  have hgrd : (decide (0x420000 ≤ 0x600000 + 0x100 * st + o) && decide (0x600000 + 0x100 * st + o < 0x440000) && (0x600000 + 0x100 * st + o) % 0x1000 = 0x800) = false := by
    simp only [Bool.and_eq_false_iff, decide_eq_false_iff_not]; omega
  have hdma : (decide (0x440000 ≤ 0x600000 + 0x100 * st + o) && decide (0x600000 + 0x100 * st + o < 0x450000) && (0x600000 + 0x100 * st + o) % 0x40 = 0x18) = false := by
    simp only [Bool.and_eq_false_iff, decide_eq_false_iff_not]; omega
  have hix : regIx (0x600000 + 0x100 * st + o) 0x600000 0x100 = st := by unfold regIx; omega
  have hmod : (0x600000 + 0x100 * st + o) % 0x100 = o := by omega
  rw [registerWrite, if_neg (by omega), if_neg (by omega), if_pos (by omega), memoryWrite,
    if_neg (by unfold Reg.stoEccCtrl; omega), if_neg (by unfold Reg.dmcEccCtrl; omega), if_neg (by unfold Reg.stoTestCmd; omega),
    if_neg (by unfold Reg.dmcTestCmd; omega), hgrd, if_neg (by decide), hdma, if_neg (by decide), hpage, if_pos rfl]
  dsimp only
  rw [hix, hmod]

/-- The slot of a register at its own offset, and what a 32-bit access covers of it. -/
theorem cover_aligned {off : Nat} (h : off % 8 = 0) (v : Word) : off / 8 * 8 = off ∧ coverWord off 4 v = BitVec.ofNat 64 (v.toNat % 2 ^ 32)
    ∧ coverMask off 4 = 0xFFFFFFFF := by
  refine ⟨by omega, ?_, ?_⟩
  · rw [coverWord, if_neg (by decide), h]
    exact congrArg _ (Nat.mul_one _)
  · rw [coverMask, if_neg (by decide), h]
    rfl

theorem fsInject_run {st : Nat} (hst : st < 256) (hlets : s.lets p (Reg.fsInject st) 4 v (Reg.fsInject st)) (hk : (stKind st).isSome = true) :
    exec (.fsInject p st v) s =
      .next (s.putReg (Reg.fsInject st) (s.rd (Reg.fsInject st) ||| BitVec.ofNat 64 (v.toNat % 2 ^ 32 &&& injMaskOf st))) := by
  have hoff : Reg.fsInject st = 0x600000 + 0x100 * st + 0x20 := by unfold Reg.fsInject; omega
  obtain ⟨hslot, hword, hmask⟩ := cover_aligned (off := Reg.fsInject st) (by omega) v
  have hfind := regFind_fsInject hst hk
  have hsets : ∀ x : Word, (regsFs[4]'(by decide)).sets 0xFFFFFFFF &&& (BitVec.ofNat 64 (v.toNat % 2 ^ 32) &&& x) = BitVec.ofNat 64 (v.toNat % 2 ^ 32) &&& x := by
    intro x
    rw [← BitVec.and_assoc, BitVec.and_comm ((regsFs[4]'(by decide)).sets _), show (regsFs[4]'(by decide)).sets 0xFFFFFFFF = BitVec.ofNat 64 (2 ^ 32 - 1) by decide,
      ← BitVec.ofNat_and, Nat.and_two_pow_sub_one_eq_mod, Nat.mod_mod]
  refine (writeCommand_lets hlets (hslot ▸ hfind) (decide_eq_true hst)).trans (congrArg _ ?_)
  rw [hslot, hword, hmask, hoff, registerWrite_station hst (by decide), if_neg (by decide), if_pos rfl,
    slotWrite_only (reactReg_station (by decide)), writeWord_sets (by decide) (by decide), hsets, BitVec.ofNat_and]

/-! ### FLT_PIN.release (R547) -/

theorem fltPin_row : regFind Reg.fltPin = some (regsFlt[0]'(by decide), []) ∧ regMask Reg.fltPin (regDflt Reg.fltPin) = regDflt Reg.fltPin := by decide +kernel

/-- The write stores nothing: asserted and hold are the block's, and a 0 clears no refused. -/
theorem fltPinRelease_run (hw : s.wf = true) (hlets : s.lets p Reg.fltPin 4 2 Reg.fltPin) : exec (.fltPinRelease p) s = .next (runAct pinRelease s) := by
  refine (writeCommand_lets hlets fltPin_row.1 rfl).trans (congrArg _ ?_)
  change runAct (acts [slotWrite (regsFlt[0]'(by decide)) false Reg.fltPin (coverWord Reg.fltPin 4 2) (coverMask Reg.fltPin 4),
    actIf (wBit (coverWord Reg.fltPin 4 2 &&& coverMask Reg.fltPin 4) 1) pinRelease]) s = _
  rw [runAct_acts, slotWrite_run (off := Reg.fltPin) (by decide), writeWord_same (by decide) (by decide) (by decide), putReg_rd hw fltPin_row.2,
    wBit_cover rfl (.inl rfl) 2 (by decide)]
  rfl

/-- FAULT_N is released, or the release is refused. -/
theorem pinRelease_holds (h : s.bitAt Reg.fltPin 2 = true ∨ s.pinHeld = true) : runAct pinRelease s = s.putFld Reg.fltPin 3 1 1 := by
  rw [pinRelease, runAct_ask, if_pos (by simpa using h), setFld_run _ _ _ _ s (by decide)]

theorem pinRelease_frees (hhold : s.bitAt Reg.fltPin 2 = false) (hheld : s.pinHeld = false) : runAct pinRelease s = s.putFld Reg.fltPin 0 1 0 := by
  rw [pinRelease, runAct_ask, hhold, hheld, if_neg (by decide), setFld_run _ _ _ _ s (by decide)]

/-- Another bit of a register of which a field was set. -/
theorem bitAt_putFld_ne (hw : u.wf = true) {off lo w i : Nat} (h64 : lo + w ≤ 64) (hd : i + 1 ≤ lo ∨ lo + w ≤ i)
    (hm : nBits (regImpl off % 2 ^ 64) i 1 = 2 ^ 1 - 1) (x : Nat) : (u.putFld off lo w x).bitAt off i = u.bitAt off i := by
  rw [bitAt_iff, bitAt_iff, fld_putFld_ne hw h64 hd hm]

/-! ### Hall monitors (R545) -/

theorem hmn_rows : ∀ k < 2, (regFind (Reg.hmnKick k) = some (regsHmn[1]'(by decide), [k]) ∧ regMask (Reg.hmnKick k) (regDflt (Reg.hmnKick k)) = regDflt (Reg.hmnKick k))
    ∧ regFind (Reg.hmnCfg k) = some (regsHmn[0]'(by decide), [k]) := by
  decide +kernel

/-- They take a write by their access codes. -/
theorem registerWrite_hmn {k : Nat} (hk : k < 2) (p : Path) (f : RegFam) (w m : Word) :
    registerWrite p f false (Reg.hmnKick k) 4 w m = slotWrite f false (Reg.hmnKick k) w m
      ∧ registerWrite p f false (Reg.hmnCfg k) 4 w m = slotWrite f false (Reg.hmnCfg k) w m := by
  obtain rfl | rfl : k = 0 ∨ k = 1 := by omega
  · exact ⟨rfl, rfl⟩
  · exact ⟨rfl, rfl⟩

theorem hmnKick_run {k : Nat} (hk : k < 2) (hw : s.wf = true) (hlets : s.lets p (Reg.hmnKick k) 4 1 (Reg.hmnKick k)) : exec (.hmnKick p k none) s = .next s := by
  obtain ⟨⟨hfind, hd⟩, -⟩ := hmn_rows k hk
  obtain ⟨hslot, -, -⟩ := cover_aligned (off := Reg.hmnKick k) (by unfold Reg.hmnKick; omega) 1
  refine (writeCommand_lets hlets (hslot ▸ hfind) (decide_eq_true (by omega))).trans (congrArg _ ?_)
  rw [hslot, (registerWrite_hmn hk _ _ _ _).1, slotWrite_only (reactReg_low (by unfold Reg.hmnKick; omega)),
    writeWord_keeps (by decide) (by decide) (by decide), putReg_rd hw hd]

theorem hmnCfg_run {k : Nat} (hk : k < 2) (hw : s.wf = true) (hlets : s.lets p (Reg.hmnCfg k) 4 v (Reg.hmnCfg k)) :
    ∃ t, exec (.hmnKick p k (some v)) s = .next t ∧ t.fld (Reg.hmnCfg k) 0 16 = wBits v 0 16 ∧ ∀ off, off ≠ Reg.hmnCfg k → t.rd off = s.rd off := by
  have hfind := (hmn_rows k hk).2
  have h8 : Reg.hmnCfg k % 8 = 0 := by unfold Reg.hmnCfg; omega
  obtain ⟨hslot, -, hmask⟩ := cover_aligned h8 v
  have himpl : regImpl (Reg.hmnCfg k) = 0xFFFF := by rw [regImpl, hfind]; rfl
  refine ⟨_, writeCommand_lets hlets (hslot ▸ hfind) (decide_eq_true (by omega)), ?_⟩
  rw [hslot, (registerWrite_hmn hk _ _ _ _).2, slotWrite_only (reactReg_low (by unfold Reg.hmnCfg; omega))]
  refine ⟨?_, fun off hoff => rd_putReg_ne s hoff _⟩
  rw [fld_putReg hw (by rw [himpl]; decide), ← wBits_cover h8 (.inl rfl) v (by decide), hmask]
  exact wBits_writeWord_takes (by decide) (by decide) (by decide) _ _

/-- Settles O17: what FS_INJECT arms (`fsInject_run`), FAULT_N by what holds it, a kick that stores nothing, the timeout as written. -/
theorem injectionPinMonitors : Obligations.InjectionPinMonitors := by
  refine ⟨fun p st v s hst hlets hk => fsInject_run hst hlets hk, fun p s hlets hw => ⟨fun hhold hheld => ?_, fun hholds => ?_⟩,
    fun p k s hk hw => ⟨hmnKick_run hk hw, fun v hlets => hmnCfg_run hk hw hlets⟩⟩
  · refine ⟨_, fltPinRelease_run hw hlets, ?_⟩
    rw [pinRelease_frees hhold hheld]
    exact bitAt_putFld hw (by decide) (by decide) (by decide) (by decide +kernel) 0
  · refine ⟨_, fltPinRelease_run hw hlets, ?_⟩
    rw [pinRelease_holds hholds]
    exact ⟨bitAt_putFld hw (by decide) (by decide) (by decide) (by decide +kernel) 1,
      bitAt_putFld_ne hw (by decide) (.inl (by decide)) (by decide +kernel) 1⟩

end Sys2Proof.Machine
end

section
/-!
PROOFS. Entries into the safe state (O16): the sources to which Table 16.3 gives SAFE, and a parity error of a station, which enters it whatever the
masks hold (R543, R548, R550, R552).
-/

namespace Sys2Proof.Machine

variable {s u : State} {p : Path} {st src : Nat}

/-! ### An entry for a parity error -/

/-- The entry keeps the record of faults but for the safe state itself. -/
theorem enterSafe_flt (hs : s.calm) (parity : Bool) : (runAct (enterSafe st src parity) s).flt = { s.flt with safe := true } := by
  have hput : (s.putReg Reg.fltCause (safeCause st src parity s.tts.bell)).calm :=
    applyEff_csr (off := Reg.fltCause) (by decide) (safeCause st src parity s.tts.bell) s ▸ calm_soft rfl hs
  have hrun : runAct (enterSafe st src parity) s =
      applyEff .safe (runAct safeWork (s.putReg Reg.fltCause (safeCause st src parity s.tts.bell))) := by
    rw [enterSafe_eq, runAct_ask, runAct_acts, setReg_run_left _ _ _ _ (by decide), runAct, runGo_acts_append, ← runAct, ← safeWork,
      runAct_seq (T := 0x3C043401) rfl safeWork_foot _ hput, acts_one, runAct_eff]
  have hflt : Part.flt.same _ _ := (runAct_same (T := 0x3C043401) rfl safeWork_foot hput).2 .flt rfl
  rw [hrun]
  exact congrArg (fun f : Flt => { f with safe := true }) hflt

theorem safeCause_parity (hst : st < 256) (hsrc : src < 32) (bell : Nat) :
    wBits (safeCause st src true bell) 0 8 = st ∧ wBits (safeCause st src true bell) 13 1 = 1 ∧ wBits (safeCause st src true bell) 14 1 = 1
      ∧ wBits (safeCause st src true bell) 16 48 = bell % 2 ^ 48 := by
  unfold safeCause
  rw [ofNat_fld _ _ _ (by decide), ofNat_fld _ _ _ (by decide), ofNat_fld _ _ _ (by decide), ofNat_fld _ _ _ (by decide), show b2n true = 1 from rfl]
  refine ⟨?_, ?_, ?_, ?_⟩ <;> omega

/-- After it FLT_CAUSE names the station and reads parity; the entry keeps the record of stations in parity and the registers that it does not write. -/
theorem enterSafe_parity (hs : s.Sound) (hst : st < 256) (hsrc : src < 32) {t : State} (ht : t = runAct (enterSafe st src true) s) :
    t.flt = { s.flt with safe := true } ∧ t.fld Reg.fltCause 0 8 = st ∧ t.bitAt Reg.fltCause 13 = true ∧ t.bitAt Reg.fltCause 14 = true
      ∧ t.fld Reg.fltCause 16 48 = s.tts.bell % 2 ^ 48 ∧ ∀ off, ¬ safeRegs off → t.rd off = s.rd off := by
  obtain ⟨hcalm, hw⟩ := hs
  obtain ⟨t', hgo, -, hcause, hrest, -⟩ := enterSafe_run hcalm st src true
  have htt : t = t' := by rw [ht, runAct, hgo]
  obtain ⟨hstation, hparity, hvalid, hbell⟩ := safeCause_parity hst hsrc s.tts.bell
  have hfld : ∀ lo w, nBits (regImpl Reg.fltCause % 2 ^ 64) lo w = 2 ^ w - 1 → t.fld Reg.fltCause lo w = wBits (safeCause st src true s.tts.bell) lo w :=
    fun lo w h => by rw [State.fld, htt, hcause hw, regMask, wBits_mask _ _ _ _ h]
  refine ⟨ht ▸ enterSafe_flt hcalm true, (hfld 0 8 (by decide)).trans hstation, ?_, ?_, (hfld 16 48 (by decide)).trans hbell, htt ▸ hrest⟩
  · rw [bitAt_iff, hfld 13 1 (by decide), hparity]; rfl
  · rw [bitAt_iff, hfld 14 1 (by decide), hvalid]; rfl

theorem stationParityError_run (hl : s.live) (hk : (stKind st).isSome = true) : exec (.stationParityError st) s =
    .next (runAct (enterSafe st (Config.paritySource s.fv % 32) true) { s with fv := s.fv + 1 }) := by
  refine (live_next hl hk _).trans (congrArg _ ?_)
  rw [runAct_ask, runAct_acts, run_tick, acts_one]
  rfl

/-! ### FS_CTRL.inj_parity (R552) -/

theorem fsCtrl_off (st : Nat) : Reg.fsCtrl st = 0x600000 + 0x100 * st + 0x18 := by unfold Reg.fsCtrl; omega

theorem reactReg_fsCtrl (st : Nat) : reactReg (Reg.fsCtrl st) = false := fsCtrl_off st ▸ reactReg_station (by decide)

/-- The written word of a write that sets inj_parity alone is the register with that bit. -/
theorem fsCtrl_word (hw : s.wf = true) (hst : st < 256) (hk : (stKind st).isSome = true) :
    regMask (Reg.fsCtrl st) (writeWord (regsFs[3]'(by decide)) false (s.rd (Reg.fsCtrl st)) (BitVec.ofNat 64 ((s.rd (Reg.fsCtrl st) ||| 4).toNat % 2 ^ 32)) 0xFFFFFFFF)
      = s.rd (Reg.fsCtrl st) ||| 4 := by
  have himpl := regImpl_fsCtrl hst hk
  have hd : regMask (Reg.fsCtrl st) (regDflt (Reg.fsCtrl st)) = regDflt (Reg.fsCtrl st) := by
    have hr : regReset (Reg.fsCtrl st) = 0 := by unfold regReset; rw [regFind_fsCtrl hst hk]; rfl
    rw [regMask, himpl, regDflt, hr]
    rfl
  have hmask := rd_mask hw (Reg.fsCtrl st) hd
  rw [regMask, himpl] at hmask ⊢
  generalize s.rd (Reg.fsCtrl st) = old at hmask ⊢
  have hsmall : old.toNat < 8 := by
    have h := congrArg BitVec.toNat hmask
    rw [BitVec.toNat_and] at h
    exact h ▸ Nat.lt_of_le_of_lt Nat.and_le_right (by decide)
  have hall : ∀ k < 8, writeWord (regsFs[3]'(by decide)) false (BitVec.ofNat 64 k) (BitVec.ofNat 64 ((BitVec.ofNat 64 k ||| 4).toNat % 2 ^ 32)) 0xFFFFFFFF
      &&& BitVec.ofNat 64 0x7 = BitVec.ofNat 64 k ||| 4 := by decide
  have hold : BitVec.ofNat 64 old.toNat = old := by rw [BitVec.ofNat_toNat, BitVec.setWidth_eq]
  exact hold ▸ hall old.toNat hsmall

/-- The state with a bit of inj_parity written. -/
def State.parityAsked (s : State) (st : Nat) : State := s.putReg (Reg.fsCtrl st) (s.rd (Reg.fsCtrl st) ||| 4)

theorem fsInjParity_run (hw : s.wf = true) (hst : st < 256) (hk : (stKind st).isSome = true)
    (hlets : s.lets p (Reg.fsCtrl st) 4 (s.rd (Reg.fsCtrl st) ||| 4) (Reg.fsCtrl st)) :
    exec (.fsInjParity p st) s = .next (runAct (parityInject st) (s.parityAsked st)) := by
  obtain ⟨hslot, hword, hmask⟩ := cover_aligned (off := Reg.fsCtrl st) (by rw [fsCtrl_off]; omega) (s.rd (Reg.fsCtrl st) ||| 4)
  have hput : s.putReg (Reg.fsCtrl st) (writeWord (regsFs[3]'(by decide)) false (s.rd (Reg.fsCtrl st))
      (BitVec.ofNat 64 ((s.rd (Reg.fsCtrl st) ||| 4).toNat % 2 ^ 32)) 0xFFFFFFFF) = s.parityAsked st := by
    have hagain : regMask (Reg.fsCtrl st) (s.rd (Reg.fsCtrl st) ||| 4) = s.rd (Reg.fsCtrl st) ||| 4 := by
      rw [← fsCtrl_word hw hst hk, regMask, regMask, BitVec.and_assoc, BitVec.and_self]
    simp only [State.putReg, State.parityAsked, regPut, fsCtrl_word hw hst hk, hagain]
  refine (setCommand_adds (b := 4) (by decide) hlets (hslot ▸ regFind_fsCtrl hst hk) (decide_eq_true hst)).trans (congrArg _ ?_)
  rw [hslot, hword, hmask, fsCtrl_off, registerWrite_station hst (by decide), if_pos rfl, runAct_acts, ← fsCtrl_off, slotWrite_run (reactReg_fsCtrl st), hput, acts_one]

theorem parityAsked_sound (hs : s.Sound) (st : Nat) : (s.parityAsked st).Sound := putReg_sound hs (reactReg_fsCtrl st) _

/-- test_en as it stood, inj_parity set. -/
theorem parityAsked_bits (hw : s.wf = true) (hst : st < 256) (hk : (stKind st).isSome = true) :
    (s.parityAsked st).bitAt (Reg.fsCtrl st) 0 = s.bitAt (Reg.fsCtrl st) 0 ∧ (s.parityAsked st).bitAt (Reg.fsCtrl st) 2 = true := by
  have himpl := regImpl_fsCtrl hst hk
  have hbit : ∀ i < 3, (s.parityAsked st).bitAt (Reg.fsCtrl st) i = (wBit (s.rd (Reg.fsCtrl st)) i || (4 : Word).toNat.testBit i) := by
    intro i hi
    have hone : (BitVec.ofNat 64 0x7).toNat.testBit i = true := by
      have hall : ∀ i < 3, (BitVec.ofNat 64 0x7).toNat.testBit i = true := by decide
      exact hall i hi
    rw [State.bitAt, State.parityAsked, rd_putReg hw, regMask, himpl, wBit_eq, BitVec.toNat_and, Nat.testBit_and, hone, Bool.and_true, BitVec.toNat_or,
      Nat.testBit_or, ← wBit_eq]
  exact ⟨(hbit 0 (by decide)).trans (Bool.or_false _), (hbit 2 (by decide)).trans (Bool.or_true _)⟩

/-- The injection in the state that meets it: inj_parity is spent, the station fails its parity. -/
def State.parityFails (u : State) (st : Nat) : State :=
  let x := u.putReg (Reg.fsCtrl st) (u.rd (Reg.fsCtrl st) &&& ~~~ BitVec.ofNat 64 4)
  { x with flt := { x.flt with parity := if x.flt.parity.contains st then x.flt.parity else x.flt.parity ++ [st] }, fv := x.fv + 1 }

theorem parityInject_acts (hen : u.bitAt (Reg.fsCtrl st) 0 = true) (hinj : u.bitAt (Reg.fsCtrl st) 2 = true) :
    runAct (parityInject st) u = runAct (enterSafe st (Config.paritySource u.fv % 32) true) (u.parityFails st) := by
  rw [parityInject, runAct_whenS, if_pos (by rw [hen, hinj]; rfl), runAct_ask, runAct_acts, clearBits, runAct_ask_left, run_csr, applyEff_csr (reactReg_fsCtrl st),
    runAct_acts, run_flt, runAct_acts, run_tick, acts_one]
  rfl

theorem parityInject_waits (hen : u.bitAt (Reg.fsCtrl st) 0 = false) : runAct (parityInject st) u = u := by
  rw [parityInject, runAct_whenS, hen, Bool.false_and, if_neg (by decide)]

theorem parityFails_sound (hu : u.Sound) (st : Nat) : (u.parityFails st).Sound := putReg_sound hu (reactReg_fsCtrl st) _

theorem parityFails_spent (hw : u.wf = true) (st : Nat) : wBit ((u.parityFails st).rd (Reg.fsCtrl st)) 2 = false := by
  have hrd : (u.parityFails st).rd (Reg.fsCtrl st) = regMask (Reg.fsCtrl st) (u.rd (Reg.fsCtrl st) &&& ~~~ BitVec.ofNat 64 4) := rd_putReg hw _ _
  rw [hrd, regMask, wBit_eq, BitVec.toNat_and, Nat.testBit_and, testBit_andNot]
  simp [show Nat.testBit 4 2 = true by decide]

theorem parityFails_lists (u : State) (st : Nat) : st ∈ (u.parityFails st).flt.parity := by
  simp only [State.parityFails]
  split
  next h => simpa using h
  next => simp

/-- The registers of a station page are not among those that the entry writes. -/
theorem not_safeRegs_fsCtrl (st : Nat) : ¬ safeRegs (Reg.fsCtrl st) := by
  simp only [safeRegs, Reg.fsCtrl, Reg.fltCause, Reg.fltPin, Reg.hdStatus, Reg.hapStatus]
  rintro (h | h | ⟨k, hk, h⟩ | ⟨k, hk, h⟩) <;> omega

/-- Settles O16: the three sources by `raiseSrc_goes`, a parity error by `enterSafe_parity`. -/
theorem detectionsEnterSafe : Obligations.DetectionsEnterSafe := by
  refine ⟨fun s hl hc hw => ⟨fun hm hheld => ?_, fun hm => ?_, fun hm hrun => ?_⟩, fun st s hl hc hw hk hst => ⟨?_, fun p hlets hen => ?_, fun p hlets hen => ?_⟩⟩
  · obtain ⟨p, hp, hbit⟩ := hheld
    refine ⟨_, live_next hl rfl _, ?_⟩
    rw [runAct_whenS, if_pos (List.any_eq_true.mpr ⟨p, List.mem_range.mpr hp, hbit⟩)]
    exact raiseSrc_goes hc hw 0 none (by decide) (by decide) rfl hm
  · exact ⟨_, live_next hl rfl _, raiseSrc_goes hc hw 0 none (by decide) (by decide) rfl hm⟩
  · refine ⟨_, live_next hl rfl _, ?_⟩
    rw [runAct_whenS, if_pos hrun]
    exact raiseSrc_goes hc hw 0 none (by decide) (by decide) rfl hm
  · have hs : ({ s with fv := s.fv + 1 } : State).Sound := ⟨hc, hw⟩
    obtain ⟨hflt, hstation, hparity, hvalid, hbell, -⟩ := enterSafe_parity hs hst (Nat.mod_lt (Config.paritySource s.fv) (by decide)) rfl
    exact ⟨_, stationParityError_run hl hk, hflt ▸ rfl, hstation, hparity, hvalid, hbell⟩
  · obtain ⟨hkeep, hset⟩ := parityAsked_bits hw hst hk
    have hu := parityAsked_sound ⟨hc, hw⟩ st
    obtain ⟨hflt, hstation, hparity, -, -, hrest⟩ := enterSafe_parity (parityFails_sound hu st) hst
      (Nat.mod_lt (Config.paritySource (s.parityAsked st).fv) (by decide)) rfl
    refine ⟨_, (fsInjParity_run hw hst hk hlets).trans (congrArg _ (parityInject_acts (hkeep.trans hen) hset)), hflt ▸ rfl, hstation, hparity, ?_, ?_⟩
    · exact hflt ▸ parityFails_lists _ st
    · rw [State.bitAt, hrest _ (not_safeRegs_fsCtrl st)]
      exact parityFails_spent hu.2 st
  · obtain ⟨hkeep, hset⟩ := parityAsked_bits hw hst hk
    exact ⟨_, (fsInjParity_run hw hst hk hlets).trans (congrArg _ (parityInject_waits (hkeep.trans hen))), hl.1, hset⟩

end Sys2Proof.Machine
end

section
/-!
PROOFS. Clock sources (O21): what a source that becomes ready or fails does to the PLLs (R565, R566, R569, R571), and a write of a PLL's reference (R570).
The gates of blocks (O23): the timeout's clause speaks of a register that need not exist.
-/

namespace Sys2Proof.Machine

variable {s u : State} {src p : Nat}

/-! ### Registers of the clocks -/

theorem clkPllStatus_impl : ∀ p < 10, regImpl (Reg.clkPllStatus p) = 0x3F := by decide +kernel
theorem clkPllCtrl_row : ∀ p < 10, regFind (Reg.clkPllCtrl p) = some (regsClk[2]'(by decide), [p]) := by decide +kernel
theorem clkSrcStatus_impl : regImpl Reg.clkSrcStatus = 0x77 := by decide +kernel

theorem reactReg_clkPllStatus (hp : p < 10) : reactReg (Reg.clkPllStatus p) = false := reactReg_low (by unfold Reg.clkPllStatus; omega)

theorem clkPllStatus_fld (hw : u.wf = true) (hp : p < 10) (x : Nat) : (u.putFld (Reg.clkPllStatus p) 0 5 x).fld (Reg.clkPllStatus p) 0 5 = x % 2 ^ 5 :=
  fld_putFld hw (by decide) (by rw [clkPllStatus_impl p hp]; decide) x

/-! ### PLLs whose status is set -/

/-- The registers that a failover touches. -/
def pllRegs (off : Nat) : Prop := (∃ p, p < 10 ∧ off = Reg.clkPllStatus p) ∨ off = Reg.clkHosc

/-- A sound state that differs from `s` in the status of PLLs and in CLK_HOSC_CTRL alone: `g` gives the status that a PLL has been given. -/
def State.PllsSet (s : State) (g : Nat → Option Nat) (u : State) : Prop :=
  u.Sound ∧ u = { s with csr := u.csr } ∧ (∀ off, ¬ pllRegs off → u.rd off = s.rd off)
    ∧ ∀ p, p < 10 → (g p = none → u.rd (Reg.clkPllStatus p) = s.rd (Reg.clkPllStatus p)) ∧ ∀ x, g p = some x → u.fld (Reg.clkPllStatus p) 0 5 = x

theorem pllsSet_self (hs : s.Sound) : s.PllsSet (fun _ => none) s := ⟨hs, rfl, fun _ _ => rfl, fun _ _ => ⟨fun _ => rfl, fun _ h => nomatch h⟩⟩

/-- The status of a PLL, where `y` says that it is given one. -/
def giveStatus (g : Nat → Option Nat) (p : Nat) (y : Option Nat) (q : Nat) : Option Nat := if q = p then y.or (g q) else g q

theorem giveStatus_none (g : Nat → Option Nat) (p : Nat) : giveStatus g p none = g := by
  funext q
  simp [giveStatus]

theorem clkPllStatus_inj {p q : Nat} (h : Reg.clkPllStatus p = Reg.clkPllStatus q) : p = q := by
  unfold Reg.clkPllStatus at h
  omega

theorem pllsSet_status (hp : p < 10) {g : Nat → Option Nat} {x : Nat} (hx : x < 32) (h : s.PllsSet g u) :
    s.PllsSet (giveStatus g p (some x)) (u.putFld (Reg.clkPllStatus p) 0 5 x) := by
  obtain ⟨hsound, hu, hother, hplls⟩ := h
  refine ⟨putReg_sound hsound (reactReg_clkPllStatus hp) _, ?_, fun off hoff => ?_, fun q hq => ?_⟩
  · rw [hu]
    rfl
  · rw [rd_putFld_ne u (by rintro rfl; exact hoff (.inl ⟨p, hp, rfl⟩))]
    exact hother off hoff
  · by_cases hqp : q = p
    · subst hqp
      refine ⟨fun hg => ?_, fun y hy => ?_⟩
      · simp [giveStatus] at hg
      · obtain rfl : x = y := by simpa [giveStatus] using hy
        exact (clkPllStatus_fld hsound.2 hq _).trans (Nat.mod_eq_of_lt hx)
    · have hrd : ∀ x, (u.putFld (Reg.clkPllStatus p) 0 5 x).rd (Reg.clkPllStatus q) = u.rd (Reg.clkPllStatus q) := fun x =>
        rd_putFld_ne u (fun heq => hqp (clkPllStatus_inj heq)) 0 5 x
      simp only [giveStatus, if_neg hqp, State.fld, hrd]
      exact hplls q hq

theorem pllsSet_hosc {g : Nat → Option Nat} (h : s.PllsSet g u) (lo w x : Nat) : s.PllsSet g (u.putFld Reg.clkHosc lo w x) := by
  obtain ⟨hsound, hu, hother, hplls⟩ := h
  refine ⟨putReg_sound hsound (by decide) _, ?_, fun off hoff => ?_, fun q hq => ?_⟩
  · rw [hu]
    rfl
  · rw [rd_putFld_ne u (by rintro rfl; exact hoff (.inr rfl))]
    exact hother off hoff
  · have hrd : (u.putFld Reg.clkHosc lo w x).rd (Reg.clkPllStatus q) = u.rd (Reg.clkPllStatus q) :=
      rd_putFld_ne u (by unfold Reg.clkPllStatus Reg.clkHosc; omega) lo w x
    rw [State.fld, hrd]
    exact hplls q hq

theorem pllPut_takes (hp : p < 10) {g : Nat → Option Nat} {locked coasting refNow held : Nat} (hx : locked + coasting * 2 + refNow * 4 + held * 16 < 32) :
    (pllPut p locked coasting refNow held).Takes (s.PllsSet g)
      (s.PllsSet (giveStatus g p (some (locked + coasting * 2 + refNow * 4 + held * 16)))) :=
  setFld_takes (reactReg_clkPllStatus hp) fun _ h => pllsSet_status hp hx h

/-- PLLs in turn: each is given what its program gives it. -/
theorem each_pllsSet {f : Nat → Act} {y : Nat → Option Nat} {ps : List Nat}
    (h : ∀ p ∈ ps, ∀ g, (f p).Takes (s.PllsSet g) (s.PllsSet (giveStatus g p (y p)))) (g : Nat → Option Nat) :
    (each ps f).Takes (s.PllsSet g) (s.PllsSet fun q => if q ∈ ps then (y q).or (g q) else g q) := by
  induction ps generalizing g with
  | nil => exact takes_skip
  | cons p ps ih =>
    have hnext := ih (fun q hq => h q (List.mem_cons_of_mem p hq)) (giveStatus g p (y p))
    have hsame : (fun q => if q ∈ ps then (y q).or (giveStatus g p (y p) q) else giveStatus g p (y p) q) =
        fun q => if q ∈ p :: ps then (y q).or (g q) else g q := by
      funext q
      by_cases hq : q = p
      · subst hq
        cases y q <;> simp [giveStatus]
      · simp [giveStatus, hq]
    rw [hsame] at hnext
    exact takes_acts_cons (h p (List.mem_cons_self ..) g) hnext

/-! ### CLOCK_SOURCE_READY -/

/-- Whether a PLL that is on locks to a source that becomes ready: its failover was held for it, or the PLL has not yet run and is to run from it. -/
def State.locksAt (s : State) (src p : Nat) : Bool :=
  if s.bitAt (Reg.clkPllStatus p) 4 then fallbackOf (s.pllRef p) = src
  else s.pwr.boot != 0 && !s.bitAt (Reg.clkPllStatus p) 0 && !s.bitAt (Reg.clkPllStatus p) 1 && s.fld (Reg.clkPllCtrl p) 0 2 = src

/-- The source reads ready. -/
def State.sourceUp (s : State) (src : Nat) : State := s.putFld Reg.clkSrcStatus src 1 1

theorem sourceUp_ready (hw : s.wf = true) (hsrc : src < 3) : (s.sourceUp src).srcReady src = true := by
  have hm : (regImpl Reg.clkSrcStatus % 2 ^ 64).testBit src = true := by
    have hall : ∀ k < 3, (0x77 % 2 ^ 64).testBit k = true := by decide
    rw [clkSrcStatus_impl]
    exact hall src hsrc
  rw [State.srcReady, decide_eq_true hsrc, State.sourceUp, bitAt_putFld hw (by omega) (Nat.le_refl _) (by omega) hm, Nat.sub_self]
  rfl

theorem clockSourceReady_run (hl : s.live) (hsrc : src < 3) (hup : src = 2 → s.bitAt Reg.clkHosc 18 = true) (hboot : 2 ≤ s.pwr.boot) :
    exec (.clockSourceReady src) s =
      .next (runAct (each ((List.range 10).filter s.pllOn) fun p => actIf (s.locksAt src p) (pllLock p src)) (s.sourceUp src)) := by
  have hgo : (!(decide (src = 2) && !s.bitAt Reg.clkHosc 18)) = true := by
    by_cases h : src = 2
    · simp [hup h]
    · simp [h]
  have hbody : (fun p => if s.bitAt (Reg.clkPllStatus p) 4 then actIf (decide (fallbackOf (s.pllRef p) = src)) (pllLock p src)
      else actIf (s.pwr.boot != 0 && !s.bitAt (Reg.clkPllStatus p) 0 && !s.bitAt (Reg.clkPllStatus p) 1 && decide (s.fld (Reg.clkPllCtrl p) 0 2 = src)) (pllLock p src)) =
      fun p => actIf (s.locksAt src p) (pllLock p src) := by
    funext p
    unfold State.locksAt
    split <;> rfl
  refine (live_next hl (decide_eq_true hsrc) _).trans (congrArg _ ?_)
  rw [runAct_whenS, if_pos hgo, sourceReadyOp, runAct_ask, hbody, runAct_acts, setFld_run_left _ _ _ _ _ _ (by decide), show (decide (src = 0) && decide (s.pwr.boot = 1)) = false by
    simp; omega]
  exact runAct_skip_right _ _

theorem sourceReady_pllsSet (hs : s.Sound) (hsrc : src < 3) :
    (s.sourceUp src).PllsSet (fun p => if p ∈ (List.range 10).filter s.pllOn then (if s.locksAt src p then some (1 + 4 * src) else none) else none)
      (runAct (each ((List.range 10).filter s.pllOn) fun p => actIf (s.locksAt src p) (pllLock p src)) (s.sourceUp src)) := by
  have hup : (s.sourceUp src).Sound := putReg_sound hs (by decide) _
  have hone : ∀ p ∈ (List.range 10).filter s.pllOn, ∀ g, (actIf (s.locksAt src p) (pllLock p src)).Takes ((s.sourceUp src).PllsSet g)
      ((s.sourceUp src).PllsSet (giveStatus g p (if s.locksAt src p then some (1 + 4 * src) else none))) := fun p hp g => by
    have hlt : p < 10 := List.mem_range.mp (List.mem_filter.mp hp).1
    cases s.locksAt src p with
    | false => exact (giveStatus_none g p).symm ▸ takes_skip
    | true =>
      have hlock := pllPut_takes (s := s.sourceUp src) (g := g) hlt (locked := 1) (coasting := 0) (refNow := src) (held := 0) (by omega)
      rw [show 1 + 0 * 2 + src * 4 + 0 * 16 = 1 + 4 * src by omega] at hlock
      exact hlock
  have hall := (each_pllsSet hone fun _ => none).run (pllsSet_self hup)
  simpa only [Option.or_none] using hall

theorem clockSourceReady_leaves (hl : s.live) (hs : s.Sound) (hsrc : src < 3) (hup : src = 2 → s.bitAt Reg.clkHosc 18 = true) (hboot : 2 ≤ s.pwr.boot) :
    ∃ t, exec (.clockSourceReady src) s = .next t ∧ t.srcReady src = true ∧ t.tts = s.tts ∧ t.pwr = s.pwr ∧ t.clk = s.clk
      ∧ (∀ p, p < 10 → s.bitAt (Reg.clkPllStatus p) 4 = false → (s.bitAt (Reg.clkPllStatus p) 0 = true ∨ s.bitAt (Reg.clkPllStatus p) 1 = true) →
          t.rd (Reg.clkPllStatus p) = s.rd (Reg.clkPllStatus p))
      ∧ (∀ p, p < 10 → s.pllOn p = true → s.bitAt (Reg.clkPllStatus p) 4 = true → fallbackOf (s.pllRef p) = src →
          t.fld (Reg.clkPllStatus p) 0 5 = 1 + 4 * src) := by
  obtain ⟨-, hparts, hother, hplls⟩ := sourceReady_pllsSet hs hsrc
  refine ⟨_, clockSourceReady_run hl hsrc hup hboot, ?_, ?_⟩
  · rw [State.srcReady, State.bitAt, hother _ (by simp only [pllRegs, Reg.clkSrcStatus, Reg.clkPllStatus, Reg.clkHosc]; rintro (⟨q, -, h⟩ | h) <;> omega)]
    exact sourceUp_ready hs.2 hsrc
  generalize runAct _ (s.sourceUp src) = t at hparts hother hplls
  refine ⟨(congrArg State.tts hparts).trans rfl, (congrArg State.pwr hparts).trans rfl, (congrArg State.clk hparts).trans rfl, fun p hp hheld hruns => ?_, fun p hp hon hheld hfb => ?_⟩
  · have hno : s.locksAt src p = false := by
      rw [State.locksAt, hheld, if_neg (by decide)]
      rcases hruns with h | h <;> simp [h]
    rw [(hplls p hp).1 (by simp [hno])]
    exact rd_putFld_ne s (by unfold Reg.clkPllStatus Reg.clkSrcStatus; omega) _ _ _
  · have hyes : s.locksAt src p = true := by rw [State.locksAt, hheld, if_pos rfl, hfb, decide_eq_true rfl]
    exact (hplls p hp).2 _ (by dsimp only; rw [if_pos (List.mem_filter.mpr ⟨List.mem_range.mpr hp, hon⟩), if_pos hyes])

/-! ### Detections of the clocks' station -/

/-- The registers of the clock page. -/
def clockRegs (off : Nat) : Prop := 0x70000 ≤ off ∧ off < 0x80000

theorem clkRaise_foot {src : Nat} (hg : gravest stClk src = false) : (raise stClk src).Foot (Leaves clockRegs) :=
  raiseSrc_leaves (fun off ho hclk => by have := stationRegs_range ho; unfold clockRegs at hclk; unfold stClk at this; omega)
    (milder_leaves_plain (by decide) (by decide) (by unfold clockRegs Reg.fltPin; omega) fun k => by unfold clockRegs Reg.irqPend; omega) hg

/-- A detection of the clocks is recorded and leaves their registers alone. -/
theorem clkRaise_run {src : Nat} (hx : srcExists stClk src = true) (hg : gravest stClk src = false) (hu : s.Awaits stClk u) :
    s.logs (runAct (raise stClk src) u) stClk src 0 ∧ ∀ off, clockRegs off → (runAct (raise stClk src) u).rd off = u.rd off :=
  ⟨((raiseSrc_logged hx hg).run hu).2, (runGo_leaves (clkRaise_foot hg) hu.1.1).2.2⟩

theorem not_station_clock {st off : Nat} (h : clockRegs off) : ¬ stationRegs st off := fun hst => by
  have := stationRegs_range hst
  unfold clockRegs at h
  omega

theorem clockRegs_status {p : Nat} (hp : p < 10) : clockRegs (Reg.clkPllStatus p) := by
  unfold clockRegs Reg.clkPllStatus
  omega

theorem clockRegs_ctrl {p : Nat} (hp : p < 10) : clockRegs (Reg.clkPllCtrl p) := by
  unfold clockRegs Reg.clkPllCtrl
  omega

theorem clockRegs_srcStatus : clockRegs Reg.clkSrcStatus := by
  unfold clockRegs Reg.clkSrcStatus
  omega

/-- PLLs that were given a status wrote no register of a station. -/
theorem awaits_pllsSet {r : State} {g : Nat → Option Nat} (hr : s.Awaits stClk r) (h : r.PllsSet g u) : s.Awaits stClk u := by
  obtain ⟨hsound, hparts, hother, -⟩ := h
  refine ⟨hsound, ?_, fun off ho => (hother off ?_).trans (hr.2.2 off ho)⟩
  · rw [hparts]
    exact hr.2.1
  · rintro (⟨p, hp, rfl⟩ | rfl)
    · exact not_station_clock (clockRegs_status hp) ho
    · exact not_station_clock (by unfold clockRegs Reg.clkHosc; omega) ho

theorem awaits_putClock {off : Nat} (hu : s.Awaits stClk u) (ho : clockRegs off) (hreact : reactReg off = false) (v : Word) : s.Awaits stClk (u.putReg off v) :=
  ⟨putReg_sound hu.1 hreact v, hu.2.1, fun o hst => (rd_putReg_ne u (by rintro rfl; exact not_station_clock ho hst) v).trans (hu.2.2 o hst)⟩

/-! ### CLOCK_MONITOR_TRIP -/

/-- A source reads failed and not ready. -/
def State.sourceDown (s : State) (src : Nat) : State := (s.putFld Reg.clkSrcStatus src 1 0).putFld Reg.clkSrcStatus (4 + src) 1 1

/-- The PLLs that are locked to a source. -/
def State.lockedTo (s : State) (src : Nat) : List Nat := (List.range 10).filter fun p => s.pllOn p && s.bitAt (Reg.clkPllStatus p) 0 && s.pllRef p = src

/-- What a trip makes of the status of a PLL that is locked to the source (Table 17.4). -/
def State.tripStatus (s : State) (src p : Nat) : Nat :=
  if s.bitAt (Reg.clkPllCtrl p) 2 = false then 2 + 4 * src
  else if s.srcReady (fallbackOf src) = true then 1 + 4 * fallbackOf src
  else 2 + 4 * src + 16

theorem clkSrcStatus_bits : ∀ src < 3, (regImpl Reg.clkSrcStatus % 2 ^ 64).testBit src = true ∧ (regImpl Reg.clkSrcStatus % 2 ^ 64).testBit (4 + src) = true
    ∧ nBits (regImpl Reg.clkSrcStatus % 2 ^ 64) src 1 = 2 ^ 1 - 1 ∧ fallbackOf src < 3 ∧ fallbackOf src ≠ src := by
  decide +kernel

theorem sourceDown_bits (hw : s.wf = true) (hsrc : src < 3) : (s.sourceDown src).bitAt Reg.clkSrcStatus src = false
    ∧ (s.sourceDown src).bitAt Reg.clkSrcStatus (4 + src) = true ∧ (s.sourceDown src).srcReady (fallbackOf src) = s.srcReady (fallbackOf src) := by
  obtain ⟨hready, hfailed, hone, hfb, hne⟩ := clkSrcStatus_bits src hsrc
  have hfbone := (clkSrcStatus_bits _ hfb).2.2.1
  have hw' : (s.putFld Reg.clkSrcStatus src 1 0).wf = true := putFld_wf hw _ _ _ _
  refine ⟨?_, ?_, ?_⟩
  · rw [State.sourceDown, bitAt_putFld_ne hw' (by omega) (.inl (by omega)) hone, bitAt_putFld hw (by omega) (Nat.le_refl _) (by omega) hready]
    exact Nat.zero_testBit _
  · rw [State.sourceDown, bitAt_putFld hw' (by omega) (Nat.le_refl _) (by omega) hfailed, Nat.sub_self]
    rfl
  · rw [State.srcReady, State.sourceDown, bitAt_putFld_ne hw' (by omega) (.inl (by omega)) hfbone, bitAt_putFld_ne hw (by omega) (by omega) hfbone]
    rfl

theorem sourceDown_rd {off : Nat} (h : off ≠ Reg.clkSrcStatus) : (s.sourceDown src).rd off = s.rd off :=
  (rd_putFld_ne _ h _ _ _).trans (rd_putFld_ne _ h _ _ _)

theorem sourceDown_awaits (hs : s.Sound) (src : Nat) : s.Awaits stClk (s.sourceDown src) :=
  awaits_putClock (awaits_putClock (awaits_self hs) clockRegs_srcStatus (by decide) _) clockRegs_srcStatus (by decide) _

/-- Each PLL by Table 17.4. -/
theorem pllTrip_takes (hw : s.wf = true) (hsrc : src < 3) (hp : p < 10) (g : Nat → Option Nat) :
    (pllTrip src p).Takes ((s.sourceDown src).PllsSet g) ((s.sourceDown src).PllsSet (giveStatus g p (some (s.tripStatus src p)))) := by
  have hfb := (clkSrcStatus_bits src hsrc).2.2.2.1
  have hput := fun {locked coasting refNow held : Nat} => pllPut_takes (s := s.sourceDown src) (g := g) (locked := locked) (coasting := coasting) (refNow := refNow) (held := held) hp
  refine takes_ask fun u hu => ?_
  have hother : ∀ off, ¬ pllRegs off → u.rd off = (s.sourceDown src).rd off := hu.2.2.1
  have hctrl : u.bitAt (Reg.clkPllCtrl p) 2 = s.bitAt (Reg.clkPllCtrl p) 2 := by
    rw [State.bitAt, hother _ (by simp only [pllRegs, Reg.clkPllCtrl, Reg.clkPllStatus, Reg.clkHosc]; rintro (⟨q, -, h⟩ | h) <;> omega),
      sourceDown_rd (by unfold Reg.clkPllCtrl Reg.clkSrcStatus; omega), State.bitAt]
  have hready : u.srcReady (fallbackOf src) = s.srcReady (fallbackOf src) := by
    rw [← (sourceDown_bits hw hsrc).2.2, State.srcReady, State.srcReady, State.bitAt, State.bitAt,
      hother _ (by simp only [pllRegs, Reg.clkSrcStatus, Reg.clkPllStatus, Reg.clkHosc]; rintro (⟨q, -, h⟩ | h) <;> omega)]
  simp only [hctrl, hready, State.tripStatus]
  cases s.bitAt (Reg.clkPllCtrl p) 2 with
  | false =>
    have hcoast := hput (locked := 0) (coasting := 1) (refNow := src) (held := 0) (by omega)
    rw [show 0 + 1 * 2 + src * 4 + 0 * 16 = 2 + 4 * src by omega] at hcoast
    exact hcoast
  | true =>
    cases s.srcReady (fallbackOf src) with
    | true =>
      have hlock := hput (locked := 1) (coasting := 0) (refNow := fallbackOf src) (held := 0) (by omega)
      rw [show 1 + 0 * 2 + fallbackOf src * 4 + 0 * 16 = 1 + 4 * fallbackOf src by omega] at hlock
      exact hlock
    | false =>
      have hhold := hput (locked := 0) (coasting := 1) (refNow := src) (held := 1) (by omega)
      rw [show 0 + 1 * 2 + src * 4 + 1 * 16 = 2 + 4 * src + 16 by omega] at hhold
      exact takes_acts_cons hhold (takes_acts_cons (takes_actIf fun _ => takes_acts_cons (setFld_takes (by decide) fun _ h => pllsSet_hosc h 18 1 1)
        (takes_acts_cons (setFld_takes (by decide) fun _ h => pllsSet_hosc h 0 1 0) takes_skip)) takes_skip)

/-- The PLLs that are locked to the source. -/
theorem pllsTrip_takes (hw : s.wf = true) (hsrc : src < 3) : (each (s.lockedTo src) (pllTrip src)).Takes
    ((s.sourceDown src).PllsSet fun _ => none)
    ((s.sourceDown src).PllsSet fun p => if p ∈ s.lockedTo src then some (s.tripStatus src p) else none) := by
  have hall := each_pllsSet (s := s.sourceDown src) (ps := s.lockedTo src) (y := fun p => some (s.tripStatus src p))
    (fun p hp g => pllTrip_takes hw hsrc (List.mem_range.mp (List.mem_filter.mp hp).1) g) fun _ => none
  simpa only [Option.or_none] using hall

theorem clockMonitorTrip_leaves (hl : s.live) (hs : s.Sound) (hsrc : src < 3) :
    ∃ t, exec (.clockMonitorTrip src) s = .next t ∧ t.bitAt Reg.clkSrcStatus src = false ∧ t.bitAt Reg.clkSrcStatus (4 + src) = true
      ∧ ∀ p ∈ s.lockedTo src, t.fld (Reg.clkPllStatus p) 0 5 = s.tripStatus src p ∧ s.logs t stClk 4 0 := by
  have hw := hs.2
  have hdown := sourceDown_awaits hs src
  obtain ⟨hends, hset⟩ := pllsTrip_takes hw hsrc _ (pllsSet_self hdown.1)
  have hrun : exec (.clockMonitorTrip src) s = .next (runAct (actIf (!(s.lockedTo src).isEmpty) (raise stClk 4))
      (runAct (each (s.lockedTo src) (pllTrip src)) (s.sourceDown src))) := by
    refine (live_next hl (decide_eq_true hsrc) _).trans (congrArg _ ?_)
    rw [runAct_ask, runAct_acts, setFld_run_left _ _ _ _ _ _ (by decide), runAct_acts, setFld_run_left _ _ _ _ _ _ (by decide), runAct_acts, acts_one]
    rw [runAct, runGo_seq_eq]
    exact congrArg Prod.fst (if_neg (ne_true_of_eq_false hends))
  refine ⟨_, hrun, ?_⟩
  change (s.sourceDown src).PllsSet _ (runAct (each (s.lockedTo src) (pllTrip src)) (s.sourceDown src)) at hset
  generalize runAct (each (s.lockedTo src) (pllTrip src)) (s.sourceDown src) = u at hset
  have hu : s.Awaits stClk u := awaits_pllsSet hdown hset
  obtain ⟨hlogs, hraise⟩ := clkRaise_run (src := 4) (by decide) (by decide) hu
  obtain ⟨-, -, hother, hplls⟩ := hset
  have hrd : ∀ off, clockRegs off → (runAct (actIf (!(s.lockedTo src).isEmpty) (raise stClk 4)) u).rd off = u.rd off := fun off ho => by
    cases (s.lockedTo src).isEmpty with
    | true => rfl
    | false => exact hraise off ho
  obtain ⟨hready, hfailed, -⟩ := sourceDown_bits hw hsrc
  have hsrcrd : (runAct (actIf (!(s.lockedTo src).isEmpty) (raise stClk 4)) u).rd Reg.clkSrcStatus = (s.sourceDown src).rd Reg.clkSrcStatus :=
    (hrd _ clockRegs_srcStatus).trans (hother _ (by simp only [pllRegs, Reg.clkSrcStatus, Reg.clkPllStatus, Reg.clkHosc]; rintro (⟨q, -, h⟩ | h) <;> omega))
  refine ⟨?_, ?_, fun p hp => ?_⟩
  · rw [State.bitAt, hsrcrd]
    exact hready
  · rw [State.bitAt, hsrcrd]
    exact hfailed
  · have hlt : p < 10 := List.mem_range.mp (List.mem_filter.mp hp).1
    refine ⟨?_, ?_⟩
    · rw [State.fld, hrd _ (clockRegs_status hlt)]
      exact (hplls p hlt).2 _ (if_pos hp)
    · rw [List.isEmpty_eq_false_iff.mpr (List.ne_nil_of_mem hp)]
      exact hlogs

/-! ### CLK_PLLp_CTRL.ref -/

/-- The state with the register's other field written. -/
def State.ctrlWritten (s : State) (p : Nat) (v : Word) : State :=
  s.putReg (Reg.clkPllCtrl p) (writeWord (regsClk[2]'(by decide)) false (s.rd (Reg.clkPllCtrl p)) (coverWord (Reg.clkPllCtrl p) 4 v) (maskOut 0xFFFFFFFF 0 2))

theorem registerWrite_pllCtrl : ∀ p < 10, ∀ (q : Path) (w m : Word), registerWrite q (regsClk[2]'(by decide)) false (Reg.clkPllCtrl p) 4 w m =
    acts [slotWrite (regsClk[2]'(by decide)) false (Reg.clkPllCtrl p) w (maskOut m 0 2), actIf (!false && wBits m 0 2 != 0) (pllRefOp p (wBits w 0 2))] := by
  intro p hp q w m
  interval_cases p <;> rfl

theorem clkPllRefWrite_run {q : Path} {v : Word} (hp : p < 10) (h : s.lets q (Reg.clkPllCtrl p) 4 v (Reg.clkPllCtrl p)) :
    exec (.clkPllRefWrite q p v) s = .next (runAct (pllRefOp p (wBits v 0 2)) (s.ctrlWritten p v)) := by
  have h8 : Reg.clkPllCtrl p % 8 = 0 := by unfold Reg.clkPllCtrl; omega
  obtain ⟨hslot, -, hmask⟩ := cover_aligned h8 v
  have hword : wBits (coverWord (Reg.clkPllCtrl p) 4 v) 0 2 = wBits v 0 2 := by
    rw [← wBits_cover h8 (.inl rfl) v (lo := 0) (w := 2) (by decide), hmask, show (0xFFFFFFFF : Word) = BitVec.ofNat 64 0xFFFFFFFF from rfl,
      wBits_mask _ _ _ _ (by decide)]
  refine (writeCommand_lets h (hslot ▸ clkPllCtrl_row p hp) (decide_eq_true hp)).trans (congrArg _ ?_)
  rw [hslot, hmask, registerWrite_pllCtrl p hp, runAct_acts, slotWrite_run (reactReg_low (by unfold Reg.clkPllCtrl; omega)), acts_one, hword,
    show (!false && wBits (0xFFFFFFFF : Word) 0 2 != 0) = true by decide]
  rfl

theorem ctrlWritten_awaits (hs : s.Sound) (hp : p < 10) (v : Word) : s.Awaits stClk (s.ctrlWritten p v) :=
  awaits_putClock (awaits_self hs) (clockRegs_ctrl hp) (reactReg_low (by unfold Reg.clkPllCtrl; omega)) _

theorem ctrlWritten_rd {v : Word} {off : Nat} (h : off ≠ Reg.clkPllCtrl p) : (s.ctrlWritten p v).rd off = s.rd off := rd_putReg_ne s h _

theorem clkPllCtrl_impl : ∀ p < 10, nBits (regImpl (Reg.clkPllCtrl p) % 2 ^ 64) 0 2 = 2 ^ 2 - 1 := by decide +kernel

theorem ctrlWritten_ref (hw : s.wf = true) (hp : p < 10) (v : Word) : (s.ctrlWritten p v).fld (Reg.clkPllCtrl p) 0 2 = s.fld (Reg.clkPllCtrl p) 0 2 := by
  rw [State.ctrlWritten, fld_putReg hw (clkPllCtrl_impl p hp)]
  exact wBits_writeWord_keeps (by decide) (by decide) (by decide) _ _

theorem ctrlWritten_srcReady (hp : p < 10) (v : Word) (k : Nat) : (s.ctrlWritten p v).srcReady k = s.srcReady k := by
  rw [State.srcReady, State.bitAt, ctrlWritten_rd (by unfold Reg.clkPllCtrl Reg.clkSrcStatus; omega)]
  rfl

theorem pllRef_ready {ref : Nat} (hw : u.wf = true) (hp : p < 10) (href : ref < 4) (hready : u.srcReady ref = true) (hon : u.pllOn p = true) :
    (runAct (pllRefOp p ref) u).fld (Reg.clkPllCtrl p) 0 2 = ref ∧ (runAct (pllRefOp p ref) u).fld (Reg.clkPllStatus p) 0 5 = 1 + 4 * ref := by
  have hrun : runAct (pllRefOp p ref) u = (u.putFld (Reg.clkPllCtrl p) 0 2 ref).putFld (Reg.clkPllStatus p) 0 5 (1 + 0 * 2 + ref * 4 + 0 * 16) := by
    rw [pllRefOp, runAct_ask, if_pos hready, runAct_acts, setFld_run_left _ _ _ _ _ _ (reactReg_low (by unfold Reg.clkPllCtrl; omega)), acts_one, hon]
    exact setFld_run _ _ _ _ _ (reactReg_clkPllStatus hp)
  rw [hrun]
  constructor
  · rw [State.fld, rd_putFld_ne _ (by unfold Reg.clkPllCtrl Reg.clkPllStatus; omega)]
    exact (fld_putFld hw (by decide) (clkPllCtrl_impl p hp) ref).trans (Nat.mod_eq_of_lt href)
  · rw [clkPllStatus_fld (putFld_wf hw _ _ _ _) hp]
    omega

theorem pllRef_refused {ref : Nat} (hp : p < 10) (hready : u.srcReady ref = false) :
    runAct (pllRefOp p ref) u = runAct (raise stClk 5) (u.putFld (Reg.clkPllStatus p) 5 1 1) := by
  rw [pllRefOp, runAct_ask, hready, if_neg (by decide), runAct_acts, setFld_run_left _ _ _ _ _ _ (reactReg_clkPllStatus hp), acts_one]

theorem clkPllRefWrite_refused {q : Path} {v : Word} (hs : s.Sound) (hp : p < 10) (h : s.lets q (Reg.clkPllCtrl p) 4 v (Reg.clkPllCtrl p))
    (hready : s.srcReady (wBits v 0 2) = false) :
    ∃ t, exec (.clkPllRefWrite q p v) s = .next t ∧ t.fld (Reg.clkPllCtrl p) 0 2 = s.fld (Reg.clkPllCtrl p) 0 2
      ∧ t.fld (Reg.clkPllStatus p) 0 5 = s.fld (Reg.clkPllStatus p) 0 5 ∧ t.bitAt (Reg.clkPllStatus p) 5 = true ∧ s.logs t stClk 5 0 := by
  refine ⟨_, (clkPllRefWrite_run hp h).trans (congrArg _ (pllRef_refused hp ((ctrlWritten_srcReady hp v _).trans hready))), ?_⟩
  have hwritten := ctrlWritten_awaits hs hp v
  have hu : s.Awaits stClk ((s.ctrlWritten p v).putFld (Reg.clkPllStatus p) 5 1 1) :=
    awaits_putClock hwritten (clockRegs_status hp) (reactReg_clkPllStatus hp) _
  obtain ⟨hlogs, hrd⟩ := clkRaise_run (src := 5) (by decide) (by decide) hu
  have hne : Reg.clkPllStatus p ≠ Reg.clkPllCtrl p := by unfold Reg.clkPllCtrl Reg.clkPllStatus; omega
  refine ⟨?_, ?_, ?_, hlogs⟩
  · rw [State.fld, hrd _ (clockRegs_ctrl hp), rd_putFld_ne _ hne.symm]
    exact ctrlWritten_ref hs.2 hp v
  · rw [State.fld, hrd _ (clockRegs_status hp)]
    refine (fld_putFld_ne hwritten.1.2 (by decide) (.inl (by decide)) (by rw [clkPllStatus_impl p hp]; decide) 1).trans ?_
    rw [State.fld, ctrlWritten_rd hne, State.fld]
  · rw [State.bitAt, hrd _ (clockRegs_status hp)]
    exact bitAt_putFld hwritten.1.2 (by decide) (by decide) (by decide) (by rw [clkPllStatus_impl p hp]; decide) 1

/-- Settles O21: PLLs by what a source that comes (`sourceReady_pllsSet`) or goes (`pllsTrip_takes`) gives each; a reference by whether it is ready. -/
theorem clockSources : Obligations.ClockSources := by
  refine ⟨fun src s hl hc hw hsrc hup hboot => clockSourceReady_leaves hl ⟨hc, hw⟩ hsrc hup hboot, fun src s hl hc hw hsrc => ?_,
    fun q p v s hc hw hp h => ⟨fun hready hon => ?_, fun hready => clkPllRefWrite_refused ⟨hc, hw⟩ hp h hready⟩⟩
  · obtain ⟨t, ht, hready, hfailed, hplls⟩ := clockMonitorTrip_leaves hl ⟨hc, hw⟩ hsrc
    refine ⟨t, ht, hready, hfailed, fun p hp hon hlock href => ?_⟩
    obtain ⟨hstatus, hlogs⟩ := hplls p (List.mem_filter.mpr ⟨List.mem_range.mpr hp, by rw [hon, hlock, href]; simp⟩)
    refine ⟨fun hen hfb => hstatus.trans ?_, fun hen => hstatus.trans ?_, hlogs⟩
    · rw [State.tripStatus, if_neg (by rw [hen]; decide), if_pos hfb]
    · rw [State.tripStatus, if_pos hen]
  · have hwritten := ctrlWritten_awaits ⟨hc, hw⟩ hp v
    exact ⟨_, clkPllRefWrite_run hp h, pllRef_ready hwritten.1.2 hp (nBits_lt _ 0 2) ((ctrlWritten_srcReady hp v _).trans hready) hon⟩

/-! ### GATE_ACK_TIMEOUT -/

/-- A state in which a gate request waits for a block that Table 17.7 does not have. -/
def State.gateWithoutBlock : State := { State.reset with clk := { State.reset.clk with gateReq := [(7, false)] } }

/-- Refutes O23: the timeout's clause asks no block of Table 17.7. With a gate request for block 7, which has no CLK_GATE register, refused cannot read 1. -/
theorem not_clockGates : ¬ Obligations.ClockGates := by
  rintro ⟨-, htimeout⟩
  have hw : State.gateWithoutBlock.wf = true := by decide +kernel
  obtain ⟨t, ht, -, hrefused, -⟩ := htimeout 7 false State.gateWithoutBlock ⟨rfl, rfl⟩ (calm_of_csr rfl) hw (by decide) rfl
  have hzero : t.rd (Reg.clkGate 7) = 0 := by
    rw [← rd_mask (exec_wf hw ht) (Reg.clkGate 7) (by decide +kernel), regMask, show regImpl (Reg.clkGate 7) = 0 by decide +kernel]
    exact BitVec.and_zero
  rw [State.bitAt, hzero] at hrefused
  exact absurd hrefused (by decide)

end Sys2Proof.Machine
end

section
/-!
PROOFS. What the detections and the memory accesses of a unit leave, where no fault resets the unit (R542): every part of the state that their class of
effects spares. Touch ports: their state, their panel, their counts.
-/

namespace Sys2Proof.Machine

variable {s u : State} {st src cell n T : Nat} {seat : Option Nat} {J : State → Prop}

/-! ### Programs of a unit that no fault resets -/

/-- A sound state in which no fault resets the unit of a station, and which has of `s` every part that effects of the class `T` spare. -/
structure State.Spared (T : Nat) (s : State) (st : Nat) (u : State) : Prop where
  sound : u.Sound
  noReset : u.noReset st
  same : ∀ p, Part.spared T p = true → Part.same p s u

theorem spared_self (hs : s.Sound) (hn : s.noReset st) : s.Spared T st s := ⟨hs, hn, fun p _ => Part.same_refl p s⟩

theorem spared_foot (hT : softClass T = true) (hst : st < 256) {a : Act} (ha : a.Foot (In T)) : a.Takes (State.Spared T s st) (State.Spared T s st) :=
  takes_of_foot ha (fun _ h => h.sound.1) (fun _ he => in_soft hT he) fun e u he h => by
    have hsoft : e.soft = true := in_soft hT he
    exact ⟨⟨calm_soft hsoft h.sound.1, applyEff_wf e u h.sound.2⟩, noReset_soft hsoft hst h.noReset,
      fun p hp => Part.same_trans p (h.same p hp) (eff_same he hsoft hp u)⟩

/-- A detection keeps what registers from 0x400000 up, FAULT_N, the interrupts and the reset of its block keep. -/
theorem raiseSrc_takes (hg : gravest st src = false) (hcalm : ∀ u, J u → u.calm) (hkeep : ∀ a : Act, a.Foot (In 0x81801) → a.Takes J J)
    (hreset : ∀ u, J u → src < 32 → nBit (u.react st src) 2 = true → (blockReset (if st = 14 && src = 4 then 11 else st)).Takes J J) :
    (raiseSrc st src cell seat).Takes J J := by
  by_cases hx : srcExists st src = true
  · obtain ⟨hst, hsrc⟩ := srcExists_lt hx
    rw [raiseSrc, if_neg (by simp [hx])]
    refine takes_ask fun u _ => takes_acts_cons (hkeep _ ?_) (takes_acts_cons (hkeep _ ?_) (takes_acts_cons (takes_actIf fun _ => hkeep _ ?_)
      (takes_ask fun v hv => ?_)))
    · exact setBits_high _ _ (.inl (by unfold Reg.fsStatus; omega)) rfl
    · exact setFld_high _ _ _ _ (.inl (by unfold Reg.fsCount; omega)) rfl
    · exact setReg_high _ _ (.inl (by unfold Reg.fsFirst; omega)) rfl
    · obtain ⟨hchip, hsafe⟩ := hcalm v hv st src hst hsrc hg
      rw [if_neg (by simp [hsafe]), if_neg (by simp [hchip])]
      exact takes_acts_cons (takes_actIf fun _ => hkeep _ (setFld_high _ _ _ _ (.inr rfl) rfl))
        (takes_acts_cons (takes_actIf fun hbit => hreset v hv hsrc hbit)
          (takes_acts_cons (takes_actIf fun _ => hkeep _ (by simp)) (takes_actIf fun _ => hkeep _ (irqReact_foot _ _ _ rfl))))
  · rw [raiseSrc, if_pos (by simp [hx])]
    exact takes_skip

section
variable (hT : softClass T = true) (hserve : 0x8B819 &&& T = 0x8B819) (hst : st < 256)
include hT hserve hst

theorem spared_serving {a : Act} (ha : a.Foot (In 0x8B819)) : a.Takes (State.Spared T s st) (State.Spared T s st) :=
  spared_foot hT hst (foot_mono ha hserve)

theorem raiseSrc_spared (hg : gravest st src = false) : (raiseSrc st src cell seat).Takes (State.Spared T s st) (State.Spared T s st) :=
  raiseSrc_takes hg (fun _ h => h.sound.1) (fun _ ha => spared_serving hT hserve hst (foot_mono ha rfl)) fun _ h hsrc hbit =>
    absurd ((h.noReset src hsrc).symm.trans hbit) nofun

theorem seatWrite_spared (v : State) (k a : Nat) (bs : List Byte) (h : HostAns) :
    (seatWrite v st k a bs h).act.Takes (State.Spared T s st) (State.Spared T s st) := by
  have hmiss : (missOut st k 0).act.Takes (State.Spared T s st) (State.Spared T s st) := raiseSrc_spared hT hserve hst (gravest_low st (by decide))
  unfold seatWrite
  split
  · exact hmiss
  · split
    · split
      · exact hmiss
      · exact takes_acts_cons (spared_serving hT hserve hst (dirtyLog_foot _ _ _ _ rfl)) (spared_serving hT hserve hst (by simp))
    · exact spared_serving hT hserve hst (devWrite_foot _ _ _ _ rfl)

end

/-! ### What a touch port writes -/

theorem stTch_lt (hn : n < 8) : stTch n < 256 := by unfold stTch; omega

section
variable (hT : softClass T = true) (hserve : 0x8B819 &&& T = 0x8B819) (hn : n < 8)
include hT hserve hn

theorem tchStore_spared (seat : Option Nat) (a : Nat) (bs : List Byte) : (tchStore n seat a bs).Takes (State.Spared T s (stTch n)) (State.Spared T s (stTch n)) := by
  refine takes_ask fun _ _ => ?_
  cases seat with
  | none => exact takes_ask fun _ _ => spared_serving hT hserve (stTch_lt hn) (devWrite_foot _ _ _ _ rfl)
  | some k =>
    refine takes_each fun x _ => takes_ask fun v _ => ?_
    have hwrite := seatWrite_spared (s := s) hT hserve (stTch_lt hn) v k x.1 x.2 .ok
    split
    · exact takes_ite (fun _ => takes_skip) fun _ => hwrite
    · exact hwrite

theorem reportPut_spared (ws : List Nat) (seq : Nat) : (reportPut n ws seq).Takes (State.Spared T s (stTch n)) (State.Spared T s (stTch n)) :=
  takes_ask fun _ _ => takes_acts_cons (tchStore_spared hT hserve hn _ _ _) (takes_ite (fun _ => spared_serving hT hserve (stTch_lt hn) (secIrq_foot _ _ rfl))
    fun _ => takes_actOpt fun _ _ => spared_serving hT hserve (stTch_lt hn) (irqSet_foot _ _ rfl))

end

/-! ### The state of a port -/

/-- The state with a touch port replaced. -/
def State.withTch (s : State) (n : Nat) (t : Tch) : State := { s with med := { s.med with tch := mapPut tchNone n t s.med.tch } }

theorem tchUpd_run (n : Nat) (f : Tch → Tch) (u : State) : runAct (tchUpd n f) u = u.withTch n (f (u.tch n)) := by
  rw [tchUpd, runAct_ask, runAct_eff]
  rfl

theorem tchUpd_run_left (n : Nat) (f : Tch → Tch) (a : Act) (u : State) : runAct (.seq (tchUpd n f) a) u = runAct a (u.withTch n (f (u.tch n))) := by
  rw [tchUpd, runAct_ask_left, runAct_eff_left _ _ _ rfl]
  rfl

theorem tch_withTch (hm : mapWf tchNone u.med.tch = true) (n : Nat) (t : Tch) : (u.withTch n t).tch n = t := mapGet_put_wf _ _ _ _ hm

/-- A port that is not as a reset leaves it is read back, however the ports are kept. -/
theorem tch_withTch_of_ne {t : Tch} (ht : t ≠ tchNone n) : (u.withTch n t).tch n = t := mapGet_put_of_ne_default ht _

theorem withTch_mapWf (hm : mapWf tchNone u.med.tch = true) (n : Nat) (t : Tch) : mapWf tchNone (u.withTch n t).med.tch = true := mapWf_put _ _ _ _ hm

theorem withTch_sound (hs : u.Sound) (n : Nat) (t : Tch) : (u.withTch n t).Sound :=
  ⟨calm_soft (e := .med fun m => { m with tch := mapPut tchNone n t m.tch }) rfl hs.1,
    applyEff_wf (.med fun m => { m with tch := mapPut tchNone n t m.tch }) u hs.2⟩

/-! ### Its registers -/

/-- The registers of the touch ports. -/
def touchRegs (off : Nat) : Prop := 0x320000 ≤ off ∧ off < 0x320800

theorem touchRegs_status (hn : n < 8) : touchRegs (Reg.tchStatus n) := by unfold touchRegs Reg.tchStatus; omega
theorem touchRegs_count (hn : n < 8) : touchRegs (Reg.tchCount n) := by unfold touchRegs Reg.tchCount; omega
theorem touchRegs_test (hn : n < 8) : touchRegs (Reg.tchTest n) := by unfold touchRegs Reg.tchTest; omega

theorem reactReg_touch {off : Nat} (h : touchRegs off) : reactReg off = false := reactReg_low (by unfold touchRegs at h; omega)

theorem not_station_touch {off : Nat} (h : touchRegs off) : ¬ stationRegs st off := fun hst => by
  have := stationRegs_range hst
  unfold touchRegs at h
  omega

theorem tchStatus_impl : ∀ n < 8, nBits (regImpl (Reg.tchStatus n) % 2 ^ 64) 0 3 = 2 ^ 3 - 1 ∧ nBits (regImpl (Reg.tchStatus n) % 2 ^ 64) 32 16 = 2 ^ 16 - 1 := by
  decide +kernel

theorem tchCount_impl (hn : n < 8) {lo : Nat} (hlo : lo = 0 ∨ lo = 32 ∨ lo = 48) : nBits (regImpl (Reg.tchCount n) % 2 ^ 64) lo 16 = 2 ^ 16 - 1 := by
  rw [(clears_tchCount n hn).2]
  rcases hlo with rfl | rfl | rfl <;> decide

theorem tchStatePut_run (hn : n < 8) (v : Nat) (u : State) : runAct (tchStatePut n v) u = u.putFld (Reg.tchStatus n) 0 3 v :=
  setFld_run _ _ _ _ _ (reactReg_touch (touchRegs_status hn))

theorem tchStatePut_run_left (hn : n < 8) (v : Nat) (a : Act) (u : State) :
    runAct (.seq (tchStatePut n v) a) u = runAct a (u.putFld (Reg.tchStatus n) 0 3 v) :=
  setFld_run_left _ _ _ _ _ _ (reactReg_touch (touchRegs_status hn))

theorem tchState_put (hn : n < 8) (hw : u.wf = true) {v : Nat} (hv : v < 8) : (u.putFld (Reg.tchStatus n) 0 3 v).tchState n = v :=
  (fld_putFld hw (by decide) (tchStatus_impl n hn).1 v).trans (Nat.mod_eq_of_lt hv)

/-- The state with a count advanced. -/
def State.tchCounted (u : State) (n lo k : Nat) : State := u.putFld (Reg.tchCount n) lo 16 (min (u.fld (Reg.tchCount n) lo 16 + k) 0xFFFF)

theorem tchCountUp_run (hn : n < 8) (lo k : Nat) (u : State) : runAct (tchCountUp n lo k) u = u.tchCounted n lo k := by
  rw [tchCountUp, runAct_ask, setFld_run _ _ _ _ _ (reactReg_touch (touchRegs_count hn))]
  rfl

theorem tchCountUp_run_left (hn : n < 8) (lo k : Nat) (a : Act) (u : State) : runAct (.seq (tchCountUp n lo k) a) u = runAct a (u.tchCounted n lo k) := by
  rw [tchCountUp, runAct_ask_left, setFld_run_left _ _ _ _ _ _ (reactReg_touch (touchRegs_count hn))]
  rfl

theorem tchCounted_fld (hn : n < 8) (hw : u.wf = true) {lo k : Nat} (hlo : lo = 0 ∨ lo = 32 ∨ lo = 48) :
    (u.tchCounted n lo k).fld (Reg.tchCount n) lo 16 = min (u.fld (Reg.tchCount n) lo 16 + k) 0xFFFF :=
  (fld_putFld hw (by omega) (tchCount_impl hn hlo) _).trans (Nat.mod_eq_of_lt (by omega))

/-- A register of the touch ports is written. -/
theorem awaits_putTouch {off : Nat} (hu : s.Awaits st u) (ho : touchRegs off) (v : Word) : s.Awaits st (u.putReg off v) :=
  ⟨putReg_sound hu.1 (reactReg_touch ho) v, hu.2.1, fun o hst => (rd_putReg_ne u (by rintro rfl; exact not_station_touch ho hst) v).trans (hu.2.2 o hst)⟩

/-! ### The detections of a port -/

theorem tch_sources : ∀ n < 8, srcExists (stTch n) 4 = true ∧ srcExists (stTch n) 5 = true ∧ srcExists (stTch n) 6 = true := by decide

/-- A detection of a port, none of whose sources resets it: it is recorded; the ports, the bell and the registers of the ports stay. -/
theorem tchRaise_run (hn : n < 8) {src : Nat} (hsrc : src = 4 ∨ src = 5 ∨ src = 6) (hu : s.Awaits (stTch n) u) (hno : u.noReset (stTch n)) :
    s.logs (runAct (raise (stTch n) src) u) (stTch n) src 0 ∧ u.Spared 0x8B819 (stTch n) (runAct (raise (stTch n) src) u) := by
  obtain ⟨h4, h5, h6⟩ := tch_sources n hn
  have hx : srcExists (stTch n) src = true := by rcases hsrc with rfl | rfl | rfl <;> assumption
  have hg : gravest (stTch n) src = false := gravest_tch n (by omega)
  exact ⟨((raiseSrc_logged hx hg).run hu).2, (raiseSrc_spared rfl rfl (stTch_lt hn) hg).run (spared_self hu.1 hno)⟩

theorem tchRaise_run_left {src : Nat} (hsrc : src < 7) (hc : u.calm) (a : Act) :
    runAct (.seq (raise (stTch n) src) a) u = runAct a (runAct (raise (stTch n) src) u) :=
  runAct_seq (T := 0x300FDE01) rfl (raise_foot _ _ (gravest_tch n hsrc) rfl) a hc

section
variable {v : State} (h : u.Spared 0x8B819 st v)
include h

theorem spared_med : v.med = u.med := h.same .med rfl
theorem spared_bell : v.tts = u.tts := h.same .tts rfl
theorem spared_touch {off : Nat} (ho : touchRegs off) : v.rd off = u.rd off :=
  h.same .lowRegisters rfl off (by unfold touchRegs at ho; omega) (by unfold touchRegs at ho; unfold Reg.fltPin; omega)
theorem spared_tch (n : Nat) : v.tch n = u.tch n := by rw [State.tch, spared_med h, State.tch]

end

end Sys2Proof.Machine
end

section
/-!
PROOFS. The link of a touch panel (O55): bring-up, forced releases and doze (R509, R521, R523, R585).
-/

namespace Sys2Proof.Machine

variable {s u : State} {n id : Nat} {ok : Bool} {i : Instr}

/-! ### Bring-up (R509) -/

/-- A bring-up that answers, at first or on a retry. -/
theorem bringup_run (hl : s.live) (hn : n < 8) (hid : id < 65536) (hi : (i = .touchLinkBringup n id ok ∧ s.tchState n = 1) ∨
    (i = .touchLinkRetry n id ok ∧ s.tchState n = 5 ∧ (s.tch n).failBell + 100 ≤ s.tts.bell)) : exec i s = .next (runAct (bringResult n id ok) s) := by
  have hok : (decide (n < 8) && decide (id < 65536)) = true := by simp [hn, hid]
  rcases hi with ⟨rfl, hstate⟩ | ⟨rfl, hstate, hbell⟩
  · refine (live_next hl hok _).trans (congrArg _ ?_)
    rw [runAct_whenS, if_pos (decide_eq_true hstate)]
  · refine (live_next hl hok _).trans (congrArg _ ?_)
    rw [runAct_whenS, if_pos (by simp [hstate, hbell])]

/-- What is recorded of the answer. -/
def State.answered (s : State) (n id : Nat) (ok : Bool) : State := if ok then s.putFld (Reg.tchStatus n) 32 16 id else runAct (raise (stTch n) 4) s

/-- Whether an answer brings the port up. -/
def answersWell (id : Nat) (ok : Bool) : Bool := ok && id != 0 && id != 0xFFFF

theorem bringResult_run (hn : n < 8) (hc : s.calm) : runAct (bringResult n id ok) s =
    let a := s.answered n id ok
    if answersWell id ok then (a.putFld (Reg.tchStatus n) 0 3 2).withTch n { a.tch n with bad := 0, fresh := true, scan := false, testScan := false }
    else (a.putFld (Reg.tchStatus n) 0 3 5).withTch n { a.tch n with failBell := a.tts.bell } := by
  have hmet : runAct (bringResult n id ok) s = runAct (if answersWell id ok then
      acts [tchStatePut n 2, tchUpd n fun t => { t with bad := 0, fresh := true, scan := false, testScan := false }]
      else .ask fun s => acts [tchStatePut n 5, tchUpd n fun t => { t with failBell := s.tts.bell }]) (s.answered n id ok) := by
    cases ok with
    | true =>
      rw [bringResult, runAct_acts, show actIf true (setFld (Reg.tchStatus n) 32 16 id) = setFld (Reg.tchStatus n) 32 16 id from rfl,
        setFld_run_left _ _ _ _ _ _ (reactReg_touch (touchRegs_status hn)), runAct_acts]
      exact runAct_skip_left _ _
    | false =>
      rw [bringResult, runAct_acts, show actIf false (setFld (Reg.tchStatus n) 32 16 id) = .skip from rfl, runAct_skip_left, runAct_acts,
        show actIf (!false) (raise (stTch n) 4) = raise (stTch n) 4 from rfl, tchRaise_run_left (by decide) hc]
      rfl
  rw [hmet]
  dsimp only
  split
  · rw [runAct_acts, tchStatePut_run_left hn, acts_one, tchUpd_run]
    rfl
  · rw [runAct_ask, runAct_acts, tchStatePut_run_left hn, acts_one, tchUpd_run]
    rfl

/-- The ID is shown, or PL_ERROR recorded. -/
theorem answered_leaves (hn : n < 8) (hid : id < 65536) (hs : s.Sound) (hno : s.noReset (stTch n)) :
    (s.answered n id ok).wf = true ∧ (s.answered n id ok).med = s.med ∧ (s.answered n id ok).tts = s.tts
      ∧ (ok = true → (s.answered n id ok).fld (Reg.tchStatus n) 32 16 = id) ∧ (ok = false → s.logs (s.answered n id ok) (stTch n) 4 0) := by
  cases ok with
  | true =>
    exact ⟨putFld_wf hs.2 _ _ _ _, rfl, rfl, fun _ => (fld_putFld hs.2 (by decide) (tchStatus_impl n hn).2 id).trans (Nat.mod_eq_of_lt hid), nofun⟩
  | false =>
    obtain ⟨hlogs, hspared⟩ := tchRaise_run hn (.inl rfl) (awaits_self hs) hno
    exact ⟨hspared.sound.2, spared_med hspared, spared_bell hspared, nofun, fun _ => hlogs⟩

/-- A new state of the port and a new record of it. -/
theorem putState_leaves (hn : n < 8) (hw : u.wf = true) (hm : mapWf tchNone u.med.tch = true) {v : Nat} (hv : v < 8) (t : Tch) :
    ((u.putFld (Reg.tchStatus n) 0 3 v).withTch n t).tchState n = v ∧ ((u.putFld (Reg.tchStatus n) 0 3 v).withTch n t).tch n = t
      ∧ ((u.putFld (Reg.tchStatus n) 0 3 v).withTch n t).fld (Reg.tchStatus n) 32 16 = u.fld (Reg.tchStatus n) 32 16
      ∧ (∀ {st src}, s.logs u st src 0 → s.logs ((u.putFld (Reg.tchStatus n) 0 3 v).withTch n t) st src 0) := by
  refine ⟨tchState_put hn hw hv, tch_withTch hm n t, fld_putFld_ne hw (by decide) (.inr (by decide)) (tchStatus_impl n hn).2 v, fun {st src} hlogs => ?_⟩
  exact logs_congr rfl (fun _ _ => rfl) (fun off hoff => rd_putFld_ne u (by rintro rfl; exact not_station_touch (touchRegs_status hn) hoff) _ _ _) hlogs

theorem linkAnswers (hl : s.live) (hs : s.Sound) (hn : n < 8) (hid : id < 65536) (hno : s.noReset (stTch n)) (hm : mapWf tchNone s.med.tch = true)
    (hi : (i = .touchLinkBringup n id ok ∧ s.tchState n = 1) ∨
      (i = .touchLinkRetry n id ok ∧ s.tchState n = 5 ∧ (s.tch n).failBell + 100 ≤ s.tts.bell)) :
    ∃ t, exec i s = .next t ∧ (ok = true → t.fld (Reg.tchStatus n) 32 16 = id) ∧ (ok = false → s.logs t (stTch n) 4 0) ∧
      (ok = true → id ≠ 0 → id ≠ 0xFFFF → t.tchState n = 2 ∧ t.tch n = { s.tch n with bad := 0, fresh := true, scan := false, testScan := false }) ∧
      (ok = false ∨ id = 0 ∨ id = 0xFFFF → t.tchState n = 5 ∧ t.tch n = { s.tch n with failBell := s.tts.bell }) := by
  obtain ⟨hw, hmed, htts, hshown, hlogs⟩ := answered_leaves (ok := ok) hn hid hs hno
  have hm' : mapWf tchNone (s.answered n id ok).med.tch = true := hmed ▸ hm
  have htch : (s.answered n id ok).tch n = s.tch n := by rw [State.tch, hmed, State.tch]
  refine ⟨_, bringup_run hl hn hid hi, ?_⟩
  rw [bringResult_run hn hs.1]
  dsimp only
  rw [htch, htts]
  by_cases hgood : answersWell id ok = true
  · obtain ⟨hstate, ht, hid', hkeep⟩ := putState_leaves (s := s) hn hw hm' (v := 2) (by decide) { s.tch n with bad := 0, fresh := true, scan := false, testScan := false }
    rw [if_pos hgood]
    refine ⟨fun hok => hid'.trans (hshown hok), fun hok => hkeep (hlogs hok), fun _ _ _ => ⟨hstate, ht⟩, fun hbad => ?_⟩
    simp only [answersWell, Bool.and_eq_true, bne_iff_ne] at hgood
    obtain ⟨⟨hok, h0⟩, h1⟩ := hgood
    rcases hbad with h | h | h
    · rw [hok] at h; cases h
    · exact absurd h h0
    · exact absurd h h1
  · obtain ⟨hstate, ht, hid', hkeep⟩ := putState_leaves (s := s) hn hw hm' (v := 5) (by decide) { s.tch n with failBell := s.tts.bell }
    rw [if_neg hgood]
    refine ⟨fun hok => hid'.trans (hshown hok), fun hok => hkeep (hlogs hok), fun hok h0 h1 => absurd ?_ hgood, fun _ => ⟨hstate, ht⟩⟩
    simp [answersWell, hok, h0, h1]

/-! ### KEY_FORCED_RELEASE (R521) -/

/-- A port of which a channel was released. -/
def Tch.released (t : Tch) (k : Nat) : Tch :=
  { t with base := listSet t.base (pnNodes t.panel + k) (t.raw.getD (pnNodes t.panel + k) 0)
           keys := if nBit t.keys k then t.keys - 2 ^ k else t.keys
           busy := t.busy - 2 ^ k
           forced := t.forced ||| 2 ^ k }

theorem nBit_iff (x k : Nat) : nBit x k = true ↔ x / 2 ^ k % 2 = 1 := by rw [nBit, decide_eq_true_iff, Nat.shiftRight_eq_div_pow]

/-- A bit that is set is taken away. -/
theorem nBit_sub_two_pow {x k : Nat} (h : nBit x k = true) : nBit (x - 2 ^ k) k = false := by
  rw [nBit_iff] at h
  have hsub : (x - 2 ^ k) / 2 ^ k = x / 2 ^ k - 1 := by rw [← Nat.sub_mul_div, Nat.mul_one]
  rw [← Bool.not_eq_true, nBit_iff, hsub]
  omega

theorem released_keys (t : Tch) (k : Nat) : nBit (t.released k).keys k = false := by
  unfold Tch.released
  cases h : nBit t.keys k with
  | true => exact nBit_sub_two_pow h
  | false => exact h

theorem released_ne (t : Tch) (k : Nat) (n : Nat) : t.released k ≠ tchNone n := fun h => by
  have hforced : t.forced ||| 2 ^ k = 0 := congrArg Tch.forced h
  have hpow : 0 < 2 ^ k := Nat.two_pow_pos k
  have hle : 2 ^ k ≤ t.forced ||| 2 ^ k := Nat.right_le_or
  omega

theorem keyForcedRelease_run (hl : s.live) (hn : n < 8) {k : Nat} (hk : k < pnSelf (s.tch n).panel) (hbusy : nBit (s.tch n).busy k = true) :
    exec (.keyForcedRelease n k) s = .next ((s.withTch n ((s.tch n).released k)).tchCounted n 32 1) := by
  refine (live_next hl (decide_eq_true hn) _).trans (congrArg _ ?_)
  rw [runAct_ask, runAct_actIf, if_pos (by simp [hk, hbusy]), runAct_acts, tchUpd_run_left, acts_one, tchCountUp_run hn]
  rfl

/-! ### Doze (R523, R585) -/

theorem dozeApproach_awake (hl : s.live) (hn : n < 8) (hstate : s.tchState n = 3) (hpst : s.pst < 3) :
    exec (.dozeApproach n) s = .next (s.withTch n { s.tch n with approach := true }) := by
  refine (live_next hl (decide_eq_true hn) _).trans (congrArg _ ?_)
  rw [runAct_ask, runAct_actIf, if_pos (decide_eq_true hstate), if_neg (by simp; omega), tchUpd_run]

theorem dozeApproach_asleep (hl : s.live) (hn : n < 8) (hstate : s.tchState n = 3) (hpst : s.pst = 4) (hwakes : fb (s.tch n).words 4 20 = true) :
    exec (.dozeApproach n) s = .next ((s.putFld Reg.pwrStatus 0 3 5).putFld Reg.pwrStatus 6 3 3) := by
  refine (live_next hl (decide_eq_true hn) _).trans (congrArg _ ?_)
  rw [runAct_ask, runAct_actIf, if_pos (decide_eq_true hstate), hpst, if_pos (by decide), hwakes]
  exact wakeOp_asleep hpst 3

theorem dozeEntry_run (hl : s.live) (hn : n < 8) (hstate : s.tchState n = 2) (hafter : fw (s.tch n).words 4 0 10 ≠ 0) (hcontacts : (s.tch n).contacts = [])
    (hbusy : (s.tch n).busy = 0) (hscan : (s.tch n).scan = false) : exec (.dozeEntry n) s = .next (s.putFld (Reg.tchStatus n) 0 3 3) := by
  refine (live_next hl (decide_eq_true hn) _).trans (congrArg _ ?_)
  rw [runAct_ask, runAct_actIf, if_pos (by simp [hstate, hafter, hcontacts, hbusy, hscan]), tchStatePut_run hn]

/-- Settles O55: a bring-up by its answer (`linkAnswers`), a released channel, the beginning and the end of a doze. -/
theorem panelsLink : Obligations.PanelsLink := by
  refine ⟨fun n id ok i s hl hc hw hn hid hno hm hi => linkAnswers hl ⟨hc, hw⟩ hn hid hno hm hi,
    fun n s hl hn => ⟨fun k hw hk hbusy => ?_, dozeEntry_run hl hn, fun hstate hpst => ?_, dozeApproach_asleep hl hn⟩⟩
  · have ht : ((s.withTch n ((s.tch n).released k)).tchCounted n 32 1).tch n = (s.tch n).released k := tch_withTch_of_ne (released_ne _ k n)
    refine ⟨_, keyForcedRelease_run hl hn hk hbusy, ?_⟩
    rw [ht]
    exact ⟨rfl, released_keys _ k, nBit_sub_two_pow hbusy, rfl, tchCounted_fld (u := s.withTch n _) hn hw (.inr (.inl rfl))⟩
  · exact ⟨_, dozeApproach_awake hl hn hstate hpst, tch_withTch_of_ne (fun h => nomatch congrArg Tch.approach h), hstate⟩

end Sys2Proof.Machine
end

section
/-!
PROOFS. Touch scans (O56): a scheduled start (R514, R515, R522, R523), and the end of a scan that is good, in error or a self-test (R509, R516 to R522).
-/

namespace Sys2Proof.Machine

variable {s u : State} {n : Nat} {noisy : Bool} {counts : List Nat}

/-! ### A scheduled start -/

theorem scanStart_skipped (hl : s.live) (hn : n < 8) (hrun : s.tts.running = true) (hdue : s.scanDue (s.tch n) = some noisy) (hscan : (s.tch n).scan = true) :
    exec (.touchScanStart n) s = .next (s.tchCounted n 48 1) := by
  refine (live_next hl (decide_eq_true hn) _).trans (congrArg _ ?_)
  rw [scanStartOp, runAct_ask, hrun, if_neg (by decide), hdue]
  dsimp only
  rw [if_pos hscan, tchCountUp_run hn]

/-- A port in which a scan has begun. -/
def State.scanBegun (s : State) (n : Nat) (noisy : Bool) : Tch :=
  { s.tch n with scan := true, noisy := noisy, testScan := false, woke := (s.tch n).woke || decide (s.tchState n = 3), approach := false }

section
variable (hl : s.live) (hn : n < 8) (hrun : s.tts.running = true) (hdue : s.scanDue (s.tch n) = some noisy) (hscan : (s.tch n).scan = false)
  (hstate : s.tchState n = 2 ∨ (s.tchState n = 3 ∧ (s.tch n).approach = true))
include hl hn hrun hdue hscan hstate

theorem scanStart_scans (hpend : ((s.tch n).pend.find? fun x => tcOp x.2.1 = 1) = none) :
    exec (.touchScanStart n) s = .next ((s.putFld (Reg.tchStatus n) 0 3 2).withTch n (s.scanBegun n noisy)) := by
  refine (live_next hl (decide_eq_true hn) _).trans (congrArg _ ?_)
  rw [scanStartOp, runAct_ask, hrun, if_neg (by decide), hdue]
  dsimp only
  rw [hscan, if_neg (by decide), if_pos (by simpa using hstate), hpend]
  dsimp only
  rw [runAct_acts, tchStatePut_run_left hn, acts_one, tchUpd_run]
  rfl

/-- A pending self-test takes the place of the scan. -/
theorem scanStart_tests {x : Option Nat × List Word × List Word} (hpend : ((s.tch n).pend.find? fun x => tcOp x.2.1 = 1) = some x) :
    exec (.touchScanStart n) s = .next ((s.putFld (Reg.tchStatus n) 0 3 4).withTch n
      { s.scanBegun n noisy with testScan := true, test := some (x.1, x.2.1), pend := (s.tch n).pend.erase x }) := by
  refine (live_next hl (decide_eq_true hn) _).trans (congrArg _ ?_)
  rw [scanStartOp, runAct_ask, hrun, if_neg (by decide), hdue]
  dsimp only
  rw [hscan, if_neg (by decide), if_pos (by simpa using hstate), hpend]
  dsimp only
  rw [runAct_acts, tchStatePut_run_left hn, acts_one, tchUpd_run]
  rfl

end

theorem scanning_ne {t : Tch} (h : t.scan = true) (n : Nat) : t ≠ tchNone n := by
  rintro rfl
  cases h

/-! ### The end of a scan -/

/-- A port whose scan is over. -/
def Tch.scanned (t : Tch) : Tch := { t with scan := false, testScan := false, test := none }

/-- The state when the response of a scan arrives: a self-test's port is ACTIVE again. -/
def State.scanOver (s : State) (n : Nat) : State :=
  if s.tchState n = 4 then (s.withTch n (s.tch n).scanned).putFld (Reg.tchStatus n) 0 3 2 else s.withTch n (s.tch n).scanned

theorem touchScanEnd_run (hl : s.live) (hn : n < 8) (hscan : (s.tch n).scan = true) (ok : Bool) (counts : List Nat) :
    exec (.touchScanEnd n ok counts) s = .next (runAct (acts [actIf (!ok) (scanDiscard n),
      match (s.tch n).test with
      | some x => acts [actIf ok (acts [tchUpd n fun t => { t with bad := 0 }, scanTest n x.1 x.2 counts]), tchEnd n x.1]
      | none => actIf ok (scanGood n counts)]) (s.scanOver n)) := by
  refine (live_next hl (decide_eq_true hn) _).trans (congrArg _ ?_)
  rw [scanEndOp, runAct_ask]
  dsimp only
  rw [hscan, if_neg (by decide), runAct_acts, tchUpd_run_left, runAct_acts, runAct_actIf_left]
  unfold State.scanOver
  by_cases h4 : s.tchState n = 4
  · rw [if_pos h4, if_pos (decide_eq_true h4), tchStatePut_run_left hn]
    rfl
  · rw [if_neg h4, if_neg (by simpa using h4)]
    rfl

/-- What of the state is as before the response, and that the scan is over. -/
structure State.Over (s : State) (n : Nat) (u : State) : Prop where
  awaits : s.Awaits (stTch n) u
  noReset : u.noReset (stTch n)
  mapWf : mapWf tchNone u.med.tch = true
  tch : u.tch n = (s.tch n).scanned
  count : u.rd (Reg.tchCount n) = s.rd (Reg.tchCount n)

theorem noReset_putReg (hno : u.noReset (stTch n)) (hn : n < 8) {off : Nat} (ho : touchRegs off) (v : Word) : (u.putReg off v).noReset (stTch n) := by
  rw [← applyEff_csr (reactReg_touch ho)]
  exact noReset_soft rfl (stTch_lt hn) hno

theorem noReset_withTch (hno : u.noReset (stTch n)) (hn : n < 8) (t : Tch) : (u.withTch n t).noReset (stTch n) :=
  noReset_soft (e := .med fun m => { m with tch := mapPut tchNone n t m.tch }) rfl (stTch_lt hn) hno

theorem scanOver_over (hs : s.Sound) (hn : n < 8) (hno : s.noReset (stTch n)) (hm : mapWf tchNone s.med.tch = true) : s.Over n (s.scanOver n) := by
  have hidle : s.Over n (s.withTch n (s.tch n).scanned) :=
    ⟨⟨withTch_sound hs n _, rfl, fun _ _ => rfl⟩,
      noReset_withTch hno hn _,
      withTch_mapWf hm n _, tch_withTch hm n _, rfl⟩
  unfold State.scanOver
  split
  · obtain ⟨hawaits, hno', hm', ht, hcount⟩ := hidle
    exact ⟨awaits_putTouch hawaits (touchRegs_status hn) _, noReset_putReg hno' hn (touchRegs_status hn) _, hm', ht,
      (rd_putFld_ne _ (by unfold Reg.tchCount Reg.tchStatus; omega) _ _ _).trans hcount⟩
  · exact hidle

/-! ### A response in error (R509) -/

theorem over_counted (hn : n < 8) (hu : s.Over n u) : s.Awaits (stTch n) (u.tchCounted n 0 1) := awaits_putTouch hu.awaits (touchRegs_count hn) _

/-- The state in which the error is recorded. -/
def State.scanFailed (u : State) (n : Nat) : State := runAct (raise (stTch n) 4) (u.tchCounted n 0 1)

theorem scanDiscard_run (hn : n < 8) (hu : s.Over n u) (hbad : (s.tch n).bad ≠ 2) :
    runAct (scanDiscard n) u = (u.scanFailed n).withTch n { (u.scanFailed n).tch n with bad := (s.tch n).bad + 1 } := by
  have hb : (u.tch n).bad = (s.tch n).bad := by
    rw [hu.tch]
    rfl
  rw [scanDiscard, runAct_ask]
  dsimp only
  rw [hb, runAct_acts, tchCountUp_run_left hn, runAct_acts, tchRaise_run_left (by decide) (over_counted hn hu).1.1, runAct_acts, tchUpd_run_left, acts_one,
    decide_eq_false (by omega : ¬ (s.tch n).bad + 1 = 3), if_neg (by omega : ¬ (s.tch n).bad + 1 = 3)]
  rfl

/-- The third in a row fails the link. -/
theorem scanDiscard_third (hn : n < 8) (hu : s.Over n u) (hsound : (u.scanFailed n).Sound) (hbad : (s.tch n).bad = 2) :
    runAct (scanDiscard n) u =
      let v := ((u.scanFailed n).withTch n { (u.scanFailed n).tch n with bad := 0 }).putFld (Reg.tchStatus n) 0 3 5
      (runAct (raise (stTch n) 5) v).withTch n { (runAct (raise (stTch n) 5) v).tch n with failBell := u.tts.bell } := by
  have hb : (u.tch n).bad = (s.tch n).bad := by
    rw [hu.tch]
    rfl
  have hput := putReg_sound (withTch_sound hsound n { (u.scanFailed n).tch n with bad := 0 }) (reactReg_touch (touchRegs_status hn))
  rw [scanDiscard, runAct_ask]
  dsimp only
  rw [hb, hbad, runAct_acts, tchCountUp_run_left hn, runAct_acts, tchRaise_run_left (by decide) (over_counted hn hu).1.1, runAct_acts, tchUpd_run_left, acts_one,
    show (decide (2 + 1 = 3)) = true from rfl, if_pos (by decide : 2 + 1 = 3)]
  change runAct (acts [tchStatePut n 5, raise (stTch n) 5, tchUpd n fun t => { t with failBell := u.tts.bell }]) _ = _
  rw [runAct_acts, tchStatePut_run_left hn, runAct_acts]
  exact (tchRaise_run_left (by decide) (hput _).1 _).trans (tchUpd_run _ _ _)

/-- What the record of the error leaves. -/
theorem scanFailed_leaves (hn : n < 8) (hu : s.Over n u) : s.logs (u.scanFailed n) (stTch n) 4 0 ∧ (u.tchCounted n 0 1).Spared 0x8B819 (stTch n) (u.scanFailed n) :=
  tchRaise_run hn (.inl rfl) (over_counted hn hu) (noReset_putReg hu.noReset hn (touchRegs_count hn) _)

/-! ### A good scan (R516 to R521) -/

/-- Every kind of effect but those that end a step, set a reaction mask or change audio, touch and haptics. -/
def unmoved : Nat := 0x3FFBFF7D

/-- A calm state whose touch port `n` is as `P` says. -/
def State.PortMeets (n : Nat) (P : Tch → Prop) (u : State) : Prop := u.calm ∧ P (u.tch n)

variable {P : Tch → Prop}

theorem portMeets_foot {a : Act} (ha : a.Foot (In unmoved)) : a.Takes (State.PortMeets n P) (State.PortMeets n P) :=
  takes_of_foot ha (fun _ h => h.1) (fun _ he => in_soft rfl he) fun e v he ⟨hc, hp⟩ => by
    have hsoft : e.soft = true := in_soft (T := unmoved) rfl he
    have hmed : (applyEff e v).med = v.med := eff_same (p := .med) he hsoft rfl v
    refine ⟨calm_soft hsoft hc, ?_⟩
    rw [State.tch, hmed]
    exact hp

/-- A haptic channel is changed. -/
theorem hapUpd_portMeets (ch : Nat) (f : Hap → Hap) : (hapUpd ch f).Takes (State.PortMeets n P) (State.PortMeets n P) :=
  takes_ask fun v _ => takes_eff rfl fun _ ⟨hc, hp⟩ =>
    ⟨calm_soft (e := .med fun m => { m with hap := mapPut hapNone ch (f (v.hap ch)) m.hap }) rfl hc, hp⟩

theorem hapRequest_portMeets (ch : Nat) (q : HapReq) : (hapRequest ch q).Takes (State.PortMeets n P) (State.PortMeets n P) := by
  have hcount : ∀ lo, (hapCountUp ch lo).Takes (State.PortMeets n P) (State.PortMeets n P) := fun lo => portMeets_foot (hapCountUp_foot ch lo rfl)
  have hend : ∀ w : HapReq, (playEnd ch w.cmd w.sec 0 fun c => { c with squashed := true }).Takes (State.PortMeets n P) (State.PortMeets n P) := fun w =>
    portMeets_foot (playEnd_foot _ _ _ _ (fun c => { c with squashed := true }) (fun _ => ⟨rfl, rfl, rfl, rfl, fun h => h⟩) rfl)
  have hdrop : (waitDrop ch).Takes (State.PortMeets n P) (State.PortMeets n P) := takes_ask fun _ _ => takes_actOpt fun w _ =>
    takes_acts_cons (takes_ite (fun _ => hend w) fun _ => hcount 0) (hapUpd_portMeets ch _)
  exact takes_ask fun _ _ => takes_ite (fun _ => hcount 0) fun _ =>
    takes_acts_cons hdrop (takes_acts_cons (hapUpd_portMeets ch _) (portMeets_foot (hapStatusPut_foot ch rfl)))

theorem passHits_portMeets (hs : List (Nat × Nat × Nat)) : (passHits hs).Takes (State.PortMeets n P) (State.PortMeets n P) :=
  takes_each fun _ _ => takes_actOpt fun _ _ => hapRequest_portMeets _ _

/-- The port takes a new record while nothing else of audio, touch and haptics has changed. -/
theorem tchUpd_portMeets {v : State} {f : Tch → Tch} (hm : mapWf tchNone v.med.tch = true) (hp : P (f (v.tch n))) :
    (tchUpd n f).Takes (State.Spared unmoved v (stTch n)) (State.PortMeets n P) :=
  takes_ask_at fun _ hw => takes_eff rfl fun x hx => by
    subst hx
    have hmed : x.med = v.med := hw.same .med rfl
    refine ⟨calm_soft (e := .med fun m => { m with tch := mapPut tchNone n (f (x.tch n)) m.tch }) rfl hw.sound.1, ?_⟩
    change P ((x.withTch n (f (x.tch n))).tch n)
    rw [tch_withTch (hmed ▸ hm), State.tch, hmed]
    exact hp

/-- What a good scan leaves of a port. -/
structure Tch.Scans (t : Tch) (counts : List Nat) (t' : Tch) : Prop where
  scan : t'.scan = t.scan
  bad : t'.bad = 0
  fresh : t'.fresh = false
  raw : t'.raw = (List.range (pnNodes t.panel + pnSelf t.panel)).map (fun i => counts.getD i 0 % 65536)
  keys : t'.keys = touchedMask t.panel (signals t.panel (if t.fresh then t'.raw else t.base) t'.raw) (if t.fresh then 0 else t.keys)

theorem scanGood_takes (hn : n < 8) (hs : u.Sound) (hno : u.noReset (stTch n)) (hm : mapWf tchNone u.med.tch = true) :
    (u.tch n).Scans counts ((runAct (scanGood n counts) u).tch n) := by
  have hcount : ∀ k, (tchCountUp n 16 k).Takes (State.Spared unmoved u (stTch n)) (State.Spared unmoved u (stTch n)) := fun k =>
    spared_foot rfl (stTch_lt hn) (tchCountUp_foot n 16 k rfl)
  have hreport : ∀ b ws seq, (actIf b (reportPut n ws seq)).Takes (State.Spared unmoved u (stTch n)) (State.Spared unmoved u (stTch n)) := fun b ws seq =>
    takes_actIf fun _ => reportPut_spared rfl rfl hn ws seq
  have htick : (Act.eff .tick).Takes (State.PortMeets n ((u.tch n).Scans counts)) (State.PortMeets n ((u.tch n).Scans counts)) :=
    portMeets_foot (by simp [unmoved])
  have hall : (scanGood n counts).Takes (· = u) (State.PortMeets n ((u.tch n).Scans counts)) := takes_ask_at fun v hv => by
    subst hv
    refine Act.Takes.weaken (J := State.Spared unmoved v (stTch n)) (takes_acts_cons (hcount _) (takes_acts_cons (hreport _ _ _)
      (takes_acts_cons (tchUpd_portMeets hm ?_) (takes_acts_cons htick (passHits_portMeets _))))) (fun x hx => ?_) fun _ h => h
    · exact ⟨rfl, rfl, rfl, rfl, rfl⟩
    · subst hx
      exact spared_self hs hno
  exact (hall.run rfl).2

/-! ### A self-test (R522) -/

/-- The counts of a self-test, and the channels that lie outside its limits. -/
def Tch.testCounts (t : Tch) (counts : List Nat) : List Nat := (List.range (pnCols t.panel + pnSelf t.panel)).map fun i => counts.getD i 0 % 65536
def Tch.testBad (t : Tch) (ws : List Word) (counts : List Nat) : List Nat := (List.range (pnCols t.panel + pnSelf t.panel)).filter fun i =>
  decide ((t.testCounts counts).getD i 0 < fw ws 2 0 16) || decide (fw ws 2 16 16 < (t.testCounts counts).getD i 0)

theorem tchTest_impl : ∀ n < 8, nBits (regImpl (Reg.tchTest n) % 2 ^ 64) 0 8 = 2 ^ 8 - 1 ∧ nBits (regImpl (Reg.tchTest n) % 2 ^ 64) 8 8 = 2 ^ 8 - 1 := by
  decide +kernel

/-- The result tells how many channels lie outside the limits, and the first of them. -/
theorem testResult_reads (hn : n < 8) (hw : u.wf = true) (k first : Nat) :
    (u.putFld (Reg.tchTest n) 0 16 (k % 256 + first * 2 ^ 8)).fld (Reg.tchTest n) 0 8 = k % 256
      ∧ (u.putFld (Reg.tchTest n) 0 16 (k % 256 + first * 2 ^ 8)).fld (Reg.tchTest n) 8 8 = first % 256 := by
  obtain ⟨hlow, hhigh⟩ := tchTest_impl n hn
  rw [fld_putFld_within hw (by decide) (by decide) (by decide) hlow, fld_putFld_within hw (by decide) (by decide) (by decide) hhigh]
  simp only [nBits, Nat.shiftRight_eq_div_pow]
  omega

theorem scanTest_run (hn : n < 8) (cmd : Option Nat) (ws : List Word) (hs : u.Sound) (hno : u.noReset (stTch n)) :
    ∃ v, u.Spared 0x8B819 (stTch n) v ∧ runAct (scanTest n cmd ws counts) u =
      runAct (actIf (!((u.tch n).testBad ws counts).isEmpty) (raise (stTch n) 6))
        (v.putFld (Reg.tchTest n) 0 16 (((u.tch n).testBad ws counts).length % 256 + ((u.tch n).testBad ws counts).headD 0xFF * 2 ^ 8)) := by
  have hstore := tchStore_spared (s := u) (T := 0x8B819) rfl rfl hn (cmd.bind fun id => (u.cmd? id).map Cmd.seat) (fw ws 3 0 64) ((((u.tch n).testCounts counts).map (leBytes 2)).flatten)
  refine ⟨_, hstore.run (spared_self hs hno), ?_⟩
  rw [scanTest, runAct_ask]
  exact (runAct_takes_cons hstore (spared_self hs hno) _).trans
    ((runAct_acts _ _ _).trans (setFld_run_left _ _ _ _ _ _ (reactReg_touch (touchRegs_test hn))))

/-- What the end of a TCH_CONFIG leaves. -/
theorem tchEnd_leaves (hn : n < 8) (cmd : Option Nat) (hc : u.calm) :
    (runAct (tchEnd n cmd) u).tch n = u.tch n ∧ (runAct (tchEnd n cmd) u).rd (Reg.tchTest n) = u.rd (Reg.tchTest n) := by
  rw [tchEnd, runAct_ask]
  cases cmd with
  | some id =>
    obtain ⟨-, hsame⟩ := runAct_same (T := 0x600) rfl
      (cmdEnd_foot id (fun c => { c with unitsDone := 1000, detail := u.tts.bell % 2 ^ 32 }) (fun _ => ⟨rfl, rfl, rfl, rfl, fun h => h⟩) rfl) hc
    have hmed : Part.med.same u _ := hsame .med rfl
    have hlow : Part.lowRegisters.same u _ := hsame .lowRegisters rfl
    exact ⟨congrArg (fun m : Med => mapGet tchNone n m.tch) hmed, hlow _ (by unfold Reg.tchTest; omega) (by unfold Reg.tchTest Reg.fltPin; omega)⟩
  | none =>
    dsimp only
    rw [setFld_run _ _ _ _ _ (reactReg_low (by unfold Reg.tchSecqStatus; omega))]
    exact ⟨rfl, rd_putFld_ne u (by unfold Reg.tchTest Reg.tchSecqStatus; omega) _ _ _⟩

theorem testEnds (hn : n < 8) (cmd : Option Nat) (ws : List Word) (hs : u.Sound) (hno : u.noReset (stTch n)) {t : State}
    (ht : t = runAct (acts [scanTest n cmd ws counts, tchEnd n cmd]) u) : t.tch n = u.tch n
      ∧ t.fld (Reg.tchTest n) 0 8 = ((u.tch n).testBad ws counts).length % 256 ∧ t.fld (Reg.tchTest n) 8 8 = ((u.tch n).testBad ws counts).headD 0xFF % 256 := by
  obtain ⟨v, hv, hrun⟩ := scanTest_run hn cmd ws hs hno (counts := counts)
  let w := v.putFld (Reg.tchTest n) 0 16 (((u.tch n).testBad ws counts).length % 256 + ((u.tch n).testBad ws counts).headD 0xFF * 2 ^ 8)
  have hw : w.Sound := putReg_sound hv.sound (reactReg_touch (touchRegs_test hn)) _
  have hraise : w.Spared 0x8B819 (stTch n) (runAct (scanTest n cmd ws counts) u) := by
    rw [hrun]
    exact (takes_actIf fun _ => raiseSrc_spared rfl rfl (stTch_lt hn) (gravest_tch n (by decide))).run
      (spared_self hw (noReset_putReg hv.noReset hn (touchRegs_test hn) _))
  obtain ⟨hport, htest⟩ := tchEnd_leaves hn cmd hraise.sound.1
  rw [runAct_acts, runAct_seq (T := 0x300FFE19) rfl (scanTest_foot n cmd ws counts rfl) _ hs.1, acts_one] at ht
  subst ht
  obtain ⟨hlength, hfirst⟩ := testResult_reads hn hv.sound.2 ((u.tch n).testBad ws counts).length (((u.tch n).testBad ws counts).headD 0xFF)
  refine ⟨hport.trans ((spared_tch hraise n).trans (spared_tch hv n)), ?_, ?_⟩
  · rw [State.fld, htest, spared_touch hraise (touchRegs_test hn)]
    exact hlength
  · rw [State.fld, htest, spared_touch hraise (touchRegs_test hn)]
    exact hfirst

/-! ### Both -/

theorem scanEnd_good (hl : s.live) (hs : s.Sound) (hn : n < 8) (hno : s.noReset (stTch n)) (hm : mapWf tchNone s.med.tch = true)
    (hscan : (s.tch n).scan = true) (htest : (s.tch n).test = none) :
    ∃ t, exec (.touchScanEnd n true counts) s = .next t ∧ (s.tch n).scanned.Scans counts (t.tch n) := by
  have hu := scanOver_over hs hn hno hm
  refine ⟨_, touchScanEnd_run hl hn hscan true counts, ?_⟩
  rw [htest, ← hu.tch]
  exact scanGood_takes hn hu.awaits.1 hu.noReset hu.mapWf

theorem scanEnd_failed (hl : s.live) (hn : n < 8) (hscan : (s.tch n).scan = true) (htest : (s.tch n).test = none) :
    exec (.touchScanEnd n false counts) s = .next (runAct (scanDiscard n) (s.scanOver n)) := by
  rw [touchScanEnd_run hl hn hscan, htest]
  exact congrArg _ (runAct_skip_right _ _)

theorem scanEnd_tested (hl : s.live) (hn : n < 8) (hscan : (s.tch n).scan = true) {x : Option Nat × List Word} (htest : (s.tch n).test = some x) :
    exec (.touchScanEnd n true counts) s =
      .next (runAct (acts [scanTest n x.1 x.2 counts, tchEnd n x.1]) ((s.scanOver n).withTch n { (s.scanOver n).tch n with bad := 0 })) := by
  rw [touchScanEnd_run hl hn hscan, htest]
  change Host.Outcome.next (runAct (acts [.skip, acts [acts [tchUpd n fun t => { t with bad := 0 }, scanTest n x.1 x.2 counts], tchEnd n x.1]]) _) = _
  rw [runAct_acts, runAct_skip_left, acts_one, runAct_acts, runAct_acts_left, tchUpd_run_left]
  rfl

/-- The record of the error leaves the ports. -/
theorem scanFailed_port (hn : n < 8) (hu : s.Over n u) : mapWf tchNone (u.scanFailed n).med.tch = true ∧ (u.scanFailed n).tch n = (s.tch n).scanned := by
  have hfailed := (scanFailed_leaves hn hu).2
  exact ⟨(spared_med hfailed).symm ▸ hu.mapWf, (spared_tch hfailed n).trans hu.tch⟩

theorem scanEnd_erred (hl : s.live) (hs : s.Sound) (hn : n < 8) (hno : s.noReset (stTch n)) (hm : mapWf tchNone s.med.tch = true)
    (hscan : (s.tch n).scan = true) (htest : (s.tch n).test = none) (hbad : (s.tch n).bad ≠ 2) :
    ∃ t, exec (.touchScanEnd n false counts) s = .next t
      ∧ t.tch n = { s.tch n with scan := false, testScan := false, test := none, bad := (s.tch n).bad + 1 } ∧ s.logs t (stTch n) 4 0
      ∧ t.fld (Reg.tchCount n) 0 16 = min (s.fld (Reg.tchCount n) 0 16 + 1) 0xFFFF := by
  have hu := scanOver_over hs hn hno hm
  obtain ⟨hlogs, hfailed⟩ := scanFailed_leaves hn hu
  obtain ⟨hm', hport⟩ := scanFailed_port hn hu
  refine ⟨_, (scanEnd_failed hl hn hscan htest).trans (congrArg _ (scanDiscard_run hn hu hbad)), (tch_withTch hm' n _).trans ?_, hlogs, ?_⟩
  · rw [hport]
    rfl
  · change ((s.scanOver n).scanFailed n).fld (Reg.tchCount n) 0 16 = _
    rw [State.fld, spared_touch hfailed (touchRegs_count hn)]
    refine (tchCounted_fld hn hu.awaits.1.2 (.inl rfl)).trans ?_
    rw [State.fld, hu.count, State.fld]

theorem scanEnd_third (hl : s.live) (hs : s.Sound) (hn : n < 8) (hno : s.noReset (stTch n)) (hm : mapWf tchNone s.med.tch = true)
    (hscan : (s.tch n).scan = true) (htest : (s.tch n).test = none) (hbad : (s.tch n).bad = 2) :
    ∃ t, exec (.touchScanEnd n false counts) s = .next t ∧ t.tchState n = 5 ∧ (t.tch n).bad = 0 ∧ (t.tch n).scan = false
      ∧ (t.tch n).failBell = s.tts.bell := by
  have hu := scanOver_over hs hn hno hm
  have hsound : ((s.scanOver n).scanFailed n).Sound := (scanFailed_leaves hn hu).2.sound
  have hno' := (scanFailed_leaves hn hu).2.noReset
  obtain ⟨hm', hport⟩ := scanFailed_port hn hu
  let v := (((s.scanOver n).scanFailed n).withTch n { ((s.scanOver n).scanFailed n).tch n with bad := 0 }).putFld (Reg.tchStatus n) 0 3 5
  have hv : v.Sound := putReg_sound (withTch_sound hsound n _) (reactReg_touch (touchRegs_status hn)) _
  obtain ⟨-, hdown⟩ := tchRaise_run hn (.inr (.inl rfl)) (awaits_self hv) (noReset_putReg (noReset_withTch hno' hn _) hn (touchRegs_status hn) _)
  have hfailing : (runAct (raise (stTch n) 5) v).tch n = { (s.tch n).scanned with bad := 0 } := by
    rw [spared_tch hdown]
    refine (tch_withTch hm' n _).trans ?_
    rw [hport]
  have hread := tch_withTch (u := runAct (raise (stTch n) 5) v) ((spared_med hdown).symm ▸ withTch_mapWf hm' n _) n
    { (runAct (raise (stTch n) 5) v).tch n with failBell := (s.scanOver n).tts.bell }
  refine ⟨_, (scanEnd_failed hl hn hscan htest).trans (congrArg _ (scanDiscard_third hn hu hsound hbad)), ?_, ?_⟩
  · change (runAct (raise (stTch n) 5) v).fld (Reg.tchStatus n) 0 3 = 5
    rw [State.fld, spared_touch hdown (touchRegs_status hn)]
    exact tchState_put hn (withTch_sound hsound n _).2 (by decide)
  · rw [hread, hfailing]
    exact ⟨rfl, rfl, hu.awaits.2.1⟩

/-- Settles O56: a start by what the port does, the end of a scan by its response (`scanGood_takes`, `scanEnd_erred`, `scanEnd_third`, `testEnds`). -/
theorem panelScans : Obligations.PanelScans := by
  refine ⟨fun n noisy s hl hw hn hrun hdue => ⟨fun hscan => ?_, fun hscan hstate => ⟨fun hpend => ?_, fun x hpend => ?_⟩⟩,
    fun n counts s hl hc hw hn hno hm hscan => ⟨fun htest => ?_, scanEnd_erred hl ⟨hc, hw⟩ hn hno hm hscan, scanEnd_third hl ⟨hc, hw⟩ hn hno hm hscan,
      fun x htest => ?_⟩⟩
  · exact ⟨_, scanStart_skipped hl hn hrun hdue hscan, rfl, tchCounted_fld hn hw (.inr (.inr rfl))⟩
  · exact ⟨_, scanStart_scans hl hn hrun hdue hscan hstate hpend, tchState_put hn hw (by decide), tch_withTch_of_ne (scanning_ne rfl n)⟩
  · refine ⟨_, scanStart_tests hl hn hrun hdue hscan hstate hpend, tchState_put hn hw (by decide), ?_⟩
    rw [tch_withTch_of_ne (scanning_ne rfl n)]
    exact ⟨rfl, rfl, rfl, rfl⟩
  · obtain ⟨t, ht, hover, hbad, hfresh, hraw, hkeys⟩ := scanEnd_good (counts := counts) hl ⟨hc, hw⟩ hn hno hm hscan htest
    exact ⟨t, ht, hover, hbad, hfresh, hraw, hkeys⟩
  · have hu := scanOver_over ⟨hc, hw⟩ hn hno hm
    let v := (s.scanOver n).withTch n { (s.scanOver n).tch n with bad := 0 }
    have hport : v.tch n = { (s.tch n).scanned with bad := 0 } := (tch_withTch hu.mapWf n _).trans (by rw [hu.tch])
    obtain ⟨hkept, hlength, hfirst⟩ := testEnds (counts := counts) hn x.1 x.2 (withTch_sound hu.awaits.1 n _) (noReset_withTch hu.noReset hn _)
      (t := runAct (acts [scanTest n x.1 x.2 counts, tchEnd n x.1]) v) rfl
    refine ⟨_, scanEnd_tested hl hn hscan htest, congrArg Tch.scan (hkept.trans hport), congrArg Tch.test (hkept.trans hport), ?_⟩
    rw [hlength, hfirst, hport]
    simp only [List.length_map, List.length_range]
    exact ⟨rfl, rfl⟩

end Sys2Proof.Machine
end

section
/-!
PROOFS. What programs leave of the outstanding commands: those that have ended, those that are there. Haptic channels and their effect slots (O57): loads
and clears, start requests (R526, R527, R532), and what a frame sends (R528, R530, R533).
-/

namespace Sys2Proof.Machine

variable {s u : State} {id ch volt : Nat} {c : Cmd}

/-! ### Outstanding commands -/

/-- A state as far on as `s` or farther: audio, touch and haptics as in `s`, every command of `s` still there, every one that had ended ended. -/
structure State.Onward (s u : State) : Prop where
  med : u.med = s.med
  known : ∀ k, (s.cmd? k).isSome = true → (u.cmd? k).isSome = true
  ended : ∀ k, s.ends k → u.ends k

theorem onward_self (s : State) : s.Onward s := ⟨rfl, fun _ h => h, fun _ h => h⟩

theorem Onward.trans {t : State} (h : s.Onward t) (h' : t.Onward u) : s.Onward u :=
  ⟨h'.med.trans h.med, fun k hk => h'.known k (h.known k hk), fun k hk => h'.ended k (h.ended k hk)⟩

/-- A change of neither commands nor audio, touch and haptics. -/
theorem eff_onward {e : Eff} (he : e.halts = false) (h : ∀ u, (applyEff e u).cfe = u.cfe ∧ (applyEff e u).med = u.med) : (Act.eff e).Takes s.Onward s.Onward :=
  takes_eff he fun u hu => by
    obtain ⟨hcfe, hmed⟩ := h u
    have hcmd : ∀ k, (applyEff e u).cmd? k = u.cmd? k := fun k => by rw [State.cmd?, hcfe, State.cmd?]
    exact ⟨hmed.trans hu.med, fun k hk => hcmd k ▸ hu.known k hk, fun k hk => by
      rw [State.ends, hcmd]
      exact hu.ended k hk⟩

theorem setFld_onward (off lo w x : Nat) : (setFld off lo w x).Takes s.Onward s.Onward := takes_ask fun _ _ => eff_onward rfl fun _ => ⟨rfl, rfl⟩

theorem sharesFree_onward (k : Nat) : (sharesFree k).Takes s.Onward s.Onward := takes_ask fun _ _ => eff_onward rfl fun _ => ⟨rfl, rfl⟩

/-- What becomes of each command when one is changed. -/
theorem cmd?_cmdUpd_map {f : Cmd → Cmd} (hid : ∀ x, (f x).id = x.id) (u : State) (k j : Nat) :
    (runAct (cmdUpd k f) u).cmd? j = (u.cmd? j).map fun x => if x.id = k then f x else x := by
  have hkey : ((fun x : Cmd => decide (x.id = j)) ∘ fun x => if x.id = k then f x else x) = fun x => decide (x.id = j) := by
    funext x
    by_cases hx : x.id = k <;> simp [hx, hid]
  simp only [cmdUpd, runAct_eff, applyEff, State.cmd?, mapIf, List.find?_map, decide_eq_true_eq, hkey]

/-- A change of a command after which it has ended, if it had. -/
theorem cmdUpd_onward {f : Cmd → Cmd} (hid : ∀ x, (f x).id = x.id) (hend : ∀ x : Cmd, x.stage = .ended → (f x).stage = .ended) (k : Nat) :
    (cmdUpd k f).Takes s.Onward s.Onward := fun u hu => by
  have hmap := fun j => cmd?_cmdUpd_map hid u k j
  refine ⟨rfl, hu.med, fun j hj => ?_, fun j hj => ?_⟩
  · change ((runAct (cmdUpd k f) u).cmd? j).isSome = true
    rw [hmap, Option.isSome_map]
    exact hu.known j hj
  · obtain ⟨x, hx, hstage⟩ := hu.ended j hj
    refine ⟨if x.id = k then f x else x, (hmap j).trans (by rw [hx]; rfl), ?_⟩
    split
    · exact hend x hstage
    · exact hstage

theorem cmdEnd_onward {f : Cmd → Cmd} (hid : ∀ x, (f x).id = x.id) (k : Nat) : (cmdEnd k f).Takes s.Onward s.Onward :=
  takes_onCmd fun v _ _ => takes_ite (fun _ => takes_skip) fun _ =>
    takes_acts_cons (cmdUpd_onward (f := fun c => (f c).endedIn v.tts.bell v.cfe.nextId) hid (fun _ _ => rfl) k) (sharesFree_onward k)

/-- A command that is there has ended after its end. -/
theorem cmdEnd_ends {f : Cmd → Cmd} (hid : ∀ x, (f x).id = x.id) {k : Nat} (hk : (s.cmd? k).isSome = true) :
    (cmdEnd k f).Takes s.Onward fun u => s.Onward u ∧ u.ends k := fun u hu => by
  refine ⟨(cmdEnd_onward hid k u hu).1, (cmdEnd_onward hid k u hu).2, ?_⟩
  obtain ⟨x, hx⟩ := Option.isSome_iff_exists.mp (hu.known k hk)
  change (runAct (cmdEnd k f) u).ends k
  rw [cmdEnd, onCmd, runAct_ask, hx]
  dsimp only
  by_cases hstage : x.stage = .ended
  · rw [if_pos hstage]
    exact ⟨x, hx, hstage⟩
  · rw [if_neg hstage, runAct_acts]
    have hfound := cmd?_cmdUpd (f := fun c => (f c).endedIn u.tts.bell u.cfe.nextId) hid hx
    exact ⟨_, hfound, rfl⟩

/-! ### The state of a channel -/

/-- The state with a haptic channel replaced. -/
def State.withHap (s : State) (ch : Nat) (h : Hap) : State := { s with med := { s.med with hap := mapPut hapNone ch h s.med.hap } }

theorem hapUpd_run (ch : Nat) (f : Hap → Hap) (u : State) : runAct (hapUpd ch f) u = u.withHap ch (f (u.hap ch)) := by
  rw [hapUpd, runAct_ask, runAct_eff]
  rfl

theorem hapUpd_run_left (ch : Nat) (f : Hap → Hap) (a : Act) (u : State) : runAct (.seq (hapUpd ch f) a) u = runAct a (u.withHap ch (f (u.hap ch))) := by
  rw [hapUpd, runAct_ask_left, runAct_eff_left _ _ _ rfl]
  rfl

theorem hap_withHap (hm : mapWf hapNone u.med.hap = true) (ch : Nat) (h : Hap) : (u.withHap ch h).hap ch = h := mapGet_put_wf _ _ _ _ hm

/-- A channel that is not as a reset leaves it is read back, however the channels are kept. -/
theorem hap_withHap_of_ne {h : Hap} (hh : h ≠ hapNone ch) : (u.withHap ch h).hap ch = h := mapGet_put_of_ne_default hh _

/-! ### HAP_EFFECT_LOAD and HAP_EFFECT_CLEAR (R526) -/

/-- A command as its load or clear of `n` bytes ends it. -/
def Cmd.slotDone (c : Cmd) (n : Nat) : Cmd := { c with unitsDone := 1000, detail := n }

/-- The channel after its slot has taken a descriptor. -/
def State.slotTaken (s : State) (c : Cmd) (n : Nat) : State :=
  s.withHap (c.f 1 0 3) { s.hap (c.f 1 0 3) with
    effects := mapPut (fun _ => []) (c.f 1 8 6) (if n = 0 then [] else c.res.map (BitVec.ofNat 64)) (s.hap (c.f 1 0 3)).effects }

theorem effectRun_leaves {n : Nat} (hc : s.cmd? id = some c) (hstage : c.stage = .started) (hop : c.op = 0x0710) (hn : c.f 3 0 32 = n) :
    ∃ bell next, (runAct (effectRun id n) s).med = (s.slotTaken c n).med
      ∧ (runAct (effectRun id n) s).cmd? id = some ((c.slotDone n).endedIn bell next) := by
  have hslot : runAct (effectRun id n) s = runAct (acts [cmdEnd id fun c => c.slotDone n, overUpdate c.seat]) (s.slotTaken c n) := by
    rw [effectRun, onCmd, runAct_ask, hc]
    dsimp only
    rw [runAct_actIf, if_pos (by simp [hop, hstage, hn]), runAct_acts, slotPut, hapUpd_run_left]
    rfl
  have hend := (cmdEnd_loading (ps := s.vid.progs) (id := id) (c := c) (f := fun c => c.slotDone n) (fun _ => rfl) (by rw [hstage]; decide)).both
    (cmdEnd_onward (s := s.slotTaken c n) (f := fun c => c.slotDone n) (fun _ => rfl) id)
  have hself : State.Loading s.vid.progs id c (s.slotTaken c n) ∧ (s.slotTaken c n).Onward (s.slotTaken c n) := ⟨⟨rfl, hc⟩, onward_self _⟩
  obtain ⟨⟨bell, next, hload⟩, honward⟩ := hend.run hself
  obtain ⟨hload', honward'⟩ := ((overUpdate_loading c.seat).both (takes_ask fun _ _ => setFld_onward _ _ _ _)).run ⟨hload, honward⟩
  rw [hslot, runAct_takes_cons hend hself, acts_one]
  exact ⟨bell, next, honward'.med, hload'.cmd⟩

theorem effectSlot_run {i : Instr} {n : Nat} (hl : s.live) (hi : (i = .hapEffectLoad id ∧ n = 32) ∨ (i = .hapEffectClear id ∧ n = 0)) :
    exec i s = .next (runAct (effectRun id n) s) := by
  rcases hi with ⟨rfl, rfl⟩ | ⟨rfl, rfl⟩
  · exact live_next hl rfl _
  · exact live_next hl rfl _

/-- Each slot of the channel: the one that was written, the others. -/
theorem slotTaken_effects {t : State} {n : Nat} (hm : mapWf hapNone s.med.hap = true) (hslots : mapWf (fun _ => []) (s.hap (c.f 1 0 3)).effects = true)
    (ht : t.med = (s.slotTaken c n).med) :
    t.hapEffect (c.f 1 0 3) (c.f 1 8 6) = (if n = 0 then [] else c.res.map (BitVec.ofNat 64))
      ∧ ∀ k, k ≠ c.f 1 8 6 → t.hapEffect (c.f 1 0 3) k = s.hapEffect (c.f 1 0 3) k := by
  have hhap : t.hap (c.f 1 0 3) = (s.slotTaken c n).hap (c.f 1 0 3) := congrArg (fun m : Med => mapGet hapNone (c.f 1 0 3) m.hap) ht
  have hread : t.hap (c.f 1 0 3) = _ := hhap.trans (hap_withHap hm (c.f 1 0 3) _)
  simp only [State.hapEffect, hread]
  exact ⟨mapGet_put_wf _ _ _ _ hslots, fun k hk => mapGet_put_ne _ hk _ _⟩

/-! ### HAP_PLAY (R527, R532) -/

/-- A drive that a request cuts short. -/
def HapPlay.cut (p : HapPlay) : HapPlay := if p.phase = 1 then { p with cutShort := true } else p

/-- A channel that still plays what it played, its waiting HAP_PLAY ended. -/
def State.Freed (s : State) (ch : Nat) (u : State) : Prop :=
  (∀ p, (s.hap ch).play = some p → (u.hap ch).play = some p)
    ∧ ∀ w k, (s.hap ch).wait = some w → w.cmd = some k → (s.cmd? k).isSome = true → u.ends k

/-- A channel on which a request waits, the drive at play cut short. -/
def State.Asked (s : State) (ch : Nat) (q : HapReq) (u : State) : Prop :=
  (u.hap ch).wait = some q ∧ (∀ p, (s.hap ch).play = some p → (u.hap ch).play = some p.cut)
    ∧ ∀ w k, (s.hap ch).wait = some w → w.cmd = some k → (s.cmd? k).isSome = true → u.ends k

theorem playEnd_ends (cmd : Option Nat) (sec : Bool) (onset : Nat) {f : Cmd → Cmd} (hf : ∀ x, (f x).id = x.id) :
    (playEnd ch cmd sec onset f).Takes s.Onward fun u => s.Onward u ∧ ∀ k, cmd = some k → (s.cmd? k).isSome = true → u.ends k := by
  have hstatus : (acts [actIf sec (.ask fun s => setFld (Reg.hapSecqStatus ch) 0 10 (4 * (f (cmdNew s 0 0 [])).finalStatus))]).Takes
      (fun u => s.Onward u ∧ ∀ k, cmd = some k → (s.cmd? k).isSome = true → u.ends k)
      fun u => s.Onward u ∧ ∀ k, cmd = some k → (s.cmd? k).isSome = true → u.ends k :=
    takes_actIf fun _ => takes_ask fun _ _ => (setFld_onward _ _ _ _).both (takes_ask fun _ _ => takes_eff rfl fun _ h => h)
  refine takes_acts_cons ?_ hstatus
  cases cmd with
  | none => exact takes_skip.weaken (fun _ h => h) fun _ h => ⟨h, nofun⟩
  | some id =>
    change (cmdEnd id fun c => { f c with unitsDone := 1000, detail := onset % 2 ^ 32 }).Takes _ _
    by_cases hknown : (s.cmd? id).isSome = true
    · refine (cmdEnd_ends (f := fun c => { f c with unitsDone := 1000, detail := onset % 2 ^ 32 }) hf hknown).weaken (fun _ h => h) fun u h => ⟨h.1, ?_⟩
      rintro k ⟨rfl⟩ -
      exact h.2
    · refine (cmdEnd_onward (f := fun c => { f c with unitsDone := 1000, detail := onset % 2 ^ 32 }) hf id).weaken (fun _ h => h) fun u h => ⟨h, ?_⟩
      rintro k ⟨rfl⟩ hk
      exact absurd hk hknown

theorem waitDrop_takes : (waitDrop ch).Takes s.Onward (s.Freed ch) := by
  refine takes_ask_at fun u hu => ?_
  have hhap : u.hap ch = s.hap ch := by rw [State.hap, hu.med, State.hap]
  cases hwait : (u.hap ch).wait with
  | none =>
    refine takes_skip.weaken (fun _ h => h) fun v hv => ?_
    rw [show v = u from hv]
    exact ⟨fun p hp => hhap.symm ▸ hp, fun w k hw => nomatch hw.symm.trans ((congrArg Hap.wait hhap).symm.trans hwait)⟩
  | some w =>
    have hfirst : (if w.cmd.isSome || w.sec then playEnd ch w.cmd w.sec 0 fun c => { c with squashed := true } else hapCountUp ch 0).Takes
        s.Onward fun u => s.Onward u ∧ ∀ k, w.cmd = some k → (s.cmd? k).isSome = true → u.ends k := by
      refine takes_ite (fun _ => playEnd_ends _ _ _ fun _ => rfl) fun hnone => ?_
      have hno : w.cmd = none := by
        rw [Bool.or_eq_true, not_or, Bool.not_eq_true, Option.isSome_eq_false_iff, Option.isNone_iff_eq_none] at hnone
        exact hnone.1
      exact (show (hapCountUp ch 0).Takes s.Onward s.Onward from takes_ask fun _ _ => setFld_onward _ _ _ _).weaken (fun _ h => h)
        fun _ h => ⟨h, fun k hk => absurd (hno.symm.trans hk) nofun⟩
    have hclear : (hapUpd ch fun h => { h with wait := none }).Takes
        (fun u => s.Onward u ∧ ∀ k, w.cmd = some k → (s.cmd? k).isSome = true → u.ends k) (s.Freed ch) := fun v ⟨hv, hends⟩ => by
      refine ⟨rfl, fun p hp => ?_, fun w' k hw' hk hknown => ?_⟩
      · have hplay : (v.hap ch).play = some p := by rw [State.hap, hv.med, ← State.hap, hp]
        have hne : ({ v.hap ch with wait := none } : Hap) ≠ hapNone ch := fun h =>
          nomatch hplay.symm.trans (show (v.hap ch).play = none from congrArg Hap.play h)
        change ((runAct (hapUpd ch fun h => { h with wait := none }) v).hap ch).play = some p
        rw [hapUpd_run, hap_withHap_of_ne hne]
        exact hplay
      · obtain rfl : w = w' := Option.some.inj ((hhap ▸ hwait).symm.trans hw')
        exact hends k hk hknown
    exact (takes_acts_cons hfirst hclear).weaken (fun _ h => h ▸ hu) fun _ h => h

/-- A request that is no hit waits on its channel. -/
theorem hapRequest_asks (q : HapReq) (hq : q.cmd.isNone = false) : (hapRequest ch q).Takes s.Onward (s.Asked ch q) := by
  have hask : (hapUpd ch fun h => { h with wait := some q, play := h.play.map HapPlay.cut }).Takes (s.Freed ch) (s.Asked ch q) := fun v ⟨hplay, hends⟩ => by
    have hne : ({ v.hap ch with wait := some q, play := (v.hap ch).play.map HapPlay.cut } : Hap) ≠ hapNone ch := fun h => nomatch congrArg Hap.wait h
    have hread : (runAct (hapUpd ch fun h => { h with wait := some q, play := h.play.map HapPlay.cut }) v).hap ch =
        { v.hap ch with wait := some q, play := (v.hap ch).play.map HapPlay.cut } := by
      rw [hapUpd_run, hap_withHap_of_ne hne]
    refine ⟨rfl, congrArg Hap.wait hread, fun p hp => (congrArg Hap.play hread).trans ?_, fun w k hw hk hknown => hends w k hw hk hknown⟩
    rw [hplay p hp]
    rfl
  have hset : ∀ off lo w x, (setFld off lo w x).Takes (s.Asked ch q) (s.Asked ch q) := fun _ _ _ _ => takes_ask fun _ _ => takes_eff rfl fun _ h => h
  have hput : (hapStatusPut ch).Takes (s.Asked ch q) (s.Asked ch q) := takes_ask fun _ _ => takes_acts_cons (hset _ _ _ _) (hset _ _ _ _)
  refine takes_ask fun u _ => ?_
  dsimp only
  rw [hq, Bool.false_and, Bool.false_and, if_neg (by decide)]
  exact takes_acts_cons waitDrop_takes (takes_acts_cons hask hput)

end Sys2Proof.Machine
end

section
/-!
PROOFS. A frame of a haptic channel (O57): it is counted, and what it sends (R528, R530, R533).
-/

namespace Sys2Proof.Machine

variable {s u : State} {id ch volt : Nat} {c : Cmd} {P Q : Hap → Prop}

/-! ### Programs that change what a channel plays -/

/-- A calm state in which no fault resets channel `ch`, and which has it as `P` says. -/
structure State.ChannelMeets (ch : Nat) (P : Hap → Prop) (u : State) : Prop where
  calm : u.calm
  noReset : u.noReset (stHap ch)
  mapWf : mapWf hapNone u.med.hap = true
  meets : P (u.hap ch)

/-- What is said of a channel apart from what it plays and what waits. -/
def Hap.Steady (P : Hap → Prop) : Prop := ∀ h y w, P h → P { h with play := y, wait := w }

section
variable (hch : ch < 8)
include hch

theorem stHap_lt : stHap ch < 256 := by unfold stHap; omega

theorem channelMeets_foot {a : Act} (ha : a.Foot (In unmoved)) : a.Takes (State.ChannelMeets ch P) (State.ChannelMeets ch P) :=
  takes_of_foot ha (fun _ h => h.calm) (fun _ he => in_soft rfl he) fun e v he h => by
    have hsoft : e.soft = true := in_soft (T := unmoved) rfl he
    have hmed : (applyEff e v).med = v.med := eff_same (p := .med) he hsoft rfl v
    refine ⟨calm_soft hsoft h.calm, noReset_soft hsoft (stHap_lt hch) h.noReset, hmed.symm ▸ h.mapWf, ?_⟩
    rw [State.hap, hmed]
    exact h.meets

theorem hapUpd_meets {f : Hap → Hap} (hf : ∀ h, P h → Q (f h)) : (hapUpd ch f).Takes (State.ChannelMeets ch P) (State.ChannelMeets ch Q) := fun u hu => by
  have hrun : (runGo (hapUpd ch f) u).1 = u.withHap ch (f (u.hap ch)) := hapUpd_run ch f u
  refine ⟨rfl, ?_⟩
  rw [hrun]
  exact ⟨calm_soft (e := .med fun m => { m with hap := mapPut hapNone ch (f (u.hap ch)) m.hap }) rfl hu.calm,
    noReset_soft (e := .med fun m => { m with hap := mapPut hapNone ch (f (u.hap ch)) m.hap }) rfl (stHap_lt hch) hu.noReset,
    mapWf_put _ _ _ _ hu.mapWf, (hap_withHap hu.mapWf ch _).symm ▸ hf _ hu.meets⟩

theorem playEnd_meets (cmd : Option Nat) (sec : Bool) (onset : Nat) (f : Cmd → Cmd) (hf : ∀ c : Cmd, c.Goes (f c)) :
    (playEnd ch cmd sec onset f).Takes (State.ChannelMeets ch P) (State.ChannelMeets ch P) := channelMeets_foot hch (playEnd_foot ch cmd sec onset f hf rfl)

theorem hapRaise_meets {src : Nat} (hsrc : src < 7) : (raise (stHap ch) src).Takes (State.ChannelMeets ch P) (State.ChannelMeets ch P) :=
  raiseSrc_takes (gravest_hap ch hsrc) (fun _ h => h.calm) (fun _ ha => channelMeets_foot hch (foot_mono ha rfl)) fun _ h hlt hbit =>
    absurd ((h.noReset src hlt).symm.trans hbit) nofun

section
variable (hP : Hap.Steady P)
include hP

/-- What it plays is set. -/
theorem hapPlay_meets (g : Hap → Option HapPlay) :
    (hapUpd ch fun h => { h with play := g h }).Takes (State.ChannelMeets ch P) (State.ChannelMeets ch P) :=
  hapUpd_meets hch fun h hp => hP h (g h) h.wait hp

theorem hapFinish_meets : (hapFinish ch).Takes (State.ChannelMeets ch P) (State.ChannelMeets ch P) :=
  takes_ask fun _ _ => takes_actOpt fun _ _ => takes_acts_cons (hapPlay_meets hch hP _)
    (playEnd_meets hch _ _ _ (fun c => { c with overrun := c.overrun || _ }) fun _ => ⟨rfl, rfl, rfl, rfl, fun h => h⟩)

theorem driveEnd_meets (p : HapPlay) : (driveEnd ch p).Takes (State.ChannelMeets ch P) (State.ChannelMeets ch P) :=
  takes_acts_cons (takes_actIf fun _ => channelMeets_foot hch (setFld_foot _ _ _ _ rfl)) (hapPlay_meets hch hP _)

theorem brakeEnd_meets (p : HapPlay) : (brakeEnd ch p).Takes (State.ChannelMeets ch P) (State.ChannelMeets ch P) :=
  takes_ask fun _ _ => takes_acts_cons (takes_actIf fun _ =>
      playEnd_meets hch _ _ _ (fun c => { c with squashed := c.squashed || p.cutShort, overrun := c.overrun || p.overrun }) fun _ => ⟨rfl, rfl, rfl, rfl, fun h => h⟩)
    (takes_acts_cons (hapPlay_meets hch hP _) (takes_actIf fun _ => hapFinish_meets hch hP))

theorem hapAdvance_meets (p : HapPlay) (v : Int) : (hapAdvance ch p v).Takes (State.ChannelMeets ch P) (State.ChannelMeets ch P) := by
  have hcut : ∀ cmd : Option Nat, (actOpt cmd sharesFree).Takes (State.ChannelMeets ch P) (State.ChannelMeets ch P) := fun _ =>
    takes_actOpt fun k _ => channelMeets_foot hch (sharesFree_foot k rfl)
  unfold hapAdvance
  dsimp only
  split
  · exact takes_ite (fun _ => driveEnd_meets hch hP _) fun _ => takes_ite
      (fun _ => takes_acts_cons (channelMeets_foot hch (hapCountUp_foot ch 32 rfl)) (takes_acts_cons (hcut _) (driveEnd_meets hch hP _)))
      fun _ => hapPlay_meets hch hP _
  · exact takes_ite (fun _ => brakeEnd_meets hch hP _) fun _ => hapPlay_meets hch hP _
  · exact takes_ite (fun _ => hapFinish_meets hch hP) fun _ => hapPlay_meets hch hP _

theorem hapPhases_meets : (hapPhases ch).Takes (State.ChannelMeets ch P) (State.ChannelMeets ch P) :=
  takes_acts_cons (takes_ask fun _ _ => takes_actOpt fun p _ => takes_actIf fun _ => driveEnd_meets hch hP p)
    (takes_ask fun _ _ => takes_actOpt fun p _ => takes_actIf fun _ => brakeEnd_meets hch hP p)

theorem hapStart_meets : (hapStart ch).Takes (State.ChannelMeets ch P) (State.ChannelMeets ch P) := by
  have hfault : ∀ q : HapReq, (playEnd ch q.cmd q.sec 0 fun c => { c with fault := true }).Takes (State.ChannelMeets ch P) (State.ChannelMeets ch P) := fun q =>
    playEnd_meets hch _ _ _ _ fun _ => ⟨rfl, rfl, rfl, rfl, fun h => h⟩
  refine takes_ask fun _ _ => takes_actOpt fun q _ => takes_actIf fun _ => takes_acts_cons (hapFinish_meets hch hP)
    (takes_acts_cons (hapUpd_meets hch fun h hp => hP h h.play none hp) (takes_ask fun v _ => ?_))
  dsimp only
  exact takes_ite (fun _ => takes_acts_cons (hapRaise_meets hch (by decide)) (hfault q)) fun _ => takes_ite
    (fun _ => takes_acts_cons (hapRaise_meets hch (by decide)) (takes_acts_cons (channelMeets_foot hch (hapCountUp_foot ch 16 rfl)) (hfault q)))
    fun _ => hapPlay_meets hch hP _

end

end

/-! ### A frame -/

/-- What a frame carries. -/
def State.frameSends (s : State) (ch : Nat) : Int × Bool × Bool := match (s.hap ch).play with
  | some p => if s.cfld (Reg.hapCfg ch) 0 1 = 1 then p.sent (s.cfld (Reg.hapCfg ch) 8 16) else (0, false, false)
  | none => (0, false, false)

/-- A channel whose frame has been sent. -/
def Hap.framed (h : Hap) (out : Int × Bool × Bool) : Hap := { h with n := h.n + 1, sent := out, runs := runsAdd h.n (out.2.1 && !out.2.2) h.runs }

/-- The frame itself: it is counted and sent, then what is played goes on. -/
def hapSend (ch volt : Nat) : Act :=
  .ask fun s => acts [hapUpd ch fun h => h.framed (s.frameSends ch), actOpt (s.hap ch).play fun p => hapAdvance ch p (signed volt 24)]

theorem hapticFrame_run (hl : s.live) (hch : ch < 8) (hrun : s.tts.running = true) (volt : Nat) :
    exec (.hapticFrame ch volt) s = .next (runAct (acts [hapPhases ch, hapStart ch, hapSend ch volt, hapStatusPut ch]) s) := by
  refine (live_next hl (decide_eq_true hch) _).trans (congrArg _ ?_)
  rw [hapticFrameOp, runAct_whenS, if_pos (by rw [hrun]; rfl)]
  rfl

theorem hapStatusPut_meets (hch : ch < 8) : (hapStatusPut ch).Takes (State.ChannelMeets ch P) (State.ChannelMeets ch P) :=
  channelMeets_foot hch (hapStatusPut_foot ch rfl)

/-- Every frame is counted. -/
theorem hapticFrame_counts (hch : ch < 8) (k volt : Nat) : (acts [hapPhases ch, hapStart ch, hapSend ch volt, hapStatusPut ch]).Takes
    (State.ChannelMeets ch fun h => h.n = k) (State.ChannelMeets ch fun h => h.n = k + 1) := by
  have hn : ∀ k, Hap.Steady fun h => h.n = k := fun _ _ _ _ h => h
  refine takes_acts_cons (hapPhases_meets hch (hn k)) (takes_acts_cons (hapStart_meets hch (hn k)) (takes_acts_cons (takes_ask fun u _ => ?_)
    (hapStatusPut_meets hch)))
  exact takes_acts_cons (hapUpd_meets hch fun h (hp : h.n = k) => congrArg (· + 1) hp) (takes_actOpt fun p _ => hapAdvance_meets hch (hn _) p _)

/-- Nothing passes over to another phase where nothing plays, or a drive that is not cut short. -/
theorem hapPhases_rests (h : ∀ p, (s.hap ch).play = some p → p.phase = 1 ∧ p.cutShort = false) : (hapPhases ch).Takes (· = s) (· = s) := by
  refine takes_acts_cons (K := (· = s)) (takes_ask_at fun u hu => ?_) (takes_ask_at (J := (· = s)) fun u hu => ?_)
  · rw [show u = s from hu]
    refine takes_actOpt fun p hp => takes_actIf fun hgo => absurd hgo ?_
    rw [(h p hp).2]
    simp
  · rw [show u = s from hu]
    refine takes_actOpt fun p hp => takes_actIf fun hgo => absurd hgo ?_
    rw [(h p hp).1]
    simp

/-- Nothing starts where nothing waits, or where an effect drives. -/
theorem hapStart_rests (h : (s.hap ch).wait = none ∨ ∃ p, (s.hap ch).play = some p ∧ p.phase = 1) : (hapStart ch).Takes (· = s) (· = s) := by
  refine takes_ask_at fun u hu => ?_
  rw [show u = s from hu]
  refine takes_actOpt fun q hq => takes_actIf fun hgo => absurd hgo ?_
  obtain hnone | ⟨p, hp, hphase⟩ := h
  · exact absurd (hnone.symm.trans hq) nofun
  · simp [Hap.phase, hp, hphase]

/-- A frame of a channel on which nothing passes over to another phase and nothing starts. -/
theorem hapticFrame_sends (hch : ch < 8) (hs : State.ChannelMeets ch (fun _ => True) s) (hphases : (hapPhases ch).Takes (· = s) (· = s))
    (hstart : (hapStart ch).Takes (· = s) (· = s)) (hout : P ((s.hap ch).framed (s.frameSends ch)))
    (hrest : (actOpt (s.hap ch).play fun p => hapAdvance ch p (signed volt 24)).Takes (State.ChannelMeets ch P) (State.ChannelMeets ch P)) :
    (acts [hapPhases ch, hapStart ch, hapSend ch volt, hapStatusPut ch]).Takes (· = s) (State.ChannelMeets ch P) := by
  refine takes_acts_cons hphases (takes_acts_cons hstart (takes_acts_cons (takes_ask_at fun u hu => ?_) (hapStatusPut_meets hch)))
  rw [show u = s from hu]
  refine (takes_acts_cons (hapUpd_meets (P := (· = s.hap ch)) hch fun h (hp : h = s.hap ch) => hp ▸ hout) hrest).weaken (fun v hv => ?_) fun _ h => h
  rw [show v = s from hv]
  exact ⟨hs.calm, hs.noReset, hs.mapWf, rfl⟩

/-- Settles O57: a slot that is written (`effectRun_leaves`), a start request (`hapRequest_asks`), a frame by what the channel plays. -/
theorem hapticsPlay : Obligations.HapticsPlay := by
  refine ⟨fun id c s hl hc hstage => ⟨fun i n hi hop hn hm hslots => ?_, fun hop hres => ?_⟩, fun ch volt s hl hcalm hch hrun hno hm => ?_⟩
  · obtain ⟨bell, next, hmed, hcmd⟩ := effectRun_leaves hc hstage hop hn
    obtain ⟨hslot, hothers⟩ := slotTaken_effects hm hslots hmed
    exact ⟨_, _, effectSlot_run hl hi, hslot, hothers, hcmd, rfl, rfl⟩
  · have hmark : (cmdUpd id fun c => { c with res := [1] }).Takes s.Onward s.Onward := cmdUpd_onward (f := fun c => { c with res := [1] }) (fun _ => rfl) (fun _ h => h) id
    let q : HapReq := { cmd := some id, sec := false, slot := hpSlot c.words }
    obtain ⟨hwait, hplay, hends⟩ := (takes_acts_cons (as := [hapRequest (hpCh c.words) q]) hmark (hapRequest_asks q rfl)).run (onward_self s)
    refine ⟨_, (live_next hl rfl _).trans (congrArg _ ?_), hwait, fun w k hw hk _ hknown => hends w k hw hk hknown, hplay⟩
    rw [onCmd, runAct_ask, hc]
    dsimp only
    rw [runAct_actIf, if_pos (by simp [hop, hstage, hres])]
  · have hs : State.ChannelMeets ch (fun h => h.n = (s.hap ch).n) s := ⟨hcalm, hno, hm, rfl⟩
    have hs' : State.ChannelMeets ch (fun _ => True) s := ⟨hcalm, hno, hm, trivial⟩
    refine ⟨⟨_, hapticFrame_run hl hch hrun volt, ((hapticFrame_counts hch _ volt).run hs).meets⟩, fun hplay hwait => ?_, fun p hplay hphase hcut hen => ?_⟩
    · have hphases := hapPhases_rests fun p hp => absurd (hplay.symm.trans hp) nofun
      obtain ⟨hkept, hsent⟩ := ((hapticFrame_sends (P := fun h => h.play = none ∧ h.sent = (0, false, false)) (volt := volt) hch hs' hphases
        (hapStart_rests (.inl hwait)) ⟨hplay, by rw [State.frameSends, hplay]; rfl⟩ (by rw [hplay]; exact takes_skip)).run rfl).meets
      exact ⟨_, hapticFrame_run hl hch hrun volt, hkept, hsent⟩
    · have hphases := hapPhases_rests fun q hq => Option.some.inj (hplay.symm.trans hq) ▸ ⟨hphase, hcut⟩
      have hout : s.frameSends ch = p.sent (s.cfld (Reg.hapCfg ch) 8 16) := by
        rw [State.frameSends, hplay]
        exact if_pos hen
      exact ⟨_, hapticFrame_run hl hch hrun volt, ((hapticFrame_sends (P := fun h => h.sent = p.sent (s.cfld (Reg.hapCfg ch) 8 16)) (volt := volt) hch hs' hphases
        (hapStart_rests (.inr ⟨p, hplay, hphase⟩)) hout (takes_actOpt fun q _ => hapAdvance_meets hch (fun _ _ _ h => h) q _)).run rfl).meets⟩

end Sys2Proof.Machine
end

section
/-!
PROOFS. The secure submission of touch ports and haptic channels (R535), and the secure audio routes (R486) (O39).
-/

namespace Sys2Proof.Machine

variable {s u : State} {p : Path} {n : Nat} {v : Word} {ws : List Word}

/-! ### Writes that make a go -/

/-- Bit 0 of a word that is 1. -/
theorem wBit_go {off : Nat} (h : off % 8 = 0) : wBit (coverWord off 4 1 &&& coverMask off 4) 0 = true := wBit_cover h (.inl rfl) 1 (by decide)

theorem secq_rows : ∀ n < 8, (regFind (Reg.tchSecqCtrl n)).isSome = true ∧ (regFind (Reg.hapSecqCtrl n)).isSome = true := by decide +kernel

theorem registerWrite_secq : ∀ n < 8, ∀ (p : Path) (f : RegFam) (w m : Word),
    registerWrite p f false (Reg.tchSecqCtrl n) 4 w m = secureGo (89 + n) (actIf (wBit (w &&& m) 0) (tchSecqOp n))
      ∧ registerWrite p f false (Reg.hapSecqCtrl n) 4 w m = secureGo (97 + n) (actIf (wBit (w &&& m) 0) (hapSecqOp n)) := by
  intro n hn p f w m
  interval_cases n <;> exact ⟨rfl, rfl⟩

theorem tchSecqGo_run (hn : n < 8) (hlets : s.lets p (Reg.tchSecqCtrl n) 4 1 (Reg.tchSecqCtrl n)) (hsec : s.unitSec (89 + n) = true) :
    exec (.tchSecqGo p n) s = .next (runAct (tchSecqOp n) s) := by
  have h8 : Reg.tchSecqCtrl n % 8 = 0 := by unfold Reg.tchSecqCtrl; omega
  obtain ⟨x, hx⟩ := Option.isSome_iff_exists.mp (secq_rows n hn).1
  obtain ⟨hslot, -, -⟩ := cover_aligned h8 1
  refine (writeCommand_lets hlets (hslot ▸ hx) (decide_eq_true hn)).trans (congrArg _ ?_)
  rw [hslot, (registerWrite_secq n hn _ _ _ _).1, wBit_go h8, secureGo, runAct_whenS, if_pos hsec]
  rfl

theorem hapSecqGo_run (hn : n < 8) (hlets : s.lets p (Reg.hapSecqCtrl n) 4 1 (Reg.hapSecqCtrl n)) (hsec : s.unitSec (97 + n) = true) :
    exec (.hapSecqGo p n) s = .next (runAct (hapSecqOp n) s) := by
  have h8 : Reg.hapSecqCtrl n % 8 = 0 := by unfold Reg.hapSecqCtrl; omega
  obtain ⟨x, hx⟩ := Option.isSome_iff_exists.mp (secq_rows n hn).2
  obtain ⟨hslot, -, -⟩ := cover_aligned h8 1
  refine (writeCommand_lets hlets (hslot ▸ hx) (decide_eq_true hn)).trans (congrArg _ ?_)
  rw [hslot, (registerWrite_secq n hn _ _ _ _).2, wBit_go h8, secureGo, runAct_whenS, if_pos hsec]
  rfl

/-! ### The packet -/

/-- A sound state after reads of device memory: audio, touch and haptics and the low registers are those of `s`. -/
structure State.HasRead (s u : State) : Prop where
  sound : u.Sound
  med : u.med = s.med
  regs : Part.lowRegisters.same s u

theorem hasRead_self (hs : s.Sound) : s.HasRead s := ⟨hs, rfl, Part.same_refl _ s⟩

theorem hasRead_takes {a : Act} (ha : a.Foot (In 0x83801)) : a.Takes s.HasRead s.HasRead :=
  takes_of_foot ha (fun _ h => h.sound.1) (fun _ he => in_soft rfl he) fun e u he h => by
    have hsoft : e.soft = true := in_soft rfl he
    have hmed : Part.med.same u (applyEff e u) := eff_same he hsoft rfl u
    have hregs : Part.lowRegisters.same u (applyEff e u) := eff_same he hsoft rfl u
    exact ⟨⟨calm_soft hsoft h.sound.1, applyEff_wf e u h.sound.2⟩, Eq.trans hmed h.med, Part.same_trans _ h.regs hregs⟩

theorem ownerRead_hasRead (v : State) (st a k : Nat) (h : HostAns) : (ownerRead v st none a k h).act.Takes s.HasRead s.HasRead :=
  hasRead_takes (devRead_foot _ _ _ _ _ rfl)

/-- A packet is read in one read or two. -/
theorem secPacket_hasRead (v : State) (st a : Nat) : (readsAct (secPacket v st a).1).Takes s.HasRead s.HasRead := by
  refine hasRead_takes ?_
  unfold secPacket
  dsimp only
  rw [readsAct_foot]
  split <;> simp [ownerRead]

/-! ### TCH_SECQ (Table 15.14) -/

theorem tchSecqStatus_impl : ∀ n < 8, nBits (regImpl (Reg.tchSecqStatus n) % 2 ^ 64) 0 2 = 2 ^ 2 - 1 := by decide +kernel
theorem reactReg_tchSecqStatus (hn : n < 8) : reactReg (Reg.tchSecqStatus n) = false := reactReg_low (by unfold Reg.tchSecqStatus; omega)

/-- A port for which a configuration waits. -/
def Tch.awaits (t : Tch) (ws : List Word) : Tch := { t with pend := t.pend ++ [(none, ws, [])] }

/-- A RECALIBRATE or DISABLE waits for the port. -/
theorem tchSecqOp_waits (hn : n < 8) (hs : s.Sound) (hidle : s.fld (Reg.tchSecqStatus n) 0 2 = 0) (hup : s.bitAt Reg.secState 0 = false)
    (hpacket : (secPacket s (stTch n) (s.rd (Reg.tchSecqBase n)).toNat).2 = some ws) (hop : hdrOp (ws.headD 0) = 0x0700) (hlen : ws.length = 4)
    (hok : tcWordsOk ws = true) (hport : tcPort ws = n) (htc : tcOp ws = 2 ∨ tcOp ws = 3) :
    ∃ u : State, u.Sound ∧ runAct (tchSecqOp n) s = (u.putFld (Reg.tchSecqStatus n) 0 10 1).withTch n ((u.tch n).awaits ws) := by
  have hread := secPacket_hasRead (s := s) s (stTch n) (s.rd (Reg.tchSecqBase n)).toNat
  have h0 : tcOp ws ≠ 0 := by omega
  have h1 : tcOp ws ≠ 1 := by omega
  refine ⟨_, (hread.run (hasRead_self hs)).sound, ?_⟩
  rw [tchSecqOp, runAct_ask, hidle, hup, if_neg (by decide)]
  dsimp only
  rw [runAct_takes_cons hread (hasRead_self hs), acts_one, hpacket]
  dsimp only
  rw [if_neg (by rw [hop]; simp [hlen, hok, hport, h0]), if_neg h0, if_neg (by simp [h1]), runAct_acts, setFld_run_left _ _ _ _ _ _ (reactReg_tchSecqStatus hn),
    acts_one, tchUpd_run]
  rfl

/-! ### HAP_SECQ (Table 15.14) -/

theorem hapSecqStatus_impl : ∀ n < 8, nBits (regImpl (Reg.hapSecqStatus n) % 2 ^ 64) 0 10 = 2 ^ 10 - 1 := by decide +kernel
theorem reactReg_hapSecqStatus (hn : n < 8) : reactReg (Reg.hapSecqStatus n) = false := reactReg_low (by unfold Reg.hapSecqStatus; omega)

/-- The words of a well-formed secure load or clear of channel `n`. -/
structure SlotPacket (n : Nat) (ws : List Word) : Prop where
  op : hdrOp (ws.headD 0) = 0x0710
  rest : fw ws 1 3 5 = 0
  rest' : fw ws 1 14 50 = 0
  channel : hpCh ws = n
  count : fw ws 3 32 32 = 0
  aligned : fw ws 2 0 3 = 0

/-- The slot takes the descriptor, the outcome is 0. -/
def State.slotGiven (u : State) (n slot : Nat) (e : List Word) : State :=
  (u.withHap n { u.hap n with effects := mapPut (fun _ => []) slot e (u.hap n).effects }).putFld (Reg.hapSecqStatus n) 0 10 0

theorem slotGiven_run (hn : n < 8) (slot : Nat) (e : List Word) (u : State) :
    runAct (acts [slotPut n slot e, setFld (Reg.hapSecqStatus n) 0 10 (4 * 0)]) u = u.slotGiven n slot e := by
  rw [runAct_acts, slotPut, hapUpd_run_left, acts_one, setFld_run _ _ _ _ _ (reactReg_hapSecqStatus hn)]
  rfl

theorem slotGiven_reads (hn : n < 8) (hs : s.HasRead u) (hm : mapWf hapNone s.med.hap = true) (hslots : mapWf (fun _ => []) (s.hap n).effects = true)
    (slot : Nat) (e : List Word) : (u.slotGiven n slot e).fld (Reg.hapSecqStatus n) 0 10 = 0
      ∧ mapGet (fun _ => []) slot ((u.slotGiven n slot e).hap n).effects = e := by
  have hhap : u.hap n = s.hap n := by rw [State.hap, hs.med, State.hap]
  have hw : (u.withHap n { u.hap n with effects := mapPut (fun _ => []) slot e (u.hap n).effects }).wf = true :=
    applyEff_wf (.med fun m => { m with hap := mapPut hapNone n { u.hap n with effects := mapPut (fun _ => []) slot e (u.hap n).effects } m.hap }) u hs.sound.2
  have hread : (u.slotGiven n slot e).hap n = { u.hap n with effects := mapPut (fun _ => []) slot e (u.hap n).effects } :=
    hap_withHap (hs.med.symm ▸ hm) n _
  refine ⟨(fld_putFld hw (by decide) (hapSecqStatus_impl n hn) 0).trans (Nat.zero_mod _), ?_⟩
  rw [hread]
  exact mapGet_put_wf _ _ _ _ (hhap.symm ▸ hslots)

section
variable (hn : n < 8) (hs : s.Sound) (hidle : s.fld (Reg.hapSecqStatus n) 0 2 = 0) (hup : s.bitAt Reg.secState 0 = false)
  (hpacket : (secPacket s (stHap n) (s.rd (Reg.hapSecqBase n)).toNat).2 = some ws) (hw : SlotPacket n ws)
include hn hs hidle hup hpacket hw

theorem hapSecqOp_clears (hcount : fw ws 3 0 32 = 0) : ∃ u, s.HasRead u ∧ runAct (hapSecqOp n) s = u.slotGiven n (hpSlot ws) [] := by
  have hread := secPacket_hasRead (s := s) s (stHap n) (s.rd (Reg.hapSecqBase n)).toNat
  obtain ⟨hop, hrest, hrest', hch, htop, halign⟩ := hw
  refine ⟨_, hread.run (hasRead_self hs), ?_⟩
  rw [hapSecqOp, runAct_ask, hidle, State.hapQuiet, hup, if_neg (by simp)]
  dsimp only
  rw [runAct_takes_cons hread (hasRead_self hs), acts_one, hpacket]
  dsimp only
  rw [if_neg (by simp [hrest, hrest', hch]), if_pos hop, if_neg (by simp [hcount, htop, halign]), if_pos hcount]
  exact slotGiven_run hn _ _ _

theorem hapSecqOp_loads (hcount : fw ws 3 0 32 = 32) (herr : (ownerRead s (stHap n) none (fw ws 2 0 64) 32 .ok).err = false)
    (hdesc : descOk (bytesWords (ownerRead s (stHap n) none (fw ws 2 0 64) 32 .ok).bytes) = true) :
    ∃ u, s.HasRead u ∧ runAct (hapSecqOp n) s = u.slotGiven n (hpSlot ws) (bytesWords (ownerRead s (stHap n) none (fw ws 2 0 64) 32 .ok).bytes) := by
  have hread := secPacket_hasRead (s := s) s (stHap n) (s.rd (Reg.hapSecqBase n)).toNat
  have hfetch := ownerRead_hasRead (s := s) s (stHap n) (fw ws 2 0 64) 32 .ok
  obtain ⟨hop, hrest, hrest', hch, htop, halign⟩ := hw
  refine ⟨_, hfetch.run (hread.run (hasRead_self hs)), ?_⟩
  rw [hapSecqOp, runAct_ask, hidle, State.hapQuiet, hup, if_neg (by simp)]
  dsimp only
  rw [runAct_takes_cons hread (hasRead_self hs), acts_one, hpacket]
  dsimp only
  rw [if_neg (by simp [hrest, hrest', hch]), if_pos hop, if_neg (by simp [hcount, htop, halign]), if_neg (by omega),
    runAct_takes_cons hfetch (hread.run (hasRead_self hs)), acts_one, herr, hdesc, if_neg (by decide)]
  exact slotGiven_run hn _ _ _

end

/-! ### AUD_SEC_ROUTE (R486) -/

theorem audSecRoute_run (h : s.lets .sec Reg.audSecRoute 8 v Reg.audSecRoute) : exec (.audSecRouteWrite .sec v) s =
    .next (runAct (actIf (nodeOk v && !s.bitAt Reg.secState 0) (audUpd fun a => { a with routes := a.routes ++ [(none, [0, v])] })) s) := by
  obtain ⟨x, hx⟩ := Option.isSome_iff_exists.mp (show (regFind Reg.audSecRoute).isSome = true by decide +kernel)
  refine (writeCommand_lets h hx rfl).trans (congrArg _ ?_)
  change runAct (secRouteOp .sec (coverWord Reg.audSecRoute 8 v &&& coverMask Reg.audSecRoute 8)) s = _
  rw [cover_whole, secRouteOp, runAct_ask, if_pos rfl]

/-- Settles O39: the packet is read and does what it says (`tchSecqOp_waits`, `hapSecqOp_clears`, `hapSecqOp_loads`); a route waits or is ignored. -/
theorem securePorts : Obligations.SecurePorts := by
  refine ⟨fun p n s hc hw hn => ⟨fun ws hlets hsec hidle hup hpacket hop hlen hok hport htc => ?_,
    fun ws hlets hsec hidle hup hpacket hop hrest hrest' hch htop halign hm hslots => ?_⟩, fun v s hlets => ⟨fun hok hup => ?_, fun hbad => ?_⟩⟩
  · obtain ⟨u, hu, hrun⟩ := tchSecqOp_waits hn ⟨hc, hw⟩ hidle hup hpacket hop hlen hok hport htc
    refine ⟨_, (tchSecqGo_run hn hlets hsec).trans (congrArg _ hrun), ?_, ?_⟩
    · exact fld_putFld_within hu.2 (by decide) (by decide) (by decide) (tchSecqStatus_impl n hn) 1
    · rw [tch_withTch_of_ne fun h => absurd (congrArg Tch.pend h) (by simp [Tch.awaits, tchNone])]
      exact List.mem_append_right _ (List.mem_singleton_self _)
  · have hwords : SlotPacket n ws := ⟨hop, hrest, hrest', hch, htop, halign⟩
    refine ⟨fun hcount => ?_, fun hcount herr hdesc => ?_⟩
    · obtain ⟨u, hu, hrun⟩ := hapSecqOp_clears hn ⟨hc, hw⟩ hidle hup hpacket hwords hcount
      exact ⟨_, (hapSecqGo_run hn hlets hsec).trans (congrArg _ hrun), slotGiven_reads hn hu hm hslots _ _⟩
    · obtain ⟨u, hu, hrun⟩ := hapSecqOp_loads hn ⟨hc, hw⟩ hidle hup hpacket hwords hcount herr hdesc
      exact ⟨_, (hapSecqGo_run hn hlets hsec).trans (congrArg _ hrun), slotGiven_reads hn hu hm hslots _ _⟩
  · rw [audSecRoute_run hlets, hok, hup]
    rfl
  · have hno : (nodeOk v && !s.bitAt Reg.secState 0) = false := by rcases hbad with h | h <;> simp [h]
    rw [audSecRoute_run hlets, hno]
    rfl

end Sys2Proof.Machine
end

section
/-!
PROOFS. Audio blocks (O54): what every part of a block keeps of the samples counted, of the routes that wait and of the commands that have ended
(R476, R483).
-/

namespace Sys2Proof.Machine

variable {s u : State} {k : Nat} {R : List (Option Nat × List Word)} {E : Nat → Prop}

/-! ### What a block keeps -/

/-- A calm state after part of a block: `k` samples are counted, the routes `R` wait, the commands of `s` are there, and those of `E` have ended. -/
structure State.Sounds (s : State) (k : Nat) (R : List (Option Nat × List Word)) (E : Nat → Prop) (u : State) : Prop where
  calm : u.calm
  counted : u.med.aud.n = k
  routes : u.med.aud.routes = R
  known : ∀ id, (s.cmd? id).isSome = true → (u.cmd? id).isSome = true
  ended : ∀ id, E id → u.ends id

theorem sounds_self (hc : s.calm) : s.Sounds s.med.aud.n s.med.aud.routes (fun _ => False) s := ⟨hc, rfl, rfl, fun _ h => h, fun _ h => h.elim⟩

/-- Every kind of effect but those that end a step, set a reaction mask, change commands, or change audio, touch and haptics. -/
def silent : Nat := 0x3FFBFD7D

theorem silent_sounds {a : Act} (ha : a.Foot (In silent)) : a.Takes (s.Sounds k R E) (s.Sounds k R E) :=
  takes_of_foot ha (fun _ h => h.calm) (fun _ he => in_soft rfl he) fun e u he h => by
    have hsoft : e.soft = true := in_soft (T := silent) rfl he
    have hmed : (applyEff e u).med = u.med := eff_same (p := .med) he hsoft rfl u
    have hcfe : (applyEff e u).cfe = u.cfe := eff_same (p := .cfe) he hsoft rfl u
    have hcmd : ∀ id, (applyEff e u).cmd? id = u.cmd? id := fun id => by rw [State.cmd?, hcfe, State.cmd?]
    refine ⟨calm_soft hsoft h.calm, hmed ▸ h.counted, hmed ▸ h.routes, fun id hid => hcmd id ▸ h.known id hid, fun id hid => ?_⟩
    rw [State.ends, hcmd]
    exact h.ended id hid

/-- A change of audio that counts samples and leaves the routes that wait. -/
theorem audUpd_sounds {k' : Nat} {R' : List (Option Nat × List Word)} {f : Aud → Aud} (hn : ∀ a : Aud, a.n = k → (f a).n = k')
    (hr : ∀ a : Aud, a.routes = R → (f a).routes = R') : (audUpd f).Takes (s.Sounds k R E) (s.Sounds k' R' E) :=
  takes_eff rfl fun _ h => ⟨calm_soft (e := .med fun m => { m with aud := f m.aud }) rfl h.calm, hn _ h.counted, hr _ h.routes, h.known, h.ended⟩

/-- A change of audio of another kind. -/
theorem audUpd_keeps {f : Aud → Aud} (hn : ∀ a : Aud, (f a).n = a.n) (hr : ∀ a : Aud, (f a).routes = a.routes) :
    (audUpd f).Takes (s.Sounds k R E) (s.Sounds k R E) := audUpd_sounds (fun a h => (hn a).trans h) fun a h => (hr a).trans h

theorem audInUpd_keeps (i : Nat) (f : AudIn → AudIn) : (audInUpd i f).Takes (s.Sounds k R E) (s.Sounds k R E) := audUpd_keeps (fun _ => rfl) fun _ => rfl

theorem streamUpd_keeps (id : Nat) (f : AudStream → AudStream) : (streamUpd id f).Takes (s.Sounds k R E) (s.Sounds k R E) :=
  takes_eff rfl fun _ h =>
    ⟨calm_soft (e := .med fun m => { m with aud := { m.aud with streams := mapIf (fun x => x.id = id) f m.aud.streams } }) rfl h.calm, h.counted, h.routes,
      h.known, h.ended⟩

/-- Programs that take no command back and leave audio alone. -/
theorem onward_sounds {a : Act} (hon : ∀ v : State, a.Takes v.Onward v.Onward) (hcalm : a.Takes State.calm State.calm) :
    a.Takes (s.Sounds k R E) (s.Sounds k R E) := fun u hu => by
  obtain ⟨hends, hmed, hknown, hended⟩ := hon u u (onward_self u)
  exact ⟨hends, (hcalm u hu.calm).2, hmed ▸ hu.counted, hmed ▸ hu.routes, fun id hid => hknown id (hu.known id hid), fun id hid => hended id (hu.ended id hid)⟩

theorem calm_foot {T : Nat} (hT : softClass T = true) {a : Act} (ha : a.Foot (In T)) : a.Takes State.calm State.calm :=
  takes_of_foot ha (fun _ h => h) (fun _ he => in_soft hT he) fun _ _ he h => calm_soft (in_soft hT he) h

theorem cmdEnd_sounds {f : Cmd → Cmd} (hf : ∀ c : Cmd, c.Goes (f c)) (id : Nat) : (cmdEnd id f).Takes (s.Sounds k R E) (s.Sounds k R E) :=
  onward_sounds (fun _ => cmdEnd_onward (fun c => (hf c).1) id) (calm_foot (T := 0x600) rfl (cmdEnd_foot id f hf rfl))

/-! ### Detections and memory -/

/-- A reset of audio ends its commands; what it holds stays (R542). -/
theorem audReset_sounds : (blockReset stAud).Takes (s.Sounds k R E) (s.Sounds k R E) := by
  refine takes_ask fun _ _ => takes_acts_cons (silent_sounds (by simp [silent])) (takes_acts_cons (takes_actOpt fun e _ => takes_each fun c _ =>
    cmdEnd_sounds (f := fun c => { c with fault := true }) (fun _ => ⟨rfl, rfl, rfl, rfl, fun h => h⟩) _) ?_)
  exact takes_acts_cons takes_skip (takes_acts_cons takes_skip takes_skip)

theorem audRaise_sounds {src cell : Nat} {seat : Option Nat} (hsrc : src < 6) : (raiseSrc stAud src cell seat).Takes (s.Sounds k R E) (s.Sounds k R E) :=
  raiseSrc_takes (gravest_mid (by decide) (by omega)) (fun _ h => h.calm) (fun _ ha => silent_sounds (foot_mono ha rfl)) fun _ _ _ _ => audReset_sounds

theorem audMiss_sounds (seat len : Nat) : (missOut stAud seat len).act.Takes (s.Sounds k R E) (s.Sounds k R E) := audRaise_sounds (src := 1) (by decide)

theorem audRead_sounds (v : State) (seat a n : Nat) (h : HostAns) : (seatRead v stAud seat a n .read h).act.Takes (s.Sounds k R E) (s.Sounds k R E) := by
  have hfailed : (raiseSrc stPci 4 0 (some seat)).Takes (s.Sounds k R E) (s.Sounds k R E) :=
    silent_sounds (raiseSrc_plain (T := silent) (st := stPci) rfl (by decide) (src := 4) rfl 0 (some seat) rfl)
  unfold seatRead seatReadE
  split
  · exact audMiss_sounds _ _
  · split
    · split
      · exact audMiss_sounds _ _
      · split
        · exact hfailed
        · exact takes_skip
    · exact silent_sounds (devRead_foot _ _ _ _ _ rfl)

theorem audWrite_sounds (v : State) (seat a : Nat) (bs : List Byte) (h : HostAns) :
    (seatWrite v stAud seat a bs h).act.Takes (s.Sounds k R E) (s.Sounds k R E) := by
  unfold seatWrite
  split
  · exact audMiss_sounds _ _
  · split
    · split
      · exact audMiss_sounds _ _
      · exact takes_acts_cons (silent_sounds (dirtyLog_foot _ _ _ _ rfl)) (silent_sounds (by simp [silent]))
    · exact silent_sounds (devWrite_foot _ _ _ _ rfl)

/-! ### The parts of a block -/

theorem nodeErrors_sounds (ks : List Nat) : (nodeErrors ks).Takes (s.Sounds k R E) (s.Sounds k R E) :=
  takes_ask fun _ _ => takes_each fun _ _ => takes_acts_cons (audUpd_keeps (fun _ => rfl) fun _ => rfl) (audRaise_sounds (src := 5) (by decide))

theorem streamEnd_sounds (x : AudStream) : (streamEnd x).Takes (s.Sounds k R E) (s.Sounds k R E) := by
  have hclose : ∀ id, (cmdEnd id fun c => { c with unitsDone := 1000, detail := x.id }).Takes (s.Sounds k R E) (s.Sounds k R E) := fun id =>
    cmdEnd_sounds (f := fun c => { c with unitsDone := 1000, detail := x.id }) (fun _ => ⟨rfl, rfl, rfl, rfl, fun h => h⟩) id
  have hopen : (cmdEnd x.cmd fun y => { y with fault := y.fault || x.err, detail := x.id }).Takes (s.Sounds k R E) (s.Sounds k R E) :=
    cmdEnd_sounds (f := fun y => { y with fault := y.fault || x.err, detail := x.id }) (fun _ => ⟨rfl, rfl, rfl, rfl, fun h => h⟩) _
  exact takes_acts_cons (audUpd_keeps (fun _ => rfl) fun _ => rfl) (takes_acts_cons hopen
    (takes_acts_cons (takes_actOpt fun id _ => hclose id) (takes_acts_cons (takes_ask fun _ _ => silent_sounds (overUpdate_foot _ rfl))
      (silent_sounds (capRegs_foot rfl)))))

theorem streamsStop_sounds : streamsStop.Takes (s.Sounds k R E) (s.Sounds k R E) :=
  takes_acts_cons (audUpd_keeps (fun _ => rfl) fun _ => rfl) (takes_ask fun _ _ => takes_each fun x _ => streamEnd_sounds x)

theorem inputStatus_sounds (i : Nat) : (inputStatus i).Takes (s.Sounds k R E) (s.Sounds k R E) :=
  takes_ask fun _ _ => takes_acts_cons (takes_actIf fun _ => silent_sounds (setFld_foot _ _ _ _ rfl))
    (takes_actIf fun _ => takes_acts_cons (audInUpd_keeps _ _) (silent_sounds (setReg_foot _ _ rfl)))

theorem inputBlock_sounds (b : AudIo) : (inputBlock b).Takes (s.Sounds k R E) (s.Sounds k R E) := by
  have hset : ∀ off lo w x, (setFld off lo w x).Takes (s.Sounds k R E) (s.Sounds k R E) := fun _ _ _ _ => silent_sounds (setFld_foot _ _ _ _ rfl)
  exact takes_acts_cons (takes_each fun _ _ => takes_each fun _ _ => takes_ask fun _ _ => takes_actIf fun _ => takes_acts_cons (hset _ _ _ _) (audInUpd_keeps _ _))
    (takes_acts_cons (takes_each fun _ _ => audInUpd_keeps _ _) (takes_acts_cons (takes_ask fun _ _ => takes_each fun _ _ => audInUpd_keeps _ _)
      (takes_acts_cons (takes_ask fun _ _ => takes_each fun _ _ => hset _ _ _ _) (takes_each fun _ _ => inputStatus_sounds _))))

/-- A command that has not ended starts. -/
theorem cmdStart_sounds {c : Cmd} (hu : s.Sounds k R E u) (hc : u.cmd? c.id = some c) (hstage : c.stage ≠ .ended) :
    (cmdStart c.id).Takes (· = u) (s.Sounds k R E) := fun v hv => by
  rw [show v = u from hv]
  have hmap := fun j => cmd?_cmdUpd_map (f := fun c => { c with stage := .started }) (fun _ => rfl) u c.id j
  refine ⟨rfl, calm_soft (e := .cfe fun x => { x with cmds := mapIf (fun y => y.id = c.id) (fun c => { c with stage := .started }) x.cmds }) rfl hu.calm,
    hu.counted, hu.routes, fun id hid => ?_, fun id hid => ?_⟩
  · change ((runAct (cmdUpd c.id fun c => { c with stage := .started }) u).cmd? id).isSome = true
    rw [hmap, Option.isSome_map]
    exact hu.known id hid
  · obtain ⟨x, hx, hend⟩ := hu.ended id hid
    have hid : x.id = id := by simpa using List.find?_some hx
    have hne : x.id ≠ c.id := fun h => hstage (Option.some.inj (hc.symm.trans ((h ▸ hid : c.id = id) ▸ hx)) ▸ hend)
    exact ⟨x, (hmap id).trans (by rw [hx, Option.map_some, if_neg hne]), hend⟩

theorem streamMoved_sounds (x : AudStream) (n : Nat) (good : Bool) : (streamMoved x n good).Takes (s.Sounds k R E) (s.Sounds k R E) := by
  refine takes_acts_cons (streamUpd_keeps _ _) (takes_ask_at fun u hu => ?_)
  have hpart : ∀ id, (cmdUpd id fun c => { c with part := c.part + n }).Takes (s.Sounds k R E) (s.Sounds k R E) := fun id =>
    onward_sounds (fun _ => cmdUpd_onward (f := fun c => { c with part := c.part + n }) (fun _ => rfl) (fun _ h => h) id) (calm_foot (T := 0x800200) rfl (cmdUpd_wild id _ rfl))
  have hsame : Act.skip.Takes (· = u) (s.Sounds k R E) := takes_skip.weaken (fun v hv => (show v = u from hv) ▸ hu) fun _ h => h
  cases hc : u.cmd? x.cmd with
  | none => exact hsame
  | some c =>
    have hid : c.id = x.cmd := by simpa using List.find?_some hc
    refine takes_ite (fun _ => hsame) fun hstage => takes_acts_cons ?_ (takes_actIf fun _ => hpart _)
    cases decide (c.stage = .accepted) with
    | true => exact cmdStart_sounds hu (hid.symm ▸ hc) hstage
    | false => exact hsame

theorem captureMove_sounds (x : AudStream) (h : HostAns) : (captureMove x h).Takes (s.Sounds k R E) (s.Sounds k R E) := by
  refine takes_ask fun v _ => takes_actIf fun _ => takes_acts_cons (takes_each fun o ho => ?_) (streamMoved_sounds _ _ _)
  obtain ⟨q, -, rfl⟩ := List.mem_map.mp ho
  exact audWrite_sounds _ _ _ _ _

theorem playReads_sounds (v : State) (x : AudStream) (n : Nat) (h : HostAns) : (readsAct (v.playReads x n h)).Takes (s.Sounds k R E) (s.Sounds k R E) := by
  refine takes_each fun o ho => ?_
  obtain ⟨q, -, rfl⟩ := List.mem_map.mp ho
  exact audRead_sounds _ _ _ _ _

theorem fadeBlock_keeps (a : Aud) (n : Nat) : (a.fadeBlock n).n = a.n ∧ (a.fadeBlock n).routes = a.routes := by
  unfold Aud.fadeBlock
  dsimp only
  split
  · exact ⟨rfl, rfl⟩
  · split
    · cases a.clkNext <;> exact ⟨rfl, rfl⟩
    · exact ⟨rfl, rfl⟩

theorem clockBlock_sounds (n : Nat) : (clockBlock n).Takes (s.Sounds k R E) (s.Sounds k R E) :=
  takes_ask fun _ _ => takes_acts_cons (audUpd_keeps (fun a => (fadeBlock_keeps a n).1) fun a => (fadeBlock_keeps a n).2)
    (takes_ask fun _ _ => takes_actIf fun _ => silent_sounds (setFld_foot _ _ _ _ rfl))

theorem sinksPut_sounds : sinksPut.Takes (s.Sounds k R E) (s.Sounds k R E) := takes_ask fun _ _ => audUpd_keeps (fun _ => rfl) fun _ => rfl

theorem streamsDone_sounds (ids : List Nat) (n : Nat) : (streamsDone ids n).Takes (s.Sounds k R E) (s.Sounds k R E) :=
  takes_acts_cons (audUpd_keeps (fun _ => rfl) fun _ => rfl) (takes_ask fun _ _ => takes_each fun x _ => streamEnd_sounds x)

/-! ### Ramps that start (R483) -/

theorem mem_insertBy {α : Type} (f : α → Nat) (x y : α) (xs : List α) : y ∈ insertBy f x xs ↔ y = x ∨ y ∈ xs := by
  induction xs with
  | nil => simp [insertBy]
  | cons z zs ih =>
    rw [insertBy]
    split
    · simp
    · rw [List.mem_cons, ih, List.mem_cons]
      exact or_left_comm

theorem mem_sortBy {α : Type} (f : α → Nat) (y : α) (xs : List α) : y ∈ sortBy f xs ↔ y ∈ xs := by
  have hfold : ∀ acc, y ∈ xs.foldl (fun acc x => insertBy f x acc) acc ↔ y ∈ xs ∨ y ∈ acc := by
    induction xs with
    | nil => simp
    | cons x xs ih =>
      intro acc
      rw [List.foldl_cons, ih, mem_insertBy, List.mem_cons]
      tauto
  rw [sortBy, hfold]
  simp

/-- Every command of a route that waits, if it is there. -/
def State.routed (s : State) (id : Nat) : Prop := ∃ ws, (some id, ws) ∈ s.med.aud.routes ∧ (s.cmd? id).isSome = true

theorem State.routed.known {id : Nat} (h : s.routed id) : (s.cmd? id).isSome = true := h.elim fun _ h => h.2

/-- All of a list of commands end. -/
theorem cmdsEnd_sounds {f : Cmd → Cmd} (hf : ∀ c : Cmd, c.Goes (f c)) (ids : List Nat) : (each ids fun id => cmdEnd id f).Takes (s.Sounds k R E)
    (s.Sounds k R fun id => E id ∨ id ∈ ids ∧ (s.cmd? id).isSome = true) := by
  induction ids generalizing E with
  | nil => exact takes_skip.weaken (fun _ h => h) fun _ h => ⟨h.calm, h.counted, h.routes, h.known, fun id hid => h.ended id (hid.resolve_right fun h => nomatch h.1)⟩
  | cons j ids ih =>
    have hfirst : (cmdEnd j f).Takes (s.Sounds k R E) (s.Sounds k R fun id => E id ∨ id = j ∧ (s.cmd? id).isSome = true) := fun u hu => by
      refine ⟨(cmdEnd_sounds hf j u hu).1, ?_⟩
      obtain ⟨hcalm, hcounted, hroutes, hknown, hended⟩ := (cmdEnd_sounds hf j u hu).2
      refine ⟨hcalm, hcounted, hroutes, hknown, fun id hid => hid.elim (hended id) ?_⟩
      rintro ⟨rfl, hthere⟩
      exact ((cmdEnd_ends (s := u) (fun c => (hf c).1) (hu.known id hthere) u (onward_self u)).2).2
    refine (takes_acts_cons hfirst ih).weaken (fun _ h => h) fun u hu => ⟨hu.calm, hu.counted, hu.routes, hu.known, fun id hid => hu.ended id ?_⟩
    simp only [List.mem_cons] at hid
    tauto

/-- A change of audio that takes the routes keeps the commands that have ended. -/
theorem routesTaken_sounds (hu : s.Sounds k R E u) {f : Aud → Aud} (hn : ∀ a : Aud, (f a).n = a.n) (hr : ∀ a : Aud, (f a).routes = []) :
    (audUpd f).Takes (· = u) (s.Sounds k [] u.ends) :=
  (audUpd_sounds (s := s) (k := k) (R := R) (E := u.ends) (fun a h => (hn a).trans h) fun a _ => hr a).weaken
    (fun v hv => by
      rw [show v = u from hv]
      exact ⟨hu.calm, hu.counted, hu.routes, hu.known, fun _ h => h⟩) fun _ h => h

theorem routesStart_sounds : routesStart.Takes (s.Sounds k s.med.aud.routes fun _ => False) (s.Sounds k [] s.routed) := by
  refine takes_ask_at fun u hu => ?_
  have hend : ∀ ids : List Nat, (∀ id, s.routed id → u.ends id ∨ id ∈ ids) →
      (each ids fun id => cmdEnd id fun c => { c with unitsDone := 1000, detail := u.tts.bell % 2 ^ 32 }).Takes (s.Sounds k [] u.ends)
        (s.Sounds k [] s.routed) := fun ids hids =>
    (cmdsEnd_sounds (f := fun c => { c with unitsDone := 1000, detail := u.tts.bell % 2 ^ 32 }) (fun _ => ⟨rfl, rfl, rfl, rfl, fun h => h⟩) ids).weaken
      (fun _ h => h) fun t ht => ⟨ht.calm, ht.counted, ht.routes, ht.known, fun id hid => ht.ended id ((hids id hid).imp_right fun h => ⟨h, hid.known⟩)⟩
  refine takes_acts_cons (as := [each _ _]) (routesTaken_sounds hu (fun _ => rfl) fun _ => rfl) (hend _ ?_)
  rintro id ⟨ws, hmem, hthere⟩
  by_cases hended : u.ends id
  · exact .inl hended
  · obtain ⟨c, hc⟩ := Option.isSome_iff_exists.mp (hu.known id hthere)
    have hstage : c.stage ≠ .ended := fun h => hended ⟨c, hc, h⟩
    refine .inr (List.mem_filterMap.mpr ⟨(some id, ws), (mem_sortBy _ _ _).mpr (List.mem_filter.mpr ⟨hu.routes ▸ hmem, ?_⟩), rfl⟩)
    simp [hc, hstage]

/-- A block of samples (R476, R483). -/
theorem audioBlock_sounds (b : AudIo) (hrun : s.tts.running = true) (hup : s.engineUp 5 = true) (hc : s.calm) :
    s.Sounds (s.med.aud.n + b.n) [] s.routed (runAct (audioBlockOp b) s) := by
  have hon : (fun s : State => s.tts.running && s.engineUp 5) s = true := by simp [hrun, hup]
  rw [audioBlockOp, runAct_whenS, if_pos hon]
  refine (takes_acts_cons (nodeErrors_sounds _) (takes_acts_cons routesStart_sounds (takes_acts_cons streamsStop_sounds (takes_acts_cons (inputBlock_sounds _)
    (takes_acts_cons (takes_ask fun _ _ => takes_each fun _ _ => captureMove_sounds _ _) ?_)))) _ (sounds_self hc)).2
  refine takes_ask_at fun u hu => Act.Takes.weaken ?_ (fun v hv => (show v = u from hv) ▸ hu) fun _ h => h
  refine takes_acts_cons (takes_each fun r hr => ?_) (takes_acts_cons (audUpd_sounds (fun a h => congrArg (· + b.n) h) fun _ h => h)
    (takes_acts_cons (clockBlock_sounds _) (takes_acts_cons sinksPut_sounds (streamsDone_sounds _ _))))
  obtain ⟨x, -, rfl⟩ := List.mem_map.mp hr
  exact takes_acts_cons (playReads_sounds _ _ _ _) (streamMoved_sounds _ _ _)

end Sys2Proof.Machine
end

section
/-!
PROOFS. Audio (O54): routes that wait, frames of a TDM port, sources that are lost (R475, R483, R487, R495), and the obligation.
-/

namespace Sys2Proof.Machine

variable {s : State}

/-! ### Routes that wait (R483) -/

theorem routeOp_run {id : Nat} {c : Cmd} (hc : s.cmd? id = some c) (hop : c.op = 0x0600) (hstage : c.stage = .started)
    (hnew : (s.med.aud.routes.any fun r => r.1 = some id) = false) : runAct (routeOp id) s =
      { s with med := { s.med with aud := { s.med.aud with routes := s.med.aud.routes ++ [(some id, c.words)] } } } := by
  rw [routeOp, onCmd, runAct_ask, hc]
  dsimp only
  rw [runAct_actIf, if_pos (by simp [hop, hstage, hnew])]
  rfl

/-! ### Converters -/

/-- The state with other converters. -/
def State.withInputs (s : State) (m : List (Nat × AudIn)) : State := { s with med := { s.med with aud := { s.med.aud with inputs := m } } }

/-- The converters after each of a list of changes. -/
def inputsAfter (is : List Nat) (key : Nat → Nat) (f : Nat → AudIn → AudIn) (m : List (Nat × AudIn)) : List (Nat × AudIn) :=
  is.foldl (fun m i => mapPut audInNone (key i) (f i (mapGet audInNone (key i) m)) m) m

theorem inputsEach_run (is : List Nat) (key : Nat → Nat) (f : Nat → AudIn → AudIn) (s : State) :
    runAct (each is fun i => audInUpd (key i) (f i)) s = s.withInputs (inputsAfter is key f s.med.aud.inputs) := by
  induction is generalizing s with
  | nil => rfl
  | cons i is ih => exact (runAct_acts _ _ _).trans (ih _)

section
variable {is : List Nat} {key : Nat → Nat} {f : Nat → AudIn → AudIn} {m : List (Nat × AudIn)}

theorem inputsAfter_other {k : Nat} (hk : ∀ i ∈ is, k ≠ key i) : mapGet audInNone k (inputsAfter is key f m) = mapGet audInNone k m := by
  induction is generalizing m with
  | nil => rfl
  | cons j is ih =>
    exact (ih fun i hi => hk i (List.mem_cons_of_mem j hi)).trans (mapGet_put_ne audInNone (hk j List.mem_cons_self) _ _)

theorem inputsAfter_each (hkey : Function.Injective key) (hd : is.Nodup) (hm : mapWf audInNone m = true) {i : Nat} (hi : i ∈ is) :
    mapGet audInNone (key i) (inputsAfter is key f m) = f i (mapGet audInNone (key i) m) := by
  induction is generalizing m with
  | nil => cases hi
  | cons j is ih =>
    obtain ⟨hj, hd⟩ := List.nodup_cons.mp hd
    obtain rfl | hi := List.mem_cons.mp hi
    · have hlater : ∀ x ∈ is, key i ≠ key x := fun x hx h => hj (hkey h ▸ hx)
      exact (inputsAfter_other hlater).trans (mapGet_put_wf audInNone _ _ _ hm)
    · have hne : key i ≠ key j := fun h => hj (hkey h ▸ hi)
      refine (ih hd (mapWf_put audInNone _ _ _ hm) hi).trans (congrArg (f i) ?_)
      exact mapGet_put_ne audInNone hne _ _

end

/-! ### Frames of a port (R495) -/

theorem audTdmStatus_holds {p : Nat} (hp : p < 8) : nBits (regImpl (Reg.audTdmStatus p) % 2 ^ 64) 0 2 = 2 ^ 2 - 1
    ∧ nBits (regImpl (Reg.audTdmStatus p) % 2 ^ 64) 5 18 = 2 ^ 18 - 1 := by
  have h : ∀ p < 8, nBits (regImpl (Reg.audTdmStatus p) % 2 ^ 64) 0 2 = 2 ^ 2 - 1 ∧ nBits (regImpl (Reg.audTdmStatus p) % 2 ^ 64) 5 18 = 2 ^ 18 - 1 := by
    decide +kernel
  exact h p hp

theorem audTdmStatus_react {p : Nat} (hp : p < 8) : reactReg (Reg.audTdmStatus p) = false := by
  have h : ∀ p < 8, reactReg (Reg.audTdmStatus p) = false := by decide +kernel
  exact h p hp

theorem audTdmStatus_ne_audClk (p : Nat) : Reg.audTdmStatus p ≠ Reg.audClk := by
  unfold Reg.audTdmStatus Reg.audClk
  omega

/-- The state whose port runs at a rate; where the sample clock had lost this port it follows it again. -/
def State.framed (s : State) (p rate : Nat) : State :=
  let u := (s.putFld (Reg.audTdmStatus p) 0 2 1).putFld (Reg.audTdmStatus p) 5 18 (rate % 2 ^ 18)
  if s.med.aud.clkNow = 1 + p && s.bitAt Reg.audClk 5 then u.putFld Reg.audClk 4 2 1 else u

theorem framed_status (hw : s.wf = true) {p : Nat} (hp : p < 8) (rate : Nat) :
    (s.framed p rate).fld (Reg.audTdmStatus p) 0 2 = 1 ∧ (s.framed p rate).fld (Reg.audTdmStatus p) 5 18 = rate % 2 ^ 18 := by
  obtain ⟨hlock, hrate⟩ := audTdmStatus_holds hp
  have hw' := putFld_wf hw (Reg.audTdmStatus p) 0 2 1
  have hset : ∀ u : State, u.rd (Reg.audTdmStatus p) = ((s.putFld (Reg.audTdmStatus p) 0 2 1).putFld (Reg.audTdmStatus p) 5 18 (rate % 2 ^ 18)).rd
      (Reg.audTdmStatus p) → u.fld (Reg.audTdmStatus p) 0 2 = 1 ∧ u.fld (Reg.audTdmStatus p) 5 18 = rate % 2 ^ 18 := fun u hu => by
    rw [State.fld, State.fld, hu, ← State.fld, ← State.fld, fld_putFld_ne hw' (by decide) (by decide) hlock, fld_putFld hw (by decide) hlock,
      fld_putFld hw' (by decide) hrate, Nat.mod_mod]
    exact ⟨rfl, rfl⟩
  refine hset _ ?_
  unfold State.framed
  dsimp only
  split
  · exact rd_putFld_ne _ (audTdmStatus_ne_audClk p) _ _ _
  · rfl

/-- Input slots of a port. -/
def tdmInputs (set : List Word) : List Nat := (List.range (tdmSlots set)).filter fun i => fb set 0 (16 + i)

theorem tdmFrame_run {p : Nat} (hp : p < 8) (hrun : s.tts.running = true) (hon : fb (s.tdmSt p).set 0 0 = true) (rate : Nat) (slots : List Nat) :
    runAct (tdmFrameOp p rate slots) s = (s.framed p rate).withInputs (inputsAfter (tdmInputs (s.tdmSt p).set) (16 * p + ·)
      (fun i x => x.feed [intSmp (tdmWidth (s.tdmSt p).set) (slots.getD i 0 % 2 ^ tdmWidth (s.tdmSt p).set)]) s.med.aud.inputs) := by
  rw [tdmFrameOp, runAct_ask]
  dsimp only
  rw [if_neg (by simp [hrun, hon]), runAct_acts, setFld_run_left _ _ _ _ _ _ (audTdmStatus_react hp), runAct_acts,
    setFld_run_left _ _ _ _ _ _ (audTdmStatus_react hp), runAct_acts, runAct_actIf_left, setFld_run_left _ _ _ _ _ _ (by decide)]
  unfold State.framed
  dsimp only
  split <;> exact inputsEach_run _ _ _ _

theorem mem_tdmInputs {set : List Word} {i : Nat} : i ∈ tdmInputs set ↔ i < tdmSlots set ∧ fb set 0 (16 + i) = true := by
  rw [tdmInputs, List.mem_filter, List.mem_range]

/-- The converters of a port's input slots are fed, and no other. -/
theorem inputsAfter_frame {m : List (Nat × AudIn)} (hm : mapWf audInNone m = true) (p : Nat) (set : List Word) (g : Nat → List Nat) (k : Nat) :
    mapGet audInNone k (inputsAfter (tdmInputs set) (16 * p + ·) (fun i x => x.feed (g i)) m) =
      if 16 * p ≤ k ∧ k < 16 * p + tdmSlots set ∧ fb set 0 (16 + (k - 16 * p)) = true then (mapGet audInNone k m).feed (g (k - 16 * p))
      else mapGet audInNone k m := by
  split
  next h =>
    obtain ⟨hlow, hhigh, hin⟩ := h
    have hk : 16 * p + (k - 16 * p) = k := by omega
    have hfed := inputsAfter_each (f := fun i x => x.feed (g i)) (add_right_injective (16 * p)) (List.nodup_range.filter _) hm
      (mem_tdmInputs.mpr ⟨by omega, hin⟩ : k - 16 * p ∈ tdmInputs set)
    rwa [hk] at hfed
  next h =>
    refine inputsAfter_other fun i hi hk => h ?_
    obtain ⟨hlow, hin⟩ := mem_tdmInputs.mp hi
    have hi : k - 16 * p = i := by omega
    exact ⟨by omega, by omega, hi ▸ hin⟩

/-! ### A clock that is lost (R475) -/

/-- A reset of audio touches no register. -/
theorem audReset_foot : (blockReset stAud).Foot (In 0x80600) :=
  foot_mono (L := 0x80600) (by simp [blockReset, stAud, blockMemories]) rfl

theorem audRaise_reading {src off lo w v : Nat} (hsrc : src < 6) (ho : off < 0x400000) (hf : off ≠ Reg.fltPin) :
    (raise stAud src).Takes (State.Reading off lo w v) (State.Reading off lo w v) :=
  raiseSrc_takes (gravest_mid (by decide) (by omega)) (fun _ h => h.1) (fun _ ha => reading_low ha rfl rfl ho hf) fun _ _ _ _ =>
    reading_low audReset_foot rfl rfl ho hf

/-- The sample clock in holdover, and its port without a clock. -/
def State.clockLost (s : State) : State := (s.putFld Reg.audClk 4 2 2).putFld (Reg.audTdmStatus (s.med.aud.clkNow - 1)) 0 2 2

theorem tdmClockLost_run (hpos : 1 ≤ s.med.aud.clkNow) (hle : s.med.aud.clkNow ≤ 8) (hnew : s.bitAt Reg.audClk 5 = false) (hl : s.live) :
    exec .tdmClockLost s = .next (runAct (raise stAud 4) s.clockLost) := by
  refine (live_next hl rfl _).trans (congrArg _ ?_)
  rw [runAct_ask]
  dsimp only
  rw [runAct_actIf, if_pos (by simp [hnew]; omega), runAct_acts, setFld_run_left _ _ _ _ _ _ (by decide), runAct_acts,
    setFld_run_left _ _ _ _ _ _ (audTdmStatus_react (by omega)), acts_one]
  rfl

theorem putFld_calm {off : Nat} (h : reactReg off = false) (hc : s.calm) (lo w x : Nat) : (s.putFld off lo w x).calm := by
  rw [State.putFld, ← applyEff_csr h]
  exact calm_soft (e := .csr off _) rfl hc

theorem clockLost_awaits (hs : s.Sound) (hle : s.med.aud.clkNow ≤ 8) : s.Awaits stAud s.clockLost := by
  refine ⟨⟨putFld_calm (audTdmStatus_react (by omega)) (putFld_calm (by decide) hs.1 _ _ _) _ _ _,
    putFld_wf (putFld_wf hs.2 _ _ _ _) _ _ _ _⟩, rfl, fun off ho => ?_⟩
  have hpage := stationRegs_range ho
  refine (rd_putFld_ne _ ?_ _ _ _).trans (rd_putFld_ne _ ?_ _ _ _)
  · unfold Reg.audTdmStatus
    omega
  · unfold Reg.audClk
    omega

theorem clockLost_reads (hw : s.wf = true) (hle : s.med.aud.clkNow ≤ 8) :
    s.clockLost.fld Reg.audClk 4 2 = 2 ∧ s.clockLost.fld (Reg.audTdmStatus (s.med.aud.clkNow - 1)) 0 2 = 2 := by
  refine ⟨?_, fld_putFld (putFld_wf hw _ _ _ _) (by decide) (audTdmStatus_holds (by omega)).1 2⟩
  rw [State.clockLost, State.fld, rd_putFld_ne _ (audTdmStatus_ne_audClk _).symm]
  exact fld_putFld hw (by decide) (by decide +kernel) 2

/-! ### An input whose source stops (R487, R495) -/

theorem audIn_bit {i : Nat} (hi : i < 192) : (regImpl (Reg.audIn i) % 2 ^ 64).testBit 1 = true := by
  have h : ∀ i < 192, (regImpl (Reg.audIn i) % 2 ^ 64).testBit 1 = true := by decide +kernel
  exact h i hi

theorem audIn_react {i : Nat} (hi : i < 192) : reactReg (Reg.audIn i) = false := by
  have h : ∀ i < 192, reactReg (Reg.audIn i) = false := by decide +kernel
  exact h i hi

/-- The state whose input has lost its source. -/
def State.unlocked (s : State) (i : Nat) : State :=
  (s.withInputs (mapPut audInNone i { mapGet audInNone i s.med.aud.inputs with up := false } s.med.aud.inputs)).putFld (Reg.audIn i) 1 1 0

theorem audInputLost_run {i : Nat} (hl : s.live) (hi : i < 192) (hon : s.inputActive i = true) : exec (.audInputLost i) s =
    .next (if i < 128 ∧ fb (s.tdmSt (i / 16)).set 0 1 = true then (s.unlocked i).putFld (Reg.audTdmStatus (i / 16)) 0 2 2 else s.unlocked i) := by
  refine (live_next hl (decide_eq_true (by omega)) _).trans (congrArg _ ?_)
  rw [inputLost, runAct_ask, runAct_actIf, if_pos (by simp [hon, hi]), runAct_acts]
  refine (runAct_acts _ _ _).trans ?_
  rw [setFld_run_left _ _ _ _ _ _ (audIn_react hi), acts_one, runAct_actIf]
  by_cases hslave : i < 128 ∧ fb (s.tdmSt (i / 16)).set 0 1 = true
  · rw [if_pos hslave, if_pos (by simpa using hslave), setFld_run _ _ _ _ _ (audTdmStatus_react (by omega))]
    rfl
  · rw [if_neg hslave, if_neg (by simpa using hslave)]
    rfl

theorem withInputs_wf (hw : s.wf = true) (m : List (Nat × AudIn)) : (s.withInputs m).wf = true := hw

/-- What is shown of an input that has lost its source. -/
theorem unlocked_shows (hw : s.wf = true) {i : Nat} (hi : i < 192) (hm : mapWf audInNone s.med.aud.inputs = true) :
    mapGet audInNone i (s.unlocked i).med.aud.inputs = { mapGet audInNone i s.med.aud.inputs with up := false }
      ∧ (s.unlocked i).bitAt (Reg.audIn i) 1 = false
      ∧ ∀ k, k ≠ i → mapGet audInNone k (s.unlocked i).med.aud.inputs = mapGet audInNone k s.med.aud.inputs :=
  ⟨mapGet_put_wf audInNone _ _ _ hm, bitAt_putFld (withInputs_wf hw _) (by decide) (by decide) (by decide) (audIn_bit hi) 0,
    fun _ hk => mapGet_put_ne audInNone hk _ _⟩

/-! ### The obligation -/

/-- Settles O54: a block's parts keep what counts (`audioBlock_sounds`); the other commands run to states that are written out. -/
theorem audioBlocks : Obligations.AudioBlocks := by
  unfold Obligations.AudioBlocks
  refine ⟨fun s hl => ⟨fun id c hc hop hstage hnew => ?_, fun b hcalm hn hrun hup => ?_⟩, fun p rate slots s hl hw hp hrun hon hm => ?_,
    fun s hl hcalm hw => ⟨fun hpos hle hnew => ?_, fun i hi hon hm => ?_⟩⟩
  · exact (live_next hl rfl _).trans (congrArg _ (routeOp_run hc hop hstage hnew))
  · obtain ⟨-, hcounted, hroutes, -, hended⟩ := audioBlock_sounds b hrun hup hcalm
    exact ⟨_, live_next hl (decide_eq_true hn) _, hcounted, hroutes, fun id ws hmem hthere => hended id ⟨ws, hmem, hthere⟩⟩
  · obtain ⟨hlock, hrate⟩ := framed_status hw hp rate
    exact ⟨_, (live_next hl (decide_eq_true hp) _).trans (congrArg _ (tdmFrame_run hp hrun hon rate slots)), hlock, hrate, inputsAfter_frame hm p _ _⟩
  · obtain ⟨hclock, hport⟩ := clockLost_reads hw hle
    have hwait := clockLost_awaits ⟨hcalm, hw⟩ hle
    have hraise := ((audRaise_reading (src := 4) (by decide) (by decide) (by decide)).both
      ((audRaise_reading (src := 4) (by decide) (by unfold Reg.audTdmStatus; omega) (by unfold Reg.audTdmStatus Reg.fltPin; omega)).both
        (raiseSrc_logged (s := s) (st := stAud) (src := 4) (cell := 0) (seat := none) rfl rfl))).run
      ⟨⟨hwait.1.1, hclock⟩, ⟨hwait.1.1, hport⟩, hwait⟩
    obtain ⟨⟨-, hclock'⟩, ⟨-, hport'⟩, -, hlogs⟩ := hraise
    exact ⟨_, tdmClockLost_run hpos hle hnew hl, hclock', hport', hlogs⟩
  · obtain ⟨hup, hlock, hothers⟩ := unlocked_shows hw hi hm
    refine ⟨_, audInputLost_run hl hi hon, ?_⟩
    by_cases hslave : i < 128 ∧ fb (s.tdmSt (i / 16)).set 0 1 = true
    · rw [if_pos hslave]
      have hport : Reg.audIn i ≠ Reg.audTdmStatus (i / 16) := by
        unfold Reg.audIn Reg.audTdmStatus
        omega
      have hlock' := (congrArg (wBit · 1) (rd_putFld_ne (s.unlocked i) hport 0 2 2)).trans hlock
      exact ⟨hup, hlock', hothers, fun _ _ => fld_putFld (putFld_wf (withInputs_wf hw _) _ _ _ _) (by decide) (audTdmStatus_holds (by omega)).1 2⟩
    · rw [if_neg hslave]
      exact ⟨hup, hlock, hothers, fun hlow hset => absurd ⟨hlow, hset⟩ hslave⟩

end Sys2Proof.Machine
end
